-- ==== Sys2Proof/Word.lean ====
section
/-! DEFINITION. The byte and word types of the Sirpel model. Multi-byte fields are little-endian (R7); the
byte-order helpers themselves stand in Machine/Bits.lean. -/

namespace Sys2Proof

/-- One byte of a command, a completion, a frame or a memory. -/
abbrev Byte := BitVec 8

/-- A 32-bit register or FP32 word. -/
abbrev Word32 := BitVec 32

/-- A 64-bit register or pot word. -/
abbrev Word64 := BitVec 64

end Sys2Proof
end

