-- ==== Sys2Proof/Syntax.lean ====
section
/-! DEFINITION. The commands of the block: one constructor of `Instr` for each row of
spec/opcode_table.json, with the operands the spec's layouts give the row. Mailbox rows carry the fetched command
(Table 4.8); event rows carry what the outside world supplies at that event (a reading, a frame, a result). -/

namespace Sys2Proof

/-- Who issues a mailbox command: PCIe function k of tenant Tk (R11), or the out-of-band channel (R166). -/
inductive Issuer where
  | fn (k : Fin 128)
  | oob
  deriving DecidableEq, Repr

/-- A mailbox command after its opcode (Table 4.8): the issuing function, the fields of bytes 2 to 15 and the
48 parameter bytes. `hostIn` is what host memory returns when the command reads the list, image, token or data
that its parameters point to (R134, R507); it is empty for a command that reads no host memory. -/
structure Cmd where
  issuer : Issuer
  seq : BitVec 16
  flags : Byte
  tenant : BitVec 16
  tag : BitVec 64
  params : List Byte
  hostIn : List Byte
  deriving DecidableEq, Repr

/-- A read of BAR0: its offset, and its width in bits (R130). -/
structure RegRead where
  off : BitVec 16
  width : Nat
  deriving DecidableEq, Repr

/-- What comes to a die's period work: how many further units of a pour switch in it (R151), and the blocks whose counts
are missing (R27). -/
structure PeriodIn where
  units : Nat
  missing : List Nat
  deriving DecidableEq, Repr

/-- Which ring access of R140 failed. -/
inductive RingAccess where
  | fetch
  | completion
  | event
  | enable
  deriving DecidableEq, Repr

/-- What a PCIe configuration request asks (R110, R117, R119, R182): a read of TotalVFs or of another register, a BAR4
size, or VF Enable of the PF's SR-IOV capability. -/
inductive CfgReq where
  | read
  | totalVfs
  | setBar4 (log2GiB : Nat)
  | vfEnable (on : Bool)
  deriving DecidableEq, Repr

/-- What the flash's SFDP tables declare (R113, Table 4.10 FLASH_INFO). -/
structure Sfdp where
  jedec : BitVec 24
  sizeMiB : Nat
  quadMHz : Nat
  suspend : Bool
  blockEraseMs : Nat
  deriving DecidableEq, Repr

/-- The three speed grades, in rising order (R313, Table 5.8 byte 2). -/
inductive Grade where
  | g64
  | g80
  | g96
  deriving DecidableEq, Repr

/-- A stack's identification as the foot die reads it (R120 step 3, R121, R313), with its tRFC and tDRFM in ns (R223) and
its repair resources: spare data lanes of a pseudo-channel, spare command lanes of a channel, hard row repairs of a bank
(R286). -/
structure StackIdent where
  height : Nat
  gib : Nat
  metadataBits : Nat
  directed : Bool
  grades : List Grade
  trfc : Nat := 410
  tdrfm : Nat := 280
  spareLanes : Nat := 2
  spareCmd : Nat := 1
  hardRows : Nat := 4
  deriving DecidableEq, Repr

/-- The measured values of one calibration of one pseudo-channel, in the units of Table 11.3: codes and VREF in
steps, delays in 1/1024 UI, eyes in 1/1000 UI. -/
structure CalResult where
  driver : Int
  termination : Int
  stackOk : Bool
  readDelay : List Int
  writeDelay : List Int
  eye : List Nat
  vrefRead : Int
  vrefWrite : Int
  deriving DecidableEq, Repr

/-- What training of one stack found (R120, R121, R314, R315): its identification, the channels that still fail
after repair, the lanes repaired, the pseudo-channels whose warm retraining failed its check, and each
pseudo-channel's codes (index, result). -/
structure TrainResult where
  ident : StackIdent
  failed : List (Fin 32)
  repaired : List (Nat × Nat)
  implausible : List (Fin 64)
  codes : List (Nat × CalResult)
  deriving DecidableEq, Repr

/-- A PCIe AtomicOp's operation and operands (R379). -/
inductive AtomicOp where
  | fetchAdd (v : BitVec 64)
  | swap (v : BitVec 64)
  | cas (cmp new : BitVec 64)
  deriving DecidableEq, Repr

/-- Work that kettle admission debits (R42, R45). -/
inductive Work where
  | request (id : Nat)
  | tile (t : Fin 16)
  | infuser (n : Fin 8)
  | link (port : Option (Fin 4)) (bytes : Nat)
  deriving DecidableEq, Repr

/-- The read whose data arrives: a column read in flight, a read of the repair scrub (R291), or a read of an 8 B pot word in
which bits have gone bad (R264). -/
inductive ReadSrc where
  | flight (id : Nat)
  | scrub (sector : Nat)
  | potWord (word : Nat)
  deriving DecidableEq, Repr

/-- What waits on a scalded stack (R341). -/
inductive ScaldWait where
  | request (id : Nat)
  | descriptor (h : Fin 64) (i : Nat)
  | infuser (n : Fin 8)
  | command (issuer : Issuer) (seq : BitVec 16)
  deriving DecidableEq, Repr

/-- How a started infuser operation comes to its end, as the datapaths and the stack decide (R398, R403). -/
inductive InfuserEnd where
  | ran
  | compareFault (limb : Nat)
  | stackRetired
  | asleep
  deriving DecidableEq, Repr

/-- The twenty-four-byte and longer payloads of peer frames are carried as bytes; the header fields follow
Table 15.3. `src` and `dst` are the MAC addresses of the Ethernet header. -/
structure Frame where
  src : BitVec 48
  dst : BitVec 48
  collective : Bool
  first : Bool
  last : Bool
  seq : BitVec 24
  ack : BitVec 24
  window : BitVec 24
  srcTenant : BitVec 16
  dstTenant : BitVec 16
  opTag : BitVec 32
  collId : BitVec 32
  offset : BitVec 32
  addr : BitVec 64
  length : BitVec 32
  status : BitVec 16
  operation : Byte
  format : Byte
  poison : BitVec 128
  payload : List Byte
  deriving DecidableEq, Repr

/-- Why a received peer-port frame is discarded (R411, R412, R414, Table 15.4). -/
inductive BadFrame where
  | fcs
  | etherType
  | tag
  | length
  | destination
  | version
  | type
  | unknownSource
  deriving DecidableEq, Repr

/-- Instructions of the IEEE 1149.1 TAP (R480 to R482). -/
inductive TapInstr where
  | bypass
  | idcode
  | sample
  | extest
  | extestPulse
  | extestTrain
  | clamp
  | highz
  | privateInstr (code : Nat)
  deriving DecidableEq, Repr

/-- One command or event of the block. -/
inductive Instr where
  -- general and admin, 0x00xx
  | identify (c : Cmd)
  | capabilities (c : Cmd)
  | fwVersion (c : Cmd)
  | functionSteepPerm (c : Cmd)
  | functionGetPerm (c : Cmd)
  | warmReset (c : Cmd)
  | partitionReset (c : Cmd)
  | bootStatus (c : Cmd)
  -- configuration, 0x01xx
  | configPour (c : Cmd)
  | configDiscard (c : Cmd)
  | configStatus (c : Cmd)
  | configUndo (c : Cmd)
  | configDrain (c : Cmd)
  | configOpen (c : Cmd)
  | configStoreInfo (c : Cmd)
  -- partitions, 0x02xx
  | partitionSteepExtents (c : Cmd)
  | partitionSteepColour (c : Cmd)
  | partitionSteepPot (c : Cmd)
  | hashSteepMasks (c : Cmd)
  | regulatorSteep (c : Cmd)
  | partitionInfo (c : Cmd)
  | partitionRinse (c : Cmd)
  | rinseControl (c : Cmd)
  | addressTranslate (c : Cmd)
  | remapRead (c : Cmd)
  | regulatorStatus (c : Cmd)
  -- channels and QoS, 0x03xx
  | latencySteepTargets (c : Cmd)
  | latencyGetTargets (c : Cmd)
  | qosStatus (c : Cmd)
  | schedSteepPolicy (c : Cmd)
  | pcStatus (c : Cmd)
  | schedStatus (c : Cmd)
  -- refresh and low power, 0x04xx
  | refreshStatus (c : Cmd)
  | disturbSteepMode (c : Cmd)
  | disturbSteepLimits (c : Cmd)
  | disturbStatus (c : Cmd)
  | stackSleep (c : Cmd)
  | stackWake (c : Cmd)
  | dozeEnter (c : Cmd)
  | lowpowerStatus (c : Cmd)
  -- integrity and retirement, 0x05xx
  | integrityStatus (c : Cmd)
  | integritySteepPolicy (c : Cmd)
  | retirePending (c : Cmd)
  | retirePage (c : Cmd)
  | retireList (c : Cmd)
  | poisonInject (c : Cmd)
  -- repair and map-out, 0x06xx
  | repairStatus (c : Cmd)
  | repairRow (c : Cmd)
  | repairLane (c : Cmd)
  | mapoutChannel (c : Cmd)
  | foldStatus (c : Cmd)
  | foldTableRead (c : Cmd)
  -- calibration, 0x07xx
  | calStatus (c : Cmd)
  | calRefStatus (c : Cmd)
  | calStackSummary (c : Cmd)
  -- kettle, 0x08xx
  | kettleStatus (c : Cmd)
  | kettleSteepLimits (c : Cmd)
  | kettleGetLimits (c : Cmd)
  | kettleSteepTrim (c : Cmd)
  | kettleQuiesce (c : Cmd)
  | kettleJobTiming (c : Cmd)
  | kbSteepMaster (c : Cmd)
  | kbSendAdmin (c : Cmd)
  | kbChainInfo (c : Cmd)
  | pdStatus (c : Cmd)
  | pdSteepGate (c : Cmd)
  | vcoreStatus (c : Cmd)
  | vcoreSteepTarget (c : Cmd)
  -- thermal, 0x09xx
  | thermalStatus (c : Cmd)
  | hubThermalStatus (c : Cmd)
  | latenessStatus (c : Cmd)
  | thermalSteepAdvisory (c : Cmd)
  -- compute, 0x0Axx
  | brewStart (c : Cmd)
  | brewStatus (c : Cmd)
  | brewStop (c : Cmd)
  | tileStatus (c : Cmd)
  | tileSteepPolicy (c : Cmd)
  | potStatus (c : Cmd)
  -- infuser, 0x0Bxx
  | infuserStatus (c : Cmd)
  | infuserPrepare (c : Cmd)
  | infuseNtt (c : Cmd)
  | infuseIntt (c : Cmd)
  | infusePointwise (c : Cmd)
  | infuseAutomorph (c : Cmd)
  | infuseRescale (c : Cmd)
  | infuseBaseconv (c : Cmd)
  | infuseKeyswitch (c : Cmd)
  -- peer and twin, 0x0Cxx
  | peerStatus (c : Cmd)
  | peerSteepPort (c : Cmd)
  | peerSteepConn (c : Cmd)
  | peerSteepHandle (c : Cmd)
  | peerConnStatus (c : Cmd)
  | twinSteep (c : Cmd)
  | twinSteepPartition (c : Cmd)
  | twinStatus (c : Cmd)
  | peerOp (c : Cmd)
  | twinTakeover (c : Cmd)
  -- telemetry, 0x0Dxx
  | spoutSteep (c : Cmd)
  | spoutStatus (c : Cmd)
  | telemetrySnapshot (c : Cmd)
  | tenantDumpAttach (c : Cmd)
  | eventLogRead (c : Cmd)
  | eventLogClear (c : Cmd)
  -- test and debug, 0x0Exx
  | debugSteepMux (c : Cmd)
  | benchEnter (c : Cmd)
  | benchExit (c : Cmd)
  | exerStart (c : Cmd)
  | exerStop (c : Cmd)
  | exerStatus (c : Cmd)
  | exerCaptureRead (c : Cmd)
  | testNonce (c : Cmd)
  | testUnlock (c : Cmd)
  | testStackAccess (c : Cmd) (dataOut : List Byte)
  -- firmware and flash, 0x0Fxx
  | fwStatus (c : Cmd)
  | fwBankErase (c : Cmd)
  | fwBankWrite (c : Cmd)
  | fwBankActivate (c : Cmd)
  | fwBootNext (c : Cmd)
  | flashInfo (c : Cmd)
  -- BAR0 and the mailbox transport
  | mbxDoorbellWrite (k : Fin 128) (v : Word32)
  | mbxEnable (k : Fin 128) (on : Bool)
  | mbxEventsEnable (k : Fin 128) (on : Bool)
  | mbxReset (k : Fin 128)
  | intStatusClear (k : Fin 128) (v : Word32)
  | kettleFlagsClear (k : Fin 128) (v : Word32)
  | timebaseRead (k : Fin 128) (r : RegRead)
  | bar0RegisterWrite (k : Fin 128) (off : BitVec 16) (width : Nat) (v : Word64)
  | commandFetch (k : Fin 128) (slot hostIn : List Byte)
  | orderedCommandStart (issuer : Issuer) (seq : BitVec 16)
  | completionWrite (issuer : Issuer) (idx : Nat)
  | intCoalesceTimeout (k : Fin 128)
  | mbxResetDone (k : Fin 128)
  | ringAccessFault (k : Fin 128) (which : RingAccess)
  | hostAccessFault (op : BitVec 16) (c : Cmd) (write : Bool) (pagesDone : Nat)
  -- resets, supplies and boot
  | porNRise (straps : BitVec 6)
  | pgCoreRise
  | perstNLow
  | hostHotReset
  | warmResetDelayExpiry
  | functionLevelReset (k : Fin 128)
  | pgCoreFall
  | pgCoreTimeout
  | refclkLoss
  | vauxLoss
  | stackRailOutOfRange
  | avsbusRegulatorFault (rail : Fin 5)
  | hkpWatchdogExpiry
  | hkpReloadDone (ok : Bool)
  | configRequest (k : Fin 128) (tag : Nat) (req : CfgReq)
  | bootRomCheckDone (code : Nat) (sfdp : Option Sfdp)
  | bootImageLoaded (ok : Bool)
  | yareskStartDone (avs : Bool)
  | bootSteepDelayExpiry
  | stackTrainingDone (n : Fin 8) (r : TrainResult)
  | bootReady
  -- the brew period, the governor and the kettle bus
  | periodMark (sensors : List Int)
  | periodWork (die : Fin 9) (dur : Nat) (w : PeriodIn)
  | kbFrameReceived (bits : BitVec 64)
  | kbFrameReturn (bits : BitVec 64)
  | kbChainAcquire
  | kbMasterLoss
  | kbChainRejoin
  | kbChainOpen
  | kbAdminHoldEnd
  | jobStartRelease
  | vcoreStep (rail : Fin 5)
  | domainPowerOn (d : Fin 96)
  | domainPowerOff (d : Fin 96)
  | potClearDone (q : Fin 8)
  | kettleQuiesceTimeout
  | kbSendAdminTimeout
  -- host accesses and the sector path
  | bar4Read (k : Fin 128) (tag : Nat) (off : Nat) (len : Nat)
  | bar4Write (k : Fin 128) (off : Nat) (data : List Byte) (ep : Bool)
  | bar4Atomic (k : Fin 128) (tag : Nat)
  | bar2Read (k : Fin 128) (tag : Nat) (off : Nat) (len : Nat)
  | bar2Write (k : Fin 128) (off : Nat) (data : List Byte) (ep : Bool)
  | bar2Atomic (k : Fin 128) (tag : Nat) (off : Nat) (width : Nat) (op : AtomicOp)
  | regulatorAdmit (id : Nat)
  | kettleAdmit (w : Work)
  | queueEntry (id : Nat)
  | commandSlot (pc : Fin 512) (ready : List Nat) (exerReady cosyReady : Bool)
  | readDataReturn (src : ReadSrc) (flips : List (Nat × Byte))
  -- refresh, parity, calibration
  | refreshInstant (pc : Fin 512) (ready : List Nat)
  | parityAlert (ch : Fin 256)
  | calibrationDue (pc : Fin 512)
  | calibrationForced (pc : Fin 512)
  | calibrationEnd (pc : Fin 512) (r : CalResult)
  | rrefMeasurement (code : Nat)
  | offlineRetrainWindow (ch : Fin 256)
  | offlineRetrainEnd (ch : Fin 256) (failLanes : List (Nat × Nat)) (r0 r1 : CalResult)
  -- repair and map-out
  | laneRepairWindow (ch : Fin 256)
  | laneRepairEnd (ch : Fin 256) (ok : Bool)
  | repairScrubDone (pc : Fin 512)
  | rowRepairWindow (ch : Fin 256)
  | rowRepairEnd (ch : Fin 256) (ok : Bool)
  | mapoutWindowOpen (n : Fin 8)
  | mapoutReadTimeout (id : Nat)
  | mapoutWindowClose (n : Fin 8)
  | stackRetireWindow (n : Fin 8)
  | foldPrepDone (n : Fin 8) (extent : Nat)
  -- flash, pours, drains and rinses
  | flashProgramComplete (ok : Bool)
  | flashEraseComplete (store : Bool) (ok : Bool)
  | pourAccept
  | pourComplete
  | storeCompaction
  | drainComplete (t : Fin 128)
  | drainHoldTimeout (id : Nat)
  | configDrainTimeout (t : Fin 128)
  | partitionRinseTimeout (t : Fin 128)
  | rinseRecordRetry (t : Fin 128)
  | rinseColourRotate (t : Fin 128)
  | rinseComplete (t : Fin 128)
  | extentJoinDone (t : Fin 128) (n : Fin 8) (extent : Nat)
  -- heat and lateness
  | stackThermalSample (n : Fin 8) (readings : List Int)
  | scaldAbortTimeout (w : ScaldWait)
  | scaldExit (n : Fin 8)
  | hubThrottleStep
  | hubThrottleRecoveryStep
  | latenessAdvisory (n : Fin 8) (coll : Word32)
  -- self-refresh and doze
  | selfRefreshEntry (ch : Fin 256)
  | selfRefreshExit (ch : Fin 256)
  | selfRefreshExitDone (ch : Fin 256)
  | hostLinkL2
  | dozeL2Timeout
  -- compute and infuser engines
  | descriptorFetch (h : Fin 64)
  | descriptorStart (h : Fin 64)
  | descriptorComplete (h : Fin 64) (id : Nat)
  | waitSatisfied (h : Fin 64)
  | waitTimeoutExpiry (h : Fin 64)
  | infuserOpStart (n : Fin 8)
  | infuserOpComplete (n : Fin 8) (how : InfuserEnd)
  -- peer ports and twins
  | peerLinkUp (k : Fin 4)
  | peerLinkDown (k : Fin 4)
  | peerOpenRepeat (k : Fin 4) (conn : Fin 65)
  | peerRtoExpiry (k : Fin 4) (conn : Fin 65)
  | peerAckSend (k : Fin 4) (conn : Fin 65)
  | putFrame (k : Fin 4) (f : Frame)
  | getRequestFrame (k : Fin 4) (f : Frame)
  | getDataFrame (k : Fin 4) (f : Frame)
  | reducePutFrame (k : Fin 4) (f : Frame)
  | signalFrame (k : Fin 4) (f : Frame)
  | responseFrame (k : Fin 4) (f : Frame)
  | ackFrame (k : Fin 4) (f : Frame)
  | nakFrame (k : Fin 4) (f : Frame)
  | openFrame (k : Fin 4) (f : Frame)
  | openAckFrame (k : Fin 4) (f : Frame)
  | advisoryFrame (k : Fin 4) (f : Frame)
  | heartbeatFrame (k : Fin 4) (f : Frame)
  | mirrorFrame (k : Fin 4) (f : Frame)
  | copyFrame (k : Fin 4) (f : Frame)
  | stateFrame (k : Fin 4) (f : Frame)
  | handoverFrame (k : Fin 4) (f : Frame)
  | pauseFrame (k : Fin 4) (quanta : Nat) (classes : Option Byte)
  | twinHeartbeatMark
  | twinLagBoundExpiry (t : Fin 128)
  | twinBootWaitExpiry
  | twinTakeoverTimeout (t : Fin 128)
  | resyncComplete (t : Fin 128)
  -- telemetry and out of band
  | dumpMark (consumers : List (Nat × Nat))
  | spoutRingFault (ring : Option (Fin 128)) (fault : Fin 4)
  | mctpCommandMessage (message hostIn : List Byte)
  | mctpTelemetryCounters (first count : Nat)
  | mctpTelemetryLog (first : Word32) (count : Nat)
  | mctpTelemetrySpoutStatus
  | exerRunDone (n : Fin 8)
  | exerRestoreDone (n : Fin 8)
  -- returns, pins and test access
  | refclkReturn
  | vauxReturn
  | perstNRise
  | configSpaceLoaded
  | tapInstructionUpdate (op : TapInstr)
  | tapTestLogicReset
  | mctpSetEndpointId (eid : Byte)
  | smbusClockLowTimeout
  | badPeerFrame (k : Fin 4) (why : BadFrame)
  | pauseTimeExpiry (k : Fin 4)
  deriving DecidableEq, Repr

end Sys2Proof
end

