-- ==== Sys2Proof/WellFormed.lean ====
section
/-! DEFINITION. Which terms of `Instr` a sender of the spec can send: the sizes that Table 4.8, R199, R410 and
Table 15.2 fix. The meanings are total: they read a byte past the end of a short list as 0. -/

namespace Sys2Proof

/-- A fetched command has 48 parameter bytes (Table 4.8). -/
def Cmd.wellFormed (c : Cmd) : Bool := c.params.length == 48

/-- One PCIe access moves between 1 and 4096 bytes (PCIe; R182). -/
def lenOk (n : Nat) : Bool := 0 < n && n ≤ 4096

/-- A peer frame's payload is at most 4096 bytes (Table 15.2). -/
def Frame.wellFormed (f : Frame) : Bool := f.payload.length ≤ 4096

/-- The mailbox command carried by a mailbox row. -/
def Instr.cmd? : Instr → Option Cmd
  | .identify c | .capabilities c | .fwVersion c | .functionSteepPerm c | .functionGetPerm c | .warmReset c
  | .partitionReset c | .bootStatus c | .configPour c | .configDiscard c | .configStatus c | .configUndo c
  | .configDrain c | .configOpen c | .configStoreInfo c | .partitionSteepExtents c | .partitionSteepColour c
  | .partitionSteepPot c | .hashSteepMasks c | .regulatorSteep c | .partitionInfo c | .partitionRinse c
  | .rinseControl c | .addressTranslate c | .remapRead c | .regulatorStatus c | .latencySteepTargets c
  | .latencyGetTargets c | .qosStatus c | .schedSteepPolicy c | .pcStatus c | .schedStatus c | .refreshStatus c
  | .disturbSteepMode c | .disturbSteepLimits c | .disturbStatus c | .stackSleep c | .stackWake c | .dozeEnter c
  | .lowpowerStatus c | .integrityStatus c | .integritySteepPolicy c | .retirePending c | .retirePage c
  | .retireList c | .poisonInject c | .repairStatus c | .repairRow c | .repairLane c | .mapoutChannel c
  | .foldStatus c | .foldTableRead c | .calStatus c | .calRefStatus c | .calStackSummary c | .kettleStatus c
  | .kettleSteepLimits c | .kettleGetLimits c | .kettleSteepTrim c | .kettleQuiesce c | .kettleJobTiming c
  | .kbSteepMaster c | .kbSendAdmin c | .kbChainInfo c | .pdStatus c | .pdSteepGate c | .vcoreStatus c
  | .vcoreSteepTarget c | .thermalStatus c | .hubThermalStatus c | .latenessStatus c | .thermalSteepAdvisory c
  | .brewStart c | .brewStatus c | .brewStop c | .tileStatus c | .tileSteepPolicy c | .potStatus c
  | .infuserStatus c | .infuserPrepare c | .infuseNtt c | .infuseIntt c | .infusePointwise c | .infuseAutomorph c
  | .infuseRescale c | .infuseBaseconv c | .infuseKeyswitch c | .peerStatus c | .peerSteepPort c | .peerSteepConn c
  | .peerSteepHandle c | .peerConnStatus c | .twinSteep c | .twinSteepPartition c | .twinStatus c | .peerOp c
  | .twinTakeover c | .spoutSteep c | .spoutStatus c | .telemetrySnapshot c | .tenantDumpAttach c | .eventLogRead c
  | .eventLogClear c | .debugSteepMux c | .benchEnter c | .benchExit c | .exerStart c | .exerStop c | .exerStatus c
  | .exerCaptureRead c | .testNonce c | .testUnlock c | .testStackAccess c _ | .fwStatus c | .fwBankErase c
  | .fwBankWrite c | .fwBankActivate c | .fwBootNext c | .flashInfo c => some c
  | _ => none

/-- The frame carried by a peer-frame row. -/
def Instr.frame? : Instr → Option Frame
  | .putFrame _ f | .getRequestFrame _ f | .getDataFrame _ f | .reducePutFrame _ f | .signalFrame _ f
  | .responseFrame _ f | .ackFrame _ f | .nakFrame _ f | .openFrame _ f | .openAckFrame _ f | .advisoryFrame _ f
  | .heartbeatFrame _ f | .mirrorFrame _ f | .copyFrame _ f | .stateFrame _ f | .handoverFrame _ f => some f
  | _ => none

/-- The checks on the operands that are neither a mailbox command nor a frame. -/
def Instr.operandsOk : Instr → Bool
  | .bar4Read _ _ _ len | .bar2Read _ _ _ len => lenOk len
  | .bar4Write _ _ d _ | .bar2Write _ _ d _ => lenOk d.length
  | .commandFetch _ m _ | .mctpCommandMessage m _ => m.length == 64
  | .hostAccessFault _ c _ _ => c.wellFormed
  | .bar2Atomic _ _ _ w _ => w == 32 || w == 64 || w == 128
  | _ => true

/-- A term a sender of the spec can send. -/
def Instr.wellFormed (i : Instr) : Bool :=
  (match i.cmd? with
    | some c => c.wellFormed
    | none => true) &&
  (match i.frame? with
    | some f => f.wellFormed
    | none => true) &&
  i.operandsOk

end Sys2Proof
end

