-- ==== Sys2Proof/Decode.lean ====
section
/-! DEFINITION. What a word spells by the opcode table's bits. The table gives the block's commands no bits, so no
word spells a command. A mailbox slot is decoded by `slotOp` and `slotCmd` (Table 4.8) and `ofOpcode` (Table 20.2): that is
how COMMAND_FETCH and MCTP_COMMAND_MESSAGE come to a command. -/

namespace Sys2Proof

/-- The command that an nbits-bit word spells by the opcode table's bits: none, since no row has bits. -/
def decodeTableWord (_nbits _w : Nat) : Option Instr := none

/-- Byte i of a slot. -/
def slotByte (slot : List Byte) (i : Nat) : Byte := slot.getD i 0

/-- The 16-bit field at byte i of a slot, least significant byte first (R7). -/
def slotHalf (slot : List Byte) (i : Nat) : BitVec 16 := slotByte slot (i + 1) ++ slotByte slot i

/-- The tag of a slot: bytes 8 to 15. -/
def slotTag (slot : List Byte) : BitVec 64 :=
  slotHalf slot 14 ++ slotHalf slot 12 ++ slotHalf slot 10 ++ slotHalf slot 8

/-- The command that a 64 B slot of a command ring, or an out-of-band message, holds (Table 4.8). Reserved bits are
ignored (R8). -/
def slotCmd (issuer : Issuer) (slot hostIn : List Byte) : Cmd :=
  { issuer := issuer, seq := slotHalf slot 2, flags := slotByte slot 4, tenant := slotHalf slot 6, tag := slotTag slot,
    params := (List.range 48).map (fun i => slotByte slot (16 + i)), hostIn := hostIn }

/-- The opcode of a slot: bytes 0 to 1 (Table 4.8). -/
def slotOp (slot : List Byte) : BitVec 16 := slotHalf slot 0

/-- The row of the opcode table that a mailbox opcode names (Table 20.2); none for an undefined opcode (R505).
TEST_STACK_ACCESS carries the data that the stack's IEEE 1500 port returns, which the slot does not hold. -/
def ofOpcode (op : Nat) (c : Cmd) : Option Instr :=
  match op with
  | 0x0001 => some (.identify c)
  | 0x0002 => some (.capabilities c)
  | 0x0003 => some (.fwVersion c)
  | 0x0004 => some (.functionSteepPerm c)
  | 0x0005 => some (.functionGetPerm c)
  | 0x0040 => some (.warmReset c)
  | 0x0041 => some (.partitionReset c)
  | 0x0042 => some (.bootStatus c)
  | 0x0100 => some (.configPour c)
  | 0x0101 => some (.configDiscard c)
  | 0x0102 => some (.configStatus c)
  | 0x0103 => some (.configUndo c)
  | 0x0104 => some (.configDrain c)
  | 0x0105 => some (.configOpen c)
  | 0x0106 => some (.configStoreInfo c)
  | 0x0200 => some (.partitionSteepExtents c)
  | 0x0201 => some (.partitionSteepColour c)
  | 0x0202 => some (.partitionSteepPot c)
  | 0x0203 => some (.hashSteepMasks c)
  | 0x0204 => some (.regulatorSteep c)
  | 0x0205 => some (.partitionInfo c)
  | 0x0206 => some (.partitionRinse c)
  | 0x0207 => some (.rinseControl c)
  | 0x0208 => some (.addressTranslate c)
  | 0x0209 => some (.remapRead c)
  | 0x020A => some (.regulatorStatus c)
  | 0x0300 => some (.latencySteepTargets c)
  | 0x0301 => some (.latencyGetTargets c)
  | 0x0302 => some (.qosStatus c)
  | 0x0303 => some (.schedSteepPolicy c)
  | 0x0304 => some (.pcStatus c)
  | 0x0305 => some (.schedStatus c)
  | 0x0400 => some (.refreshStatus c)
  | 0x0401 => some (.disturbSteepMode c)
  | 0x0402 => some (.disturbSteepLimits c)
  | 0x0403 => some (.disturbStatus c)
  | 0x0404 => some (.stackSleep c)
  | 0x0405 => some (.stackWake c)
  | 0x0406 => some (.dozeEnter c)
  | 0x0407 => some (.lowpowerStatus c)
  | 0x0500 => some (.integrityStatus c)
  | 0x0501 => some (.integritySteepPolicy c)
  | 0x0502 => some (.retirePending c)
  | 0x0503 => some (.retirePage c)
  | 0x0504 => some (.retireList c)
  | 0x0505 => some (.poisonInject c)
  | 0x0600 => some (.repairStatus c)
  | 0x0601 => some (.repairRow c)
  | 0x0602 => some (.repairLane c)
  | 0x0603 => some (.mapoutChannel c)
  | 0x0604 => some (.foldStatus c)
  | 0x0605 => some (.foldTableRead c)
  | 0x0700 => some (.calStatus c)
  | 0x0701 => some (.calRefStatus c)
  | 0x0702 => some (.calStackSummary c)
  | 0x0800 => some (.kettleStatus c)
  | 0x0801 => some (.kettleSteepLimits c)
  | 0x0802 => some (.kettleGetLimits c)
  | 0x0803 => some (.kettleSteepTrim c)
  | 0x0804 => some (.kettleQuiesce c)
  | 0x0805 => some (.kettleJobTiming c)
  | 0x0806 => some (.kbSteepMaster c)
  | 0x0807 => some (.kbSendAdmin c)
  | 0x0808 => some (.kbChainInfo c)
  | 0x0809 => some (.pdStatus c)
  | 0x080A => some (.pdSteepGate c)
  | 0x080B => some (.vcoreStatus c)
  | 0x080C => some (.vcoreSteepTarget c)
  | 0x0900 => some (.thermalStatus c)
  | 0x0901 => some (.hubThermalStatus c)
  | 0x0902 => some (.latenessStatus c)
  | 0x0903 => some (.thermalSteepAdvisory c)
  | 0x0A00 => some (.brewStart c)
  | 0x0A01 => some (.brewStatus c)
  | 0x0A02 => some (.brewStop c)
  | 0x0A03 => some (.tileStatus c)
  | 0x0A04 => some (.tileSteepPolicy c)
  | 0x0A05 => some (.potStatus c)
  | 0x0B00 => some (.infuserStatus c)
  | 0x0B01 => some (.infuserPrepare c)
  | 0x0B02 => some (.infuseNtt c)
  | 0x0B03 => some (.infuseIntt c)
  | 0x0B04 => some (.infusePointwise c)
  | 0x0B05 => some (.infuseAutomorph c)
  | 0x0B06 => some (.infuseRescale c)
  | 0x0B07 => some (.infuseBaseconv c)
  | 0x0B08 => some (.infuseKeyswitch c)
  | 0x0C00 => some (.peerStatus c)
  | 0x0C01 => some (.peerSteepPort c)
  | 0x0C02 => some (.peerSteepConn c)
  | 0x0C03 => some (.peerSteepHandle c)
  | 0x0C04 => some (.peerConnStatus c)
  | 0x0C05 => some (.twinSteep c)
  | 0x0C06 => some (.twinSteepPartition c)
  | 0x0C07 => some (.twinStatus c)
  | 0x0C08 => some (.peerOp c)
  | 0x0C09 => some (.twinTakeover c)
  | 0x0D00 => some (.spoutSteep c)
  | 0x0D01 => some (.spoutStatus c)
  | 0x0D02 => some (.telemetrySnapshot c)
  | 0x0D03 => some (.tenantDumpAttach c)
  | 0x0D04 => some (.eventLogRead c)
  | 0x0D05 => some (.eventLogClear c)
  | 0x0E00 => some (.debugSteepMux c)
  | 0x0E01 => some (.benchEnter c)
  | 0x0E02 => some (.benchExit c)
  | 0x0E03 => some (.exerStart c)
  | 0x0E04 => some (.exerStop c)
  | 0x0E05 => some (.exerStatus c)
  | 0x0E06 => some (.exerCaptureRead c)
  | 0x0E07 => some (.testNonce c)
  | 0x0E08 => some (.testUnlock c)
  | 0x0E09 => some (.testStackAccess c [])
  | 0x0F00 => some (.fwStatus c)
  | 0x0F01 => some (.fwBankErase c)
  | 0x0F02 => some (.fwBankWrite c)
  | 0x0F03 => some (.fwBankActivate c)
  | 0x0F04 => some (.fwBootNext c)
  | 0x0F05 => some (.flashInfo c)
  | _ => none

/-- The mailbox opcode of a mailbox row (Table 20.2); none for an event row. -/
def opcodeOf : Instr → Option Nat
  | .identify _ => some 0x0001
  | .capabilities _ => some 0x0002
  | .fwVersion _ => some 0x0003
  | .functionSteepPerm _ => some 0x0004
  | .functionGetPerm _ => some 0x0005
  | .warmReset _ => some 0x0040
  | .partitionReset _ => some 0x0041
  | .bootStatus _ => some 0x0042
  | .configPour _ => some 0x0100
  | .configDiscard _ => some 0x0101
  | .configStatus _ => some 0x0102
  | .configUndo _ => some 0x0103
  | .configDrain _ => some 0x0104
  | .configOpen _ => some 0x0105
  | .configStoreInfo _ => some 0x0106
  | .partitionSteepExtents _ => some 0x0200
  | .partitionSteepColour _ => some 0x0201
  | .partitionSteepPot _ => some 0x0202
  | .hashSteepMasks _ => some 0x0203
  | .regulatorSteep _ => some 0x0204
  | .partitionInfo _ => some 0x0205
  | .partitionRinse _ => some 0x0206
  | .rinseControl _ => some 0x0207
  | .addressTranslate _ => some 0x0208
  | .remapRead _ => some 0x0209
  | .regulatorStatus _ => some 0x020A
  | .latencySteepTargets _ => some 0x0300
  | .latencyGetTargets _ => some 0x0301
  | .qosStatus _ => some 0x0302
  | .schedSteepPolicy _ => some 0x0303
  | .pcStatus _ => some 0x0304
  | .schedStatus _ => some 0x0305
  | .refreshStatus _ => some 0x0400
  | .disturbSteepMode _ => some 0x0401
  | .disturbSteepLimits _ => some 0x0402
  | .disturbStatus _ => some 0x0403
  | .stackSleep _ => some 0x0404
  | .stackWake _ => some 0x0405
  | .dozeEnter _ => some 0x0406
  | .lowpowerStatus _ => some 0x0407
  | .integrityStatus _ => some 0x0500
  | .integritySteepPolicy _ => some 0x0501
  | .retirePending _ => some 0x0502
  | .retirePage _ => some 0x0503
  | .retireList _ => some 0x0504
  | .poisonInject _ => some 0x0505
  | .repairStatus _ => some 0x0600
  | .repairRow _ => some 0x0601
  | .repairLane _ => some 0x0602
  | .mapoutChannel _ => some 0x0603
  | .foldStatus _ => some 0x0604
  | .foldTableRead _ => some 0x0605
  | .calStatus _ => some 0x0700
  | .calRefStatus _ => some 0x0701
  | .calStackSummary _ => some 0x0702
  | .kettleStatus _ => some 0x0800
  | .kettleSteepLimits _ => some 0x0801
  | .kettleGetLimits _ => some 0x0802
  | .kettleSteepTrim _ => some 0x0803
  | .kettleQuiesce _ => some 0x0804
  | .kettleJobTiming _ => some 0x0805
  | .kbSteepMaster _ => some 0x0806
  | .kbSendAdmin _ => some 0x0807
  | .kbChainInfo _ => some 0x0808
  | .pdStatus _ => some 0x0809
  | .pdSteepGate _ => some 0x080A
  | .vcoreStatus _ => some 0x080B
  | .vcoreSteepTarget _ => some 0x080C
  | .thermalStatus _ => some 0x0900
  | .hubThermalStatus _ => some 0x0901
  | .latenessStatus _ => some 0x0902
  | .thermalSteepAdvisory _ => some 0x0903
  | .brewStart _ => some 0x0A00
  | .brewStatus _ => some 0x0A01
  | .brewStop _ => some 0x0A02
  | .tileStatus _ => some 0x0A03
  | .tileSteepPolicy _ => some 0x0A04
  | .potStatus _ => some 0x0A05
  | .infuserStatus _ => some 0x0B00
  | .infuserPrepare _ => some 0x0B01
  | .infuseNtt _ => some 0x0B02
  | .infuseIntt _ => some 0x0B03
  | .infusePointwise _ => some 0x0B04
  | .infuseAutomorph _ => some 0x0B05
  | .infuseRescale _ => some 0x0B06
  | .infuseBaseconv _ => some 0x0B07
  | .infuseKeyswitch _ => some 0x0B08
  | .peerStatus _ => some 0x0C00
  | .peerSteepPort _ => some 0x0C01
  | .peerSteepConn _ => some 0x0C02
  | .peerSteepHandle _ => some 0x0C03
  | .peerConnStatus _ => some 0x0C04
  | .twinSteep _ => some 0x0C05
  | .twinSteepPartition _ => some 0x0C06
  | .twinStatus _ => some 0x0C07
  | .peerOp _ => some 0x0C08
  | .twinTakeover _ => some 0x0C09
  | .spoutSteep _ => some 0x0D00
  | .spoutStatus _ => some 0x0D01
  | .telemetrySnapshot _ => some 0x0D02
  | .tenantDumpAttach _ => some 0x0D03
  | .eventLogRead _ => some 0x0D04
  | .eventLogClear _ => some 0x0D05
  | .debugSteepMux _ => some 0x0E00
  | .benchEnter _ => some 0x0E01
  | .benchExit _ => some 0x0E02
  | .exerStart _ => some 0x0E03
  | .exerStop _ => some 0x0E04
  | .exerStatus _ => some 0x0E05
  | .exerCaptureRead _ => some 0x0E06
  | .testNonce _ => some 0x0E07
  | .testUnlock _ => some 0x0E08
  | .testStackAccess _ _ => some 0x0E09
  | .fwStatus _ => some 0x0F00
  | .fwBankErase _ => some 0x0F01
  | .fwBankWrite _ => some 0x0F02
  | .fwBankActivate _ => some 0x0F03
  | .fwBootNext _ => some 0x0F04
  | .flashInfo _ => some 0x0F05
  | _ => none

end Sys2Proof
end

