-- ==== Sys2Proof/Config.lean ====
section
/-! DEFINITION. What the spec leaves open: constants without a body, so that no proof can use a value of them. Each
is named in a log entry. -/

namespace Sys2Proof.Config

open Sys2Proof

/-- A fresh value for each use: the step applies it to a counter of the state, which it then raises. -/
opaque freeValue : Nat → Nat

/-- The cosy power the device can run in a period (R50 names it and gives no formula), from a fresh counter. -/
opaque cosyCapacity : Nat → Nat

/-- How many 256 B pages a store record of so many entries takes (R161 gives no entry format). -/
opaque recordPages : Nat → Nat

/-- Which of several results the spec allows equally an arithmetic unit gives. -/
opaque pick : List (BitVec 32) → Nat

/-- What the fixed tree of R358 makes of three or more group sums. -/
opaque combineTree : List (BitVec 32) → BitVec 32

/-- What the tree of R358 makes of INT32 group sums that could saturate on some way through it. -/
opaque intTree : List Int → Int

/-- FP32 results whose rounding the spec does not give (the pooled sums, softmax, norms, exp, tanh and what uses them):
an operator number and its operands. -/
opaque vecEval : Nat → List (BitVec 32) → BitVec 32

/-- By how many ulps, modulo 5 and less 2, a reciprocal or reciprocal square root differs from the exact result (R357
bounds it by 2). -/
opaque ulpOff : Nat → BitVec 32 → Nat

/-- Sign and mantissa bits of a NaN result of a format code. -/
opaque nanBits : Nat → Nat

/-- What a NaN becomes in an integer format code. -/
opaque nanInt : Nat → Nat

/-- Vector element operations that an operator needs for so many elements, where R353 gives no count. -/
opaque vectorOps : Nat → Nat → Nat

/-- Whether a 144 B unlock token's signature verifies against the unlock key (R484; the key is not in the spec). -/
opaque unlockSignatureOk : List Byte → Bool

/-- Whether a firmware image's signature verifies against the keys of the fuses (R113; the keys are not in the spec). -/
opaque imageSignatureOk : List Byte → Bool

end Sys2Proof.Config
end

