-- ==== Sys2Proof/Machine/State.lean ====
section
/-! DEFINITION. The state of the block as plain data: every register, buffer, counter, mode and pin the spec gives
the Sirpel, its stored contents (HBM, pot, flash), the work in flight, what it has sent to the outside, and the queue
of commands that are waiting. A field's default value is its value in `State.reset`, but for `Boot.enRise`. -/

namespace Sys2Proof.Machine

open Sys2Proof

/-- A sparse array: index and value pairs, indices strictly rising; an index that is not listed holds the reading
function's default. -/
abbrev Table (α : Type) := List (Nat × α)

/-! ## Outside world: what the block has sent -/

/-- How a PCIe request ends (R182, R183, R262). -/
inductive TlpStatus where
  | success
  | unsupported
  | completerAbort
  | retry
  deriving DecidableEq, Repr

/-- What the block sends out of itself: PCIe completions and writes, interrupts, peer frames (their fields, and the bytes on
the wire: R7, R412) and kettle-bus frames,
MCTP responses (SMBus address, message type and kind: R166), AVSBus transfers by bus and rail select (R86), and pin changes. -/
inductive Out where
  | tlp (k : Nat) (tag : Nat) (status : TlpStatus) (ep : Bool) (data : List Byte)
  | aer (k : Nat) (status : TlpStatus)
  | ringWrite (k : Nat) (addr : Nat) (bytes : List Byte)
  | hostWrite (k : Nat) (addr : Nat) (bytes : List Byte)
  | hostUndefined (k : Nat) (addr : Nat) (len : Nat)
  | msix (k : Nat) (vector : Nat)
  | regRead (k : Nat) (v : BitVec 64)
  | peer (port : Nat) (type : Nat) (f : Frame) (wire : List Byte)
  | kbOut (bits : BitVec 64)
  | mctp (addr msgType kind : Nat) (bytes : List Byte)
  | avsWrite (bus : Nat) (sel : Nat) (mv : Nat)
  | avsRead (bus : Nat) (sel : Nat)
  | avsStatus (bus : Nat) (sel : Nat)
  | smbusRelease
  deriving DecidableEq, Repr

/-! ## Identity, pins, time and boot -/

/-- What is fixed in one device: variant, serial number, boot ROM version and the grades its fuses allow. -/
structure Ident where
  big : Bool := true
  serial : BitVec 64 := 0
  romVersion : BitVec 32 := 0
  fuseGrades : List Grade := [.g64, .g80, .g96]
  vfs : Nat := 127
  deriving DecidableEq, Repr

/-- State of the PCIe host link. -/
inductive HostLink where
  | down
  | up
  | l2
  deriving DecidableEq, Repr

/-- Straps, supply and alert pins, and the latched fault bits of PD_STATUS (R96, R98, R101, R103, R345, R502). -/
structure Pins where
  straps : BitVec 6 := 0
  perstN : Bool := false
  pgCore : Bool := false
  enCore : Bool := true
  refclk : Bool := true
  vaux : Bool := true
  hostLink : HostLink := .down
  devAlert : Bool := false
  alertSeq : Nat := 0
  thermTrip : Bool := false
  refclkFault : Bool := false
  rrefFault : Bool := false
  eid : Byte := 0
  deriving DecidableEq, Repr

/-- The timebase in ticks and the number of the last brew-period mark carried out (R9, R24). -/
structure Clock where
  timebase : Nat := 0
  mark : Nat := 0
  deriving DecidableEq, Repr

/-- DEV_STATUS stages (Table 4.7). -/
inductive Stage where
  | romCheck
  | romLoad
  | yaresk
  | steepDelay
  | training
  | ready
  | recovery
  | stopped
  | warm
  deriving DecidableEq, Repr

/-- Why the device waits for a reset with nothing in flight (R96, R103, R345). -/
inductive Halt where
  | none
  | coreLost
  | refclkLost
  | tripped
  deriving DecidableEq, Repr

/-- Boot progress and the durations BOOT_STATUS reports (R106 to R123). `enRise` is when EN_CORE rose while PG_CORE is
still awaited (R96); `afterTrip` that the boot follows a hub trip (R345); `warmAsked` that a WARM_RESET waits for its
completion to be written (R143); `vfEnable` is VF Enable of the SR-IOV capability (R110); `lastFetch` the function whose
command was fetched last (R137). -/
structure Boot where
  stage : Stage := .romCheck
  ready : Bool := false
  halt : Halt := .none
  warmKind : Bool := false
  lastReset : Nat := 0
  bootedBank : Nat := 0
  byNext : Bool := false
  triedBanks : List Nat := []
  romStart : Nat := 0
  romUs : Nat := 0
  bootUs : Nat := 0
  hkpRestarts : Nat := 0
  hkpReloading : Bool := false
  warmResets : Nat := 0
  warmResetAt : Option Nat := none
  warmAsked : Bool := false
  vfEnable : Bool := false
  lastFetch : Nat := 127
  steepUntil : Option Nat := none
  cfgLoaded : Bool := false
  noStacks : Bool := false
  enRise : Option Nat := none
  afterTrip : Bool := false
  grade : Option Grade := none
  nextStack : Nat := 0
  deriving DecidableEq, Repr

/-! ## Flash -/

/-- The fields of page 0 of a bank header that an activation chooses (Table 4.4). -/
structure BankHeader where
  generation : Nat
  length : Nat
  crc : BitVec 32
  release : BitVec 32
  deriving DecidableEq, Repr

/-- One firmware bank: the bytes of page 0 of its header sector (none listed while it is erased), the trial and confirm
words (true when programmed to 0), whether an erase has completed since the last reset, the image bytes programmed since
by bank offset (an unlisted byte is erased), with the pages already written, and whether the image that the header names
verifies, its CRC and its signature, as it stands (R115). -/
structure Bank where
  page0 : List Byte := []
  trial : Bool := false
  confirm : Bool := false
  erasedOk : Bool := false
  image : List Host.Cell := []
  pages : List Nat := []
  imageOk : Bool := true
  deriving DecidableEq, Repr

/-- An entry of the retired-page store (Table 9.10), without the CRC that covers it. -/
structure RetEntry where
  pc : Nat
  bank : Nat
  cause : Nat
  row : Nat
  timebase : Nat
  crcOk : Bool := true
  deriving DecidableEq, Repr

/-- A row repair that is recorded in the configuration store (R287). -/
structure RowRec where
  pc : Nat
  bank : Nat
  row : Nat
  deriving DecidableEq, Repr

/-- A flash write that a command or procedure waits for (R129). -/
inductive FlashJob where
  | pourRecord
  | retirePage (c : Cmd) (n : Nat) (e : RetEntry)
  | rinseRecord (t : Nat) (colour : BitVec 8)
  | rinseProgress (t : Nat) (n x : Nat)
  | mapout (n : Nat) (ch : Nat)
  | stackRetire (n : Nat)
  | laneRepair (ch : Nat) (pc : Nat) (lane : Nat)
  | rowRepair (ch : Nat) (r : RowRec) (hard : Bool)
  | rowCancel (r : RowRec)
  | epoch (t : Nat)
  | freshStore
  | bootNext (c : Cmd) (sel : Option Nat)
  | bankWrite (c : Cmd) (bank : Nat) (off : Nat) (data : List Byte)
  | bankActivate (c : Cmd) (bank : Nat) (h : BankHeader)
  deriving DecidableEq, Repr

/-- The bank erase that runs (R124): unit 0 is the 4 KiB header sector, units 1 to 256 the rest of the bank's 64 KiB
blocks in order; `unit` is the one being erased. A flash that cannot suspend stands between two units, `between`, while a
write is waited for (R125). -/
structure BankErase where
  bank : Nat
  cmd : Cmd
  unit : Nat := 0
  between : Bool := false
  deriving DecidableEq, Repr

/-- A record of the configuration store (R161): the pour serial, the entries, and whether its magic and CRC verify. A
record of a device-owned item lists no entries. -/
structure StoreRec where
  serial : BitVec 32 := 0
  entries : Table (List Nat) := []
  ok : Bool := true
  deriving DecidableEq, Repr

/-- One half of the store (R161, Table 5.5): whether its magic, header CRC and snapshot CRC verify, its generation, its
snapshot and its records in order. -/
structure StoreHalf where
  ok : Bool := false
  generation : Nat := 0
  snapshot : Table (List Nat) := []
  recs : List StoreRec := []
  deriving DecidableEq, Repr

/-- The configuration store (R160 to R163): its halves, the active one and its free bytes; every persisted item as the
device holds it (keyed as staged entries are), which a compaction snapshots; and the device-owned items (mapped-out lists,
retired stacks, repairs, twin epochs). -/
structure Store where
  half0 : StoreHalf := {}
  half1 : StoreHalf := {}
  half : Nat := 0
  freeBytes : Nat := 0x7F000
  compacting : Bool := false
  items : Table (List Nat) := []
  retiredStacks : List Nat := []
  mapped : Table (List Nat) := []
  laneRecs : List (Nat × Nat) := []
  rowRecs : List RowRec := []
  epochs : Table Nat := []
  deriving DecidableEq, Repr

/-- The active half, and the store's state as CONFIG_STORE_INFO shows it. -/
def Store.active (st : Store) : StoreHalf := if st.half = 0 then st.half0 else st.half1
def Store.valid (st : Store) : Bool := st.active.ok
def Store.generation (st : Store) : Nat := st.active.generation
def Store.records (st : Store) : Nat := st.active.recs.length

/-- Page 0 of bank A's header at reset (DESIGN CHOICE, log entry 5): generation 1, a 4096-byte image, release 4.0. -/
def firstHeader : List Byte :=
  [0x59, 0x52, 0x53, 0x4b, 0x01, 0x00, 0x00, 0x00, 0x01, 0x00, 0x00, 0x00, 0x00, 0x10, 0x00, 0x00, 0x0a,
   0x67, 0x54, 0xf1, 0x00, 0x00, 0x00, 0x04, 0x00, 0x00, 0x00, 0x00, 0x00, 0x00, 0x00, 0x00, 0x5d, 0x6c,
   0xa5, 0xd4] ++ List.replicate 220 0

/-- The external flash as the device knows it. -/
structure Flash where
  answers : Bool := true
  sfdp : Option Sfdp := none
  bankA : Bank := {
    page0 := firstHeader
    trial := true
    confirm := true }
  bankB : Bank := {}
  bootNext : Option Nat := none
  erase : Option BankErase := none
  bankBusy : Bool := false
  jobs : List FlashJob := []
  store : Store := {}
  retired : Table (List RetEntry) := []
  mirror : Table (BitVec 8) := []
  mirrorDone : Table (List (Nat × Nat)) := []
  deriving DecidableEq, Repr

/-! ## BAR0, mailboxes and commands in flight -/

/-- The BAR0 registers, mailbox and MSI-X state of one function (Tables 4.6 and 4.7). -/
structure Fn where
  cmdBase : BitVec 64 := 0
  cplBase : BitVec 64 := 0
  evtBase : BitVec 64 := 0
  enabled : Bool := false
  events : Bool := false
  fault : BitVec 8 := 0
  resetBusy : Bool := false
  stopped : Bool := false
  doorbell : BitVec 16 := 0
  cmdHead : BitVec 16 := 0
  cplTail : BitVec 16 := 0
  cplHead : BitVec 16 := 0
  evtTail : BitVec 16 := 0
  evtHead : BitVec 16 := 0
  expect : BitVec 16 := 0
  intStatus : BitVec 6 := 0
  intEnable : BitVec 6 := 0
  coalesceUs : BitVec 16 := 0
  coalesceCount : BitVec 8 := 1
  unsignalled : Nat := 0
  oldestAt : Option Nat := none
  evtLost : BitVec 32 := 0
  heldEvents : List (List Byte) := []
  tbLatch : Option (BitVec 32) := none
  debtMax : BitVec 32 := 0
  msix : Table (BitVec 32) := []
  msixPending : BitVec 8 := 0
  bar4Log2 : Option Nat := none
  slewSeen : Nat := 0
  tokenSeen : Table Nat := []
  deriving DecidableEq, Repr

/-- A command that holds an execution place (R137): fetched, started (and since when it executes) or waiting for order, and, once finished, the
status and result its completion will carry. -/
structure Exec where
  op : BitVec 16
  cmd : Cmd
  started : Bool := true
  since : Nat := 0
  discard : Bool := false
  done : Option (BitVec 16 × List Byte) := none
  deriving DecidableEq, Repr

/-! ## Configuration -/

/-- A pour request that waits for its turn (R148). -/
structure PourReq where
  cmd : Cmd
  persist : Bool
  reopen : Bool
  deriving DecidableEq, Repr

/-- The pour being applied: its entries, the values they replace, the set as it was staged with its persist choice,
whether its store record is written, and which classes have switched (R148 to R154). -/
structure Pour where
  req : PourReq
  serial : BitVec 32
  entries : Table (List Nat)
  old : Table (List Nat)
  set : Table (List Nat) := []
  setPersist : Bool := false
  prevFn : BitVec 32 := 0
  prevState : Nat := 0
  recordPending : Bool := false
  acceptMark : Nat := 0
  classDDone : Bool := false
  hubDone : Bool := false
  unitsLeft : List Nat := []
  switched : Nat := 0
  deriving DecidableEq, Repr

/-- Staged and in-force configuration (R144 to R164). Entries are keyed opcode * 2^24 + field index * 2^16 +
instance number, which is the order of R149. Area k is function k's, area 128 the out-of-band channel's. -/
structure Cfg where
  inForce : Table (List Nat) := []
  areas : Table (Table (List Nat)) := []
  areaPersist : Table Bool := []
  undo : Table (Table (List Nat)) := []
  undoPersist : Table Bool := []
  serial : BitVec 32 := 0
  lastState : Nat := 0
  lastCompleted : BitVec 32 := 0
  fnSerial : Table (BitVec 32) := []
  waiting : List PourReq := []
  pour : Option Pour := none
  heavy : Table Nat := []
  deriving DecidableEq, Repr

/-! ## Partitions -/

/-- Progress of a rinse (R187). -/
inductive RinsePhase where
  | draining
  | recording
  | running
  deriving DecidableEq, Repr

/-- A rinse of one partition. `cmds` are the PARTITION_RINSE commands that still wait for the colour, with their
deadlines; `failedMark` is the mark at which the last write of its record failed. -/
structure Rinse where
  phase : RinsePhase
  cmds : List (Cmd × Nat) := []
  recorded : Bool := false
  failedMark : Option Nat := none
  deriving DecidableEq, Repr

/-- Integrity counts of one pseudo-channel (R285), or the outcomes of one tenant's reads (R260). -/
structure Integrity where
  corrected : Nat := 0
  uncorrectable : Nat := 0
  mismatch : Nat := 0
  poison : Nat := 0
  writeOver : Nat := 0
  alertsRead : Nat := 0
  retrainRead : Nat := 0
  deriving DecidableEq, Repr

/-- The dynamic state of one tenant's partition; its extents, grains and colour are configuration in force. `suspended` is
RINSE_CONTROL's; `rinsed` are the extents that the rinse has written, and `cursor` gives for a stack the extent that its foot
die writes, by a rinse or a join, with the sectors written in it (R187, R189); `integ` counts the outcomes of the tenant's
reads (R260). -/
structure Part where
  closed : Bool := false
  closedAt : Nat := 0
  drained : Bool := false
  drainCmds : List (Cmd × Nat) := []
  rinse : Option Rinse := none
  incomplete : Bool := false
  suspended : Bool := false
  rinsed : List (Nat × Nat) := []
  cursor : Table (Nat × Nat) := []
  joining : List (Nat × Nat) := []
  offline : List (Nat × Nat) := []
  heldEnded : Nat := 0
  addrEvents : Nat := 0
  loggedKinds : List Nat := []
  integ : Integrity := {}
  deriving DecidableEq, Repr

/-! ## Memory -/

/-- A whole range of a stack written by the device with zeros, or with poison, under one colour (R172, R187, R189,
R296): the row blocks `lo` to `hi` as they map when `mapped` is the stack's mapped-out list. -/
structure Fill where
  stack : Nat
  lo : Nat
  hi : Nat
  mapped : List Nat
  colour : BitVec 8
  poison : Bool
  deriving DecidableEq, Repr

/-- Stored bytes of HBM: listed cells, and the device's own whole-range writes, newest first, which say what the
bytes that are not listed hold. A cell's address is its physical sector number times 64 plus the byte's place in
the stored sector (0 to 31 data, 32 to 35 check bytes). -/
structure Memory where
  cells : List Host.Cell := []
  fills : List Fill := []
  deriving DecidableEq, Repr

/-- The pot: its bytes by pot offset (unlisted bytes are zero), the flagged 32 B blocks, the slice pairs being
cleared, and the counts of POT_STATUS by slice (R264, R376 to R381). -/
structure Pot where
  cells : List Host.Cell := []
  flagged : List Nat := []
  clearing : List Nat := []
  corrected : Table Nat := []
  flagsSet : Table Nat := []
  atomics : Table Nat := []
  deriving DecidableEq, Repr

/-! ## Requests on the sector path -/

/-- Where a request stands (R200 to R203): held by a closed partition, at the hub's ingress while the store of its foot die
is full (R201), at one of the three gates, in its queue, or withdrawn by a map-out window. -/
inductive ReqPlace where
  | held
  | stem
  | regulator
  | kettle
  | gate
  | queued
  | window
  deriving DecidableEq, Repr

/-- Whose access it is: the host's, the fetch of a brew list's next descriptor, a descriptor's, an infuser's, a received
peer frame's, a mailbox command's, or a resync's. -/
inductive Owner where
  | host
  | fetch (h : Nat)
  | desc (h : Nat) (id : Nat)
  | infuser (n : Nat)
  | frame (id : Nat)
  | command (op : Nat) (c : Cmd)
  | resync (t : Nat)
  deriving DecidableEq, Repr

/-- What a request is for: a user access to HBM, the read half of a narrow write, a write-back, or a user access to the
pot. -/
inductive ReqKind where
  | host
  | readHalf
  | writeBack
  | pot
  deriving DecidableEq, Repr

/-- One request to a pseudo-channel (R199): its access, tenant, port, place, physical target, the sectors still to be
issued and those it touches, the line's write data, the bytes it asks for or writes, and its stamp and target (R208). A read
half names the write it serves as its parent; a write that waits for one is `rmw`, `status` is what Table 9.5 gives it, and it
lists the accesses that joined it, a sector each, with the port, stamp and target of every request that joined whole (R215).
An `exempt` request takes no tokens (R435, R438). `atomic` and `reduce` are the pot's atomics: an AtomicOp with its width, or
the operation, source format and pot format of a vector reduction. -/
structure Req where
  id : Nat
  access : Nat
  kind : ReqKind := .host
  place : ReqPlace
  tenant : Nat
  port : Nat
  write : Bool
  ta : Nat
  stack : Nat
  offset : Nat
  pc : Nat
  bank : Nat
  row : Nat
  line : Nat
  mask : Nat
  touch : Nat := 0
  data : List Byte := []
  byteMask : List Bool := []
  poison : Bool := false
  poisonMask : Nat := 0
  collective : Option (BitVec 32) := none
  stamp : Nat := 0
  target : Nat := 0
  spare : Bool := false
  seq : Nat := 0
  parent : Nat := 0
  rmw : Bool := false
  status : Nat := 0
  joined : List Nat := []
  joinedQos : List (Nat × Nat × Nat) := []
  exempt : Bool := false
  arrived : Nat := 0
  atomic : Option (AtomicOp × Nat) := none
  reduce : Option (Nat × Nat × Nat) := none
  deriving DecidableEq, Repr

/-- Who waits for the data of a read that has been issued to DRAM. -/
inductive FlightKind where
  | host
  | readHalf
  | cosy
  | exerciser
  deriving DecidableEq, Repr

/-- One sector read in flight: the stored sector as it was when the column command was issued. -/
structure Flight where
  id : Nat
  req : Nat
  kind : FlightKind
  access : Nat := 0
  tenant : Nat := 0
  port : Nat := 0
  sector : Nat
  colour : BitVec 8
  stored : List Byte
  ta : Nat := 0
  expect : List Byte := []
  also : List Nat := []
  stamp : Nat := 0
  target : Nat := 0
  deriving DecidableEq, Repr

/-- An access whose requests are not all complete, or whose owner has not taken its result yet: its tenant (for the host,
the function), its BAR offset, length and window stride (0 for the pot) or, for an engine, its tenant address, what a read has
gathered so far, by 32 B unit with its data and whether it failed (R262), the sectors left, the status it ended with before
its effect was complete (0 for none), and the worst outcome of its writes (Table 9.5: 0 OK, 1 corrected, 2 over poison or an
atomic on a flagged block). -/
structure Access where
  id : Nat
  owner : Owner := .host
  fn : Nat
  tag : Nat := 0
  write : Bool
  start : Nat
  len : Nat
  stride : Nat := 0
  got : List (Nat × List Byte × Bool) := []
  left : Nat
  status : Nat := 0
  worst : Nat := 0
  deriving DecidableEq, Repr

/-- The sector path of all foot dies. -/
structure Path where
  reqs : List Req := []
  flights : List Flight := []
  accesses : List Access := []
  nextId : Nat := 0
  nextSeq : Nat := 0
  deriving DecidableEq, Repr

/-- Tokens of one regulator and how often a request has waited at it (R194, Table 6.9). -/
structure Bucket where
  tokens : Nat := 0
  waits : Nat := 0
  waited : Bool := false
  deriving DecidableEq, Repr

/-- QoS counts of one tenant, port and stack (R210). -/
structure Qos where
  completed : Nat := 0
  late : Nat := 0
  maxE : Nat := 0
  deriving DecidableEq, Repr

/-! ## Foot dies: stacks, channels, pseudo-channels -/

/-- Stack states of Table 12.1. -/
inductive Heat where
  | cool
  | warm
  | simmer
  | scald
  deriving DecidableEq, Repr

/-- Thermal state of a stack, temperatures in quarter degrees (R332 to R342). -/
structure Thermal where
  heat : Heat := .cool
  step : Nat := 0
  age : Nat := 0
  temp : Option Int := none
  peak : Option Int := none
  failing : Bool := false
  fails : Nat := 0
  held4 : Bool := false
  exitWait : Bool := false
  cutAt : Nat := 0
  cutChannels : List Nat := []
  simmerEntries : Nat := 0
  aborts : Nat := 0
  sampled : Option Nat := none
  deriving DecidableEq, Repr

/-- Stack sleep (R247 to R250, Table 8.4). -/
inductive SleepKind where
  | awake
  | light
  | entering
  | partialSleep
  | waking
  | wakingLight
  deriving DecidableEq, Repr

/-- Sleep state of a stack. -/
structure Sleep where
  kind : SleepKind := .awake
  keep : Nat := 0xFFFF
  lost : Bool := false
  cmd : Option Cmd := none
  wakers : List Cmd := []
  wakes : Nat := 0
  aborts : Nat := 0
  deriving DecidableEq, Repr

/-- A pending retirement advice (R281). -/
structure Advice where
  pc : Nat
  bank : Nat
  row : Nat
  cause : Nat
  timebase : Nat
  deriving DecidableEq, Repr

/-- A map-out or stack retirement under way on a stack (R302, R307). -/
structure Mapout where
  ch : Nat
  retire : Bool := false
  cmd : Option Cmd := none
  failedChannel : Bool := false
  recorded : Bool := false
  opened : Bool := false
  openedAt : Nat := 0
  forced : Bool := false
  deriving DecidableEq, Repr

/-- One stack and the parts of its foot die that are not per channel. `prep` is the extent of the vacate range that is being
prepared, with the sectors written (R296). -/
structure Stack where
  online : Bool := false
  retired : Bool := false
  ident : Option StackIdent := none
  contentsLost : Bool := false
  thermal : Thermal := {}
  warmNow : Bool := true
  warmNext : Bool := true
  sleep : Sleep := {}
  mapped : List Nat := []
  prepared : List Nat := []
  prep : Option (Nat × Nat) := none
  mapout : Option Mapout := none
  mapQueue : List Mapout := []
  retireProc : Option Mapout := none
  pending : List Advice := []
  dropped : Nat := 0
  cause2 : List (Nat × Nat × Nat × List Nat) := []
  loggedRows : List (Nat × Nat × Nat) := []
  softRows : List RowRec := []
  hardRows : List RowRec := []
  laneRepairs : Nat := 0
  calRunning : Option Nat := none
  calForced : Nat := 0
  restore : Bool := false
  deriving DecidableEq, Repr

/-- What an offline window on a channel is for (R290, R329). -/
inductive Window where
  | none
  | retrain
  | laneRepair (pc : Nat) (lane : Nat)
  | rowRepair (r : RowRec) (hard : Bool)
  | mapout
  deriving DecidableEq, Repr

/-- Who benched a channel (R473, R474). -/
inductive Bench where
  | none
  | command
  | device
  deriving DecidableEq, Repr

/-- Self-refresh of one channel (R242 to R246). -/
inductive SelfRefresh where
  | awake
  | asleep
  | leaving
  deriving DecidableEq, Repr

/-- One command of the retry buffer (R269): the pseudo-channel and what was issued. Kinds: 0 activate, 1 precharge, 2 read and
3 write, with auto-precharge where it carries it, 4 all-bank refresh, 5 directed refresh, 6 precharge of every bank. -/
structure RetryCmd where
  pc : Nat
  bank : Nat
  row : Nat
  kind : Nat
  sector : Nat := 0
  data : List Byte := []
  origin : Nat := 2
  autoPre : Bool := false
  deriving DecidableEq, Repr

/-- One channel. `retryRows` gives, by pseudo-channel and bank, the row that was open before the oldest held command of the
retry buffer, with the origin of its activate (R269); a replay runs until `replayUntil` (R271). -/
structure Chan where
  bench : Bench := .none
  testAccess : Bool := false
  exitCmd : Option Cmd := none
  window : Window := .none
  windowOpen : Bool := false
  repairCmd : Option Cmd := none
  repairSteps : Nat := 0
  retrainDue : Bool := false
  sr : SelfRefresh := .awake
  busyMark : Nat := 0
  keepAll : Bool := true
  alerts : List Nat := []
  alertCount : Nat := 0
  retrainings : Nat := 0
  windows : Nat := 0
  retry : List RetryCmd := []
  retryRows : Table (Nat × Nat) := []
  replayUntil : Nat := 0
  cosyLogged : Bool := false
  awayFrom : Option Nat := none
  laneQueue : List (Nat × Nat) := []
  deriving DecidableEq, Repr

/-- One open row of a bank and its hit streak (R205). -/
structure OpenRow where
  row : Nat
  streak : Nat := 0
  deriving DecidableEq, Repr

/-- Calibration of one pseudo-channel (R316 to R328). -/
structure Cal where
  boot : Option CalResult := none
  codes : Option CalResult := none
  due : Option (Nat × Bool) := none
  forcedAt : Nat := 0
  running : Option Bool := none
  startedForced : Bool := false
  lastImp : Nat := 0
  lastTim : Nat := 0
  appliedImp : Nat := 0
  appliedTim : Nat := 0
  failImp : Nat := 0
  failTim : Nat := 0
  rowImp : Nat := 0
  rowTim : Nat := 0
  forced : Nat := 0
  maxDefer : Nat := 0
  prevTiming : Bool := false
  owedTiming : Bool := false
  tempAt : Option Int := none
  seen : Option Nat := none
  deriving DecidableEq, Repr

/-- One pseudo-channel. `allBank` says that the refresh until `refreshUntil` is of all banks; `servedAt` is its last refresh instant at which a refresh started (R226); `usedNow` that a request
has entered its queue in this period (R242). -/
structure Pc where
  batchWrite : Bool := false
  batchCount : Nat := 0
  policy : List Nat := []
  rows : Table OpenRow := []
  balance : Int := 0
  refreshUntil : Nat := 0
  allBank : Bool := false
  servedAt : Option Nat := none
  inWindow : Nat := 0
  windows : Nat := 0
  taken : Nat := 0
  strain : List (Nat × Nat × Nat) := []
  spill : Nat := 0
  nbrDue : List (Nat × Nat) := []
  nbrCount : Nat := 0
  offences : Nat := 0
  acts : Table Nat := []
  bankActs : Table Nat := []
  throttleTail : Bool := false
  cal : Cal := {}
  integ : Integrity := {}
  lanesUsed : List Nat := []
  laneHits : List (Nat × Nat × Nat) := []
  referred : List Nat := []
  spprBanks : List Nat := []
  scrub : Option Nat := none
  scrubNow : Nat := 0
  sectorsNow : Nat := 0
  sectorsLast : Nat := 0
  columnsNow : Nat := 0
  usedNow : Bool := false
  carry : Nat := 0
  exerNow : Nat := 0
  cosyNow : Nat := 0
  cosyPos : Nat := 0
  lastTenant : Nat := 127
  deriving DecidableEq, Repr

/-! ## Power -/

/-- A KETTLE_QUIESCE in effect (R76). -/
structure Quiesce where
  ignoreFloor : Bool
  deadline : Nat
  cmd : Option Cmd
  deriving DecidableEq, Repr

/-- What a mark closes for the governor's work of that mark (R24, R68): the event counts of the window that ended, and
the rise and fall grants that take effect at the mark, with the periods they had accrued. -/
structure Closed where
  counts : Table Nat := []
  up : Nat := 0
  upAcc : Nat := 1
  down : Nat := 0
  downAcc : Nat := 1
  deriving DecidableEq, Repr

/-- The kettle governor (R34 to R59). Powers, and the allowance as the power it makes over one period, are in the
exact unit of Machine/KettleBase.lean. Event counts, and the powers of the last window, are keyed by kind, origin and
unit. `follow` lists the units (foot die n as n, tile t as 8 + t) that still apply the allowance that the limits before
the last pour, `oldLimits`, would give, until mark `followBy` (R39): `altE` is that envelope and `altAllowance` that allowance. Cosy load of the
period: what one pseudo-channel of `cosySet` carries at most in lines, the power of what it has read, and the dummy
blocks given to tiles. -/
structure Kettle where
  running : Bool := false
  active : Bool := false
  e : Nat := 0
  pest : Nat := 0
  cosyLast : Nat := 0
  cosyTarget : Nat := 0
  cosyShare : Nat := 0
  cosySet : List Nat := []
  cosySpent : Nat := 0
  dummyBlocks : Nat := 0
  follow : List Nat := []
  followBy : Nat := 0
  oldLimits : Table (List Nat) := []
  altE : Nat := 0
  altAllowance : Nat := 0
  allowance : Nat := 0
  allowanceFull : Nat := 0
  tileSpent : Nat := 0
  mandLast : Nat := 0
  userLast : Nat := 0
  counts : Table Nat := []
  closed : List Closed := []
  lastCounts : Table Nat := []
  lastPower : Table Nat := []
  userWaits : Bool := false
  quiesce : Option Quiesce := none
  idlePeriods : Nat := 0
  jobThisPeriod : Bool := false
  jobRelease : Option Nat := none
  slewEvents : Nat := 0
  shortfalls : Nat := 0
  excesses : Nat := 0
  breaks : Nat := 0
  slewFlag : Bool := false
  scaldDrop : List Nat := []
  lastTenant : Nat := 127
  deriving DecidableEq, Repr

/-- The kettle-bus port (R60 to R74). `lastType` and `overdrawSeen` are of the last frame, and `askGranted` says whether the
last request was granted (Table 18.1). -/
structure Kb where
  acquired : Bool := false
  lost : Bool := false
  lastEpoch : Option (BitVec 6) := none
  position : Nat := 0
  crcFails : Nat := 0
  skips : Nat := 0
  losses : Nat := 0
  sinceValid : Nat := 0
  goodRun : Nat := 0
  badRun : Nat := 0
  epochRun : Nat := 0
  accUp : Nat := 1
  accDown : Nat := 1
  request : Option Int := none
  grantUp : Nat := 0
  grantDown : Nat := 0
  usedUp : Nat := 1
  usedDown : Nat := 1
  cap : Option Nat := none
  holdPeriods : Nat := 0
  frameSeen : Bool := false
  started : Bool := false
  epoch : BitVec 6 := 0
  slot : Nat := 0
  admins : List (Cmd × Nat × Nat) := []
  adminSent : List (Cmd × BitVec 6 × Nat) := []
  unreturned : Nat := 0
  chainOpen : Bool := false
  lastCount : Nat := 0
  lastCredit : Nat := 0
  lastOverdraw : Bool := false
  lastType : Nat := 0
  askGranted : Bool := false
  overdrawSeen : Bool := false
  deriving DecidableEq, Repr

/-- Power domains and core rails (R86 to R93). `on` has bit d for PDd; rails are VCORE_H, F01, F23, F45, F67 in mV.
`stepHeld` lists the rails whose step up waits for room in E. -/
structure Power where
  on : BitVec 96 := 0x41041041041c00000000000#96
  rails : List Nat := [750, 750, 750, 750, 750]
  stepHeld : List Nat := []
  avsAbsent : Bool := false
  regFault : Bool := false
  heldRails : List Nat := []
  railMark : Table Nat := []
  clearing : List Nat := []
  deriving DecidableEq, Repr

/-- Hub temperature and throttle (R334, R343 to R345); quarter degrees. -/
structure HubHeat where
  tj : Int := 0
  maxTj : Int := 0
  state : Nat := 0
  share : Nat := 8
  ceiling : Option Nat := none
  coolMarks : Nat := 0
  stepMark : Nat := 0
  entries : Nat := 0
  marks : Nat := 0
  sensorsFailed : Bool := false
  deriving DecidableEq, Repr

/-- Schedule debt of one die (R212): start and finish of its last work and its counts. -/
structure Die where
  workMark : Nat := 0
  start : Nat := 0
  finish : Nat := 0
  debt : Nat := 0
  maxDebt : Nat := 0
  shortened : Nat := 0
  heavyMarks : Nat := 0
  deriving DecidableEq, Repr

/-! ## Compute -/

/-- A descriptor that has been fetched and not started: its address, its 128 bytes, and the status its fetch ended with
where it failed. -/
structure Fetched where
  ta : Nat
  bytes : List Byte
  failed : Nat := 0
  deriving DecidableEq, Repr

/-- A descriptor in flight (R361): its address, its 128 bytes, the tiles that run it, the blocks still to be admitted
(R353), when it started, whether its peer operations were issued and what they answered, and the status it ends with
once that is known. Its stage: 0 while its operands, or the index list of a gather, are read, 1 while a gather's rows are
read, of which it has issued `rows`, 2 while its writes are outstanding, with `ends` the status they lead to. -/
structure InDesc where
  id : Nat
  ta : Nat
  bytes : List Byte
  tiles : List Nat := []
  matrix : Nat := 0
  vector : Nat := 0
  since : Nat := 0
  issued : Bool := false
  opFail : Nat := 0
  result : Option Nat := none
  stage : Nat := 0
  rows : Nat := 0
  ends : Nat := 0
  deriving DecidableEq, Repr

/-- A brew list (R359 to R366, R374, R375). -/
structure BrewList where
  tenant : Nat
  prio : Nat
  cmdMask : BitVec 16
  held : Bool := false
  nextTa : Nat
  endSeen : Bool := false
  endTa : Nat := 0
  fetched : List Fetched := []
  inflight : List InDesc := []
  fetching : Bool := false
  stopping : Bool := false
  reason : Nat := 0
  fail : Nat := 0
  failTa : Nat := 0
  started : Nat := 0
  done : Nat := 0
  lastTa : Nat := 0
  stopCmds : List Cmd := []
  deriving DecidableEq, Repr

/-- One tile (Table 13.12). -/
structure Tile where
  holder : Option Nat := none
  heldSince : Nat := 0
  lastTenant : Nat := 0xFFFF
  clearing : Bool := false
  dummy : Bool := false
  running : Bool := false
  blocks : Nat := 0
  deriving DecidableEq, Repr

/-- Tiles and brew lists, and the tenant whose descriptor took tiles last (R365). -/
structure Compute where
  lists : Table BrewList := []
  tiles : Table Tile := []
  lastServed : Nat := 127
  deriving DecidableEq, Repr

/-- One queued infuser operation: the opcode and command (its operands are in the parameters). -/
structure InfOp where
  op : BitVec 16
  cmd : Cmd
  tenant : Nat
  held : Bool := false
  since : Nat := 0
  deriving DecidableEq, Repr

/-- One infuser (R384 to R407): its queue, the operation that runs with the context it loaded, its steps still to be
admitted (phase, multiplies, adds: R404) and the phase it has reached, and its counts. `checking` says that the context and
key header of the queue's head are being read; in simmer, the arithmetic of the steps admitted lasts until `notBefore` (R338). The running operation reads operand `operand` at stage 0, writes its scratch
at stage 1, reads it back at stage 2, and at stage 3 writes its output, which leads to `ends`: status, reason, phase, limb. -/
structure Infuser where
  queue : List InfOp := []
  running : Option InfOp := none
  startedAt : Nat := 0
  context : List Byte := []
  steps : List (Nat × Nat × Nat) := []
  phase : Nat := 0
  checking : Bool := false
  notBefore : Nat := 0
  operand : Nat := 0
  stage : Nat := 0
  ends : Option (Nat × Nat × Nat × Nat) := none
  lastTenant : Nat := 0xFFFF
  completed : Nat := 0
  compareFaults : Nat := 0
  faultTimes : List Nat := []
  faulted : Bool := false
  keyMismatches : Nat := 0
  multiplies : Nat := 0
  deriving DecidableEq, Repr

/-! ## Peer ports and twins -/

/-- A peer port: its link (0 down, 1 training, 2 up), the pause that a received frame asks for with the frames that wait
for its end (R411), and whether doze took the link down. -/
structure Port where
  link : Nat := 0
  paused : Bool := false
  pausedUntil : Nat := 0
  waiting : List (Nat × Frame) := []
  dozed : Bool := false
  deriving DecidableEq, Repr

/-- A sequenced frame kept in the retransmit store until it is acknowledged (R417), and whether it has been sent. -/
structure Kept where
  seq : BitVec 24
  type : Nat
  frame : Frame
  sent : Bool := false
  deriving DecidableEq, Repr

/-- What the receiver remembers of an operation between its frames (R423): among it the bytes that have come, and the
collective it carries (R346). -/
structure RxOp where
  srcTenant : Nat
  opTag : BitVec 32
  type : Nat
  base : Nat
  length : Nat
  tenant : Nat
  failed : Option (BitVec 16) := none
  poisoned : Bool := false
  worst : Nat := 0
  coll : Option (BitVec 32) := none
  got : Nat := 0
  deriving DecidableEq, Repr

/-- A connection (R414 to R420); connection 64 of the twin port is the twin connection (R432). -/
structure Conn where
  phase : Nat := 0
  firstTx : BitVec 24 := 0
  txNext : BitVec 24 := 0
  rxExpect : BitVec 24 := 0
  window : BitVec 24 := 0
  kept : List Kept := []
  timeouts : Nat := 0
  lastProgress : Nat := 0
  openAt : Nat := 0
  unackedRx : Nat := 0
  ackDue : Option Nat := none
  nakAt : Option Nat := none
  rxOps : List RxOp := []
  resent : Nat := 0
  unreachable : Nat := 0
  deriving DecidableEq, Repr

/-- Who issued a peer operation (R421). -/
inductive PeerIssuer where
  | command (c : Cmd)
  | descriptor (h : Nat) (id : Nat)
  deriving DecidableEq, Repr

/-- A peer operation that has been issued and not completed. -/
structure PeerOpState where
  tag : BitVec 32
  conn : Nat
  issuer : PeerIssuer
  kind : Nat
  tenant : Nat
  localTa : Nat
  length : Nat
  got : Nat := 0
  poisoned : Bool := false
  deriving DecidableEq, Repr

/-- What a STATE frame says of a mirrored partition (R432). -/
structure TwinView where
  mode : Nat
  home : Nat
  epoch : Nat
  state : Nat
  windows : List Nat
  config : List Nat
  deriving DecidableEq, Repr

/-- What waits for the partner's acknowledgement in synchronous mode (R436): the completion of a mailbox command, or a
reply on a connection. -/
inductive HeldAct where
  | cmd (op : Nat) (c : Cmd) (status : Nat) (result : List Byte)
  | frame (port conn type : Nat) (f : Frame)
  deriving DecidableEq, Repr

/-- A visible write whose MIRROR frame has not been sent: the request, and by sector its tenant address with the data and
poison mark once they are known (R434); or a COPY frame whose read is under way: the access, with the frame's first and last
flags (R438). -/
structure MirrorOut where
  req : Option Nat
  sectors : List (Nat × Option (List Byte × Bool))
  copy : Option (Nat × Bool × Bool) := none
  deriving DecidableEq, Repr

/-- A mirrored partition (Table 15.7). While a resync has copies to send, `resyncPos` is the next sector of the
partition, in the order of R438; once the last COPY frame is sent, `resyncLast` is its sequence. -/
structure TwinPart where
  state : Nat := 0
  epoch : Nat := 0
  unacked : List (BitVec 24 × Nat) := []
  lagHold : Bool := false
  resyncPos : Option Nat := none
  resyncLast : Option (BitVec 24) := none
  differs : Bool := false
  view : Option TwinView := none
  bootHold : Bool := false
  takeover : Option (Cmd × Nat) := none
  heldReplies : List (Option (BitVec 24) × HeldAct) := []
  outbox : List MirrorOut := []
  deriving DecidableEq, Repr

/-- The twin pair (R429 to R442). -/
structure Twin where
  partner : Option (BitVec 48) := none
  heard : Bool := false
  beatMark : Nat := 0
  misses : Nat := 0
  lost : Bool := false
  conflict : Bool := false
  partnerReady : Bool := false
  partnerE : Nat := 0
  partnerStacks : Nat := 0
  bootWaitFrom : Option Nat := none
  failovers : Nat := 0
  parts : Table TwinPart := []
  deriving DecidableEq, Repr

/-- A received frame that waits for a closed partition (R157), a steep delay (R52) or an earlier frame of its stream, or
whose requests are under way (`applying`): its number, port, type and arrival. -/
structure HeldFrame where
  id : Nat
  port : Nat
  type : Nat
  frame : Frame
  since : Nat
  applying : Bool := false
  deriving DecidableEq, Repr

/-- Ports, connections and operations. -/
structure Peers where
  ports : Table Port := []
  conns : Table Conn := []
  ops : List PeerOpState := []
  held : List HeldFrame := []
  nextTag : BitVec 32 := 0
  deriving DecidableEq, Repr

/-! ## Telemetry, lateness, test -/

/-- An event-log entry (R456). -/
structure LogEntry where
  bytes : List Byte
  timebase : Nat
  seq : BitVec 32
  pinned : Bool := false
  dropped : Bool := false
  deriving DecidableEq, Repr

/-- A dump ring (R448 to R453). -/
structure DumpRing where
  base : Nat := 0
  slots : Nat := 0
  producer : Nat := 0
  state : Nat := 0
  fault : Nat := 0
  skipped : Nat := 0
  nextAttach : Option (Nat × Nat) := none
  detachNext : Bool := false
  deriving DecidableEq, Repr

/-- A latched snapshot (R447, R451): the mark's tick, the value of every counter field, what the record's header takes
from the mark, whether it is a dump mark's with its dump sequence, and the requests that wait for it: snapshot
commands, and out-of-band requests by first index and count. -/
structure Latch where
  tick : Nat := 0
  fields : Table Nat := []
  serial : BitVec 32 := 0
  debt : Nat := 0
  online : Nat := 0
  dump : Bool := false
  seq : Nat := 0
  cmds : List Cmd := []
  reqs : List (Nat × Nat) := []
  deriving DecidableEq, Repr

/-- Counters, spout and event log (R444 to R457). Event counters hold value plus wrap count as one 64-bit count;
byte volumes hold bytes, energy volumes hold periods of one governor power unit. `latching` holds the latches whose
window the governor has not closed yet, so that their energies are not in; `latch` the latest complete one; `dump` a
complete dump latch whose records are not written yet. -/
structure Tele where
  events : Table Nat := []
  volumes : Table Nat := []
  dumpSeq : Nat := 0
  ring : DumpRing := {}
  tenantRings : Table DumpRing := []
  snapshots : List Cmd := []
  mctpCounters : List (Nat × Nat) := []
  latching : List Latch := []
  latch : Latch := {}
  dump : Option Latch := none
  log : List LogEntry := []
  logSeq : BitVec 32 := 0
  overwritten : Nat := 0
  deriving DecidableEq, Repr

/-- A collective tracked on a stack (R346 to R349). -/
structure Coll where
  stack : Nat
  id : BitVec 32
  tenant : Nat
  sectors : Nat := 0
  seq : BitVec 8 := 0
  lastD : Nat := 0
  lastRecord : List Byte := []
  dueBy : Option Nat := none
  why : Nat := 0
  sampleSent : Bool := false
  deriving DecidableEq, Repr

/-- Lateness advisories. -/
structure Late where
  colls : List Coll := []
  issued : Nat := 0
  received : Nat := 0
  deriving DecidableEq, Repr

/-- The channel exerciser of one stack (R475 to R479). -/
structure Exer where
  running : Bool := false
  mode : Nat := 0
  pattern : Nat := 0
  capPerPeriod : Nat := 0
  channel : Nat := 0
  passes : Nat := 0
  mask : Nat := 0
  seed : BitVec 32 := 0
  passNo : Nat := 0
  cursors : Table Nat := []
  hammerEnd : Table Nat := []
  outcome : Nat := 5
  errors : Nat := 0
  corrections : Nat := 0
  laneErrors : Table Nat := []
  captures : List (List Byte) := []
  deriving DecidableEq, Repr

/-- A debug-mux port (R470, R471): the fields that its last word boundary took, the word at its data balls, when that
word started, and whether a heartbeat was sent or received since. -/
structure MuxPort where
  group : Nat := 0
  inst : Nat := 0
  log2P : Nat := 3
  word : BitVec 16 := 0
  since : Nat := 0
  beatSent : Bool := false
  beatHeard : Bool := false
  deriving DecidableEq, Repr

/-- Debug and test access (R470 to R484). -/
structure Dbg where
  level : Nat := 0
  nonce : Option (List Byte) := none
  tap : TapInstr := .idcode
  mux0 : MuxPort := {}
  mux1 : MuxPort := {}
  deriving DecidableEq, Repr

/-- Doze (R251, R252). -/
inductive DozePhase where
  | none
  | pending (deadline : Nat)
  | entering
  | asleep
  deriving DecidableEq, Repr

/-- Reference code (R310, R311). -/
structure RefCode where
  inForce : Nat := 0
  last : Nat := 0
  at_ : Nat := 0
  rejected : Nat := 0
  rowRejected : Nat := 0
  bootFault : Bool := false
  threeRejects : Bool := false
  deriving DecidableEq, Repr

/-- The whole machine. -/
structure State where
  pending : List Instr := []
  ident : Ident := {}
  pins : Pins := {}
  clock : Clock := {}
  boot : Boot := {}
  flash : Flash := {}
  fns : Table Fn := []
  cmds : List Exec := []
  cfg : Cfg := {}
  parts : Table Part := []
  hbm : Memory := {}
  pot : Pot := {}
  path : Path := {}
  buckets : Table Bucket := []
  qos : Table Qos := []
  stk : Table Stack := []
  chans : Table Chan := []
  pcs : Table Pc := []
  kettle : Kettle := {}
  kb : Kb := {}
  power : Power := {}
  hub : HubHeat := {}
  dies : Table Die := []
  compute : Compute := {}
  infusers : Table Infuser := []
  peers : Peers := {}
  twin : Twin := {}
  tele : Tele := {}
  late : Late := {}
  exers : Table Exer := []
  dbg : Dbg := {}
  doze : DozePhase := .none
  refcode : RefCode := {}
  out : List Out := []
  freeCount : Nat := 0
  deriving DecidableEq, Repr

/-- Why a step may stop with a fault. No command of this model raises one: whatever the spec says of a command that
cannot be served is a status code, a PCIe error or no effect, and that is modelled. The constructor stands for a
command outside every table of the spec; safe, since nothing raises it. -/
inductive Fault where
  | outsideSpec
  deriving DecidableEq, Repr

/-- Why a step may be refused. `notModelled` is raised by the arm of a command that has no meaning yet; safe, since
the step then says nothing. -/
inductive Refusal where
  | notModelled (mnemonic : String)
  deriving DecidableEq, Repr

/-- The machine right after a power-on reset (R98, R106, R107): the rising edge of POR_N, straps latched as 0,
EN_CORE raised, PG_CORE still low, every always-on domain on and everything else off, stage 0, timebase 0. -/
def State.reset : State := { boot := { enRise := some 0 } }

end Sys2Proof.Machine
end

