-- ==== Sys2Proof/Machine/Bits.lean ====
section
/-! DEFINITION. Bit fields, byte order and checks: little-endian fields (R7), the CRC-32 of IEEE 802.3 used by the
flash, store and spout layouts (Tables 4.4, 5.5, 16.5), and small list helpers. -/

namespace Sys2Proof.Machine

open Sys2Proof

/-- Bits lo + n - 1 down to lo of w (R6). -/
def bitsOf (w lo n : Nat) : Nat := w / 2 ^ lo % 2 ^ n

/-- Bit i of w as a Bool. -/
def bitOf (w i : Nat) : Bool := w.testBit i

/-- A flag as the value of one bit. -/
def flag (b : Bool) (i : Nat) : Nat := if b then 2 ^ i else 0

/-- v as n bytes, least significant first (R7). -/
def leBytes (n v : Nat) : List Byte :=
  match n with
  | 0 => []
  | n + 1 => BitVec.ofNat 8 v :: leBytes n (v / 256)

/-- v as n bytes, most significant first: network byte order (R7). -/
def beBytes (n v : Nat) : List Byte := (leBytes n v).reverse

/-- The value of bytes, least significant first. -/
def ofLe (bs : List Byte) : Nat :=
  match bs with
  | [] => 0
  | b :: r => b.toNat + 256 * ofLe r

/-- The value of bytes, most significant first. -/
def ofBe (bs : List Byte) : Nat := ofLe bs.reverse

/-- n bytes of a list from offset off; bytes past its end read as 0. -/
def bytesAt (bs : List Byte) (off n : Nat) : List Byte := (List.range n).map (fun i => bs.getD (off + i) 0)

/-- The n-byte little-endian field at offset off. -/
def leAt (bs : List Byte) (off n : Nat) : Nat := ofLe (bytesAt bs off n)

/-- The n-byte field at offset off in network byte order. -/
def beAt (bs : List Byte) (off n : Nat) : Nat := ofBe (bytesAt bs off n)

/-- A list of bytes cut or filled with zeros to n bytes. -/
def padTo (n : Nat) (bs : List Byte) : List Byte := bytesAt bs 0 n

/-- A list with its entry i replaced. -/
def setAt {α : Type} (l : List α) (i : Nat) (v : α) : List α := l.set i v

/-- Quotient rounded up. -/
def ceilDiv (a b : Nat) : Nat := (a + b - 1) / b

/-- A value that holds at its width's limit. -/
def satTo (w v : Nat) : Nat := if v < 2 ^ w then v else 2 ^ w - 1

/-- A signed value as a w-bit field. -/
def sbits (w : Nat) (v : Int) : Nat := (v % (2 ^ w : Int)).toNat

/-- The signed value of a w-bit field. -/
def ofSbits (w v : Nat) : Int := if v < 2 ^ (w - 1) then v else (v : Int) - 2 ^ w

/-- One bit step of a reflected CRC. -/
def crcStep (w : Nat) (poly : BitVec w) (c : BitVec w) : BitVec w :=
  if c.getLsbD 0 then (c >>> 1) ^^^ poly else c >>> 1

/-- n bit steps. -/
def crcSteps (w : Nat) (poly : BitVec w) (n : Nat) (c : BitVec w) : BitVec w :=
  match n with
  | 0 => c
  | n + 1 => crcSteps w poly n (crcStep w poly c)

/-- CRC-32 of IEEE 802.3: reflected, preset to ones, complemented. -/
def crc32 (bs : List Byte) : BitVec 32 :=
  ~~~ (bs.foldl (fun c b => crcSteps 32 0xEDB88320#32 8 (c ^^^ b.setWidth 32)) 0xFFFFFFFF#32)

/-- One bit of a most-significant-bit-first CRC: the bit d enters. -/
def crcBit (w : Nat) (poly : BitVec w) (c : BitVec w) (d : Bool) : BitVec w :=
  if (c.getMsbD 0) != d then (c <<< 1) ^^^ poly else c <<< 1

/-- One byte, most significant bit first, of a CRC. -/
def crcByte (w : Nat) (poly : BitVec w) (c : BitVec w) (b : Byte) : BitVec w :=
  (List.range 8).foldl (fun c i => crcBit w poly c (b.getMsbD i)) c

/-- The first place where p holds. -/
def findIdx? {α : Type} (l : List α) (p : α → Bool) : Option Nat :=
  match l with
  | [] => none
  | a :: r => if p a then some 0 else (findIdx? r p).map (· + 1)

/-- Removes the first entry for which p holds. -/
def dropFirst {α : Type} (l : List α) (p : α → Bool) : List α :=
  match l with
  | [] => []
  | a :: r => if p a then r else a :: dropFirst r p

/-- Applies f to the first entry for which p holds. -/
def modFirst {α : Type} (l : List α) (p : α → Bool) (f : α → α) : List α :=
  match l with
  | [] => []
  | a :: r => if p a then f a :: r else a :: modFirst r p f

/-- Insert in rising order without repeats. -/
def insertNat (l : List Nat) (n : Nat) : List Nat :=
  match l with
  | [] => [n]
  | a :: r => if n < a then n :: a :: r else if n = a then a :: r else a :: insertNat r n

/-- Sum of a list of naturals. -/
def sumOf (l : List Nat) : Nat := l.foldl (· + ·) 0

/-- The largest of a list of naturals, 0 when empty. -/
def maxOf (l : List Nat) : Nat := l.foldl Nat.max 0

/-- A mask with bit n set for every n of the list. -/
def maskOf (l : List Nat) : Nat := sumOf ((l.eraseDups).map (2 ^ ·))

/-- How many bits of w below n are set. -/
def popcount (n w : Nat) : Nat := ((List.range n).filter (fun i => w.testBit i)).length

end Sys2Proof.Machine
end

