-- ==== Sys2Proof/Machine/Tables.lean ====
section
/-! DEFINITION. Reading and writing the sparse tables and byte maps of `State`: lookup, insertion in index order and
removal. One canonical form: indices strictly rising, and no entry equal to the default. -/

namespace Sys2Proof.Machine

/-- The entry at index k, if the table lists one. -/
def tfind {α : Type} (t : List (Nat × α)) (k : Nat) : Option α :=
  match t with
  | [] => none
  | (j, v) :: r => if j = k then some v else tfind r k

/-- The value at index k, `d` where the table lists none. -/
def tget {α : Type} (d : α) (t : List (Nat × α)) (k : Nat) : α := (tfind t k).getD d

/-- The table with v at index k, in index order. -/
def tput {α : Type} (t : List (Nat × α)) (k : Nat) (v : α) : List (Nat × α) :=
  match t with
  | [] => [(k, v)]
  | (j, w) :: r =>
    if k < j then (k, v) :: (j, w) :: r
    else if k = j then (k, v) :: r
    else (j, w) :: tput r k v

/-- The table without index k. -/
def terase {α : Type} (t : List (Nat × α)) (k : Nat) : List (Nat × α) :=
  t.filter (fun e => decide (e.1 ≠ k))

/-- The table with v at index k; the default is not listed. -/
def tset {α : Type} [DecidableEq α] (d : α) (t : List (Nat × α)) (k : Nat) (v : α) : List (Nat × α) :=
  if v = d then terase t k else tput t k v

/-- The table with the value at index k changed by f. -/
def tmod {α : Type} [DecidableEq α] (d : α) (t : List (Nat × α)) (k : Nat) (f : α → α) : List (Nat × α) :=
  tset d t k (f (tget d t k))

/-- The canonical form of a table: indices strictly rising. -/
abbrev Table.sorted {α : Type} (t : List (Nat × α)) : Prop := (t.map Prod.fst).Pairwise (· < ·)

/-- The canonical form with default d: indices strictly rising, the default not listed. -/
abbrev Table.canonical {α : Type} [DecidableEq α] (d : α) (t : List (Nat × α)) : Prop :=
  Table.sorted t ∧ ∀ e ∈ t, e.2 ≠ d

/-- Count tables hold naturals with default 0. -/
def cget (t : List (Nat × Nat)) (k : Nat) : Nat := tget 0 t k

/-- The count at index k raised by n. -/
def cadd (t : List (Nat × Nat)) (k n : Nat) : List (Nat × Nat) := tset 0 t k (cget t k + n)

end Sys2Proof.Machine
end

