-- ==== Sys2Proof/Machine/Cfg.lean ====
section
/-! DEFINITION. The configurable items (R144, R145): their keys, instance kinds (Table 5.12), classes and units
(Table 5.2), reset values, and reading the copy in force. -/

namespace Sys2Proof.Machine

open Sys2Proof

/-- The key of one entry. Keys rise as R149 orders entries: opcode, field index, instance. -/
def cfgKey (op fld inst : Nat) : Nat := op * 16777216 + fld * 65536 + inst

/-- The opcode of a key. -/
def keyOp (k : Nat) : Nat := k / 16777216

/-- The field index of a key. -/
def keyFld (k : Nat) : Nat := k / 65536 % 256

/-- The instance number of a key. -/
def keyInst (k : Nat) : Nat := k % 65536

/-- The broadcast instance (R145). -/
def bcast : Nat := 0xFFFF

/-- The instance kind of a steep command (Table 5.12). -/
def cfgKind (op : Nat) : Nat :=
  match op with
  | 0x0203 | 0x0501 => 1
  | 0x0401 => 2
  | 0x0402 | 0x0303 => 3
  | 0x0201 | 0x0202 | 0x0A04 | 0x0C06 => 4
  | 0x0004 => 5
  | 0x0200 | 0x0204 => 6
  | 0x0300 => 7
  | 0x0C01 | 0x0E00 => 8
  | 0x0C02 => 9
  | 0x0C03 => 10
  | _ => 0

/-- Class D items (Table 5.2, R153, R433). -/
def cfgClassD (op : Nat) : Bool :=
  match op with
  | 0x0200 | 0x0201 | 0x0202 | 0x0203 | 0x0C06 => true
  | _ => false

/-- The application unit of a class M item (Table 5.2). -/
inductive CfgUnit where
  | hub
  | stack
  | channel
  | pseudo
  | port
  deriving DecidableEq, Repr

/-- The unit of a steep command's items (Table 5.2, R222, R258, R443). -/
def cfgUnit (op : Nat) : CfgUnit :=
  match op with
  | 0x0204 | 0x0501 => .stack
  | 0x0401 => .channel
  | 0x0300 | 0x0303 | 0x0402 => .pseudo
  | 0x0C01 => .port
  | _ => .hub

/-- How many value fields a steep command has (R145). -/
def cfgFields (op : Nat) : Nat :=
  match op with
  | 0x0204 => 3
  | 0x0303 => 4
  | 0x0402 => 3
  | 0x0801 => 6
  | 0x0806 => 3
  | 0x080C => 5
  | 0x0903 => 2
  | 0x0A04 => 3
  | 0x0C01 => 6
  | 0x0C02 => 4
  | 0x0C03 => 6
  | 0x0C05 => 3
  | 0x0C06 => 3
  | 0x0D00 => 3
  | 0x0E00 => 3
  | _ => 1

/-- The default latency target of a port (Table 7.1); 0 is no target. -/
def portTarget (port : Nat) : Nat :=
  if port = 0 then 2000
  else if port ≤ 4 then 4000
  else if port ≤ 20 then 1000
  else if port = 21 then 8000
  else if port = 22 then 2000
  else if port = 23 then 1000
  else if port = 24 then 100000
  else 0

/-- The reset value of one field. Lists (extent maps, pot grants) and fields of several numbers (hash masks, trims) are
lists of numbers; every other field is one. -/
def cfgDefault (op fld inst : Nat) : List Nat :=
  match op with
  | 0x0004 => [if inst = 0x80 then 0 else 0x1C]
  | 0x0200 => []
  | 0x0201 => [inst + 1]
  | 0x0202 => []
  | 0x0203 =>
    (List.range 6).map (fun i => 0x04100400 * 2 ^ i) ++ (List.range 2).map (fun i => 0x100010000 * 2 ^ i) ++
      (List.range 2).map (fun i => 0x10040000 * 2 ^ i)
  | 0x0300 => [portTarget (inst % 32)]
  | 0x0303 => [if fld = 0 then 40 else if fld = 1 then 16 else if fld = 2 then 8 else 16]
  | 0x0402 => [if fld = 0 then 32768 else if fld = 1 then 4 else 8]
  | 0x0801 =>
    [if fld = 0 then 20000 else if fld = 1 then 20000 else if fld = 2 then 700000
     else if fld = 3 then 0 else if fld = 4 then 8000 else 1024]
  | 0x0803 => List.replicate 8 4096
  | 0x0806 => [if fld = 2 then 0x4444 else 0]
  | 0x080C => [750]
  | 0x0903 => [if fld = 0 then 0x1F else 25]
  | 0x0A04 => [if fld = 0 then 0xFFFF else if fld = 1 then (if inst = 0 then 3 else 1) else 64]
  | 0x0C01 => [if fld = 2 then 0x88B5 else if fld = 5 then 0xFFFFFFFFFFFF else 0]
  | 0x0C02 => [if fld = 2 then 50 else 0]
  | 0x0C05 => [if fld = 0 then 0xFF else if fld = 1 then 1 else 2000]
  | 0x0E00 => [if fld = 2 then 3 else 0]
  | _ => [0]

/-- The value in force of one field of one instance, as a list. -/
def cfgList (s : State) (op fld inst : Nat) : List Nat :=
  (tfind s.cfg.inForce (cfgKey op fld inst)).getD (cfgDefault op fld inst)

/-- The value in force of one single-valued field. -/
def cfgN (s : State) (op fld inst : Nat) : Nat := (cfgList s op fld inst).headD 0

/-- Like `cfgList`, where pseudo-channel p uses it: while a class M window is open, an item with unit pseudo-channel
that has not switched everywhere yet has its new value on the units that have switched (R151, R152). -/
def cfgAtPc (s : State) (op fld inst : Nat) (unit : Nat) : List Nat :=
  match s.cfg.pour with
  | some p =>
    if p.recordPending || p.unitsLeft.contains unit then cfgList s op fld inst
    else (tfind p.entries (cfgKey op fld inst)).getD (cfgList s op fld inst)
  | none => cfgList s op fld inst

/-- The permission word in force of function k, or of the out-of-band channel as 0x80 (R165). -/
def permWord (s : State) (target : Nat) : Nat := cfgN s 0x0004 0 target

end Sys2Proof.Machine
end

