-- ==== Sys2Proof/Machine/Ops.lean ====
section
/-! DEFINITION. Operations every family uses: time, outputs, per-unit state, counters (R444), events and the event
log (R454 to R456), interrupts (R139), and the life of a mailbox command: the permission gate (R134, R165, R167, R117),
its execution place and its completion (R137). -/

namespace Sys2Proof.Machine

open Sys2Proof

/-! ## Status codes (Table 0.3, Table 20.4) -/

def stOK : Nat := 0x0000
def stCorrected : Nat := 0x0001
def stBadOpcode : Nat := 0x0002
def stNotPermitted : Nat := 0x0003
def stBusy : Nat := 0x0004
def stBadParam : Nat := 0x0005
def stNeedsDrain : Nat := 0x0006
def stPourRejected : Nat := 0x0007
def stBankActive : Nat := 0x0008
def stRetireFull : Nat := 0x0009
def stKeyMismatch : Nat := 0x000A
def stRinseIncomplete : Nat := 0x000B
def stChannelBench : Nat := 0x000C
def stChannelOffline : Nat := 0x000D
def stThermalAbort : Nat := 0x000E
def stPoison : Nat := 0x000F
def stWriteOverPoison : Nat := 0x0010
def stAtomicUnsupported : Nat := 0x0011
def stDeferred : Nat := 0x0012
def stStaleSequence : Nat := 0x0013
def stDomainGated : Nat := 0x0300
def stFlashFault : Nat := 0x0400
def stImageRejected : Nat := 0x0401
def stRecoveryOnly : Nat := 0x0402
def stPartitionStopped : Nat := 0x0403
def stSteepFull : Nat := 0x0500
def stPartitionClosed : Nat := 0x0501
def stExtentJoining : Nat := 0x0600
def stAddressUnmapped : Nat := 0x0601
def stStackAsleep : Nat := 0x0800
def stFoldNotReady : Nat := 0x0A00
def stRepairExhausted : Nat := 0x0A01
def stNotBenched : Nat := 0x0A02
def stMapoutLimit : Nat := 0x0A03
def stWaitTimeout : Nat := 0x0D00
def stListStopped : Nat := 0x0D01
def stNoncanonical : Nat := 0x0E00
def stCompareFault : Nat := 0x0E01
def stInfuserFaulted : Nat := 0x0E02
def stPeerUnreachable : Nat := 0x0F00
def stTwinStandby : Nat := 0x0F01
def stTwinNotReady : Nat := 0x0F02
def stHostWriteFailed : Nat := 0x1000
def stTestLocked : Nat := 0x1200
def stUnlockRejected : Nat := 0x1201
def stBenchHeld : Nat := 0x1202

/-! ## Time, outputs, units -/

/-- The timebase tick (R9). -/
def now (s : State) : Nat := s.clock.timebase

/-- The key under which the governor counts host payload, 64 B at a time, of the hub and origin user (Table 2.1). -/
def hostEvKey : Nat := (12 * 3 + 2) * 9 + 8

/-- n payload bytes cross the host port, received or sent (Tables 2.1, 16.4). -/
def hostPayload (sent : Bool) (n : Nat) (s : State) : State :=
  if n = 0 then s
  else
    { s with
      kettle := { s.kettle with counts := cadd s.kettle.counts hostEvKey (ceilDiv n 64) },
      tele := { s.tele with volumes := cadd s.tele.volumes (if sent then 652 else 651) n } }

/-- Payload bytes of what is sent to the host. -/
def outPayload (o : Out) : Nat :=
  match o with
  | .tlp _ _ _ _ data => data.length
  | .ringWrite _ _ bytes => bytes.length
  | .hostWrite _ _ bytes => bytes.length
  | _ => 0

/-- s after sending o. -/
def emit (o : Out) (s : State) : State := hostPayload true (outPayload o) { s with out := o :: s.out }

/-- An MCTP message of a kind (R166): from the device's SMBus address 0x4A, of message type 0x7E, vendor-defined PCI. -/
def mctpOut (kind : Nat) (bytes : List Byte) : Out := .mctp 0x4A 0x7E kind bytes

/-- A free value of the spec, fresh for each use. -/
def freeNat (s : State) : Nat := Config.freeValue s.freeCount

/-- The counter behind the free values, advanced. -/
def freeStep (s : State) : State := { s with freeCount := s.freeCount + 1 }

def fnOf (s : State) (k : Nat) : Fn := tget {} s.fns k
def setFn (k : Nat) (f : Fn) (s : State) : State := { s with fns := tset {} s.fns k f }
def modFn (k : Nat) (g : Fn → Fn) (s : State) : State := setFn k (g (fnOf s k)) s

def stackOf (s : State) (n : Nat) : Stack := tget {} s.stk n
def setStack (n : Nat) (v : Stack) (s : State) : State := { s with stk := tset {} s.stk n v }
def modStack (n : Nat) (g : Stack → Stack) (s : State) : State := setStack n (g (stackOf s n)) s

def chanOf (s : State) (n : Nat) : Chan := tget {} s.chans n
def setChan (n : Nat) (v : Chan) (s : State) : State := { s with chans := tset {} s.chans n v }
def modChan (n : Nat) (g : Chan → Chan) (s : State) : State := setChan n (g (chanOf s n)) s

def pcOf (s : State) (n : Nat) : Pc := tget {} s.pcs n
def setPc (n : Nat) (v : Pc) (s : State) : State := { s with pcs := tset {} s.pcs n v }
def modPc (n : Nat) (g : Pc → Pc) (s : State) : State := setPc n (g (pcOf s n)) s

def partOf (s : State) (t : Nat) : Part := tget {} s.parts t
def setPart (t : Nat) (v : Part) (s : State) : State := { s with parts := tset {} s.parts t v }
def modPart (t : Nat) (g : Part → Part) (s : State) : State := setPart t (g (partOf s t)) s

def dieOf (s : State) (n : Nat) : Die := tget {} s.dies n
def setDie (n : Nat) (v : Die) (s : State) : State := { s with dies := tset {} s.dies n v }
def modDie (n : Nat) (g : Die → Die) (s : State) : State := setDie n (g (dieOf s n)) s

def listOf (s : State) (h : Nat) : Option BrewList := tfind s.compute.lists h
def setList (h : Nat) (v : BrewList) (s : State) : State :=
  { s with compute := { s.compute with lists := tput s.compute.lists h v } }
def dropList (h : Nat) (s : State) : State :=
  { s with compute := { s.compute with lists := terase s.compute.lists h } }

def tileOf (s : State) (t : Nat) : Tile := tget {} s.compute.tiles t
def setTile (t : Nat) (v : Tile) (s : State) : State :=
  { s with compute := { s.compute with tiles := tset {} s.compute.tiles t v } }
def modTile (t : Nat) (g : Tile → Tile) (s : State) : State := setTile t (g (tileOf s t)) s

def infuserOf (s : State) (n : Nat) : Infuser := tget {} s.infusers n
def setInfuser (n : Nat) (v : Infuser) (s : State) : State := { s with infusers := tset {} s.infusers n v }
def modInfuser (n : Nat) (g : Infuser → Infuser) (s : State) : State := setInfuser n (g (infuserOf s n)) s

def portOf (s : State) (k : Nat) : Port := tget {} s.peers.ports k
def setPort (k : Nat) (v : Port) (s : State) : State :=
  { s with peers := { s.peers with ports := tset {} s.peers.ports k v } }
def modPort (k : Nat) (g : Port → Port) (s : State) : State := setPort k (g (portOf s k)) s

/-- The key of connection c of port k; connection 64 is the twin connection. -/
def connKey (k c : Nat) : Nat := k * 65 + c

def connOf (s : State) (k c : Nat) : Conn := tget {} s.peers.conns (connKey k c)
def setConn (k c : Nat) (v : Conn) (s : State) : State :=
  { s with peers := { s.peers with conns := tset {} s.peers.conns (connKey k c) v } }
def modConn (k c : Nat) (g : Conn → Conn) (s : State) : State := setConn k c (g (connOf s k c)) s

def twinPartOf (s : State) (t : Nat) : TwinPart := tget {} s.twin.parts t
def setTwinPart (t : Nat) (v : TwinPart) (s : State) : State :=
  { s with twin := { s.twin with parts := tset {} s.twin.parts t v } }
def modTwinPart (t : Nat) (g : TwinPart → TwinPart) (s : State) : State := setTwinPart t (g (twinPartOf s t)) s

def exerOf (s : State) (n : Nat) : Exer := tget {} s.exers n
def setExer (n : Nat) (v : Exer) (s : State) : State := { s with exers := tset {} s.exers n v }
def modExer (n : Nat) (g : Exer → Exer) (s : State) : State := setExer n (g (exerOf s n)) s

/-! ## AVSBus (R86) -/

/-- The bus and rail select of core rail r: AVS0 carries VCORE_H, AVS1 the four VCORE_F rails. -/
def avsBus (r : Nat) : Nat := if r = 0 then 0 else 1
def avsSel (r : Nat) : Nat := r - 1

/-- A Voltage write, Voltage read and Status read of rail r. -/
def avsWrite (r mv : Nat) (s : State) : State := emit (.avsWrite (avsBus r) (avsSel r) mv) s
def avsRead (r : Nat) (s : State) : State := emit (.avsRead (avsBus r) (avsSel r)) s
def avsStatus (r : Nat) (s : State) : State := emit (.avsStatus (avsBus r) (avsSel r)) s

/-! ## Counters (R444) -/

/-- Event counter i raised by n; value and wrap count are one 64-bit count (R444, R451). -/
def countEvent (i n : Nat) (s : State) : State :=
  { s with tele := { s.tele with events := tset 0 s.tele.events i ((cget s.tele.events i + n) % 2 ^ 64) } }

/-- Volume counter i raised by n bytes, or by n pJ for an energy volume. -/
def countVolume (i n : Nat) (s : State) : State :=
  { s with tele := { s.tele with volumes := cadd s.tele.volumes i n } }

/-- Index of stack counter i of stack n (Table 16.1). -/
def stackCtr (n i : Nat) : Nat := 256 + 32 * n + i

/-- Index of port counter i of port k (Table 16.1). -/
def portCtr (k i : Nat) : Nat := 512 + 32 * k + i

/-- Index of device counter i (Table 16.1). -/
def devCtr (i : Nat) : Nat := 640 + i

/-! ## Stacks and stages -/

/-- The stage number DEV_STATUS shows (Table 4.7). -/
def stageCode : Stage → Nat
  | .romCheck => 0
  | .romLoad => 1
  | .yaresk => 2
  | .steepDelay => 3
  | .training => 4
  | .ready => 5
  | .recovery => 6
  | .stopped => 7
  | .warm => 8

/-- Stacks online, bit n for Sn. -/
def onlineMask (s : State) : Nat := maskOf ((List.range 8).filter (fun n => (stackOf s n).online))

/-- Stacks retired, bit n for Sn. -/
def retiredMask (s : State) : Nat := maskOf ((List.range 8).filter (fun n => (stackOf s n).retired))

/-- The device serves mailbox commands: the ready stage, or the PF's in the recovery-only stage (R117, R119), while it
does not wait for a reset (R96, R103, R345) and the HKP does not restart (R123). -/
def serving (s : State) : Bool :=
  (s.boot.stage == .ready || s.boot.stage == .recovery) && s.boot.halt == .none && !s.boot.hkpReloading

/-! ## Interrupts (R139) -/

/-- Doubleword i of the function's MSI-X table; every vector is masked after reset, as PCIe gives it. -/
def msixDword (f : Fn) (i : Nat) : BitVec 32 := (tfind f.msix i).getD (if i % 4 = 3 then 1 else 0)

/-- Raises vector v of function k: sends its message, or sets its pending bit while it is masked. -/
def raiseVector (k v : Nat) (s : State) : State :=
  let f := fnOf s k
  if (msixDword f (4 * v + 3)).getLsbD 0 then
    setFn k { f with msixPending := f.msixPending ||| BitVec.ofNat 8 (2 ^ v) } s
  else emit (.msix k v) s

/-- The vector of an INT_STATUS bit. -/
def vectorOf (bit : Nat) : Nat := if bit = 0 then 0 else if bit ≤ 2 then 1 else 2

/-- Sets INT_STATUS bit of function k, raising its vector when the bit becomes set while enabled. -/
def setInt (k bit : Nat) (s : State) : State :=
  let f := fnOf s k
  if f.intStatus.getLsbD bit then s
  else
    let s' := setFn k { f with intStatus := f.intStatus ||| BitVec.ofNat 6 (2 ^ bit) } s
    if f.intEnable.getLsbD bit then raiseVector k (vectorOf bit) s' else s'

/-- Sets one INT_STATUS bit in every function. -/
def setIntAll (bit : Nat) (s : State) : State := (List.range 128).foldl (fun s k => setInt k bit s) s

/-! ## Events (R454 to R456) -/

/-- The 32 bytes of an event (Table 16.6). -/
def eventBytes (code tenant sev stack : Nat) (payload : List Byte) : List Byte :=
  leBytes 2 code ++ leBytes 2 tenant ++ leBytes 1 sev ++ leBytes 1 stack ++ [0, 0] ++ padTo 24 payload

/-- A ring entry with its phase bit (R133): byte 6 bit 0, 1 on even passes over a ring of n entries. -/
def withPhase (count n : Nat) (bs : List Byte) : List Byte :=
  bs.set 6 (if count / n % 2 = 0 then 1 else 0)

/-- Counts an event the ring of function k did not take, and whether the ring was full. -/
def loseEvent (k : Nat) (full : Bool) (s : State) : State :=
  let s := modFn k (fun f => { f with evtLost := f.evtLost + 1 }) s
  let s := setInt k 2 s
  if full then countEvent (devCtr 15) 1 s else s

/-- The event ring of function k is full. -/
def eventRingFull (f : Fn) : Bool := 64 ≤ (f.evtTail - f.evtHead).toNat

/-- The ring drops an event for function k: disabled or full. -/
def eventDrops (s : State) (k : Nat) : Bool :=
  let f := fnOf s k
  !f.events || (!f.stopped && eventRingFull f)

/-- Writes an event to the event ring of function k (R133, R140). -/
def ringEvent (k : Nat) (bytes : List Byte) (s : State) : State :=
  let f := fnOf s k
  if !f.events then loseEvent k false s
  else if f.stopped then setFn k { f with heldEvents := f.heldEvents ++ [bytes] } s
  else if eventRingFull f then loseEvent k true s
  else
    let c := f.evtTail.toNat
    let s := emit (.ringWrite k (f.evtBase.toNat + 32 * (c % 64)) (withPhase c 64 bytes)) s
    let s := setFn k { f with evtTail := f.evtTail + 1 } s
    setInt k 1 (countEvent (devCtr 14) 1 s)

/-- The log after a new entry (R456): a fatal entry is pinned while fewer than 64 are; at 4096 entries the oldest
that is not pinned is overwritten. -/
def logAdd (e : LogEntry) (t : Tele) : Tele :=
  let e := { e with seq := t.logSeq }
  let t := { t with logSeq := t.logSeq + 1 }
  if t.log.length < 4096 then { t with log := t.log ++ [e] }
  else { t with log := dropFirst t.log (fun x => !x.pinned) ++ [e], overwritten := satTo 32 (t.overwritten + 1) }

/-- Logs an event and writes it to the rings of the listed functions (R455). -/
def logRecord (code tenant sev stack : Nat) (payload : List Byte) (rings : List Nat) (s : State) : State :=
  let bytes := eventBytes code tenant sev stack payload
  let dropped := rings.any (eventDrops s)
  let pinned := sev == 3 && decide ((s.tele.log.filter (·.pinned)).length < 64)
  let s := rings.foldl (fun s k => ringEvent k bytes s) s
  { s with tele := logAdd { bytes := bytes, timebase := now s, seq := 0, pinned := pinned, dropped := dropped } s.tele }

/-- Logs an event whose arguments stand in bytes 8 to 23, with the timebase in bytes 24 to 31 (R454). -/
def logEvent (code tenant sev stack : Nat) (args : List Byte) (rings : List Nat) (s : State) : State :=
  logRecord code tenant sev stack (padTo 16 args ++ leBytes 8 (now s)) rings s

/-- The tenant field of an event of the device. -/
def noTenant : Nat := 0xFFFF

/-- The stack field of an event of no stack. -/
def noStack : Nat := 0xFF

/-- An event of the device for the PF's ring. -/
def devEvent (code sev : Nat) (args : List Byte) (s : State) : State :=
  logEvent code noTenant sev noStack args [0] s

/-- Asserts DEV_ALERT_N for the log entry of a sequence, until the PF has read from it (R502). -/
def assertAlert (seq : Nat) (s : State) : State := { s with pins := { s.pins with devAlert := true, alertSeq := seq } }

/-- An event of the device that asserts DEV_ALERT_N (R96, R97, R101, R103, R311). -/
def alertEvent (code sev : Nat) (args : List Byte) (rings : List Nat) (s : State) : State :=
  assertAlert s.tele.logSeq.toNat (logEvent code noTenant sev noStack args rings s)

/-! ## Mailbox commands -/

/-- The tenant a command acts for (Table 4.8). The out-of-band channel's 0xFFFF names T000 (DESIGN CHOICE). -/
def cmdTarget (c : Cmd) : Nat :=
  if c.tenant = 0xFFFF#16 then
    match c.issuer with
    | .fn k => k.val
    | .oob => 0
  else c.tenant.toNat

/-- The staging area of an issuer: the function's number, or 128 for the out-of-band channel. -/
def cmdArea (c : Cmd) : Nat :=
  match c.issuer with
  | .fn k => k.val
  | .oob => 128

/-- The function whose requester ID the command's host accesses carry (R507); the out-of-band channel uses the PF's
places. -/
def cmdFn (c : Cmd) : Nat :=
  match c.issuer with
  | .fn k => k.val
  | .oob => 0

/-- Parameter field: n bytes at parameter byte off. -/
def par (c : Cmd) (off n : Nat) : Nat := leAt c.params off n

/-- Field of what host memory returned. -/
def hostAt (c : Cmd) (off n : Nat) : Nat := leAt c.hostIn off n

/-- Issued by the PF or, out of band, by the board. -/
def cmdPf (c : Cmd) : Bool :=
  match c.issuer with
  | .fn k => k.val == 0
  | .oob => false

/-- Who may issue a command (Table 20.2): `vf` that a virtual function may, `perm` the permission bit it needs,
`oob` whether the out-of-band channel may always (`some none`) or with a bit, and the recovery, master and lock
marks. -/
structure AccessRow where
  vf : Bool
  perm : Option Nat := none
  oob : Option (Option Nat) := none
  recovery : Bool := false
  master : Bool := false
  level1 : Bool := false
  deriving DecidableEq, Repr

/-- Table 20.2's access column; none for an undefined opcode. -/
def accessOf (op : Nat) : Option AccessRow :=
  match op with
  | 0x0001 | 0x0002 | 0x0003 | 0x0005 | 0x0101 | 0x0102 | 0x0800 | 0x0802 | 0x0805 | 0x0808 | 0x0809 | 0x080B =>
    some { vf := true, oob := some none }
  | 0x0042 | 0x0F00 => some { vf := true, oob := some none, recovery := true }
  | 0x0040 => some { vf := false, oob := some (some 17), recovery := true }
  | 0x0041 => some { vf := true, oob := some (some 17) }
  | 0x0100 => some { vf := true, oob := some (some 16) }
  | 0x0106 => some { vf := false, oob := some none }
  | 0x0801 | 0x0804 => some { vf := false, oob := some (some 16) }
  | 0x0806 | 0x0807 => some { vf := false, master := true }
  | 0x0300 => some { vf := true, perm := some 5 }
  | 0x0A00 => some { vf := true, perm := some 2 }
  | 0x0B01 | 0x0B02 | 0x0B03 | 0x0B04 | 0x0B05 | 0x0B06 | 0x0B07 | 0x0B08 => some { vf := true, perm := some 3 }
  | 0x0C08 => some { vf := true, perm := some 4 }
  | 0x0D02 => some { vf := true, perm := some 0 }
  | 0x0D03 => some { vf := true, perm := some 1 }
  | 0x0F01 | 0x0F02 | 0x0F03 | 0x0F04 => some { vf := false, oob := some (some 18), recovery := true }
  | 0x0F05 => some { vf := false, oob := some none, recovery := true }
  | 0x0E09 => some { vf := false, level1 := true }
  | 0x0103 | 0x0205 | 0x0208 | 0x020A | 0x0301 | 0x0302 | 0x0305 | 0x0407 | 0x0505 | 0x0900 | 0x0901 | 0x0902
  | 0x0A01 | 0x0A02 | 0x0C00 | 0x0C07 | 0x0D01 => some { vf := true }
  | 0x0004 | 0x0104 | 0x0105 | 0x0200 | 0x0201 | 0x0202 | 0x0203 | 0x0204 | 0x0206 | 0x0207 | 0x0209 | 0x0303
  | 0x0304 | 0x0400 | 0x0401 | 0x0402 | 0x0403 | 0x0404 | 0x0405 | 0x0406 | 0x0500 | 0x0501 | 0x0502 | 0x0503
  | 0x0504 | 0x0600 | 0x0601 | 0x0602 | 0x0603 | 0x0604 | 0x0605 | 0x0700 | 0x0701 | 0x0702 | 0x0803 | 0x080A
  | 0x080C | 0x0903 | 0x0A03 | 0x0A04 | 0x0A05 | 0x0B00 | 0x0C01 | 0x0C02 | 0x0C03 | 0x0C04 | 0x0C05 | 0x0C06
  | 0x0C09 | 0x0D00 | 0x0D04 | 0x0D05 | 0x0E00 | 0x0E01 | 0x0E02 | 0x0E03 | 0x0E04 | 0x0E05 | 0x0E06 | 0x0E07
  | 0x0E08 => some { vf := false }
  | _ => none

/-- The store with the valid half of the higher generation active (R162). -/
def bestHalf (st : Store) : Store :=
  let use1 := st.half1.ok && (!st.half0.ok || decide (st.half0.generation < st.half1.generation))
  { st with half := if use1 then 1 else 0 }

/-- What the active half restores: its snapshot, then its records in order up to the first that does not verify (R162). -/
def replayed (st : Store) : Table (List Nat) :=
  ((st.active.recs.takeWhile (·.ok)).flatMap (·.entries)).foldl (fun t e => tput t e.1 e.2) st.active.snapshot

/-- The out-of-band permission word: in force, or in the recovery-only stage the one the configuration store holds
(R167). -/
def oobWord (s : State) : Nat :=
  if s.boot.stage = .recovery then
    let st := bestHalf s.flash.store
    if st.valid then ((tfind (replayed st) (cfgKey 0x0004 0 0x80)).getD [0]).headD 0 else 0
  else permWord s 0x80

/-- The kettle-bus mode strapped (R98): 0 member, 1 master, 2 and 3 off. -/
def kbStrap (s : State) : Nat := s.pins.straps.toNat % 4

/-- The status a command is refused with before it has any effect (R19, R117, R134, R165, R167), if any. -/
def gate (op : Nat) (c : Cmd) (s : State) : Option Nat :=
  match accessOf op with
  | none => some stBadOpcode
  | some a =>
    if s.boot.stage = .recovery && !a.recovery then some stRecoveryOnly
    else
      let refused :=
        match c.issuer with
        | .oob =>
          match a.oob with
          | none => true
          | some none => false
          | some (some b) => !bitOf (oobWord s) b
        | .fn k =>
          k.val != 0 &&
            (!a.vf || (c.tenant != 0xFFFF#16 && c.tenant.toNat != k.val) ||
              (match a.perm with
                | none => false
                | some b => !bitOf (permWord s k.val) b))
      if refused then some stNotPermitted
      else if c.tenant != 0xFFFF#16 && 128 ≤ c.tenant.toNat then some stBadParam
      else if a.master && kbStrap s != 1 then some stNotPermitted
      else if a.level1 && s.dbg.level == 0 then some stTestLocked
      else none

/-- A command of function k. -/
def ofFn (k : Nat) (e : Exec) : Bool :=
  match e.cmd.issuer with
  | .fn j => j.val == k
  | .oob => false

/-- The entry counts against the PF's reserved places. -/
def pfPlace (e : Exec) : Bool := ofFn 0 e || e.cmd.issuer == .oob

/-- An execution place is free for the PF's kind of command, or for another's (R137). -/
def placeFree (s : State) (pf : Bool) : Bool :=
  let p := (s.cmds.filter pfPlace).length
  decide (s.cmds.length < 1024) && (pf || decide (s.cmds.length - p + (p - 64) < 960))

/-- The out-of-band channel has fewer than its 4 commands executing (R166). -/
def oobFree (s : State) : Bool := decide ((s.cmds.filter (fun e => e.cmd.issuer == .oob)).length < 4)

/-- An execution place is free for a command of an issuer (R137, R166). -/
def placeFor (s : State) (i : Issuer) : Bool :=
  match i with
  | .fn k => placeFree s (k.val == 0)
  | .oob => placeFree s true && oobFree s

/-- The entry of an executing command that a row acts for. -/
def execMatches (op : Nat) (c : Cmd) (e : Exec) : Bool :=
  e.op.toNat == op && e.cmd.issuer == c.issuer && e.cmd.seq == c.seq && e.cmd.tag == c.tag && e.done.isNone

/-- The pours of an issuer that are not accepted are forgotten, their commands with them (Table 5.4). -/
def dropPours (p : Cmd → Bool) (s : State) : State :=
  let gone := (s.cfg.waiting.map (·.cmd)).filter p
  { s with
    cfg := { s.cfg with waiting := s.cfg.waiting.filter (fun r => !p r.cmd) },
    cmds := s.cmds.filter (fun e => !gone.any (fun c => execMatches 0x0100 c e)) }

/-- Ends a command with a status and result bytes (R135): its entry waits for a completion slot (R133), or is dropped
where a reset of its mailbox discarded its completion (R142). -/
def finish (op : Nat) (c : Cmd) (status : Nat) (result : List Byte) (s : State) : State :=
  let d := some (BitVec.ofNat 16 status, padTo 16 result)
  match s.cmds.find? (execMatches op c) with
  | none => { s with cmds := s.cmds ++ [{ op := BitVec.ofNat 16 op, cmd := c, done := d }] }
  | some e =>
    if e.discard then { s with cmds := dropFirst s.cmds (execMatches op c) }
    else { s with cmds := modFirst s.cmds (execMatches op c) (fun e => { e with done := d, started := true }) }

/-- A command that goes on executing: it holds a place until a later event ends it. -/
def hold (op : Nat) (c : Cmd) (s : State) : State :=
  if s.cmds.any (execMatches op c) then
    { s with cmds := modFirst s.cmds (execMatches op c) (fun e => { e with started := true, since := now s }) }
  else { s with cmds := s.cmds ++ [{ op := BitVec.ofNat 16 op, cmd := c, since := now s }] }

/-- What a command's own work answers: finished with a status and result, still executing, or settled by the work
itself. -/
inductive Reply where
  | done (s : State) (status : Nat) (result : List Byte)
  | wait (s : State)
  | over (s : State)

/-- A command that has been fetched and has not started: it waits for its turn (R137). -/
def notStarted (op : Nat) (c : Cmd) (s : State) : Bool := s.cmds.any (fun e => execMatches op c e && !e.started)

/-- A command has a place: the one its fetch took, or one that is free, which a row that no fetch went before takes. -/
def hasPlace (op : Nat) (c : Cmd) (s : State) : Bool := s.cmds.any (execMatches op c) || placeFor s c.issuer

/-- A command is served: in the stages that serve mailboxes; and PD_STATUS out of band after a loss of the core supply,
which it shows (R96; DESIGN CHOICE, log entry 73). -/
def servesCmd (op : Nat) (i : Issuer) (s : State) : Bool :=
  serving s || (op == 0x0809 && i == .oob && s.boot.halt == .coreLost)

/-- A command is taken: it is served, its turn has come, and it has a place (R119, R137). -/
def taken (op : Nat) (c : Cmd) (s : State) : Bool := servesCmd op c.issuer s && !notStarted op c s && hasPlace op c s

/-- A mailbox command as a whole: the gate, then its own work, then its completion; one that is not taken has no effect. -/
def mailbox (op : Nat) (c : Cmd) (work : State → Reply) (s : State) : State :=
  if !taken op c s then s
  else
    match gate op c s with
    | some st => finish op c st [] s
    | none =>
      match work s with
      | .done s' st r => finish op c st r s'
      | .wait s' => hold op c s'
      | .over s' => s'

/-! ## Staging (R145, R146) -/

/-- Entries a staging area holds (R145). -/
def areaSize (area : Nat) : Nat := if area = 0 then 1024 else 64

/-- The staged entries of an area. -/
def staged (s : State) (area : Nat) : Table (List Nat) := tget [] s.cfg.areas area

/-- Stages entries in the issuer's area; a later steep of an entry replaces the earlier (R145). -/
def steep (c : Cmd) (entries : List (Nat × List Nat)) (s : State) : Reply :=
  let a := entries.foldl (fun t e => tput t e.1 e.2) (staged s (cmdArea c))
  if areaSize (cmdArea c) < a.length then .done s stSteepFull []
  else .done { s with cfg := { s.cfg with areas := tset [] s.cfg.areas (cmdArea c) a } } stOK []

end Sys2Proof.Machine
end

