-- ==== Sys2Proof/Machine/SectorCode.lean ====
section
/-! DEFINITION. The sector code (R254 to R259): Reed-Solomon over GF(2^8) with the colour as a virtual symbol, the
poison mask, and the classification of a sector read under each decode policy. -/

namespace Sys2Proof.Machine

open Sys2Proof

/-- Multiplication by α in GF(2^8) with polynomial 0x11D (R255). -/
def gfX (a : Byte) : Byte := if a.getMsbD 0 then (a <<< 1) ^^^ 0x1D#8 else a <<< 1

/-- a · α^n. -/
def gfShift (n : Nat) (a : Byte) : Byte :=
  match n with
  | 0 => a
  | n + 1 => gfShift n (gfX a)

/-- Product in GF(2^8). -/
def gfMul (a b : Byte) : Byte :=
  (List.range 8).foldl (fun acc i => if b.getLsbD i then acc ^^^ gfShift i a else acc) 0

/-- α^n. -/
def gfAlpha (n : Nat) : Byte := gfShift n 1

/-- a^(2^n - 1) with n squarings: the inverse for n = 8 less one step, a^254 = (a^127)^2. -/
def gfOnes (n : Nat) (a : Byte) : Byte :=
  match n with
  | 0 => 1
  | n + 1 => let r := gfOnes n a; gfMul (gfMul r r) a

/-- Multiplicative inverse: a^254 (0 for a = 0). -/
def gfInv (a : Byte) : Byte := let r := gfOnes 7 a; gfMul r r

/-- One step of the division by g(x) = x^4 + 0x0F x^3 + 0x36 x^2 + 0x78 x + 0x40. -/
def rsStep (c : Byte × Byte × Byte × Byte) (sym : Byte) : Byte × Byte × Byte × Byte :=
  let fb := sym ^^^ c.1
  (c.2.1 ^^^ gfMul 0x0F fb, c.2.2.1 ^^^ gfMul 0x36 fb, c.2.2.2 ^^^ gfMul 0x78 fb, gfMul 0x40 fb)

/-- The four check bytes of a sector's data under a colour (R255). -/
def checkBytes (colour : Byte) (data : List Byte) : List Byte :=
  let c := (colour :: padTo 32 data).foldl rsStep (0, 0, 0, 0)
  [c.1, c.2.1, c.2.2.1, c.2.2.2]

/-- The poison mask Q (R257). -/
def poisonMask : List Byte := [0x01, 0x07, 0x0E, 0x08]

/-- The 36 stored bytes of a sector: data, then check bytes, with Q for a poisoned sector (R255, R257). -/
def encodeSector (colour : Byte) (poison : Bool) (data : List Byte) : List Byte :=
  let c := checkBytes colour data
  padTo 32 data ++ (if poison then List.zipWith (· ^^^ ·) c poisonMask else c)

/-- S_j of the 36 stored bytes under the expected colour (R256). -/
def syndrome (colour : Byte) (stored : List Byte) (j : Nat) : Byte :=
  (colour :: padTo 36 stored).foldl (fun acc sym => gfShift j acc ^^^ sym) 0

/-- The four syndromes. -/
def syndromes (colour : Byte) (stored : List Byte) : List Byte := (List.range 4).map (syndrome colour stored)

/-- What a sector read decodes to (Table 9.3). `bad` lists positions and values of the corrected symbols. -/
inductive SectorOutcome where
  | clean
  | poison
  | mismatch
  | corrected (bad : List (Nat × Byte))
  | uncorrectable
  deriving DecidableEq, Repr

/-- The value v at position p explains the syndromes alone. -/
def explains1 (sy : List Byte) (p : Nat) : Bool :=
  let v := sy.getD 0 0
  v != 0 && (List.range 4).all (fun j => gfMul v (gfAlpha (p * j)) == sy.getD j 0)

/-- The two values at positions a and b that S_0 and S_1 give. -/
def pairValues (sy : List Byte) (a b : Nat) : Byte × Byte :=
  let s0 := sy.getD 0 0
  let v := gfMul (sy.getD 1 0 ^^^ gfMul s0 (gfAlpha b)) (gfInv (gfAlpha a ^^^ gfAlpha b))
  (v, s0 ^^^ v)

/-- Values at positions a and b explain the syndromes. -/
def explains2 (sy : List Byte) (a b : Nat) : Bool :=
  let (v, w) := pairValues sy a b
  v != 0 && w != 0 &&
    (List.range 4).all (fun j => gfMul v (gfAlpha (a * j)) ^^^ gfMul w (gfAlpha (b * j)) == sy.getD j 0)

/-- The one-symbol pattern of the syndromes, if there is one. -/
def singlePattern (sy : List Byte) : Option (List (Nat × Byte)) :=
  match (List.range 37).find? (explains1 sy) with
  | none => none
  | some p => some [(p, sy.getD 0 0)]

/-- The two-symbol pattern of the syndromes, if there is one. -/
def doublePattern (sy : List Byte) : Option (List (Nat × Byte)) :=
  match ((List.range 37).flatMap (fun a => (List.range a).map (fun b => (a, b)))).find?
      (fun ab => explains2 sy ab.1 ab.2) with
  | none => none
  | some (a, b) => let vw := pairValues sy a b; some [(a, vw.1), (b, vw.2)]

/-- The number of bad bytes a policy corrects (Table 9.2). -/
def policyRadius (policy : Nat) : Nat := if policy = 0 then 2 else if policy = 1 then 1 else 0

/-- The poison syndrome Σ_P. -/
def poisonSyndrome : List Byte := [0x00, 0x00, 0x00, 0x9F]

/-- Classification of a sector read (Table 9.3). -/
def classify (policy : Nat) (colour : Byte) (stored : List Byte) : SectorOutcome :=
  let sy := syndromes colour stored
  if sy = [0, 0, 0, 0] then .clean
  else if sy = poisonSyndrome then .poison
  else
    match singlePattern sy with
    | some bad =>
      if bad.any (fun e => e.1 == 36) then .mismatch
      else if 1 ≤ policyRadius policy then .corrected bad else .uncorrectable
    | none =>
      if policy = 0 then
        match doublePattern sy with
        | some bad => if bad.any (fun e => e.1 == 36) then .mismatch else .corrected bad
        | none => .uncorrectable
      else .uncorrectable

/-- The stored byte index of a code position below 36: data byte 35 - p, or check byte 3 - p. -/
def posByte (p : Nat) : Nat := if 4 ≤ p then 35 - p else 32 + (3 - p)

/-- Stored bytes after correction. -/
def correctStored (stored : List Byte) (bad : List (Nat × Byte)) : List Byte :=
  bad.foldl (fun l e => l.set (posByte e.1) (l.getD (posByte e.1) 0 ^^^ e.2)) (padTo 36 stored)

/-- The data a read returns (Table 9.4): corrected, or as read. -/
def outcomeData (stored : List Byte) (o : SectorOutcome) : List Byte :=
  match o with
  | .corrected bad => (correctStored stored bad).take 32
  | _ => (padTo 36 stored).take 32

/-- A failed sector (R262): poison, colour mismatch or uncorrectable. -/
def SectorOutcome.failed : SectorOutcome → Bool
  | .poison | .mismatch | .uncorrectable => true
  | _ => false

/-- The status an outcome gives (Table 9.3). -/
def outcomeStatus : SectorOutcome → Nat
  | .clean => 0
  | .corrected _ => 1
  | _ => 0x000F

/-- A correction at the full radius of the policy. -/
def fullRadius (policy : Nat) (o : SectorOutcome) : Bool :=
  match o with
  | .corrected bad => bad.length == policyRadius policy
  | _ => false

end Sys2Proof.Machine
end

