-- ==== Sys2Proof/Machine/Memory.lean ====
section
/-! DEFINITION. Addresses and stored contents: tenant addresses (R170, R178 to R183, R508), hashing (R173, R174),
remap and fold tables (R176, R295 to R301), the stored bytes of HBM sectors, and the pot's words (R264, R376). -/

namespace Sys2Proof.Machine

open Sys2Proof

/-! ## Geometry (Table 0.1, R171, R173, R295) -/

/-- Row blocks (1 MiB) of a full stack, R_C. -/
def rowBlocks (big : Bool) : Nat := if big then 65536 else 49152

/-- Row blocks of one channel's share, R_W. -/
def bandBlocks (big : Bool) : Nat := rowBlocks big / 32

/-- Stack IDs in use. -/
def sids (big : Bool) : Nat := if big then 4 else 3

/-- Banks per pseudo-channel. -/
def bankCount (big : Bool) : Nat := if big then 64 else 48

/-- Height in layers and capacity in GiB. -/
def stackHeight (big : Bool) : Nat := if big then 16 else 12
def stackGib (big : Bool) : Nat := if big then 64 else 48

/-- The usable range in row blocks with m channels mapped out: U (R171). -/
def usableBlocks (big : Bool) (m : Nat) : Nat := rowBlocks big - m * bandBlocks big

/-- Extents of a stack with m channels mapped out; the last is short. -/
def extentCount (big : Bool) (m : Nat) : Nat := usableBlocks big m / 256

/-- First row block of the reserved range: B (R172). -/
def reservedBlock (big : Bool) (m : Nat) : Nat := usableBlocks big m - 64

/-- Channels of stack n mapped out. -/
def mappedCount (s : State) (n : Nat) : Nat := (stackOf s n).mapped.length

/-- Usable capacity of a stack in MiB, less the reserved 64 MiB (Table 1.4); 0 for a retired stack. -/
def usableMiB (s : State) (n : Nat) : Nat :=
  if (stackOf s n).retired then 0 else usableBlocks s.ident.big (mappedCount s n) - 64

/-- The vacate range of the next map-out: first and last extent (R295). -/
def vacateRange (big : Bool) (m : Nat) : Nat × Nat :=
  ((usableBlocks big m - bandBlocks big) / 256 - 1, usableBlocks big m / 256 - 1)

/-! ## Hashing (R174) -/

/-- Parity of the low 36 bits. -/
def parity36 (w : Nat) : Bool := (List.range 36).foldl (fun p i => p != w.testBit i) false

/-- One hash bit: the parity of offset AND mask. -/
def hashBit (o mask : Nat) : Nat := if parity36 (Nat.land o mask) then 1 else 0

/-- The ten masks of a stack in force. -/
def hashMasks (s : State) (n : Nat) : List Nat := cfgList s 0x0203 0 n

/-- The pseudo-channel hash of an offset: 6 bits. -/
def pcHash (masks : List Nat) (o : Nat) : Nat :=
  sumOf ((List.range 6).map (fun i => hashBit o (masks.getD i 0) * 2 ^ i))

/-- The bank-group hash. -/
def bgHash (masks : List Nat) (o : Nat) : Nat :=
  hashBit o (masks.getD 6 0) + 2 * hashBit o (masks.getD 7 0)

/-- The bank hash. -/
def bankHash (masks : List Nat) (o : Nat) : Nat :=
  hashBit o (masks.getD 8 0) + 2 * hashBit o (masks.getD 9 0)

/-! ## Fold tables (R298 to R301) -/

/-- A fold table: 1024 slots, each the target pseudo-channel and bank while valid. -/
abbrev FoldTable := List (Option (Nat × Nat))

/-- Physical pseudo-channels that survive a mapped-out list, in ascending order. -/
def survivors (mapped : List Nat) : List Nat := (List.range 64).filter (fun p => !mapped.contains (p / 2))

/-- The table of the newest band, with M channels mapped out (R301). -/
def newBand (mapped : List Nat) : FoldTable :=
  let m := mapped.length
  let sv := survivors mapped
  (List.range 1024).map (fun s =>
    let p := s / 512
    let g := s / 16 % 32
    let b := s % 16
    if g < 32 - m then some (sv.getD ((2 * g + p + 2 * b) % (64 - 2 * m)) 0, b) else none)

/-- Insert a target in rising order of pseudo-channel, then bank. -/
def insertTarget (x : Nat × Nat) (l : List (Nat × Nat)) : List (Nat × Nat) :=
  match l with
  | [] => [x]
  | y :: r => if x.1 < y.1 || (x.1 == y.1 && x.2 ≤ y.2) then x :: y :: r else y :: insertTarget x r

/-- Gives every valid slot on channel c the next spare target. -/
def giveSpare (c : Nat) (t : FoldTable) (spare : List (Nat × Nat)) : FoldTable :=
  match t with
  | [] => []
  | some (pc, b) :: r =>
    if pc / 2 = c then
      match spare with
      | [] => none :: giveSpare c r []
      | x :: rest => some x :: giveSpare c r rest
    else some (pc, b) :: giveSpare c r spare
  | none :: r => none :: giveSpare c r spare

/-- An earlier band's table after channel c is the M-th mapped out (R301). -/
def editBand (m c : Nat) (t : FoldTable) : FoldTable :=
  let gf := 32 - m
  let idx := (List.range 1024).zip t
  let spare := (idx.filterMap (fun e => if e.1 / 16 % 32 = gf then e.2 else none)).filter (fun x => x.1 / 2 != c)
  let t' := idx.map (fun e => if e.1 / 16 % 32 = gf then none else e.2)
  giveSpare c t' (spare.foldl (fun l x => insertTarget x l) [])

/-- The fold tables of a mapped-out list, built from the first entry on. -/
def foldTablesFrom (done : List Nat) (tables : List FoldTable) (rest : List Nat) : List FoldTable :=
  match rest with
  | [] => tables
  | c :: r =>
    let mapped := done ++ [c]
    foldTablesFrom mapped (tables.map (editBand mapped.length c) ++ [newBand mapped]) r

/-- The fold tables are a function of the mapped-out list alone (R301). -/
def foldTables (mapped : List Nat) : List FoldTable := foldTablesFrom [] [] mapped

/-! ## From an offset to a place in DRAM -/

/-- A line's place: physical pseudo-channel 0 to 63, bank index, row and line; and whether it is folded. -/
structure Place where
  pc : Nat
  bank : Nat
  row : Nat
  line : Nat
  folded : Bool
  deriving DecidableEq, Repr

/-- The place of a stack offset under a mapped-out list and masks (R173, R176, R300). -/
def placeOf (big : Bool) (mapped : List Nat) (masks : List Nat) (o : Nat) : Place :=
  let h := pcHash masks o
  let b := bgHash masks o * 4 + bankHash masks o
  let blk := o / 1048576
  let line := o / 64 % 16
  if mapped.contains (h / 2) then
    let k := (findIdx? mapped (· == h / 2)).getD 0
    let g := blk / bandBlocks big
    let r := blk % bandBlocks big
    let e := (((foldTables mapped).getD k []).getD ((h % 2 * 32 + g) * 16 + b) none).getD (0, 0)
    let t := rowBlocks big - (k + 1) * bandBlocks big + r
    { pc := e.1, bank := t / 16384 * 16 + e.2, row := t % 16384, line := line, folded := true }
  else { pc := h, bank := blk / 16384 * 16 + b, row := blk % 16384, line := line, folded := false }

/-- The place of an offset of stack n now. -/
def placeAt (s : State) (n o : Nat) : Place := placeOf s.ident.big (stackOf s n).mapped (hashMasks s n) o

/-- The number of a physical sector: the key of its stored bytes. -/
def sectorNo (n pc bank row line sector : Nat) : Nat :=
  ((((n * 64 + pc) * 64 + bank) * 16384 + row) * 16 + line) * 2 + sector

/-- The parts of a physical sector number. -/
def secStack (q : Nat) : Nat := q / 2 / 16 / 16384 / 64 / 64
def secPc (q : Nat) : Nat := q / 2 / 16 / 16384 / 64 % 64
def secBank (q : Nat) : Nat := q / 2 / 16 / 16384 % 64
def secRow (q : Nat) : Nat := q / 2 / 16 % 16384
def secLine (q : Nat) : Nat := q / 2 % 16

/-- The physical sector that holds offset o of stack n. -/
def sectorAt (s : State) (n o : Nat) : Nat :=
  let p := placeAt s n o
  sectorNo n p.pc p.bank p.row p.line (o / 32 % 2)

/-- The row block of stack offsets whose lines lie in a physical row, under a mapped-out list (R284, R300): none for a
row of a mapped-out channel or of a fold band that no valid slot targets. -/
def rowBlockOf (big : Bool) (mapped : List Nat) (pc bank row : Nat) : Option Nat :=
  let t := bank / 16 * 16384 + row
  if mapped.contains (pc / 2) then none
  else if t < usableBlocks big mapped.length then some t
  else
    let k := (rowBlocks big - 1 - t) / bandBlocks big
    let r := t - (rowBlocks big - (k + 1) * bandBlocks big)
    match findIdx? ((foldTables mapped).getD k []) (fun e => e == some (pc, bank % 16)) with
    | none => none
    | some slot => some (slot / 16 % 32 * bandBlocks big + r)

/-- The logical pseudo-channel hash and bank index within a stack ID whose lines lie in a physical row. -/
def rowSource (big : Bool) (mapped : List Nat) (pc bank row : Nat) : Nat × Nat :=
  let t := bank / 16 * 16384 + row
  if t < usableBlocks big mapped.length then (pc, bank % 16)
  else
    let k := (rowBlocks big - 1 - t) / bandBlocks big
    match findIdx? ((foldTables mapped).getD k []) (fun e => e == some (pc, bank % 16)) with
    | none => (pc, bank % 16)
    | some slot => (mapped.getD k 0 * 2 + slot / 512, slot % 16)

/-- The stack offset of the first byte of a physical row's 1 KiB block under masks and a mapped-out list (R284). -/
def rowOffset (big : Bool) (mapped : List Nat) (masks : List Nat) (pc bank row : Nat) : Option Nat :=
  match rowBlockOf big mapped pc bank row with
  | none => none
  | some blk =>
    let src := rowSource big mapped pc bank row
    let hi := blk * 1048576
    let fix := fun (want mask : Nat) => (want + hashBit hi mask) % 2
    let pcBits := sumOf ((List.range 6).map (fun i => fix (src.1 / 2 ^ i % 2) (masks.getD i 0) * 2 ^ (10 + i)))
    let bgBits := sumOf ((List.range 2).map (fun j => fix (src.2 / 4 / 2 ^ j % 2) (masks.getD (6 + j) 0) * 2 ^ (16 + j)))
    let bkBits := sumOf ((List.range 2).map (fun j => fix (src.2 % 4 / 2 ^ j % 2) (masks.getD (8 + j) 0) * 2 ^ (18 + j)))
    some (hi + pcBits + bgBits + bkBits)

/-! ## Stored sectors -/

/-- A whole-range write of the device covers a physical sector. -/
def fillCovers (big : Bool) (f : Fill) (q : Nat) : Bool :=
  f.stack == secStack q &&
    (match rowBlockOf big f.mapped (secPc q) (secBank q) (secRow q) with
      | none => false
      | some b => f.lo ≤ b && b ≤ f.hi)

/-- What byte i of a sector that nothing else has written holds: the newest whole-range write that covers it, or zero
(DESIGN CHOICE: the spec gives DRAM no contents at power-on). -/
def unlistedByte (big : Bool) (fills : List Fill) (q i : Nat) : Byte :=
  match fills.find? (fun f => fillCovers big f q) with
  | none => 0
  | some f => (encodeSector f.colour f.poison []).getD i 0

/-- Stored byte i of a physical sector. -/
def storedByte (big : Bool) (m : Memory) (q i : Nat) : Byte :=
  tget (unlistedByte big m.fills q i) m.cells (q * 64 + i)

/-- The canonical form of the stored bytes: addresses strictly rising, and no entry equal to what its address reads as
unlisted, so that equal contents are equal data. -/
abbrev Memory.wf (big : Bool) (m : Memory) : Prop :=
  Table.sorted m.cells ∧ ∀ c ∈ m.cells, c.2 ≠ unlistedByte big m.fills (c.1 / 64) (c.1 % 64)

/-- The canonical form of the pot's bytes: offsets strictly rising, no zero listed. -/
abbrev Pot.wf (p : Pot) : Prop := Table.canonical 0 p.cells

/-- The 36 stored bytes of a physical sector. -/
def storedSector (s : State) (q : Nat) : List Byte := (List.range 36).map (storedByte s.ident.big s.hbm q)

/-- The memory with stored byte i of a sector replaced. -/
def putStored (big : Bool) (q : Nat) (m : Memory) (i : Nat) (b : Byte) : Memory :=
  { m with cells := tset (unlistedByte big m.fills q i) m.cells (q * 64 + i) b }

/-- The memory with the 36 stored bytes of a sector replaced. -/
def writeStored (big : Bool) (q : Nat) (bytes : List Byte) (m : Memory) : Memory :=
  (List.range 36).foldl (fun m i => putStored big q m i (bytes.getD i 0)) m

/-- s with a sector's stored bytes replaced. -/
def setSector (q : Nat) (bytes : List Byte) (s : State) : State :=
  { s with hbm := writeStored s.ident.big q bytes s.hbm }

/-- A full-sector write of data under a colour (R266), or of poison (R257). -/
def writeSector (q : Nat) (colour : BitVec 8) (poison : Bool) (data : List Byte) (s : State) : State :=
  setSector q (encodeSector colour poison data) s

/-- A whole-range write: every sector of row blocks lo to hi of stack n, with zero data or poison, under a colour. -/
def fillRange (n lo hi : Nat) (colour : BitVec 8) (poison : Bool) (s : State) : State :=
  let f : Fill := { stack := n, lo := lo, hi := hi, mapped := (stackOf s n).mapped, colour := colour, poison := poison }
  { s with hbm := { cells := s.hbm.cells.filter (fun c => !fillCovers s.ident.big f (c.1 / 64)), fills := f :: s.hbm.fills } }

/-- The reserved range of stack n written with zeros under colour 0x00 (R172). -/
def writeReserved (n : Nat) (s : State) : State :=
  let b := reservedBlock s.ident.big (mappedCount s n)
  fillRange n b (b + 63) 0 false s

/-- Extent x of stack n written with zeros under a colour (R187 step 5); a short extent has its low 192 MiB. -/
def fillExtent (n x : Nat) (colour : BitVec 8) (s : State) : State :=
  let last := extentCount s.ident.big (mappedCount s n) - 1
  fillRange n (x * 256) (x * 256 + (if x = last then 191 else 255)) colour false s

/-- The decode policy of a stack (R258). -/
def policyOf (s : State) (n : Nat) : Nat := cfgN s 0x0501 0 n

/-- The colour in force of a tenant (R184). -/
def colourOf (s : State) (t : Nat) : BitVec 8 := BitVec.ofNat 8 (cfgN s 0x0201 0 t)

/-- What a read of a physical sector under a colour decodes to now. -/
def readSector (s : State) (q : Nat) (colour : BitVec 8) : SectorOutcome × List Byte :=
  let st := storedSector s q
  let o := classify (policyOf s (secStack q)) colour st
  (o, outcomeData st o)

/-! ## Tenant addresses -/

/-- The extents of tenant t on stack n, in window order (R180). -/
def extentsOf (s : State) (t n : Nat) : List Nat := cfgList s 0x0200 0 (t * 8 + n)

/-- The grains of tenant t, in order (R179). -/
def grainsOf (s : State) (t : Nat) : List Nat := cfgList s 0x0202 0 t

/-- Who owns extent x of stack n. -/
def extentOwner (s : State) (n x : Nat) : Option Nat := (List.range 128).find? (fun t => (extentsOf s t n).contains x)

/-- The colour of the row block's owner: its extent's tenant, or 0x00 (R292). -/
def blockColour (s : State) (n blk : Nat) : BitVec 8 :=
  if reservedBlock s.ident.big (mappedCount s n) ≤ blk then 0
  else
    match extentOwner s n (blk / 256) with
    | none => 0
    | some t => colourOf s t

/-- A tenant has extents or grains. -/
def hasMemory (s : State) (t : Nat) : Bool :=
  !(grainsOf s t).isEmpty || (List.range 8).any (fun n => !(extentsOf s t n).isEmpty)

/-- A partition is RINSE_INCOMPLETE (R187 step 3 on). -/
def rinseIncomplete (s : State) (t : Nat) : Bool := (partOf s t).incomplete

/-- Where a tenant address lies. -/
inductive Loc where
  | hbm (stack offset : Nat)
  | pot (offset : Nat)
  deriving DecidableEq, Repr

/-- Translation of a tenant address (R170, R180), in the order of Table 6.6 and R508. The right side is the status that
the access completes with before any effect; rows for a closed partition are the caller's. -/
def translate (s : State) (t ta : Nat) : Loc ⊕ Nat :=
  if 2 ^ 40 ≤ ta then .inr stBadParam
  else if 2 ^ 39 ≤ ta then
    if bitsOf ta 27 12 ≠ 0 then .inr stBadParam
    else
      match (grainsOf s t)[bitsOf ta 20 7]? with
      | none => .inr stAddressUnmapped
      | some g => if rinseIncomplete s t then .inr stRinseIncomplete else .inl (.pot (g * 1048576 + ta % 1048576))
  else
    let n := bitsOf ta 36 3
    let w := ta % 2 ^ 36
    if (stackOf s n).retired then .inr stChannelOffline
    else
      match (extentsOf s t n)[w / 2 ^ 28]? with
      | none => .inr stAddressUnmapped
      | some x =>
        if (partOf s t).offline.contains (n, x) then .inr stChannelOffline
        else if x + 1 = extentCount s.ident.big (mappedCount s n) && 192 * 1048576 ≤ w % 2 ^ 28 then
          .inr stAddressUnmapped
        else if (partOf s t).joining.contains (n, x) then .inr stExtentJoining
        else if rinseIncomplete s t then .inr stRinseIncomplete
        else .inl (.hbm n (x * 2 ^ 28 + w % 2 ^ 28))

/-! ## The pot (R264, R376) -/

/-- Byte at a pot offset; a byte nothing has written is zero (R91: the pot is cleared at power-on). -/
def potByte (s : State) (o : Nat) : Byte := tget 0 s.pot.cells o

/-- n bytes of the pot. -/
def potBytes (s : State) (o n : Nat) : List Byte := (List.range n).map (fun i => potByte s (o + i))

/-- The 32 B block of a pot offset is flagged as failed (R264). -/
def potFlagged (s : State) (o : Nat) : Bool := s.pot.flagged.contains (o / 32)

/-- The pot slice of a pot offset: 64 B lines go round the sixteen slices (R376). -/
def potSlice (o : Nat) : Nat := o / 64 % 16

/-- s with bytes stored in the pot; flags are the caller's. -/
def potStore (o : Nat) (bytes : List Byte) (s : State) : State :=
  { s with pot := { s.pot with
      cells := ((List.range bytes.length).foldl (fun c i => tset 0 c (o + i) (bytes.getD i 0)) s.pot.cells) } }

/-- Sets or clears the flag of a 32 B block; a flag set is counted for its slice (Table 13.12). -/
def potFlag (blk : Nat) (on : Bool) (s : State) : State :=
  { s with pot := { s.pot with
      flagged := if on then insertNat s.pot.flagged blk else s.pot.flagged.filter (· != blk),
      flagsSet := if on && !s.pot.flagged.contains blk then cadd s.pot.flagsSet (potSlice (blk * 32)) 1 else s.pot.flagsSet } }

/-- Writes bytes that may cross blocks: a block written in full loses its flag (R264). -/
def potWrite (o : Nat) (bytes : List Byte) (s : State) : State :=
  let s := potStore o bytes s
  let first := ceilDiv o 32
  let last := (o + bytes.length) / 32
  (List.range (last - first)).foldl (fun s i => potFlag (first + i) false s) s

/-- A grain cleared to zero, with its flags (R179, R264). -/
def potClearGrain (g : Nat) (s : State) : State :=
  { s with pot := { s.pot with
      cells := s.pot.cells.filter (fun c => c.1 / 1048576 != g),
      flagged := s.pot.flagged.filter (fun b => b / 32768 != g) } }

end Sys2Proof.Machine
end

