-- ==== Sys2Proof/Machine/Admin.lean ====
section
/-! DEFINITION. The admin commands and the simple configuration commands of Table 5.7: IDENTIFY, CAPABILITIES,
FW_VERSION, the permission words, and CONFIG_DISCARD, CONFIG_STATUS, CONFIG_UNDO and CONFIG_STORE_INFO. -/

namespace Sys2Proof.Machine

open Sys2Proof

/-- The variant byte (Table 5.7). -/
def variantByte (s : State) : Nat := if s.ident.big then 0x02 else 0x01

/-- A firmware bank. -/
def bankOf (s : State) (b : Nat) : Bank := if b = 0 then s.flash.bankA else s.flash.bankB
def setBank (b : Nat) (v : Bank) (s : State) : State :=
  if b = 0 then { s with flash := { s.flash with bankA := v } } else { s with flash := { s.flash with bankB := v } }

/-- The release of the image that runs (Table 4.4); 0 where none was loaded. -/
def runningRelease (s : State) : Nat :=
  if s.boot.stage = .recovery then 0 else leAt (bankOf s s.boot.bootedBank).page0 20 4

/-- The CRC of the image that runs. -/
def runningCrc (s : State) : Nat := leAt (bankOf s s.boot.bootedBank).page0 16 4

/-- IDENTIFY's result (R3, Table 5.7). -/
def identifyResult (s : State) : List Byte :=
  [BitVec.ofNat 8 (variantByte s), 0x21, 0x12, 0x00] ++ leBytes 4 (runningRelease s) ++ leBytes 8 s.ident.serial.toNat

/-- IDENTIFY (R3, R168). -/
def execIdentify (c : Cmd) (s : State) : Host.Outcome State Fault Refusal :=
  .next (mailbox 0x0001 c (fun s => .done s stOK (identifyResult s)) s)

/-- The speed-grade code of Table 5.8. -/
def gradeCode (s : State) : Nat :=
  match s.boot.grade with
  | some .g80 => 1
  | some .g96 => 2
  | _ => 0

/-- The state byte of a stack in Table 5.8. -/
def stackStateByte (s : State) (n : Nat) : Nat :=
  if (stackOf s n).retired then 1 else if (stackOf s n).online then 0 else 2

/-- Retired-page entries of stack n (R282). -/
def retiredEntries (s : State) (n : Nat) : List RetEntry := tget [] s.flash.retired n

/-- The 16 bytes of one stack in the capability structure. -/
def capabilityStack (s : State) (n : Nat) : List Byte :=
  leBytes 4 (usableMiB s n) ++ leBytes 4 (maskOf (stackOf s n).mapped) ++
    leBytes 2 (retiredEntries s n).length ++ leBytes 2 8192 ++
    leBytes 1 (stackHeight s.ident.big) ++ leBytes 1 (stackStateByte s n) ++ [0, 0]

/-- The metadata bits per burst of the online stacks; the qualified minimum where none has been read (R121). -/
def metadataBits (s : State) : Nat :=
  match (List.range 8).findSome? (fun n => (stackOf s n).ident) with
  | some i => i.metadataBits
  | none => 32

/-- Stacks with directed refresh management. -/
def directedMask (s : State) : Nat :=
  maskOf ((List.range 8).filter (fun n =>
    match (stackOf s n).ident with
    | some i => i.directed
    | none => false))

/-- The capability structure (Table 5.8). -/
def capabilityBytes (s : State) : List Byte :=
  let infusers := 8 - ((List.range 8).filter (fun n => (stackOf s n).retired)).length
  leBytes 2 1 ++ leBytes 1 (gradeCode s) ++ leBytes 1 (onlineMask s) ++ leBytes 1 (retiredMask s) ++
    leBytes 1 (bankCount s.ident.big) ++ leBytes 1 (metadataBits s) ++ leBytes 1 (directedMask s) ++
    leBytes 2 128 ++ leBytes 2 (if s.boot.vfEnable then s.ident.vfs else 0) ++ leBytes 2 256 ++ leBytes 2 1024 ++
    leBytes 2 128 ++ leBytes 2 256 ++ leBytes 1 16 ++ leBytes 1 infusers ++ List.replicate 42 0 ++
    (List.range 8).flatMap (capabilityStack s) ++ List.replicate 64 0

/-- CAPABILITIES (R168). -/
def capabilitiesWork (c : Cmd) (s : State) : Reply :=
  let addr := par c 0 8
  let len := par c 8 2
  if addr % 64 ≠ 0 || len = 0 || 256 < len then .done s stBadParam []
  else .done (emit (.hostWrite (cmdFn c) addr ((capabilityBytes s).take len)) s) stOK (leBytes 2 len)

def execCapabilities (c : Cmd) (s : State) : Host.Outcome State Fault Refusal :=
  .next (mailbox 0x0002 c (capabilitiesWork c) s)

/-- FW_VERSION's result (Table 5.7). -/
def fwVersionResult (s : State) : List Byte :=
  leBytes 4 (runningRelease s) ++ leBytes 4 s.ident.romVersion.toNat ++ leBytes 4 (runningCrc s) ++
    leBytes 2 1 ++ leBytes 2 1

/-- FW_VERSION (R168). -/
def execFwVersion (c : Cmd) (s : State) : Host.Outcome State Fault Refusal :=
  .next (mailbox 0x0003 c (fun s => .done s stOK (fwVersionResult s)) s)

/-- A permission target is a function 1 to 127, or 0x0080 (Table 5.7). -/
def permTargetOk (t : Nat) : Bool := 1 ≤ t && t ≤ 0x80

/-- FUNCTION_STEEP_PERM (R165): bits 31:19 set give BAD_PARAM; the pour checks the rest. -/
def functionSteepPermWork (c : Cmd) (s : State) : Reply :=
  let t := par c 0 2
  let w := par c 4 4
  if !permTargetOk t || 2 ^ 19 ≤ w then .done s stBadParam []
  else steep c [(cfgKey 0x0004 0 t, [w])] s

def execFunctionSteepPerm (c : Cmd) (s : State) : Host.Outcome State Fault Refusal :=
  .next (mailbox 0x0004 c (functionSteepPermWork c) s)

/-- The staged value of an entry in the issuer's area, or the value in force where none is staged. -/
def stagedOr (s : State) (c : Cmd) (op fld inst : Nat) : List Nat :=
  (tfind (staged s (cmdArea c)) (cfgKey op fld inst)).getD
    ((tfind (staged s (cmdArea c)) (cfgKey op fld bcast)).getD (cfgList s op fld inst))

/-- FUNCTION_GET_PERM (R165, R168). -/
def functionGetPermWork (c : Cmd) (s : State) : Reply :=
  let t := par c 0 2
  let sel := par c 2 1
  let own := match c.issuer with
    | .fn k => k.val = 0 || k.val = t
    | .oob => true
  if !permTargetOk t || 1 < sel then .done s stBadParam []
  else if !own then .done s stNotPermitted []
  else
    let w := if sel = 0 then permWord s t else (stagedOr s c 0x0004 0 t).headD 0
    .done s stOK (leBytes 4 w)

def execFunctionGetPerm (c : Cmd) (s : State) : Host.Outcome State Fault Refusal :=
  .next (mailbox 0x0005 c (functionGetPermWork c) s)

/-- CONFIG_DISCARD empties the issuing function's area (R147). -/
def configDiscardWork (c : Cmd) (s : State) : Reply :=
  let n := (staged s (cmdArea c)).length
  .done { s with cfg := { s.cfg with
      areas := tset [] s.cfg.areas (cmdArea c) [],
      areaPersist := tset false s.cfg.areaPersist (cmdArea c) false } } stOK (leBytes 2 n)

def execConfigDiscard (c : Cmd) (s : State) : Host.Outcome State Fault Refusal :=
  .next (mailbox 0x0101 c (configDiscardWork c) s)

/-- Tenants whose partition is closed for a drain or the start of a rinse, and those that are drained. -/
def closedTenants (s : State) : List Nat := (s.parts.filter (fun e => e.2.closed)).map Prod.fst
def drainedTenants (s : State) : List Nat := (s.parts.filter (fun e => e.2.closed && e.2.drained)).map Prod.fst

/-- CONFIG_STATUS (Table 5.7). -/
def configStatusResult (c : Cmd) (s : State) : List Byte :=
  leBytes 4 s.cfg.serial.toNat ++ leBytes 1 s.cfg.lastState ++ [0] ++
    leBytes 2 (staged s (cmdArea c)).length ++ leBytes 4 (tget 0 s.cfg.fnSerial (cmdArea c)).toNat ++
    leBytes 2 (closedTenants s).length ++ leBytes 2 (drainedTenants s).length

def execConfigStatus (c : Cmd) (s : State) : Host.Outcome State Fault Refusal :=
  .next (mailbox 0x0102 c (fun s => .done s stOK (configStatusResult c s)) s)

/-- CONFIG_UNDO (R164): stages the values the items had before the function's last completed pour. A set of more entries
than the area's size is staged too, since the rule gives no refusal for it (DESIGN CHOICE, log entry 74). -/
def configUndoWork (c : Cmd) (s : State) : Reply :=
  if !(staged s (cmdArea c)).isEmpty then .done s stBadParam []
  else
    let u := tget [] s.cfg.undo (cmdArea c)
    if u.isEmpty then .done s stOK (leBytes 2 0)
    else
      .done { s with cfg := { s.cfg with
          areas := tset [] s.cfg.areas (cmdArea c) u,
          areaPersist := tset false s.cfg.areaPersist (cmdArea c) (tget false s.cfg.undoPersist (cmdArea c)) } }
        stOK (leBytes 2 u.length)

def execConfigUndo (c : Cmd) (s : State) : Host.Outcome State Fault Refusal :=
  .next (mailbox 0x0103 c (configUndoWork c) s)

/-- CONFIG_STORE_INFO (Table 5.7). -/
def configStoreInfoResult (s : State) : List Byte :=
  let st := s.flash.store
  leBytes 1 st.half ++ leBytes 1 (flag st.valid 0 + flag st.compacting 1) ++ [0, 0] ++
    leBytes 4 st.generation ++ leBytes 4 st.freeBytes ++ leBytes 4 st.records

def execConfigStoreInfo (c : Cmd) (s : State) : Host.Outcome State Fault Refusal :=
  .next (mailbox 0x0106 c (fun s => .done s stOK (configStoreInfoResult s)) s)

end Sys2Proof.Machine
end

