-- ==== Sys2Proof/Machine/Float.lean ====
section
/-! DEFINITION. The number formats of Table 13.2 and their arithmetic (R355 to R358): exact values, rounding to nearest
even, conversion with saturation or overflow, and the sums of the matrix unit. FP32 values are their 32 bits. -/

namespace Sys2Proof.Machine

open Sys2Proof

/-- The value of a number: not a number, an infinity, or a sign with m · 2^e. -/
inductive Num where
  | nan
  | inf (neg : Bool)
  | fin (neg : Bool) (m : Nat) (e : Int)
  deriving DecidableEq, Repr

/-- The value of an IEEE-like code with eb exponent and mb mantissa bits and a bias. -/
def numOf (eb mb bias : Nat) (v : Nat) : Num :=
  let neg := v.testBit (eb + mb)
  let e := v / 2 ^ mb % 2 ^ eb
  let m := v % 2 ^ mb
  if e = 2 ^ eb - 1 then (if m = 0 then .inf neg else .nan)
  else if e = 0 then .fin neg m (1 - (bias : Int) - mb)
  else .fin neg (m + 2 ^ mb) ((e : Int) - bias - mb)

/-- The value of FP32 bits. -/
def num32 (v : BitVec 32) : Num := numOf 8 23 127 v.toNat

/-- m · 2^(-k) rounded to nearest, ties to even. -/
def roundShift (m k : Nat) : Nat :=
  let q := m / 2 ^ k
  let r := m % 2 ^ k
  if 2 ^ k < 2 * r || (2 * r == 2 ^ k && q % 2 == 1) then q + 1 else q

/-- The magnitude code of m · 2^e with mb mantissa bits and a bias, rounded to nearest even; it may pass the largest
finite code. -/
def magCode (mb bias : Nat) (m : Nat) (e : Int) : Nat :=
  if m = 0 then 0
  else
    let q : Int := max ((Nat.log2 m : Int) + e - mb) (1 - (bias : Int) - mb)
    let r := if q ≤ e then m * 2 ^ (e - q).toNat else roundShift m (q - e).toNat
    if r < 2 ^ mb then r else (q + mb + bias).toNat * 2 ^ mb + r - 2 ^ mb

/-- A quiet NaN of the format with eb exponent and mb mantissa bits. -/
def nanCode (fmt eb mb : Nat) : Nat :=
  let f := Config.nanBits fmt
  let m := f / 2 % 2 ^ mb
  flag (f.testBit 0) (eb + mb) + (2 ^ eb - 1) * 2 ^ mb + (if m = 0 then 2 ^ (mb - 1) else m)

/-- A NaN in FP32. -/
def nan32 : BitVec 32 := BitVec.ofNat 32 (nanCode 4 8 23)

/-- A value rounded to FP32; overflow gives infinity. -/
def round32 (x : Num) : BitVec 32 :=
  match x with
  | .nan => nan32
  | .inf neg => BitVec.ofNat 32 (flag neg 31 + 0x7F800000)
  | .fin neg m e => BitVec.ofNat 32 (flag neg 31 + min (magCode 23 127 m e) 0x7F800000)

/-- FP32 bits are a NaN. -/
def isNan (v : BitVec 32) : Bool := num32 v == .nan

/-- The signed exact sum of two finite values, at the smaller exponent. -/
def addNum (a b : Num) : Num :=
  match a, b with
  | .nan, _ => .nan
  | _, .nan => .nan
  | .inf x, .inf y => if x = y then .inf x else .nan
  | .inf x, _ => .inf x
  | _, .inf y => .inf y
  | .fin na ma ea, .fin nb mb eb =>
    let e := min ea eb
    let va : Int := (if na then -1 else 1) * (ma * 2 ^ (ea - e).toNat : Nat)
    let vb : Int := (if nb then -1 else 1) * (mb * 2 ^ (eb - e).toNat : Nat)
    let v := va + vb
    if v = 0 then .fin (na && nb) 0 e else .fin (decide (v < 0)) v.natAbs e

/-- The exact product. -/
def mulNum (a b : Num) : Num :=
  match a, b with
  | .nan, _ => .nan
  | _, .nan => .nan
  | .inf x, .inf y => .inf (x != y)
  | .inf x, .fin y m _ => if m = 0 then .nan else .inf (x != y)
  | .fin y m _, .inf x => if m = 0 then .nan else .inf (x != y)
  | .fin na ma ea, .fin nb mb eb => .fin (na != nb) (ma * mb) (ea + eb)

/-- The quotient, with a last bit that is set when it is not exact. -/
def divNum (a b : Num) : Num :=
  match a, b with
  | .nan, _ => .nan
  | _, .nan => .nan
  | .inf _, .inf _ => .nan
  | .inf x, .fin y _ _ => .inf (x != y)
  | .fin y _ e, .inf x => .fin (x != y) 0 e
  | .fin na ma ea, .fin nb mb eb =>
    if mb = 0 then (if ma = 0 then .nan else .inf (na != nb))
    else
      let k := 64 + Nat.log2 mb
      let n := ma * 2 ^ k
      .fin (na != nb) (2 * (n / mb) + (if n % mb = 0 then 0 else 1)) (ea - eb - k - 1)

def fadd (a b : BitVec 32) : BitVec 32 := round32 (addNum (num32 a) (num32 b))
def fmul (a b : BitVec 32) : BitVec 32 := round32 (mulNum (num32 a) (num32 b))
def fdiv (a b : BitVec 32) : BitVec 32 := round32 (divNum (num32 a) (num32 b))
def fneg (a : BitVec 32) : BitVec 32 := a ^^^ 0x80000000#32

/-- a · b + c with one rounding. -/
def ffma (a b c : BitVec 32) : BitVec 32 := round32 (addNum (mulNum (num32 a) (num32 b)) (num32 c))

/-- One of the results that the spec allows: the one where all agree, else a free choice. -/
def oneOf (l : List (BitVec 32)) : BitVec 32 :=
  match l with
  | [] => 0
  | a :: r => if r.all (· == a) then a else l.getD (Config.pick l % l.length) a

/-- a ≤ b for values that are no NaN. -/
def leNum (a b : Num) : Bool :=
  match addNum b (match a with | .nan => .nan | .inf x => .inf (!x) | .fin x m e => .fin (!x) m e) with
  | .nan => a == b
  | .inf neg => !neg
  | .fin neg m _ => !neg || m == 0

/-- max and min: a NaN gives a NaN; zeros of both signs are a free choice. -/
def fmax (a b : BitVec 32) : BitVec 32 :=
  if isNan a || isNan b then nan32
  else if leNum (num32 a) (num32 b) && leNum (num32 b) (num32 a) then oneOf [a, b]
  else if leNum (num32 a) (num32 b) then b else a

def fmin (a b : BitVec 32) : BitVec 32 :=
  if isNan a || isNan b then nan32
  else if leNum (num32 a) (num32 b) && leNum (num32 b) (num32 a) then oneOf [a, b]
  else if leNum (num32 a) (num32 b) then a else b

/-- A result within 2 ulp of an exact one (R357). -/
def nearby (code : Nat) (arg exact : BitVec 32) : BitVec 32 :=
  let mag := exact.toNat % 2 ^ 31
  if mag = 0 || 0x7F800000 ≤ mag then exact
  else
    let m := mag + Config.ulpOff code arg % 5
    BitVec.ofNat 32 (flag (exact.getLsbD 31) 31 + min (m - 2) 0x7F800000)

/-- 1 / x within 2 ulp. -/
def frecip (x : BitVec 32) : BitVec 32 := nearby 11 x (fdiv 0x3F800000#32 x)

/-- Integer square root, bit by bit from bit n down. -/
def isqrt (n v r : Nat) : Nat :=
  match n with
  | 0 => r
  | n + 1 => let c := r + 2 ^ n; isqrt n v (if c * c ≤ v then c else r)

/-- 1 / sqrt(x) within 2 ulp. -/
def frsqrt (x : BitVec 32) : BitVec 32 :=
  match num32 x with
  | .nan => nan32
  | .inf neg => if neg then nan32 else 0
  | .fin neg m e =>
    if m = 0 then round32 (.inf neg)
    else if neg then nan32
    else
      let odd := e % 2 != 0
      let m2 := if odd then 2 * m else m
      let e2 := if odd then e - 1 else e
      let k := 64 + Nat.log2 m2
      let n := 2 ^ (2 * k) / m2
      nearby 12 x (round32 (.fin false (2 * isqrt (k + 1) n 0 + 1) (-(k : Int) - e2 / 2 - 1)))

/-- A function whose FP32 rounding is open: a NaN operand gives a NaN. -/
def freeFn (code : Nat) (l : List (BitVec 32)) : BitVec 32 := if l.any isNan then nan32 else Config.vecEval code l

/-! ## Formats (Table 13.2) -/

/-- Bytes of one element. -/
def fmtSize (f : Nat) : Nat := if f ≤ 2 then 1 else if f = 3 then 2 else 4

/-- The value of a code of a format. -/
def numFmt (f v : Nat) : Num :=
  match f with
  | 0 => let i := ofSbits 8 v; .fin (decide (i < 0)) i.natAbs 0
  | 1 =>
    if v % 128 = 127 then .nan
    else
      let e := v / 8 % 16
      if e = 0 then .fin (v.testBit 7) (v % 8) (-9) else .fin (v.testBit 7) (8 + v % 8) ((e : Int) - 10)
  | 2 => numOf 5 2 15 v
  | 3 => numOf 8 7 127 v
  | 4 => numOf 8 23 127 v
  | _ => let i := ofSbits 32 v; .fin (decide (i < 0)) i.natAbs 0

/-- An element as FP32. -/
def toFp32 (f v : Nat) : BitVec 32 := if f = 4 then BitVec.ofNat 32 v else round32 (numFmt f v)

/-- A value as a saturated integer of w bits, rounded to nearest even. -/
def satInt (w f : Nat) (x : Num) : Nat :=
  let top : Int := 2 ^ (w - 1)
  match x with
  | .nan => Config.nanInt f % 2 ^ w
  | .inf neg => sbits w (if neg then -top else top - 1)
  | .fin neg m e =>
    let a : Int := (if 0 ≤ e then m * 2 ^ e.toNat else roundShift m (-e).toNat : Nat)
    sbits w (max (-top) (min (top - 1) (if neg then -a else a)))

/-- A value as an FP8 code: the largest finite code is `top`; beyond it `beyond`, or `top` where it saturates. -/
def fp8Code (f mb bias top beyond : Nat) (sat : Bool) (x : Num) : Nat :=
  match x with
  | .nan => if f = 1 then flag (Config.nanBits 1 % 2 == 1) 7 + 127 else nanCode 2 5 2
  | .inf neg => flag neg 7 + (if sat then top else beyond)
  | .fin neg m e =>
    let c := magCode mb bias m e
    flag neg 7 + (if c ≤ top then c else if sat then top else beyond)

/-- FP32 converted to a format (R357). -/
def fromFp32 (f : Nat) (sat : Bool) (v : BitVec 32) : Nat :=
  let x := num32 v
  match f with
  | 0 => satInt 8 0 x
  | 1 => fp8Code 1 3 7 0x7E 0x7F sat x
  | 2 => fp8Code 2 2 15 0x7B 0x7C sat x
  | 3 =>
    (match x with
      | .nan => nanCode 3 8 7
      | .inf neg => flag neg 15 + 0x7F80
      | .fin neg m e => flag neg 15 + min (magCode 7 127 m e) 0x7F80)
  | 4 => if x == .nan then nan32.toNat else v.toNat
  | _ => satInt 32 5 x

/-- Element i of a byte list in a format, as its code. -/
def elemCode (f : Nat) (bs : List Byte) (i : Nat) : Nat := leAt bs (i * fmtSize f) (fmtSize f)

/-- Element i of a byte list in a format, as FP32. -/
def elem (f : Nat) (bs : List Byte) (i : Nat) : BitVec 32 := toFp32 f (elemCode f bs i)

/-- An FP32 value as the bytes of an element. -/
def putElem (f : Nat) (sat : Bool) (v : BitVec 32) : List Byte := leBytes (fmtSize f) (fromFp32 f sat v)

/-! ## The matrix unit (R356, R358) -/

/-- INT32 limits. -/
def clamp32 (v : Int) : Int := max (-2147483648) (min 2147483647 v)

/-- The exact products of two INT8 rows of k elements, group by group of 64. -/
def intGroups (k : Nat) (a b : List Byte) : List Int :=
  (List.range (ceilDiv k 64)).map (fun g =>
    ((List.range (min 64 (k - 64 * g))).map (fun i =>
      ofSbits 8 (elemCode 0 a (64 * g + i)) * ofSbits 8 (elemCode 0 b (64 * g + i)))).foldl (· + ·) 0)

/-- The INT32 sum: exact where no way through the tree can saturate. -/
def intSum (gs : List Int) : Int :=
  if (gs.map Int.natAbs).foldl (· + ·) 0 < 2147483648 then gs.foldl (· + ·) 0 else clamp32 (Config.intTree gs)

/-- The FP32 group sums of two rows of k elements, over ascending k. -/
def fpGroups (k fa fb : Nat) (a b : List Byte) : List (BitVec 32) :=
  (List.range (ceilDiv k 64)).map (fun g =>
    (List.range (min 64 (k - 64 * g))).foldl
      (fun acc i => fadd acc (fmul (elem fa a (64 * g + i)) (elem fb b (64 * g + i)))) 0)

/-- Group sums combined in the fixed tree. -/
def fpSum (gs : List (BitVec 32)) : BitVec 32 :=
  match gs with
  | [] => 0
  | [a] => a
  | [a, b] => fadd a b
  | _ => if gs.any isNan then nan32 else Config.combineTree gs

/-- The accumulated sum of two rows, as FP32. -/
def dot (k fa fb : Nat) (a b : List Byte) : BitVec 32 :=
  if fa = 0 then toFp32 5 (sbits 32 (intSum (intGroups k a b))) else fpSum (fpGroups k fa fb a b)

/-- Scales, bias and the old output applied in FP32 after accumulation: the three ways to order the product are left
open. -/
def epilogue (acc xs : BitVec 32) (scale bias old : Option (BitVec 32)) : BitVec 32 :=
  let p :=
    match scale with
    | none => fmul xs acc
    | some m => oneOf [fmul (fmul xs m) acc, fmul xs (fmul m acc), fmul (fmul xs acc) m]
  let q := match bias with | none => p | some b => fadd p b
  match old with | none => q | some o => fadd q o

/-- ELEMWISE's functions (Table 13.7). -/
def elemwise (fn : Nat) (k a b : BitVec 32) : BitVec 32 :=
  match fn with
  | 0 => fadd a b
  | 1 => fadd a (fneg b)
  | 2 => fmul a b
  | 3 => fmax a b
  | 4 => fmin a b
  | 5 => oneOf [fadd (fmul k a) b, ffma k a b]
  | 6 => fmax a 0
  | 10 => a
  | 11 => frecip a
  | 12 => frsqrt a
  | _ => freeFn (0x400 + fn) [a]

/-- One element of a pot reduction (R380): exact with INT32 saturation where both are INT32, else in FP32. Operation 0
adds, 1 is max, 2 is min. -/
def reduceElem (op srcFmt src potFmt old : Nat) : Nat :=
  if srcFmt = 5 && potFmt = 5 then
    let a := ofSbits 32 old
    let b := ofSbits 32 src
    sbits 32 (if op = 0 then clamp32 (a + b) else if op = 1 then max a b else min a b)
  else
    let a := toFp32 potFmt old
    let b := toFp32 srcFmt src
    fromFp32 potFmt false (if op = 0 then fadd a b else if op = 1 then fmax a b else fmin a b)

end Sys2Proof.Machine
end

