-- ==== Sys2Proof/Machine/Partition.lean ====
section
/-! DEFINITION. Partitions: their states (Table 6.7), closing, draining and opening (R156 to R159), rinses and joins
(R187 to R190), and the commands and events that drive them. -/

namespace Sys2Proof.Machine

open Sys2Proof

/-- Milliseconds and microseconds in ticks (R9). -/
def msTicks (n : Nat) : Nat := n * 1000000
def usTicks (n : Nat) : Nat := n * 1000

/-- A deadline has passed. -/
def due (s : State) (deadline : Nat) : Bool := deadline ≤ now s

/-- Every channel of stack n. -/
def stackChans (n : Nat) : List Nat := (List.range 32).map (fun i => n * 32 + i)

/-- A channel answers no user traffic for a while: an open window, or self-refresh. -/
def chanOffline (s : State) (ch : Nat) : Bool := (chanOf s ch).windowOpen || (chanOf s ch).sr != .awake

/-- A channel that is mapped out: it holds no line any more (R302). -/
def chanMapped (s : State) (ch : Nat) : Bool := (stackOf s (ch / 32)).mapped.contains (ch % 32)

/-- The rinse and join writes of a stack wait (R188): scald, self-refresh, or a channel offline. -/
def rinseWaits (s : State) (n : Nat) : Bool :=
  (stackOf s n).thermal.heat == .scald ||
    !((stackOf s n).sleep.kind == .awake || (stackOf s n).sleep.kind == .light) ||
    (stackChans n).any (fun ch => chanOffline s ch && !chanMapped s ch)

/-- Stacks that hold extents of tenant t. -/
def tenantStacks (s : State) (t : Nat) : List Nat := (List.range 8).filter (fun n => !(extentsOf s t n).isEmpty)

/-- Stacks on which tenant t's rinse or joins wait. -/
def waitingStacks (s : State) (t : Nat) : List Nat := (tenantStacks s t).filter (rinseWaits s)

/-- A rinse of tenant t is writing its extents. -/
def rinseRunning (s : State) (t : Nat) : Bool :=
  match (partOf s t).rinse with
  | some r => r.phase == .running
  | none => false

/-- The rinse and the joins of tenant t are suspended by RINSE_CONTROL (R190). -/
def rinseSuspended (s : State) (t : Nat) : Bool := (partOf s t).suspended

/-- The state code of a partition (Table 6.7). -/
def partState (s : State) (t : Nat) : Nat :=
  let p := partOf s t
  if !hasMemory s t then 0
  else if p.incomplete then
    if rinseSuspended s t then 4 else if !(waitingStacks s t).isEmpty then 5 else 3
  else if p.closed then 2
  else 1

/-- Nothing of tenant t is in flight (R158), and no rinse or join of its own runs (R191). -/
def drainedNow (s : State) (t : Nat) : Bool :=
  !(s.path.reqs.any (fun r => r.tenant == t && r.place != .held)) &&
  !(s.path.flights.any (fun f => f.tenant == t && f.kind == .host)) &&
  !(s.compute.lists.any (fun e => e.2.tenant == t && e.2.inflight.any (fun d => d.bytes.getD 0 0 != 0x0D#8))) &&
  !(s.infusers.any (fun e => (e.2.queue ++ e.2.running.toList).any (fun o => o.tenant == t))) &&
  !(s.peers.ops.any (fun o => o.tenant == t)) &&
  (twinPartOf s t).unacked.isEmpty &&
  (partOf s t).joining.isEmpty && !rinseRunning s t

/-- Queued infuser operations of a tenant that have not started complete with a status (R111, R156, Table 14.5). -/
def endQueued (t st : Nat) (s : State) : State :=
  (List.range 8).foldl (fun s n =>
    let q := (infuserOf s n).queue
    let s := if q.any (fun o => o.tenant == t) then
        modInfuser n (fun i => { i with
          queue := i.queue.filter (fun o => o.tenant != t),
          checking := i.checking && !(i.queue.head?.any (fun o => o.tenant == t)) }) s else s
    (q.filter (fun o => o.tenant == t)).foldl (fun s o => finish o.op.toNat o.cmd st [] s) s) s

/-- Closes a partition at admission (R156). -/
def closePart (t : Nat) (s : State) : State :=
  let s := if (partOf s t).closed then s else endQueued t stPartitionClosed s
  modPart t (fun p => if p.closed then p else { p with closed := true, closedAt := now s, drained := false }) s

/-- The requests of tenant t that wait at admission. -/
def heldCount (s : State) (t : Nat) : Nat :=
  (s.path.reqs.filter (fun r => r.tenant == t && r.place == .held)).length +
    (s.peers.held.filter (fun h => h.frame.dstTenant.toNat == t && !h.applying)).length

/-- Opens a partition: held requests go on to their foot dies in arrival order (R159). -/
def openPart (t : Nat) (s : State) : State :=
  let s := modPart t (fun p => { p with closed := false, drained := false }) s
  { s with path := { s.path with
      reqs := s.path.reqs.map (fun r => if r.tenant == t && r.place == .held then { r with place := if r.kind == .pot then .regulator else .stem } else r) } }

/-! ## Drain (R156 to R159) -/

def configDrainWork (c : Cmd) (s : State) : Reply :=
  let ms := par c 0 2
  if ms = 0 then .done s stBadParam []
  else
    let t := cmdTarget c
    let s := closePart t s
    .wait (modPart t (fun p => { p with drainCmds := p.drainCmds ++ [(c, now s + msTicks ms)] }) s)

/-- CONFIG_DRAIN closes the partition and waits for it to drain (R156, R158). -/
def execConfigDrain (c : Cmd) (s : State) : Host.Outcome State Fault Refusal :=
  .next (mailbox 0x0104 c (configDrainWork c) s)

def configOpenWork (c : Cmd) (s : State) : Reply :=
  let t := cmdTarget c
  .done (openPart t s) stOK (leBytes 4 (heldCount s t))

/-- CONFIG_OPEN reopens the partition (R159). -/
def execConfigOpen (c : Cmd) (s : State) : Host.Outcome State Fault Refusal :=
  .next (mailbox 0x0105 c (configOpenWork c) s)

/-- Colours that a rinse of tenant u is to take: of the record that waits to be written, and of the mirror (R187). -/
def pendingColours (s : State) (u : Nat) : List Nat :=
  (s.flash.jobs.filterMap (fun j => match j with
    | .rinseRecord v col => if v = u then some col.toNat else none
    | _ => none)) ++ ((tfind s.flash.mirror u).map (fun (c : BitVec 8) => c.toNat)).toList

/-- The colour a rinse rotates to: the first after the old one, wrapping from 0xFF to 0x01, that no other partition
holds (R187 step 3). -/
def nextColour (s : State) (t : Nat) : BitVec 8 :=
  let old := (colourOf s t).toNat
  let cands := (List.range 255).map (fun i => (old + i) % 255 + 1)
  let taken := ((List.range 128).filter (· != t)).flatMap (fun u => (colourOf s u).toNat :: pendingColours s u)
  BitVec.ofNat 8 ((cands.find? (fun x => !taken.contains x)).getD (old % 255 + 1))

/-- A colour that tenant t takes. -/
def setColour (t : Nat) (col : BitVec 8) (s : State) : State :=
  { s with cfg := { s.cfg with inForce := tput s.cfg.inForce (cfgKey 0x0201 0 t) [col.toNat] } }

/-- Adds a flash write to the queue of R129. -/
def pushJob (j : FlashJob) (s : State) : State := { s with flash := { s.flash with jobs := s.flash.jobs ++ [j] } }

/-- Asks for the rinse record of tenant t (R187 step 2). -/
def recordRinse (t : Nat) (s : State) : State := pushJob (.rinseRecord t (nextColour s t)) s

/-- The commands of the front whose timeout has come. -/
def expired (s : State) (l : List (Cmd × Nat)) : List (Cmd × Nat) := l.filter (fun e => due s e.2)
def unexpired (s : State) (l : List (Cmd × Nat)) : List (Cmd × Nat) := l.filter (fun e => !due s e.2)

/-- Ends every command of a list. -/
def finishAll (op : Nat) (l : List (Cmd × Nat)) (status : Nat) (result : List Byte) (s : State) : State :=
  l.foldl (fun s e => finish op e.1 status result s) s

/-- DRAIN_COMPLETE's effect: CONFIG_DRAIN completes with OK (R158), and a rinse that waited writes its record. -/
def drainDone (t : Nat) (s : State) : State :=
  if !(partOf s t).closed || !drainedNow s t then s
  else
    let p := partOf s t
    let s := finishAll 0x0104 p.drainCmds stOK (leBytes 4 (heldCount s t)) s
    let s := setPart t { p with drained := true, drainCmds := [] } s
    match p.rinse with
    | none => s
    | some r =>
      if r.phase == .draining then
        recordRinse t (modPart t (fun p => { p with rinse := some { r with phase := .recording } }) s)
      else s

/-- CONFIG_DRAIN_TIMEOUT: an undrained partition stays closed and the command completes with DEFERRED (R158). -/
def drainTimeout (t : Nat) (s : State) : State :=
  let p := partOf s t
  let s := finishAll 0x0104 (expired s p.drainCmds) stDeferred (leBytes 4 (heldCount s t)) s
  setPart t { p with drainCmds := unexpired s p.drainCmds } s

def execConfigDrainTimeout (t : Fin 128) (s : State) : Host.Outcome State Fault Refusal := .next (drainTimeout t.val s)

/-! ## Rinse (R187 to R190) -/

/-- Starts a rinse: the partition closes and drains (R187 step 1). -/
def startRinse (t : Nat) (cmds : List (Cmd × Nat)) (s : State) : State :=
  let s := closePart t s
  modPart t (fun p =>
    match p.rinse with
    | some r => { p with rinse := some { r with cmds := r.cmds ++ cmds } }
    | none => { p with rinse := some { phase := .draining, cmds := cmds } }) s

def partitionRinseWork (c : Cmd) (s : State) : Reply :=
  let ms := par c 0 2
  let t := cmdTarget c
  if ms = 0 then .done s stBadParam []
  else if rinseIncomplete s t then .done s stRinseIncomplete []
  else .wait (startRinse t [(c, now s + msTicks ms)] s)

/-- PARTITION_RINSE (R187, R197). A partition that is RINSE_INCOMPLETE already answers so (DESIGN CHOICE, log entry 74). -/
def execPartitionRinse (c : Cmd) (s : State) : Host.Outcome State Fault Refusal :=
  .next (mailbox 0x0206 c (partitionRinseWork c) s)

/-- PARTITION_RINSE_TIMEOUT: a drain that still runs completes the command with DEFERRED; the rinse starts later
(R197). -/
def rinseTimeout (t : Nat) (s : State) : State :=
  let p := partOf s t
  match p.rinse with
  | none => s
  | some r =>
    if r.phase == .draining then
      let s := finishAll 0x0206 (expired s r.cmds) stDeferred [0] s
      setPart t { p with rinse := some { r with cmds := unexpired s r.cmds } } s
    else s

def execPartitionRinseTimeout (t : Fin 128) (s : State) : Host.Outcome State Fault Refusal := .next (rinseTimeout t.val s)

/-- The write of tenant t's rinse record failed: the fault is logged, under an event code that the spec does not give (a
free value), and the record is retried at a later mark (R187 step 2). -/
def rinseRecordFailed (t : Nat) (s : State) : State :=
  match (partOf s t).rinse with
  | none => s
  | some r =>
    logEvent (freeNat s % 65536) t 2 noStack [] [0]
      (modPart t (fun p => { p with rinse := some { r with failedMark := some s.clock.mark } }) (freeStep s))

/-- RINSE_RECORD_RETRY: at a later mark, a record whose write failed is asked for again (R187 step 2). -/
def rinseRetry (t : Nat) (s : State) : State :=
  match (partOf s t).rinse with
  | none => s
  | some r =>
    if r.phase == .recording && !r.recorded && r.failedMark.all (fun m => m < s.clock.mark) &&
        !(s.flash.jobs.any (fun j => match j with | .rinseRecord u _ => u == t | _ => false)) then recordRinse t s
    else s

def execRinseRecordRetry (t : Fin 128) (s : State) : Host.Outcome State Fault Refusal := .next (rinseRetry t.val s)

/-- Clears every grain of tenant t to zero (R187 step 4). -/
def clearGrains (t : Nat) (s : State) : State := (grainsOf s t).foldl (fun s g => potClearGrain g s) s

/-- A rinse begins with the first extent of each stack. -/
def rinseFromStart (p : Part) : Part := { p with rinsed := [], cursor := [] }

/-- Steps 3 and 4 of R187: the new colour is in force and the partition is RINSE_INCOMPLETE. -/
def rotateColour (t : Nat) (s : State) : State :=
  match (partOf s t).rinse with
  | none => s
  | some r =>
    if r.phase == .recording && r.recorded then
      let col := tget 0 s.flash.mirror t
      let s := setColour t col s
      let s := clearGrains t s
      let s := finishAll 0x0206 r.cmds stOK [col] s
      modPart t (fun p => { rinseFromStart p with incomplete := true, rinse := some { r with phase := .running, cmds := [] } }) s
    else s

/-- The extents of tenant t on stack n that a rinse writes: those not offline (R304). -/
def rinseExtents (s : State) (t n : Nat) : List Nat :=
  (extentsOf s t n).filter (fun x => !(partOf s t).offline.contains (n, x))

/-- The extents of tenant t on stack n that its rinse has still to write, in list order (R187 step 5). -/
def rinseLeft (s : State) (t n : Nat) : List Nat :=
  (rinseExtents s t n).filter (fun x => !(partOf s t).rinsed.contains (n, x))

/-- The extents of tenant t on stack n that are joining, in list order (R189). -/
def joinLeft (s : State) (t n : Nat) : List Nat :=
  (extentsOf s t n).filter (fun x => (partOf s t).joining.contains (n, x))

/-- MiB and sectors of one extent of stack n. -/
def extentMiB (s : State) (n x : Nat) : Nat :=
  if x + 1 = extentCount s.ident.big (mappedCount s n) then 192 else 256
def extentSectors (s : State) (n x : Nat) : Nat := extentMiB s n x * 32768

/-- The extent that foot die n writes for tenant t. -/
def writesAt (s : State) (t n : Nat) : Option Nat :=
  if rinseRunning s t then (rinseLeft s t n).head? else (joinLeft s t n).head?

/-- Sectors written in an extent of tenant t on stack n. -/
def cursorOf (s : State) (t n x : Nat) : Nat :=
  match tfind (partOf s t).cursor n with
  | none => 0
  | some c => if c.1 = x then c.2 else 0

/-- Rinse and join writes run: from the ready stage on, also in the stopped stage (R109, R123, R190). -/
def writesRun (s : State) : Bool := (s.boot.stage == .ready || s.boot.stage == .stopped) && s.boot.halt == .none

/-- Every stack has written all that the rinse of tenant t covers. -/
def rinseWritten (s : State) (t : Nat) : Bool := (List.range 8).all (fun n => (rinseLeft s t n).isEmpty)

/-- The end of a rinse, once every foot die has written its extents (R187 step 6). -/
def rinseFinish (t : Nat) (s : State) : State :=
  if writesRun s && rinseRunning s t && rinseWritten s t then
    let s := modPart t (fun p => { rinseFromStart p with incomplete := false, rinse := none, suspended := false, joining := [] }) s
    let s := { s with flash := { s.flash with
        mirror := terase s.flash.mirror t, mirrorDone := terase s.flash.mirrorDone t } }
    logEvent 0x0200 t 1 noStack [colourOf s t] [0] (openPart t s)
  else s

/-- RINSE_COMPLETE (R187). -/
def execRinseComplete (t : Fin 128) (s : State) : Host.Outcome State Fault Refusal := .next (rinseFinish t.val s)

/-- EXTENT_JOIN_DONE: the last sector of the extent that the foot die writes is written under the partition's colour
(R189). -/
def joinDone (t n x : Nat) (s : State) : State :=
  if writesRun s && !rinseRunning s t && writesAt s t n = some x && extentSectors s n x ≤ cursorOf s t n x then
    modPart t (fun p => { p with
      joining := p.joining.filter (· != (n, x)), cursor := terase p.cursor n }) (fillExtent n x (colourOf s t) s)
  else s

def execExtentJoinDone (t : Fin 128) (n : Fin 8) (x : Nat) (s : State) : Host.Outcome State Fault Refusal :=
  .next (joinDone t.val n.val x s)

/-- MiB that tenant t's rinse and joins write. -/
def rinseTotal (s : State) (t : Nat) : Nat :=
  if (partOf s t).incomplete then
    sumOf ((List.range 8).map (fun n => sumOf ((rinseExtents s t n).map (extentMiB s n))))
  else sumOf ((partOf s t).joining.map (fun e => extentMiB s e.1 e.2))

/-- Sectors that tenant t's rinse, or its joins, have written. -/
def rinseSectors (s : State) (t : Nat) : Nat :=
  sumOf ((partOf s t).rinsed.map (fun e => extentSectors s e.1 e.2)) +
    sumOf ((List.range 8).map (fun n => match writesAt s t n with
      | none => 0
      | some x => cursorOf s t n x))

/-- RINSE_CONTROL's result. -/
def rinseControlResult (s : State) (t : Nat) : List Byte :=
  leBytes 1 (partState s t) ++ [0, 0, 0] ++ leBytes 4 (rinseTotal s t) ++ leBytes 4 (rinseSectors s t / 32768) ++
    leBytes 1 (maskOf (waitingStacks s t))

def rinseControlWork (c : Cmd) (s : State) : Reply :=
  let t := cmdTarget c
  let sel := par c 0 1
  if 2 < sel then .done s stBadParam []
  else
    let s := modPart t (fun p => { p with suspended := if sel = 1 then true else if sel = 2 then false else p.suspended }) s
    .done s stOK (rinseControlResult s t)

/-- RINSE_CONTROL (R190, R197). -/
def execRinseControl (c : Cmd) (s : State) : Host.Outcome State Fault Refusal :=
  .next (mailbox 0x0207 c (rinseControlWork c) s)

/-! ## Reports (Table 6.9) -/

/-- The partition record (Table 6.10). -/
def partitionRecord (s : State) (t : Nat) : List Byte :=
  leBytes 1 (partState s t) ++ [colourOf s t] ++ leBytes 2 (grainsOf s t).length ++
    (List.range 8).flatMap (fun n => leBytes 2 (extentsOf s t n).length) ++
    (List.range 8).flatMap (fun n => leBytes 2 ((partOf s t).joining.filter (fun e => e.1 == n)).length) ++
    List.replicate 28 0 ++
    (List.range 8).flatMap (fun n => (extentsOf s t n).flatMap (leBytes 2)) ++
    (grainsOf s t).flatMap (leBytes 1)

def partitionInfoWork (c : Cmd) (s : State) : Reply :=
  let addr := par c 0 8
  let t := cmdTarget c
  let r := partitionRecord s t
  if addr % 64 ≠ 0 then .done s stBadParam []
  else
    .done (emit (.hostWrite (cmdFn c) addr r) s) stOK
      (leBytes 1 (partState s t) ++ [colourOf s t] ++ leBytes 2 r.length)

/-- PARTITION_INFO (R186, R197). -/
def execPartitionInfo (c : Cmd) (s : State) : Host.Outcome State Fault Refusal :=
  .next (mailbox 0x0205 c (partitionInfoWork c) s)

/-- A tenant address's extent, without regard to the partition's state: stack, extent and offset, or a status. -/
def translateExtent (s : State) (t ta : Nat) : (Nat × Nat × Nat) ⊕ Nat :=
  let n := bitsOf ta 36 3
  let w := ta % 2 ^ 36
  if (stackOf s n).retired then .inr stChannelOffline
  else
    match (extentsOf s t n)[w / 2 ^ 28]? with
    | none => .inr stAddressUnmapped
    | some x =>
      if !(partOf s t).offline.contains (n, x) && x + 1 = extentCount s.ident.big (mappedCount s n) &&
          192 * 1048576 ≤ w % 2 ^ 28 then .inr stAddressUnmapped
      else .inl (n, x, x * 2 ^ 28 + w % 2 ^ 28)

/-- ADDRESS_TRANSLATE's result for an HBM address. -/
def translateResult (s : State) (t n x o : Nat) : List Byte :=
  let p := placeAt s n o
  let st := if (partOf s t).offline.contains (n, x) then 2 else if (partOf s t).joining.contains (n, x) then 1 else 0
  leBytes 5 (n * 2 ^ 36 + o) ++ [0] ++ leBytes 2 (n * 64 + p.pc + flag p.folded 15) ++ leBytes 1 p.bank ++
    leBytes 1 (p.line + o / 32 % 2 * 128) ++ leBytes 2 p.row ++ leBytes 1 st

def addressTranslateWork (c : Cmd) (s : State) : Reply :=
  let ta := par c 0 5
  let t := cmdTarget c
  if 2 ^ 39 ≤ ta then
    if bitsOf ta 27 12 ≠ 0 then .done s stBadParam []
    else
      match (grainsOf s t)[bitsOf ta 20 7]? with
      | none => .done s stAddressUnmapped []
      | some g => .done s stOK (leBytes 5 (2 ^ 39 + g * 1048576 + ta % 1048576))
  else
    match translateExtent s t ta with
    | .inr st => .done s st []
    | .inl (n, x, o) => .done s stOK (translateResult s t n x o)

/-- ADDRESS_TRANSLATE (R197, R300, R508). -/
def execAddressTranslate (c : Cmd) (s : State) : Host.Outcome State Fault Refusal :=
  .next (mailbox 0x0208 c (addressTranslateWork c) s)

/-- The remap table of a stack: each entry its own index, the fold flag set for mapped-out channels (R176, R298). -/
def remapTable (s : State) (n : Nat) : List Byte :=
  (List.range 64).map (fun i => BitVec.ofNat 8 (i + flag ((stackOf s n).mapped.contains (i / 2)) 7))

def remapReadWork (c : Cmd) (s : State) : Reply :=
  let n := par c 0 1
  if 8 ≤ n then .done s stBadParam []
  else .done (emit (.hostWrite (cmdFn c) (par c 8 8) (remapTable s n)) s) stOK []

/-- REMAP_READ (R176, R197). -/
def execRemapRead (c : Cmd) (s : State) : Host.Outcome State Fault Refusal :=
  .next (mailbox 0x0209 c (remapReadWork c) s)

/-- The key of a regulator: tenant × 8 + stack. -/
def regKey (t n : Nat) : Nat := t * 8 + n

def bucketOf (s : State) (t n : Nat) : Bucket := tget {} s.buckets (regKey t n)
def setBucket (t n : Nat) (b : Bucket) (s : State) : State := { s with buckets := tset {} s.buckets (regKey t n) b }

/-- Flags, RATE and DEPTH of a regulator in force (R194, R196). -/
def regFlags (s : State) (t n : Nat) : Nat := cfgN s 0x0204 0 (regKey t n)
def regRate (s : State) (t n : Nat) : Nat := cfgN s 0x0204 1 (regKey t n)
def regDepth (s : State) (t n : Nat) : Nat := cfgN s 0x0204 2 (regKey t n)

def regulatorStatusWork (c : Cmd) (s : State) : Reply :=
  let n := par c 0 1
  let sel := par c 1 1
  let t := cmdTarget c
  let k := cmdFn c
  if 8 ≤ n || 1 < sel then .done s stBadParam []
  else
    let seen := tget 0 (fnOf s k).tokenSeen (regKey t n)
    let b := bucketOf s t n
    let waited := seen < b.waits
    let s' := modFn k (fun f => { f with tokenSeen := tset 0 f.tokenSeen (regKey t n) b.waits }) s
    if sel = 0 then
      .done s' stOK (leBytes 4 b.tokens ++ leBytes 4 (regRate s t n) ++ leBytes 4 (regDepth s t n) ++
        leBytes 1 (regFlags s t n) ++ leBytes 1 (flag waited 0))
    else
      let v := fun i => (stagedOr s i).headD 0
      .done s' stOK (leBytes 4 0 ++ leBytes 4 (v 1) ++ leBytes 4 (v 2) ++ leBytes 1 (v 0) ++ leBytes 1 (flag waited 0))
where
  /-- The staged value of a regulator field, or the value in force where none is staged. -/
  stagedOr (s : State) (i : Nat) : List Nat :=
    let inst := regKey (cmdTarget c) (par c 0 1)
    (tfind (staged s (cmdArea c)) (cfgKey 0x0204 i inst)).getD (cfgList s 0x0204 i inst)

/-- REGULATOR_STATUS (R194, R197). -/
def execRegulatorStatus (c : Cmd) (s : State) : Host.Outcome State Fault Refusal :=
  .next (mailbox 0x020A c (regulatorStatusWork c) s)

end Sys2Proof.Machine
end

