-- ==== Sys2Proof/Machine/Integrity.lean ====
section
/-! DEFINITION. What the outcome of a sector read does beside its data (R259, R260, R280, R281, R288): counts, events,
retirement advice and lane referral; and the integrity and retirement commands of Table 9.11. -/

namespace Sys2Proof.Machine

open Sys2Proof

/-- The trailing time in which corrections count (R280). -/
def trailing : Nat := 2 ^ 30

/-! ## Retirement advice (R280, R281) -/

/-- A row is stored as retired. -/
def rowStored (s : State) (n pc bank row : Nat) : Bool :=
  (retiredEntries s n).any (fun e => e.crcOk && e.pc == n * 64 + pc && e.bank == bank && e.row == row)

/-- A row is pending. -/
def rowPending (s : State) (n pc bank row : Nat) : Bool :=
  (stackOf s n).pending.any (fun a => a.pc == n * 64 + pc && a.bank == bank && a.row == row)

/-- Advises the retirement of a row; pc counts within the stack. -/
def advise (n pc bank row cause : Nat) (s : State) : State :=
  if rowStored s n pc bank row || rowPending s n pc bank row then s
  else
    let a : Advice := { pc := n * 64 + pc, bank := bank, row := row, cause := cause, timebase := now s }
    let k := stackOf s n
    let event := logEvent 0x0503 noTenant 1 n
      (leBytes 2 (n * 64 + pc) ++ leBytes 1 bank ++ leBytes 2 row ++ leBytes 1 cause) [0]
    if k.pending.length < 64 then event (setStack n { k with pending := k.pending ++ [a] } s)
    else if cause = 1 && k.pending.any (fun x => x.cause == 2) then
      event (setStack n
        { k with pending := dropFirst k.pending (fun x => x.cause == 2) ++ [a], dropped := k.dropped + 1 } s)
    else event (setStack n { k with dropped := k.dropped + 1 } s)

/-! ## Lane referral (Table 10.2) -/

/-- The lanes that carry the bad bytes of a correction: data lanes 0 to 31, metadata lanes 32 to 35. -/
def badLanes (bad : List (Nat × Byte)) : List Nat := bad.map (fun e => posByte e.1)

/-- A lane meets the referral threshold: 16 corrections within the trailing time, in at least 4 rows. -/
def laneReferred (s : State) (hits : List (Nat × Nat × Nat)) (lane : Nat) : Bool :=
  let mine := hits.filter (fun h => h.1 == lane && now s ≤ h.2.2 + trailing)
  16 ≤ mine.length && 4 ≤ ((mine.map (fun h => h.2.1)).eraseDups).length

/-- The repair resources that stack n reported at discovery; Table 10.1's until then (R286). -/
def spareLanes (s : State) (n : Nat) : Nat := ((stackOf s n).ident.map (·.spareLanes)).getD 2
def spareCmds (s : State) (n : Nat) : Nat := ((stackOf s n).ident.map (·.spareCmd)).getD 1
def hardLimit (s : State) (n : Nat) : Nat := ((stackOf s n).ident.map (·.hardRows)).getD 4

/-- Spare data lanes left on a pseudo-channel (Table 10.1). -/
def spareLeft (s : State) (fp : Nat) : Nat := spareLanes s (fp / 64) - ((pcOf s fp).lanesUsed.filter (· < 36)).length

/-- Refers a lane to repair once: a lane repair where a spare is left, else an event to the PF. -/
def referLane (fp lane : Nat) (s : State) : State :=
  let p := pcOf s fp
  if p.referred.contains lane then s
  else if spareLeft s fp ≠ 0 then
    if (chanOf s (fp / 2)).window == .none then
      modChan (fp / 2) (fun c => { c with window := .laneRepair fp lane })
        (setPc fp { p with referred := p.referred ++ [lane] } s)
    else s
  else
    logEvent 0x0601 noTenant 2 (fp / 64) (leBytes 2 fp ++ leBytes 1 lane) [0]
      (setPc fp { p with referred := p.referred ++ [lane] } s)

/-- Counts a correction on its lanes and refers those that meet the threshold; answers whether all of them do. -/
def countLanes (fp rowKey : Nat) (lanes : List Nat) (s : State) : State × Bool :=
  let p := pcOf s fp
  let recent := p.laneHits.filter (fun h => now s ≤ h.2.2 + trailing)
  let hits := recent ++ lanes.map (fun l => (l, rowKey, now s))
  let s := setPc fp { p with laneHits := hits } s
  let met := lanes.filter (laneReferred s hits)
  (met.foldl (fun s l => referLane fp l s) s, met.length == lanes.length)

/-- Tracks cause 2 over the 64 rows corrected most recently at the full radius; the third correction within the
trailing time advises the row. -/
def trackRow (n pc bank row : Nat) (s : State) : State :=
  let k := stackOf s n
  let same := fun (e : Nat × Nat × Nat × List Nat) => e.1 == pc && e.2.1 == bank && e.2.2.1 == row
  let old := match k.cause2.find? same with
    | some e => e.2.2.2
    | none => []
  let times := old.filter (fun t => now s ≤ t + trailing) ++ [now s]
  let rest := k.cause2.filter (fun e => !same e)
  let s := setStack n { k with cause2 := (((pc, bank, row, times) :: rest).take 64) } s
  if 3 ≤ times.length then advise n pc bank row 2 s else s

/-! ## The outcome of a read (Table 9.4) -/

/-- What reads a sector: a user's read or read half with its tenant address, the device's repair scrub with the lane
under repair, or a cosy read. -/
inductive ReadBy where
  | user (tenant ta : Nat)
  | scrub (lane : Option Nat)
  deriving DecidableEq, Repr

/-- The count of an outcome in INTEGRITY_STATUS. -/
def integAdd (o : SectorOutcome) (i : Integrity) : Integrity :=
  match o with
  | .clean => i
  | .poison => { i with poison := i.poison + 1 }
  | .mismatch => { i with mismatch := i.mismatch + 1 }
  | .corrected _ => { i with corrected := i.corrected + 1 }
  | .uncorrectable => { i with uncorrectable := i.uncorrectable + 1 }

/-- The stack counter of an outcome (Table 16.2). -/
def outcomeCtr (o : SectorOutcome) : Option Nat :=
  match o with
  | .clean => none
  | .corrected _ => some 4
  | .uncorrectable => some 5
  | .mismatch => some 6
  | .poison => some 7

/-- Counts an outcome on its pseudo-channel and stack. -/
def countOutcome (q : Nat) (o : SectorOutcome) (s : State) : State :=
  let n := secStack q
  let s := modPc (n * 64 + secPc q) (fun p => { p with integ := integAdd o p.integ }) s
  match outcomeCtr o with
  | none => s
  | some c => countEvent (stackCtr n c) 1 s

/-- The tenant of a read's event. -/
def readTenant : ReadBy → Nat
  | .user t _ => t
  | .scrub _ => noTenant

/-- What 0x0501 names: the tenant address, or the row of a read that has none. -/
def readPlace (b : ReadBy) (q : Nat) : List Byte :=
  match b with
  | .user _ ta => leBytes 5 ta
  | .scrub _ => leBytes 2 (secStack q * 64 + secPc q) ++ leBytes 1 (secBank q) ++ leBytes 2 (secRow q)

/-- Mark in `Part.loggedKinds` of a colour mismatch; rows of Table 6.6 use their own numbers. -/
def mismatchKind : Nat := 100

/-- Mark of a write over poison. -/
def overPoisonKind : Nat := 101

/-- Mark of a throttle offence. -/
def offenceKind : Nat := 102

/-- Runs `f` the first time in a period that tenant t meets a kind of event. -/
def firstOfKind (t kind : Nat) (f : State → State) (s : State) : State :=
  if (partOf s t).loggedKinds.contains kind then s
  else f (modPart t (fun p => { p with loggedKinds := kind :: p.loggedKinds }) s)

/-- The lanes of a correction that count for referral: the scrub leaves out the lane under repair (R291). -/
def countedLanes (b : ReadBy) (bad : List (Nat × Byte)) : List Nat :=
  match b with
  | .scrub (some l) => (badLanes bad).filter (· != l)
  | _ => badLanes bad

/-- Counts the outcome of a user's read for its tenant (R260). -/
def countTenant (b : ReadBy) (o : SectorOutcome) (s : State) : State :=
  match b with
  | .user t _ => modPart t (fun p => { p with integ := integAdd o p.integ }) s
  | .scrub _ => s

/-- The effects of a read's outcome but for its data and its write-back (R260, R280). -/
def readOutcome (b : ReadBy) (q : Nat) (o : SectorOutcome) (s : State) : State :=
  let n := secStack q
  let pc := secPc q
  let bank := secBank q
  let row := secRow q
  let s := countTenant b o (countOutcome q o s)
  match o with
  | .clean | .poison => s
  | .mismatch =>
    (match b with
      | .user t ta =>
        firstOfKind t mismatchKind (logEvent 0x0501 t 1 n (leBytes 5 ta) []) s
      | .scrub _ => logEvent 0x0501 noTenant 1 n (readPlace b q) [] s)
  | .uncorrectable => advise n pc bank row 1 (logEvent 0x0501 (readTenant b) 2 n (readPlace b q) [] s)
  | .corrected bad =>
    let r := countLanes (n * 64 + pc) (bank * 16384 + row) (countedLanes b bad) s
    let s := r.1
    if fullRadius (policyOf s n) o then
      let key := (pc, bank, row)
      let s :=
        if (stackOf s n).loggedRows.contains key then s
        else
          logEvent 0x0500 (readTenant b) 1 n (leBytes 2 (n * 64 + pc) ++ leBytes 1 bank ++ leBytes 2 row) []
            (modStack n (fun k => { k with loggedRows := key :: k.loggedRows }) s)
      (match b with
        | .user _ _ => if r.2 then s else trackRow n pc bank row s
        | .scrub _ => s)
    else s

/-- The write-back of a read (R261): the corrected data at the full radius, poison in place when uncorrectable. -/
def writeBackOf (policy : Nat) (stored : List Byte) (o : SectorOutcome) : Option (List Byte × Bool) :=
  match o with
  | .uncorrectable => some ((padTo 36 stored).take 32, true)
  | .corrected bad => if fullRadius policy o then some ((correctStored stored bad).take 32, false) else none
  | _ => none

/-- A host write over poison: the first of a tenant in a period is logged, with an event to the PF (R268). -/
def overPoisonEvent (t ta q : Nat) (s : State) : State :=
  firstOfKind t overPoisonKind (logEvent 0x0502 t 1 (secStack q) (leBytes 5 ta) [0]) s

/-- A write over poison, or a poisoned write received, is counted (R267, R268, Table 9.11). -/
def poisonedWrite (q : Nat) (s : State) : State :=
  let n := secStack q
  countEvent (stackCtr n 8) 1
    (modPc (n * 64 + secPc q) (fun p => { p with integ := { p.integ with writeOver := p.integ.writeOver + 1 } }) s)

/-! ## Status commands -/

/-- The pseudo-channels a field names: a flat index, or all for 0xFFFF. -/
def pcField (v : Nat) : List Nat := if v = bcast then List.range 512 else [v]

/-- INTEGRITY_STATUS's result over pseudo-channels (Table 9.11). -/
def integrityResult (s : State) (pcs : List Nat) : List Byte :=
  let sum := fun (f : Integrity → Nat) => sumOf (pcs.map (fun p => f (pcOf s p).integ))
  leBytes 4 (sum (·.corrected)) ++ leBytes 2 (sum (·.uncorrectable)) ++ leBytes 2 (sum (·.mismatch)) ++
    leBytes 2 (sum (·.poison)) ++ leBytes 2 (sum (·.writeOver)) ++ leBytes 2 (sum (·.alertsRead)) ++
    leBytes 2 (sum (·.retrainRead))

def integrityStatusWork (c : Cmd) (s : State) : Reply :=
  let v := par c 0 2
  if 512 ≤ v && v != bcast then .done s stBadParam []
  else
    let pcs := pcField v
    let r := integrityResult s pcs
    let s := if bitOf (par c 2 1) 0 then pcs.foldl (fun s p => modPc p (fun x => { x with integ := {} }) s) s else s
    .done s stOK r

/-- INTEGRITY_STATUS (R285). -/
def execIntegrityStatus (c : Cmd) (s : State) : Host.Outcome State Fault Refusal :=
  .next (mailbox 0x0500 c (integrityStatusWork c) s)

/-- CRC-16 of a store entry (Table 9.10). -/
def crc16 (bs : List Byte) : BitVec 16 := bs.foldl (fun c b => crcByte 16 0x1021#16 c b) 0xFFFF#16

/-- The first 14 bytes of a record in the layout of Table 9.10. -/
def retBytes (pc bank cause row timebase : Nat) : List Byte :=
  [0xA5] ++ leBytes 1 (pc / 64) ++ leBytes 2 pc ++ leBytes 1 bank ++ leBytes 1 cause ++ leBytes 2 row ++
    leBytes 6 timebase

/-- A stored entry, 16 bytes. -/
def entryBytes (e : RetEntry) : List Byte :=
  let b := retBytes e.pc e.bank e.cause e.row e.timebase
  b ++ leBytes 2 (crc16 b).toNat

def retirePendingWork (c : Cmd) (s : State) : Reply :=
  let n := par c 0 1
  let addr := par c 8 8
  if 8 ≤ n || addr % 16 ≠ 0 then .done s stBadParam []
  else
    let k := stackOf s n
    let bytes := k.pending.flatMap (fun a => retBytes a.pc a.bank a.cause a.row a.timebase ++ [0, 0])
    .done (emit (.hostWrite (cmdFn c) addr bytes) s) stOK
      (leBytes 1 k.pending.length ++ [0, 0, 0] ++ leBytes 4 k.dropped)

/-- RETIRE_PENDING (R281, R285). -/
def execRetirePending (c : Cmd) (s : State) : Host.Outcome State Fault Refusal :=
  .next (mailbox 0x0502 c (retirePendingWork c) s)

/-- Stored entries of a channel (flat). -/
def channelEntries (s : State) (ch : Nat) : Nat :=
  ((retiredEntries s (ch / 32)).filter (fun e => e.crcOk && e.pc / 2 == ch)).length

/-- The channel of a stack with the most stored entries; the lowest on a tie. -/
def fullestChannel (s : State) (n : Nat) : Nat :=
  (stackChans n).foldl (fun best ch => if channelEntries s best < channelEntries s ch then ch else best) (n * 32)

/-- An event that advises the map-out of a channel (R283, R289). -/
def adviseMapout (ch : Nat) (s : State) : State := logEvent 0x0504 noTenant 2 (ch / 32) (leBytes 2 ch) [0] s

def retirePageWork (c : Cmd) (s : State) : Reply :=
  let n := par c 0 1
  let fp := par c 2 2
  let bank := par c 4 1
  let row := par c 6 2
  if 8 ≤ n || fp / 64 ≠ n || bankCount s.ident.big ≤ bank || 16384 ≤ row then .done s stBadParam []
  else if rowStored s n (fp % 64) bank row then
    .done s stOK (leBytes 2 (retiredEntries s n).length ++ [0, 0, 1])
  else if 8192 ≤ (retiredEntries s n).length then
    let ch := fullestChannel s n
    .done (adviseMapout ch s) stRetireFull (leBytes 2 ch)
  else if !s.flash.answers then .done s stFlashFault []
  else
    let cause := match (stackOf s n).pending.find? (fun a => a.pc == fp && a.bank == bank && a.row == row) with
      | some a => a.cause
      | none => 3
    let e : RetEntry := { pc := fp, bank := bank, cause := cause, row := row, timebase := now s % 2 ^ 48 }
    .wait (pushJob (.retirePage c n e) s)

/-- RETIRE_PAGE (R282, R283): the store entry is written before any other effect. -/
def execRetirePage (c : Cmd) (s : State) : Host.Outcome State Fault Refusal :=
  .next (mailbox 0x0503 c (retirePageWork c) s)

/-- RETIRE_PAGE's entry is written (R282, R283). -/
def retireWritten (c : Cmd) (n : Nat) (e : RetEntry) (s : State) : State :=
  let s := { s with flash := { s.flash with retired := tset [] s.flash.retired n (retiredEntries s n ++ [e]) } }
  let s := modStack n (fun k => { k with
    pending := k.pending.filter (fun a => !(a.pc == e.pc && a.bank == e.bank && a.row == e.row)) }) s
  let s := if channelEntries s (e.pc / 2) = 256 then adviseMapout (e.pc / 2) s else s
  finish 0x0503 c stOK (leBytes 2 (retiredEntries s n).length) s

/-- The 4 KiB offset page of a physical row's block; all ones where it has none (R284). -/
def rowPage (s : State) (fp bank row : Nat) : Nat :=
  let n := fp / 64
  let k := (stackOf s n).mapped
  match rowBlockOf s.ident.big k (fp % 64) bank row with
  | none => 2 ^ 64 - 1
  | some blk =>
    if reservedBlock s.ident.big k.length ≤ blk then 2 ^ 64 - 1
    else
      match rowOffset s.ident.big k (hashMasks s n) (fp % 64) bank row with
      | none => 2 ^ 64 - 1
      | some o => o / 4096 * 4096

def retireListWork (c : Cmd) (s : State) : Reply :=
  let n := par c 0 1
  let first := par c 2 2
  let count := par c 4 2
  let addr := par c 8 8
  if 8 ≤ n || 8192 ≤ first || count = 0 || 8192 < count || addr % 32 ≠ 0 then .done s stBadParam []
  else
    let es := (((retiredEntries s n).filter (·.crcOk)).drop first).take count
    let bytes := es.flatMap (fun e => entryBytes e ++ leBytes 8 (rowPage s e.pc e.bank e.row) ++ leBytes 8 0)
    .done (emit (.hostWrite (cmdFn c) addr bytes) s) stOK (leBytes 2 es.length)

/-- RETIRE_LIST (R284, R285). -/
def execRetireList (c : Cmd) (s : State) : Host.Outcome State Fault Refusal :=
  .next (mailbox 0x0504 c (retireListWork c) s)

end Sys2Proof.Machine
end

