-- ==== Sys2Proof/Machine/KettleBase.lean ====
section
/-! DEFINITION. The estimator's exact arithmetic (R34, R35, R37), event counts, debits and admission (R42), and the
steep delay (R51, R52). Every power is a whole number of the unit `nw`: 1 nW is 16 · 4096 · 150³ of them, which makes
each coefficient times its trim (1/4096) times (VCORE / 0.75 V)² in 5 mV steps (1/150 squared), over one period of
1.024 µs (1 pJ is 15625/16 nW), a whole number, and so each static term times (VCORE / 0.75 V)³. -/

namespace Sys2Proof.Machine

open Sys2Proof

/-- One nanowatt, milliwatt and watt in the governor's unit. -/
def nw : Nat := 16 * 4096 * 3375000
def mw : Nat := 1000000 * nw
def watt : Nat := 1000 * mw

/-- Event kinds of Table 2.1. The sector moved is two halves, one a foot event, one a hub event (R34). -/
inductive Ev where
  | activate
  | sectorRead
  | sectorWrite
  | refresh
  | movedFoot
  | movedHub
  | sip
  | pot
  | int8
  | bf16
  | mul
  | add
  | host
  | peer
  deriving DecidableEq, Repr

/-- Every kind, in the order of its number. -/
def Ev.all : List Ev :=
  [.activate, .sectorRead, .sectorWrite, .refresh, .movedFoot, .movedHub, .sip, .pot, .int8, .bf16, .mul, .add, .host, .peer]

def Ev.num : Ev → Nat
  | .activate => 0
  | .sectorRead => 1
  | .sectorWrite => 2
  | .refresh => 3
  | .movedFoot => 4
  | .movedHub => 5
  | .sip => 6
  | .pot => 7
  | .int8 => 8
  | .bf16 => 9
  | .mul => 10
  | .add => 11
  | .host => 12
  | .peer => 13

/-- Energy of one event in pJ (Table 2.1). -/
def Ev.pj : Ev → Nat
  | .activate => 1600
  | .sectorRead => 1150
  | .sectorWrite => 1250
  | .refresh => 42000
  | .movedFoot => 110
  | .movedHub => 110
  | .sip => 20
  | .pot => 50
  | .int8 => 3400
  | .bf16 => 6400
  | .mul => 21
  | .add => 3
  | .host => 300
  | .peer => 350

/-- Whether the event scales with VCORE (Table 2.1). -/
def Ev.scales : Ev → Bool
  | .movedFoot | .movedHub | .sip | .pot | .int8 | .bf16 | .mul | .add => true
  | _ => false

/-- The trim block of an event, counted from 0 in the order of R37. -/
def Ev.block : Ev → Nat
  | .pot => 7
  | .int8 | .bf16 => 4
  | .mul | .add => 5
  | .host | .peer => 6
  | _ => 3

/-- Origin tags (R35). -/
inductive Origin where
  | mandatory
  | cosy
  | user
  deriving DecidableEq, Repr

def Origin.num : Origin → Nat
  | .mandatory => 0
  | .cosy => 1
  | .user => 2

/-- The trim in force of a block, in 1/4096 (R37). -/
def trim (s : State) (block : Nat) : Nat := (cfgList s 0x0803 0 0).getD block 4096

/-- The core rail of a unit, in 5 mV steps: foot die n on the rail of its pair, 8 the hub. -/
def volts (s : State) (unit : Nat) : Nat :=
  s.power.rails.getD (if unit = 8 then 0 else 1 + unit / 2) 750 / 5

/-- n events of a kind on a unit over one period, as power. -/
def evPower (s : State) (e : Ev) (unit n : Nat) : Nat :=
  n * e.pj * trim s e.block * (if e.scales then volts s unit * volts s unit * 150 else 3375000) * 15625

/-- The key of a count. -/
def evKey (e : Ev) (o : Origin) (unit : Nat) : Nat := (e.num * 3 + o.num) * 9 + unit

/-- Counts n events in the window that runs. -/
def countEv (e : Ev) (o : Origin) (unit n : Nat) (s : State) : State :=
  { s with kettle := { s.kettle with counts := cadd s.kettle.counts (evKey e o unit) n } }

/-- Counts n sectors that cross the scheduler and stem link of foot die n. -/
def countMoved (o : Origin) (n k : Nat) (s : State) : State :=
  countEv .movedHub o 8 k (countEv .movedFoot o n k s)

/-- The power of every counted event of an origin. -/
def originPower (s : State) (counts : Table Nat) (o : Origin) : Nat :=
  sumOf (Ev.all.flatMap (fun e => (List.range 9).map (fun u => evPower s e u (cget counts (evKey e o u)))))

/-- Payload units of 64 B. -/
def units64 (bytes : Nat) : Nat := ceilDiv bytes 64

/-! ## Debits (R42) -/

/-- A request's debit: its sectors at the read or write coefficient plus the scheduler coefficient, plus one
activate. -/
def hbmDebit (s : State) (n sectors : Nat) (write : Bool) : Nat :=
  evPower s (if write then .sectorWrite else .sectorRead) n sectors + evPower s .movedFoot n sectors +
    evPower s .movedHub 8 sectors + evPower s .activate n 1

/-- Admission is stopped by a KETTLE_QUIESCE (R76), or by doze entry (R252). -/
def quiesced (s : State) : Bool := s.kettle.quiesce.isSome || s.doze == .entering || s.doze == .asleep

/-- The unit that holds the hub's own admission: pot accesses and link payload. -/
def hubUnit : Nat := 24

/-- The allowance that a unit applies: in the window after a pour of limits, a unit that has not followed yet applies
the one of the old limits (R39). -/
def allowanceOf (s : State) (unit : Nat) : Nat :=
  if s.kettle.follow.contains unit then s.kettle.altAllowance else s.kettle.allowance

/-- Takes a debit from the allowance that a unit applies; work that it does not cover waits (R39, R41, R43). -/
def allow (unit debit : Nat) (s : State) : Option State :=
  if quiesced s then none
  else if debit ≤ allowanceOf s unit then
    some { s with kettle := { s.kettle with
      allowance := s.kettle.allowance - debit, altAllowance := s.kettle.altAllowance - debit } }
  else none

/-- Marks that user work waits for the allowance alone (R41). -/
def allowanceWait (s : State) : State :=
  if quiesced s then s else { s with kettle := { s.kettle with userWaits := true } }

/-! ## The steep delay -/

/-- d in µs (R51). -/
def steepDelay (s : State) : Nat :=
  let h := (crc32 (leBytes 8 s.ident.serial.toNat)).toNat % 65536
  cfgN s 0x0801 4 0 * h / 65536

/-- The first mark at or after a tick. -/
def markAtOrAfter (t : Nat) : Nat := ceilDiv t 1024 * 1024

/-- Job work arrives at admission (R52): whether it is held, and the state with a new job start's release. -/
def jobArrive (s : State) : Bool × State :=
  match s.kettle.jobRelease with
  | some _ => (true, s)
  | none =>
    if cfgN s 0x0801 5 0 ≤ s.kettle.idlePeriods then
      (true, { s with kettle := { s.kettle with jobRelease := some (markAtOrAfter (now s + steepDelay s * 1000)) } })
    else (false, { s with kettle := { s.kettle with jobThisPeriod := true, idlePeriods := 0 } })

/-- Job work is admitted. -/
def jobAdmitted (s : State) : State := { s with kettle := { s.kettle with jobThisPeriod := true, idlePeriods := 0 } }

end Sys2Proof.Machine
end

