-- ==== Sys2Proof/Machine/PeerCore.lean ====
section
/-! DEFINITION. What the peer ports and the twin connection share: sending frames (R411 to R413), the retransmit store
and window (R417), the failure of a connection (R420), the completion of operations (R425), and mirroring (R434 to
R437). -/

namespace Sys2Proof.Machine

open Sys2Proof

/-! ## Ports and connections -/

/-- A domain is gated off by the configuration in force (R92). -/
def gatedOff (s : State) (d : Nat) : Bool := (cfgN s 0x080A 0 0).testBit d

/-- Peer port k is enabled, and not gated off; one that is gated off finishes the work it holds and then loses its power
(R92). -/
def portOn (s : State) (k : Nat) : Bool :=
  (cfgN s 0x0C01 0 k).testBit 0 && (!gatedOff s (40 + k) || s.power.on.getLsbD (40 + k))

/-- The link of port k is up. -/
def linkUp (s : State) (k : Nat) : Bool := (portOf s k).link == 2

/-- Port k's own MAC address. -/
def portMac (s : State) (k : Nat) : BitVec 48 := BitVec.ofNat 48 (cfgN s 0x0C01 1 k)

/-- Port k's payload size in bytes (R413). -/
def payloadSize (s : State) (k : Nat) : Nat := 1024 * 2 ^ bitsOf (cfgN s 0x0C01 0 k) 4 2

/-- The twin port in force; none is 0xFF. -/
def twinPort (s : State) : Nat := cfgN s 0x0C05 0 0

/-- The number of the twin connection among a port's connections. -/
def twinConn : Nat := 64

/-- The role strapped: 0 none, 1 primary, 2 secondary (R98). -/
def twinRole (s : State) : Nat :=
  let r := bitsOf s.pins.straps.toNat 2 2
  if r = 3 then 0 else r

/-- The address at the other side of a connection. -/
def remoteMac (s : State) (k c : Nat) : Option (BitVec 48) :=
  if c = twinConn then s.twin.partner else some (BitVec.ofNat 48 (cfgN s 0x0C02 0 (k * 64 + c)))

/-- A connection is enabled; the twin connection is while its port is the twin port and the partner's address is known
(R414, R429). -/
def connOn (s : State) (k c : Nat) : Bool :=
  portOn s k &&
    (if c = twinConn then twinPort s == k && s.twin.partner.isSome && !s.twin.conflict
     else (cfgN s 0x0C02 1 (k * 64 + c)).testBit 0)

/-- RTO of a connection in ticks; the twin connection has the reset value. -/
def rto (s : State) (k c : Nat) : Nat := usTicks (if c = twinConn then 50 else cfgN s 0x0C02 2 (k * 64 + c))

/-- A sequence a is not newer than b (R416). -/
def seqLe (a b : BitVec 24) : Bool := (b - a).toNat < 2 ^ 23

/-- A header with every field zero. -/
def blankFrame : Frame :=
  { src := 0, dst := 0, collective := false, first := false, last := false, seq := 0, ack := 0, window := 0,
    srcTenant := 0xFFFF, dstTenant := 0xFFFF, opTag := 0, collId := 0, offset := 0, addr := 0, length := 0, status := 0,
    operation := 0, format := 0, poison := 0, payload := [] }

/-- The broadcast address. -/
def broadcast : BitVec 48 := 0xFFFFFFFFFFFF#48

/-- A MIRROR or COPY frame. -/
def mirrorType (type : Nat) : Bool := type == 0x0D || type == 0x0E

/-- The peer header (Table 15.3), in network byte order (R7). -/
def peerHeader (type : Nat) (f : Frame) : List Byte :=
  beBytes 1 1 ++ beBytes 1 type ++ beBytes 2 (flag f.collective 0 + flag f.first 1 + flag f.last 2) ++
    beBytes 3 f.seq.toNat ++ [0] ++ beBytes 3 f.ack.toNat ++ [0] ++ beBytes 3 f.window.toNat ++ [0] ++
    beBytes 2 f.srcTenant.toNat ++ beBytes 2 f.dstTenant.toNat ++ beBytes 4 f.opTag.toNat ++ beBytes 4 f.collId.toNat ++
    beBytes 4 f.offset.toNat ++ beBytes 8 f.addr.toNat ++ beBytes 4 f.length.toNat ++ beBytes 2 f.status.toNat ++
    [f.operation, f.format]

/-- The bytes of a frame that leaves port k, up to its check sequence (Table 15.2): the Ethernet header with the port's tag and
EtherType, the peer header, and, with a payload, the poison field and the payload as it lies in memory (R412). -/
def frameWire (s : State) (k type : Nat) (f : Frame) : List Byte :=
  beBytes 6 f.dst.toNat ++ beBytes 6 f.src.toNat ++
    (if (cfgN s 0x0C01 0 k).testBit 1 then beBytes 2 0x8100 ++ beBytes 2 (cfgN s 0x0C01 3 k) else []) ++
    beBytes 2 (cfgN s 0x0C01 2 k) ++ peerHeader type f ++
    (if f.payload.isEmpty then [] else leBytes 16 f.poison.toNat ++ f.payload)

/-- Sends a frame out of a port, with its counts (Table 16.3). -/
def sendNow (k type : Nat) (f : Frame) (s : State) : State :=
  let s := emit (.peer k type f (frameWire s k type f)) s
  let s := countEvent (portCtr k 2) 1 s
  let s := countEv .peer .user 8 (units64 f.payload.length) s
  let s := countVolume (portCtr k 0) f.payload.length s
  if mirrorType type then countVolume (portCtr k 12) f.payload.length s else s

/-- A frame leaves a port, or waits for the end of a pause (R411). -/
def emitFrame (k type : Nat) (f : Frame) (s : State) : State :=
  if (portOf s k).paused then modPort k (fun p => { p with waiting := p.waiting ++ [(type, f)] }) s else sendNow k type f s

/-- The last sequence that a connection acknowledges: the last accepted, but on the twin connection the one before the first
MIRROR or COPY frame whose writes are not visible yet (R434). -/
def ackedSeq (s : State) (k c : Nat) : BitVec 24 :=
  match (if c = twinConn then s.peers.held.find? (fun h => h.port == k && mirrorType h.type && h.applying) else none) with
  | some h => h.frame.seq - 1
  | none => (connOf s k c).rxExpect - 1

/-- The header fields of every frame on a connection: addresses, acknowledgement and window edge. How far the edge lies
ahead is a free value: R419 bounds it by the receive store only. -/
def header (s : State) (k c : Nat) (f : Frame) : Frame :=
  let x := connOf s k c
  { f with
    src := portMac s k, dst := (remoteMac s k c).getD broadcast, ack := ackedSeq s k c,
    window := x.rxExpect - 1 + BitVec.ofNat 24 (freeNat s % 4096) }

/-- Every frame on a connection acknowledges what was received (R418). -/
def ackSent (k c : Nat) (s : State) : State := modConn k c (fun x => { x with ackDue := none, unackedRx := 0 }) s

/-- Sends an unsequenced frame on a connection. -/
def sendPlain (k c type : Nat) (f : Frame) (s : State) : State :=
  ackSent k c (freeStep (emitFrame k type (header s k c f) s))

/-- Bytes a kept frame takes in the retransmit store: its header, poison field and payload (Table 15.2). -/
def keptBytes (f : Frame) : Nat := 48 + (if f.payload.isEmpty then 0 else 16) + f.payload.length

/-- Bytes in the retransmit store of port k that have been sent. -/
def storeBytes (s : State) (k : Nat) : Nat :=
  sumOf ((List.range 65).map (fun c => sumOf (((connOf s k c).kept.filter (·.sent)).map (fun e => keptBytes e.frame))))

/-- A frame may be sent now (R417). -/
def maySend (s : State) (k : Nat) (x : Conn) (e : Kept) : Bool :=
  (x.kept.filter (·.sent)).length < 4096 && storeBytes s k + keptBytes e.frame ≤ 16777216 && seqLe e.seq x.window

/-- The allowance covers the payload of a frame (R42). Work that was admitted before a quiesce completes (R76), so that its
frames go without a debit then. -/
def linkAllow (f : Frame) (s : State) : Option State :=
  if f.payload.isEmpty || quiesced s then some s else allow hubUnit (evPower s .peer 8 (units64 f.payload.length)) s

/-- Sends the waiting frames of an open connection that R417 and the allowance let go, in order; at most n of them. -/
def pump (n k c : Nat) (s : State) : State :=
  match n with
  | 0 => s
  | n + 1 =>
    let x := connOf s k c
    if x.phase ≠ 2 then s
    else
      match x.kept.find? (fun e => !e.sent) with
      | none => s
      | some e =>
        if !maySend s k x e then s
        else
          match linkAllow e.frame s with
          | none => allowanceWait s
          | some s =>
            let fresh := !(x.kept.any (·.sent))
            let f := { header s k c e.frame with seq := e.seq }
            let s := freeStep (emitFrame k e.type f s)
            let s := modConn k c (fun x => { x with
              kept := modFirst x.kept (fun y => y.seq == e.seq) (fun y => { y with sent := true }),
              lastProgress := if fresh then now s else x.lastProgress }) s
            pump n k c (ackSent k c s)

def pumpAll (k c : Nat) (s : State) : State := pump (connOf s k c).kept.length k c s

/-- Gives a frame the next sequence of a connection and sends it when R417 lets it (R417, R422). -/
def connSend (k c type : Nat) (f : Frame) (s : State) : State :=
  let x := connOf s k c
  let s := setConn k c
    { x with kept := x.kept ++ [{ seq := x.txNext, type := type, frame := f }], txNext := x.txNext + 1 } s
  pumpAll k c s

/-- Starts to open a connection: OPEN with the first sequence, the low 24 bits of the timebase (R415). -/
def sendOpen (k c : Nat) (s : State) : State :=
  let x := connOf s k c
  let first := if x.phase = 1 then x.firstTx else BitVec.ofNat 24 (now s)
  let s := setConn k c { x with phase := 1, firstTx := first, txNext := first + 1, openAt := now s + msTicks 1 } s
  sendPlain k c 0x09 { blankFrame with seq := first } s

/-! ## Operations and their completion -/

/-- A peer operation of a descriptor ended with a status: the descriptor's own is known when none is left (R425). -/
def descResult (h id st : Nat) (s : State) : State :=
  match listOf s h with
  | none => s
  | some l =>
    let more := s.peers.ops.any (fun o => o.issuer == .descriptor h id)
    let f := fun (d : InDesc) =>
      let fail := if d.opFail = 0 then st else d.opFail
      { d with opFail := fail, result := if more then none else some fail }
    setList h { l with inflight := modFirst l.inflight (fun d => d.id == id && d.result.isNone) f } s

/-- The status that a PEER_OP completes with: the reply's, or POISON where what it read here had failed (R263). -/
def opEnds (o : PeerOpState) (st : Nat) : Nat := if st = stOK && o.poisoned then stPoison else st

/-- The bytes that a PEER_OP reports as moved. -/
def opMoved (o : PeerOpState) (st : Nat) : List Byte := leBytes 4 (if o.kind ≠ 1 && st = stOK then o.length else o.got)

/-- Ends an operation at its issuer (R425). -/
def endOp (o : PeerOpState) (st : Nat) (s : State) : State :=
  let s := { s with peers := { s.peers with ops := dropFirst s.peers.ops (fun x => x.tag == o.tag) } }
  match o.issuer with
  | .command c => finish 0x0C08 c (opEnds o st) (opMoved o st) s
  | .descriptor h id => descResult h id st s

/-! ## Mirroring -/

/-- The partition is mirrored now: home, syncing or in sync (Table 15.7). -/
def mirrored (s : State) (t : Nat) : Bool :=
  let st := (twinPartOf s t).state
  st == 2 || st == 3

/-- The partition is a standby copy here (Table 15.7). -/
def standby (s : State) (t : Nat) : Bool := 5 ≤ (twinPartOf s t).state

/-- The mirror mode in force: 0 none, 1 synchronous, 2 bounded lag. -/
def mirrorMode (s : State) (t : Nat) : Nat := cfgN s 0x0C06 0 t

/-- Carries out what waited for an acknowledgement. -/
def doHeld (a : HeldAct) (s : State) : State :=
  match a with
  | .cmd op c st r => finish op c st r s
  | .frame k c type f => connSend k c type f s

/-- Carries out the held actions of tenant t whose frame is acknowledged, or all of them. -/
def releaseHeld (t : Nat) (upTo : Option (BitVec 24)) (s : State) : State :=
  let p := twinPartOf s t
  let go := fun (e : Option (BitVec 24) × HeldAct) =>
    match upTo, e.1 with
    | none, _ => true
    | some _, none => false
    | some a, some q => seqLe q a
  let s := setTwinPart t { p with heldReplies := p.heldReplies.filter (fun e => !go e) } s
  (p.heldReplies.filter go).foldl (fun s e => doHeld e.2 s) s

/-- The twin connection can take one more frame now (R436). -/
def twinRoom (s : State) : Bool :=
  let x := connOf s (twinPort s) twinConn
  x.phase == 2 && (x.kept.filter (·.sent)).length < 4096 && seqLe x.txNext x.window

/-- No mirrored write of tenant t has been unacknowledged beyond its lag bound (R436). -/
def lagOk (s : State) (t : Nat) : Bool :=
  mirrorMode s t != 2 || (!(twinPartOf s t).lagHold &&
    (twinPartOf s t).unacked.all (fun e => now s ≤ e.2 + cfgN s 0x0C06 2 t * 1024))

/-- The third gate's condition for a write of a mirrored partition (R436). -/
def mirrorGate (s : State) (t : Nat) : Bool := !mirrored s t || (twinRoom s && lagOk s t)

/-- The poison field: bit i for payload sector i. -/
def poisonField (l : List Bool) : BitVec 128 :=
  BitVec.ofNat 128 (sumOf ((List.range l.length).map (fun i => if l.getD i false then 2 ^ i else 0)))

/-- Sends consecutive sectors of a tenant to the partner in one frame and remembers it until it is acknowledged. -/
def mirrorFrame (type t ta : Nat) (sectors : List (List Byte × Bool)) (s : State) : State :=
  let k := twinPort s
  let seq := (connOf s k twinConn).txNext
  let f := { blankFrame with
    first := true, last := true, srcTenant := BitVec.ofNat 16 t, dstTenant := BitVec.ofNat 16 t,
    addr := BitVec.ofNat 64 ta, length := BitVec.ofNat 32 (32 * sectors.length),
    poison := poisonField (sectors.map (·.2)), payload := sectors.flatMap (fun x => padTo 32 x.1) }
  let s := connSend k twinConn type f s
  modTwinPart t (fun p => { p with unacked := p.unacked ++ [(seq, now s)] }) s

/-- Cuts a list into pieces of at most n + 1 entries. -/
def pieces {α : Type} (n : Nat) (l : List α) : List (List α) :=
  (List.range (ceilDiv l.length (n + 1))).map (fun i => (l.drop (i * (n + 1))).take (n + 1))

/-- Sends consecutive sectors to the partner, frame by frame. -/
def mirrorSend (t ta : Nat) (sectors : List (List Byte × Bool)) (s : State) : State :=
  let n := payloadSize s (twinPort s) / 32 - 1
  let ps := pieces n sectors
  (List.range ps.length).foldl (fun s i => mirrorFrame 0x0D t (ta + i * (n + 1) * 32) (ps.getD i []) s) s

/-- A COPY frame of tenant t (R438). -/
def copyFrame (t ta : Nat) (first last : Bool) (sectors : List (List Byte × Bool)) (s : State) : State :=
  let k := twinPort s
  let seq := (connOf s k twinConn).txNext
  let f := { blankFrame with
    first := first, last := last, srcTenant := BitVec.ofNat 16 t, dstTenant := BitVec.ofNat 16 t,
    addr := BitVec.ofNat 64 ta, length := BitVec.ofNat 32 (32 * sectors.length), poison := poisonField (sectors.map (·.2)),
    payload := sectors.flatMap (fun x => padTo 32 x.1) }
  modTwinPart t (fun p => { p with resyncLast := if last then some seq else p.resyncLast }) (connSend k twinConn 0x0E f s)

/-- Sends one entry of the outbox. -/
def sendOut (t : Nat) (o : MirrorOut) (s : State) : State :=
  let ta := (o.sectors.head?.map (·.1)).getD 0
  match o.copy with
  | some (_, first, last) => copyFrame t ta first last (o.sectors.filterMap (·.2)) s
  | none => mirrorSend t ta (o.sectors.filterMap (·.2)) s

/-- Every sector of a visible write is known. -/
def outReady (o : MirrorOut) : Bool := o.sectors.all (fun e => e.2.isSome)

/-- Replies that waited for the outbox wait for the last frame sent. -/
def settleReplies (t : Nat) (s : State) : State :=
  let p := twinPartOf s t
  if p.outbox.isEmpty then
    let q := (p.unacked.getLast?).map (·.1)
    setTwinPart t
      { p with heldReplies := p.heldReplies.map (fun e => if e.1.isNone then (q, e.2) else e) } s
  else s

/-- Sends the visible writes of a tenant that are known, in the order in which they became visible (R434). -/
def flushOut (n t : Nat) (s : State) : State :=
  match n with
  | 0 => s
  | n + 1 =>
    let p := twinPartOf s t
    match p.outbox with
    | [] => s
    | o :: r =>
      if outReady o then
        let s := setTwinPart t { p with outbox := r } s
        flushOut n t (sendOut t o s)
      else s

/-- Sends what can be sent of tenant t's outbox. -/
def flushMirror (t : Nat) (s : State) : State :=
  settleReplies t (flushOut (twinPartOf s t).outbox.length t s)

/-- A write becomes visible in a mirrored partition: its sectors join the outbox, with what is known of them (R434). -/
def mirrorVisible (t : Nat) (o : MirrorOut) (s : State) : State :=
  if !mirrored s t || o.sectors.isEmpty then s
  else flushMirror t (modTwinPart t (fun p => { p with outbox := p.outbox ++ [o] }) s)

/-- A sector of a visible write becomes known: its merged data (R434). -/
def mirrorKnown (t req ta : Nat) (data : List Byte) (poison : Bool) (s : State) : State :=
  let p := twinPartOf s t
  if p.outbox.isEmpty then s
  else
    let fill := fun (o : MirrorOut) =>
      if o.req == some req then
        { o with sectors := o.sectors.map (fun e => if e.1 == ta then (e.1, some (data, poison)) else e) }
      else o
    flushMirror t (setTwinPart t { p with outbox := p.outbox.map fill } s)

/-- A visible write that is lost is not mirrored. -/
def mirrorDrop (t req : Nat) (s : State) : State :=
  let p := twinPartOf s t
  if p.outbox.isEmpty then s
  else flushMirror t (setTwinPart t { p with outbox := p.outbox.filter (fun o => o.req != some req) } s)

/-- A reply or completion of tenant t waits while a mirrored write of a synchronous partition is unacknowledged
(R436). -/
def afterMirror (t : Nat) (a : HeldAct) (s : State) : State :=
  let p := twinPartOf s t
  if mirrorMode s t = 1 && mirrored s t && !(p.unacked.isEmpty && p.outbox.isEmpty) then
    let q := if p.outbox.isEmpty then (p.unacked.getLast?).map (·.1) else none
    setTwinPart t { p with heldReplies := p.heldReplies ++ [(q, a)] } s
  else doHeld a s

/-- The partner's copy is stale (R437): the home is degraded, its held completions are released. On the partner the
standby copy is stale. -/
def staleCopy (t : Nat) (s : State) : State :=
  let p := twinPartOf s t
  if p.state = 2 || p.state = 3 then
    releaseHeld t none
      (setTwinPart t { p with state := 4, unacked := [], outbox := [], resyncPos := none, resyncLast := none, lagHold := false } s)
  else if p.state = 5 || p.state = 6 then setTwinPart t { p with state := 7 } s
  else s

/-- Tenants with a twin record. -/
def twinTenants (s : State) : List Nat := s.twin.parts.map Prod.fst

/-- The copies with extents on a stack become stale: the stack lost a channel, or was retired (R437). -/
def staleOnStack (n : Nat) (s : State) : State :=
  ((twinTenants s).filter (fun t => !(extentsOf s t n).isEmpty)).foldl (fun s t => staleCopy t s) s

/-- Copies that the end of the twin connection makes stale: frames unacknowledged, or a resync under way (R437). -/
def cutCopies (s : State) : List Nat :=
  (twinTenants s).filter (fun t =>
    let p := twinPartOf s t
    !p.unacked.isEmpty || p.state == 2 || p.state == 5)

/-- The partner acknowledged everything up to a sequence of the twin connection. -/
def mirrorAcked (a : BitVec 24) (s : State) : State :=
  (twinTenants s).foldl (fun s t =>
    releaseHeld t (some a) (modTwinPart t (fun p =>
      let left := p.unacked.filter (fun e => !seqLe e.1 a)
      { p with unacked := left, lagHold := p.lagHold && left.any (fun e => e.2 + cfgN s 0x0C06 2 t * 1024 < now s) }) s)) s

/-! ## Acknowledgement and failure -/

/-- An acknowledgement up to a sequence: frames leave the store, the timeouts restart, waiting frames go (R417). -/
def ackTo (k c : Nat) (a : BitVec 24) (s : State) : State :=
  let x := connOf s k c
  if !(x.kept.any (fun e => e.sent && seqLe e.seq a)) then s
  else
    let s := setConn k c
      { x with kept := x.kept.filter (fun e => !(e.sent && seqLe e.seq a)), timeouts := 0, lastProgress := now s } s
    let s := if c = twinConn then mirrorAcked a s else s
    pumpAll k c s

/-- Operations issued on a connection. -/
def connOps (s : State) (k c : Nat) : List PeerOpState := s.peers.ops.filter (fun o => o.conn == connKey k c)

/-- Ends the outstanding operations of a connection with PEER_UNREACHABLE (R415, R420). -/
def unreachable (k c : Nat) (s : State) : State :=
  let ops := connOps s k c
  let s := modConn k c (fun x => { x with unreachable := x.unreachable + ops.length }) s
  ops.foldl (fun s o => endOp o stPeerUnreachable s) s

/-- A connection fails (R420): operations end, the store empties; on the twin connection, copies with frames
unacknowledged become stale (R437). -/
def failConn (k c : Nat) (s : State) : State :=
  let x := connOf s k c
  if x.phase = 0 then s
  else
    let s := countEvent (portCtr k 9) 1 (unreachable k c s)
    let s := modConn k c (fun x => { x with
      phase := 3, kept := [], rxOps := [], timeouts := 0, ackDue := none, nakAt := none, unackedRx := 0 }) s
    if c = twinConn then
      (cutCopies s).foldl (fun s t => staleCopy t s) s
    else s

/-- A failed connection opens again while its port's link is up (R415, R420). -/
def reopen (k c : Nat) (s : State) : State := if connOn s k c && linkUp s k then sendOpen k c s else s

/-- Every connection of a port fails. -/
def failPort (k : Nat) (s : State) : State := (List.range 65).foldl (fun s c => failConn k c s) s

end Sys2Proof.Machine
end

