-- ==== Sys2Proof/Machine/MemAccess.lean ====
section
/-! DEFINITION. Memory as tenants, engines and peers reach it: which status a range of tenant addresses answers before
any effect (R183, R248, R472, R433, R508), the units and lines of a range, tokens (R195), and the units of the pot (R264). -/

namespace Sys2Proof.Machine

open Sys2Proof

/-! ## What a range answers -/

/-- A stack whose accesses complete with STACK_ASLEEP: partial sleep, from its acceptance to the end of the wake. -/
def asleep (s : State) (n : Nat) : Bool :=
  match (stackOf s n).sleep.kind with
  | .entering | .partialSleep | .waking => true
  | _ => false

/-- What an access of tenant t to the line at a tenant address answers before any effect; none where it is served. -/
def lineStatus (s : State) (t ta : Nat) : Option Nat :=
  match translate s t ta with
  | .inr st => some st
  | .inl (.pot _) => none
  | .inl (.hbm n o) =>
    if asleep s n then some stStackAsleep
    else if (chanOf s (n * 32 + (placeAt s n o).pc / 2)).bench != .none then some stChannelBench
    else if standby s t then some stTwinStandby
    else none

/-- The 64 B lines that a range touches. -/
def lineStarts (ta n : Nat) : List Nat :=
  (List.range (ceilDiv (ta + n) 64 - ta / 64)).map (fun i => (ta / 64 + i) * 64)

/-- What an access to a whole range answers before any effect: the first of its lines that is not served (R183). -/
def rangeStatus (s : State) (t ta n : Nat) : Option Nat := (lineStarts ta n).findSome? (fun a => lineStatus s t a)

/-- The row of Table 6.6 a status stands for, counted from 1; 0 for none. -/
def statusRow (st : Nat) : Nat :=
  if st = stAddressUnmapped then 1 else if st = stBadParam then 2 else if st = stChannelOffline then 3
  else if st = stExtentJoining then 4 else if st = stRinseIncomplete then 5 else 0

/-- An access ended under Table 6.6: counted per tenant, the first of each kind in a period logged (R183). -/
def accessEvent (t ta st : Nat) (s : State) : State :=
  let row := statusRow st
  if row = 0 then s
  else
    let s := countEvent (devCtr 24) 1 s
    let s := modPart t (fun p => { p with addrEvents := p.addrEvents + 1 }) s
    let stack := if 2 ^ 39 ≤ ta then noStack else bitsOf ta 36 3
    firstOfKind t row (logEvent 0x0201 t 2 stack (leBytes 5 ta ++ leBytes 1 row) []) s

/-! ## Counts of an access -/

/-- A regulator is enabled and keeps tokens. -/
def regOn (s : State) (t n : Nat) : Bool := bitOf (regFlags s t n) 0

/-- Takes tokens of tenant t's regulator on stack n; a disabled regulator keeps none (R194, R195). -/
def takeTokens (t n k : Nat) (s : State) : State :=
  if regOn s t n then
    let b := bucketOf s t n
    setBucket t n { b with tokens := b.tokens - k } s
  else s

/-! ## Units -/

/-- New bytes of a unit over old ones, byte by byte. -/
def mergeBytes (old new : List Byte) (mask : List Bool) : List Byte :=
  (List.range 32).map (fun i => if mask.getD i false then new.getD i 0 else old.getD i 0)

/-- Every byte of a unit is written. -/
def wholeUnit (mask : List Bool) : Bool := (List.range 32).all (fun i => mask.getD i false)

/-- The 32 B units that a range touches. -/
def unitStarts (ta n : Nat) : List Nat :=
  (List.range (ceilDiv (ta + n) 32 - ta / 32)).map (fun i => (ta / 32 + i) * 32)

/-- Pot work of n bytes: counted per 64 B (R42). -/
def countPot (ta n : Nat) (s : State) : State :=
  if 2 ^ 39 ≤ ta then countVolume (devCtr 16) n (countEv .pot .user 8 (units64 n) s) else s

/-- What reading a range gives: its bytes, and which of its units failed. -/
structure RangeRead where
  bytes : List Byte
  failed : List Bool
  deriving DecidableEq, Repr

/-- Some unit failed. -/
def RangeRead.anyFailed (r : RangeRead) : Bool := r.failed.any id

/-- Writes bytes of the 32 B pot unit at a pot offset, and sets or clears its flag (R264): poison sets it, a whole write
clears it. -/
def potUnitWrite (base : Nat) (data : List Byte) (mask : List Bool) (poison : Bool) (s : State) : State :=
  let s := if mask.any id then potStore base (mergeBytes (potBytes s base 32) data mask) s else s
  if poison then potFlag (base / 32) true s else if wholeUnit mask then potFlag (base / 32) false s else s

/-- Ends a mailbox command whose writes a synchronous partner may still have to acknowledge (R436). -/
def doneAfterMirror (t op : Nat) (c : Cmd) (st : Nat) (result : List Byte) (s : State) : State :=
  afterMirror t (.cmd op c st result) s

end Sys2Proof.Machine
end

