-- ==== Sys2Proof/Machine/CalBase.lean ====
section
/-! DEFINITION. Periodic calibration as other units meet it (R317 to R322, R328): due and forced instants, the start and
the abandoning of a calibration, and the time that does not count toward the deferral (R319). -/

namespace Sys2Proof.Machine

open Sys2Proof

/-- Ticks of a calibration slot, of a cycle, and from a due instant to its forced instant (R317, R319). -/
def calSlot : Nat := 8192
def calCycle : Nat := 16777216
def calSlack : Nat := 15990784

/-- The offset of a pseudo-channel's due instants (R317). -/
def calOffset (fp : Nat) : Nat := fp / 64 * 32768 + fp % 64 * 262144

/-- A tick is a due instant of a pseudo-channel. -/
def isDueInstant (fp t : Nat) : Bool := calOffset fp ≤ t && (t - calOffset fp) % calCycle == 0

/-- The next due instant at or after a tick. -/
def nextDue (fp t : Nat) : Nat :=
  if t ≤ calOffset fp then calOffset fp else calOffset fp + ceilDiv (t - calOffset fp) calCycle * calCycle

/-- The due instant at or before a tick; none in the first cycle before the offset. -/
def lastDue (fp t : Nat) : Option Nat :=
  if t < calOffset fp then none else some (calOffset fp + (t - calOffset fp) / calCycle * calCycle)

/-- R317 makes a due instant a timing retraining. -/
def dueTiming (fp t : Nat) : Bool := ((t - calOffset fp) / calCycle + fp % 64) % 4 == 0

/-- Pseudo-channels of stack n. -/
def stackPcs (n : Nat) : List Nat := (List.range 64).map (fun v => n * 64 + v)

/-- Another pseudo-channel of the stack has its forced instant at a tick. -/
def forcedTaken (s : State) (fp t : Nat) : Bool :=
  (stackPcs (fp / 64)).any (fun q => q != fp && (pcOf s q).cal.due.isSome && (pcOf s q).cal.forcedAt == t)

/-- The first slot boundary at or after a tick that is no other pseudo-channel's forced instant (R319, R322). -/
def freeSlot (s : State) (fp t : Nat) : Nat :=
  let first := ceilDiv t calSlot
  let c := (List.range 65).map (fun i => (first + i) * calSlot)
  (c.find? (fun x => !forcedTaken s fp x)).getD (first * calSlot)

/-- A pseudo-channel calibrates. -/
def calibrating (s : State) (fp : Nat) : Bool := (pcOf s fp).cal.running.isSome

/-- The bound of an interruption in ticks (Table 11.2). -/
def calBound (timing : Bool) : Nat := if timing then 6400 else 1600

/-- The events of a calibration in the estimator, of origin mandatory (Table 11.2). -/
def countCal (n : Nat) (timing : Bool) (s : State) : State :=
  if timing then countEv .sectorWrite .mandatory n 64 (countEv .sectorRead .mandatory n 64 s)
  else countEv .sectorRead .mandatory n 4 s

/-! ## The retry buffer (R269) -/

/-- The key of a bank in `Chan.retryRows`. -/
def bankKey (fp bank : Nat) : Nat := fp * 256 + bank

/-- The open rows after a command that leaves the buffer has executed. -/
def rowsAfter (c : RetryCmd) (rows : Table (Nat × Nat)) : Table (Nat × Nat) :=
  match c.kind with
  | 0 => tput rows (bankKey c.pc c.bank) (c.row, c.origin)
  | 1 => terase rows (bankKey c.pc c.bank)
  | 2 | 3 => if c.autoPre then terase rows (bankKey c.pc c.bank) else rows
  | _ => rows.filter (fun e => e.1 / 256 != c.pc)

/-- Adds a command to the retry buffer of its channel, which holds the last 32; one that it pushes out has executed. -/
def retryPush (fp : Nat) (c : RetryCmd) (s : State) : State :=
  modChan (fp / 2) (fun x =>
    let l := x.retry ++ [c]
    let out := l.take (l.length - 32)
    { x with retry := l.drop (l.length - 32), retryRows := out.foldl (fun t c => rowsAfter c t) x.retryRows }) s

/-- Every bank of a pseudo-channel is precharged. -/
def prechargeAll (fp : Nat) (s : State) : State :=
  modPc fp (fun p => { p with rows := [] }) (retryPush fp { pc := fp, bank := 0, row := 0, kind := 6 } s)

/-- The longest replay, from the alert to normal issue (Table 9.6). -/
def replayTicks : Nat := 1200

/-- A replay runs on the channel of a pseudo-channel (R271). -/
def replaying (s : State) (fp : Nat) : Bool := now s < (chanOf s (fp / 2)).replayUntil

/-- The transfers of a calibration, which count against a simmer limit that does not bind them (R337). -/
def calColumns (timing : Bool) : Nat := if timing then 128 else 4

/-- Starts the calibration that is due: open banks are precharged first (R207, R320). -/
def startCal (fp : Nat) (forced : Bool) (s : State) : State :=
  let p := pcOf s fp
  match p.cal.due with
  | none => s
  | some (since, timing) =>
    let cal := { p.cal with
      running := some timing, startedForced := forced, maxDefer := max p.cal.maxDefer ((now s - since) / 1024),
      forced := p.cal.forced + (if forced then 1 else 0) }
    let s := prechargeAll fp (setPc fp { p with cal := cal, columnsNow := p.columnsNow + calColumns timing } s)
    let s := modStack (fp / 64) (fun k => { k with
      calRunning := some (fp % 64), calForced := k.calForced + (if forced then 1 else 0) }) s
    countCal (fp / 64) timing s

/-- A calibration with slack may start: none runs on the stack, and it ends before the next forced instant (R320). -/
def slackStart (s : State) (fp : Nat) : Bool :=
  match (pcOf s fp).cal.due with
  | none => false
  | some (_, timing) =>
    (stackOf s (fp / 64)).calRunning.isNone && !calibrating s fp &&
      (stackPcs (fp / 64)).all (fun q =>
        let c := (pcOf s q).cal
        q == fp || c.due.isNone || c.forcedAt < now s || now s + calBound timing ≤ c.forcedAt)

/-- The forced instant has come (R319). -/
def forcedDue (s : State) (fp : Nat) : Bool :=
  let c := (pcOf s fp).cal
  c.due.isSome && c.running.isNone && c.forcedAt ≤ now s

/-- Abandons a running calibration with no plausibility failure; it stays due. A forced one restarts at the first free slot
boundary from tick `t` on (R322). -/
def abandonCal (fp t : Nat) (s : State) : State :=
  let p := pcOf s fp
  if p.cal.running.isNone then s
  else
    let at_ := if p.cal.startedForced then freeSlot s fp t else p.cal.forcedAt
    let s := setPc fp { p with cal := { p.cal with running := none, startedForced := false, forcedAt := at_ } } s
    modStack (fp / 64) (fun k => { k with calRunning := none }) s

/-- Moves the forced instant of a due calibration later by excluded time (R319). -/
def moveForced (fp ticks : Nat) (s : State) : State :=
  let p := pcOf s fp
  match p.cal.due with
  | none => s
  | some _ => setPc fp { p with cal := { p.cal with forcedAt := freeSlot s fp (p.cal.forcedAt + ticks) } } s

/-- A channel starts time that counts toward no deferral: a window, self-refresh or the cut of scald. -/
def chanAway (ch : Nat) (s : State) : State :=
  modChan ch (fun c => { c with awayFrom := some (c.awayFrom.getD (now s)) }) s

/-- The channel is back, unless something else still excludes it. -/
def chanBack (ch : Nat) (s : State) : State :=
  let c := chanOf s ch
  match c.awayFrom with
  | none => s
  | some t =>
    if c.windowOpen || c.sr != .awake || (stackOf s (ch / 32)).thermal.heat == .scald then s
    else
      let s := setChan ch { c with awayFrom := none } s
      moveForced (2 * ch + 1) (now s - t) (moveForced (2 * ch) (now s - t) s)

/-- A retraining in a window counts as one calibration of each kind for a pseudo-channel (R328). -/
def windowCounts (fp : Nat) (s : State) : State :=
  let temp := (stackOf s (fp / 64)).thermal.temp
  let s := modPc fp (fun p => { p with cal := { p.cal with
    lastImp := now s, lastTim := now s, appliedImp := p.cal.appliedImp + 1, appliedTim := p.cal.appliedTim + 1,
    rowImp := 0, rowTim := 0, prevTiming := true, owedTiming := false, tempAt := temp } }) s
  countEvent (stackCtr (fp / 64) 10) 2 s

/-- Both pseudo-channels of a channel. -/
def chanPcs (ch : Nat) : List Nat := [2 * ch, 2 * ch + 1]

/-- A window's retraining counts for both pseudo-channels of its channel (R328). -/
def windowRetrained (ch : Nat) (s : State) : State := (chanPcs ch).foldl (fun s fp => windowCounts fp s) s

/-- A window enters one calibration of each kind for each pseudo-channel in the estimator (R329). -/
def countWindowCal (ch : Nat) (s : State) : State :=
  (chanPcs ch).foldl (fun s fp => modPc fp (fun p =>
    { p with columnsNow := p.columnsNow + calColumns true + calColumns false })
    (countCal (fp / 64) true (countCal (fp / 64) false s))) s

end Sys2Proof.Machine
end

