-- ==== Sys2Proof/Machine/Exer.lean ====
section
/-! DEFINITION. The channel exerciser (R475 to R479): its ranges, patterns (Table 18.3), what it issues next, the check
of a read, and its commands (Table 18.7). -/

namespace Sys2Proof.Machine

open Sys2Proof

/-! ## Ranges -/

/-- The first row block of the exerciser rows of stack n (Table 6.2). -/
def exerBlock (s : State) (n : Nat) : Nat := reservedBlock s.ident.big (mappedCount s n) + 32

/-- Sectors per pseudo-channel in the exerciser rows: 16 rows of 16 banks, 16 lines of two sectors. -/
def exerSectors : Nat := 16 * 16 * 32

/-- Sectors that a run covers on one pseudo-channel. -/
def runSectors (s : State) (e : Exer) : Nat :=
  if e.mode = 2 then bankCount s.ident.big * 16384 * 32 else exerSectors

/-- Bank, row, line and sector of position i of a run, in ascending order (R476). -/
def exerPlace (s : State) (n : Nat) (e : Exer) (i : Nat) : Nat × Nat × Nat × Nat :=
  let line := i / 2 % 16
  if e.mode = 2 then (i / (16384 * 32), i / 32 % 16384, line, i % 2)
  else
    let t := exerBlock s n + i / 32 % 16
    (t / 16384 * 16 + i / 512, t % 16384, line, i % 2)

/-- The pseudo-channels under test, counted within the stack. -/
def exerPcs (e : Exer) : List Nat :=
  if e.mode = 0 then (List.range 64).filter (fun v => e.mask.testBit v)
  else [2 * (e.channel % 32), 2 * (e.channel % 32) + 1]

/-! ## Patterns (Table 18.3) -/

/-- n steps of the generator x^31 + x^28 + 1 from a 31-bit state; the newest bit enters at bit 0. -/
def prbsSteps (n : Nat) (st : BitVec 31) : BitVec 31 :=
  match n with
  | 0 => st
  | n + 1 => prbsSteps n ((st <<< 1) ||| (if st.getLsbD 30 != st.getLsbD 27 then 1#31 else 0#31))

/-- The byte that lane L carries in sector i of the range: eight steps per sector, beat b in bit b. -/
def prbsByte (seed : BitVec 32) (lane i : Nat) : Byte :=
  let start := (seed ^^^ BitVec.ofNat 32 (lane + 1)).setWidth 31
  let st := prbsSteps (8 * i) start
  BitVec.ofNat 8 (sumOf ((List.range 8).map (fun b =>
    if (prbsSteps (b + 1) st).getLsbD 0 then 2 ^ b else 0)))

/-- The 32 data bytes of position i of a pass. `offset` is the stack offset of the sector. -/
def patternData (e : Exer) (i offset : Nat) (row line : Nat) : List Byte :=
  let seed := e.seed + BitVec.ofNat 32 e.passNo
  let walk := fun (hi lo : Byte) => (List.range 32).map (fun l => if l = (i / 2 + e.passNo) % 32 then hi else lo)
  match e.pattern with
  | 0 => List.replicate 32 (seed.setWidth 8)
  | 1 => walk 0xFF 0x00
  | 2 => walk 0x00 0xFF
  | 3 => (List.range 32).map (fun l => prbsByte seed l i)
  | 4 => List.replicate 32 (if (row + line) % 2 = 0 then 0x55 else 0xAA)
  | 5 => (List.range 4).flatMap (fun w => leBytes 8 (Nat.xor (offset + w) seed.toNat))
  | _ => List.replicate 32 (seed.setWidth 8)

/-- The stack offset of a physical sector; 0 where no offset lies there. -/
def sectorOffset (s : State) (n pc bank row line sector : Nat) : Nat :=
  match rowOffset s.ident.big (stackOf s n).mapped (hashMasks s n) pc bank row with
  | none => 0
  | some o => o + line * 64 + sector * 32

/-- The pattern data of position i on pseudo-channel v of stack n. -/
def exerData (s : State) (n : Nat) (e : Exer) (v i : Nat) : List Byte :=
  let p := exerPlace s n e i
  patternData e i (sectorOffset s n v p.1 p.2.1 p.2.2.1 p.2.2.2) p.2.1 p.2.2.1

/-! ## What a run issues next -/

/-- The next work of a run on one pseudo-channel: a write, a read, hammer activates, or nothing in this pass. -/
inductive ExerStep where
  | write (i : Nat)
  | read (i : Nat)
  | hammer
  | idle
  deriving DecidableEq, Repr

/-- The refresh interval in force on stack n (R224). -/
def trefi (s : State) (n : Nat) : Nat := if (stackOf s n).warmNow then 1950 else 3900

/-- tRFC and tDRFM of stack n, as it told them at discovery (R223). -/
def trfc (s : State) (n : Nat) : Nat := ((stackOf s n).ident.map (·.trfc)).getD 410
def tdrfm (s : State) (n : Nat) : Nat := ((stackOf s n).ident.map (·.tdrfm)).getD 280

/-- The refresh window in force on stack n. -/
def trefw (s : State) (n : Nat) : Nat := 8192 * trefi s n

def exerStep (s : State) (_n : Nat) (e : Exer) (v : Nat) : ExerStep :=
  let k := runSectors s e
  let i := tget 0 e.cursors v
  if !e.running || !(exerPcs e).contains v then .idle
  else if i < k then .write i
  else if e.pattern = 6 && (match tfind e.hammerEnd v with
      | none => true
      | some t => now s < t) then .hammer
  else if i < 2 * k then .read (i - k)
  else .idle

/-- Every pseudo-channel under test has finished the pass. -/
def passDone (s : State) (e : Exer) : Bool :=
  (exerPcs e).all (fun v => 2 * runSectors s e ≤ tget 0 e.cursors v)

/-- One position is done; a whole pass done starts the next (R476). -/
def exerAdvance (n v : Nat) (s : State) : State :=
  let e := exerOf s n
  let e := { e with cursors := tset 0 e.cursors v (tget 0 e.cursors v + 1) }
  setExer n
    (if passDone s e && (e.passes = 0 || e.passNo + 1 < e.passes) then
      { e with cursors := [], hammerEnd := [], passNo := e.passNo + 1 }
    else e) s

/-- The hammer phase of a pseudo-channel lasts one refresh window. -/
def hammerStart (n v : Nat) (s : State) : State :=
  let e := exerOf s n
  match tfind e.hammerEnd v with
  | some _ => s
  | none => setExer n { e with hammerEnd := tput e.hammerEnd v (now s + trefw s n) } s

/-! ## The check of a read (R477) -/

/-- The order number of an outcome in Table 9.3. -/
def outcomeOrder : SectorOutcome → Nat
  | .clean => 1
  | .poison => 2
  | .mismatch => 3
  | .corrected _ => 4
  | .uncorrectable => 5

/-- Lanes on which the stored bytes as read differ from the bytes expected. -/
def lanesWrong (stored expect : List Byte) : List Nat :=
  (List.range 36).filter (fun i => stored.getD i 0 != expect.getD i 0)

/-- An error capture record (Table 18.4). -/
def captureRecord (s : State) (q : Nat) (o : SectorOutcome) (e : Exer) (stored expect : List Byte) : List Byte :=
  let data := padTo 32 stored
  leBytes 8 (now s) ++ leBytes 2 (secStack q * 64 + secPc q) ++ leBytes 1 (secBank q) ++
    leBytes 1 (secLine q + q % 2 * 128) ++ leBytes 2 (secRow q) ++ leBytes 1 (outcomeOrder o) ++
    leBytes 1 e.pattern ++ (List.range 32).map (fun i => data.getD i 0 ^^^ expect.getD i 0) ++
    bytesAt stored 32 4 ++ leBytes 5 (maskOf (lanesWrong stored expect)) ++ List.replicate 7 0

/-- A read of the exerciser returns. -/
def exerCheck (n q : Nat) (stored pattern : List Byte) (s : State) : State :=
  let e := exerOf s n
  let expect := encodeSector 0 false pattern
  let o := classify (policyOf s n) 0 stored
  let data := outcomeData stored o
  let lanes := lanesWrong stored expect
  let counted := fun (e : Exer) => { e with laneErrors := lanes.foldl (fun t l => cadd t l 1) e.laneErrors }
  if o.failed || data != pattern then
    let e := { counted e with errors := e.errors + 1 }
    setExer n
      (if e.captures.length < 16 then { e with captures := e.captures ++ [captureRecord s q o e stored expect] } else e)
      (countOutcome q o s)
  else
    match o with
    | .corrected bad =>
      let s := setExer n { counted e with corrections := e.corrections + 1 } (countOutcome q o s)
      (countLanes (n * 64 + secPc q) (secBank q * 16384 + secRow q) (badLanes bad) s).1
    | _ => s

/-! ## The end of a run -/

/-- The restore after a whole-channel run, or after test access: a flag, and no extent prepared (R479, R482). -/
def needRestore (n : Nat) (s : State) : State := modStack n (fun k => { k with restore := true, prepared := [] }) s

/-- Ends a run with a reason (Table 18.7). -/
def exerEnd (n reason : Nat) (s : State) : State :=
  let e := exerOf s n
  if !e.running then s
  else
    let s := setExer n { e with running := false, outcome := reason } s
    if e.mode = 2 then needRestore n s else s

/-- A pseudo-channel's channel is in service: not mapped out, benched or retired. -/
def inService (s : State) (fp : Nat) : Bool :=
  let n := fp / 64
  !(stackOf s n).retired && (stackOf s n).online && !(stackOf s n).mapped.contains (fp % 64 / 2) &&
    (chanOf s (fp / 2)).bench == .none

/-- Peak column commands of a pseudo-channel per period, in tenths (Q, R336). -/
def peakTenths (s : State) : Nat :=
  match s.boot.grade with
  | some .g80 => 10240
  | some .g96 => 12288
  | _ => 8192

/-- Some partition owns or is joining an extent of stack n. -/
def stackOwned (s : State) (n : Nat) : Bool := (List.range 128).any (fun t => !(extentsOf s t n).isEmpty)

def exerStartWork (c : Cmd) (s : State) : Reply :=
  let n := par c 0 1
  let mode := par c 1 1
  let pattern := par c 2 1
  let cap := par c 3 1
  let ch := par c 4 2
  let mask := par c 8 8
  if 8 ≤ n || 2 < mode || 6 < pattern || (pattern = 6 && mode ≠ 2) then .done s stBadParam []
  else if mode = 0 && (cap = 0 || peakTenths s / 80 < cap || mask = 0) then .done s stBadParam []
  else if mode ≠ 0 && ch / 32 ≠ n then .done s stBadParam []
  else if (exerOf s n).running then .done s stBusy []
  else if mode = 0 && !((List.range 64).all (fun v => !mask.testBit v || inService s (n * 64 + v))) then
    .done s stBadParam []
  else if mode ≠ 0 && (chanOf s ch).bench == .none then .done s stNotPermitted []
  else if mode = 2 && stackOwned s n then .done s stNotPermitted []
  else
    .done (setExer n
      { running := true, mode := mode, pattern := pattern, capPerPeriod := cap, channel := ch, passes := par c 6 2,
        mask := mask, seed := BitVec.ofNat 32 (par c 16 4), outcome := 0 } s) stOK []

/-- EXER_START (R475, R485). -/
def execExerStart (c : Cmd) (s : State) : Host.Outcome State Fault Refusal :=
  .next (mailbox 0x0E03 c (exerStartWork c) s)

def exerStopWork (c : Cmd) (s : State) : Reply :=
  let n := par c 0 1
  if 8 ≤ n then .done s stBadParam [] else .done (exerEnd n 2 s) stOK []

/-- EXER_STOP (R478, R485). -/
def execExerStop (c : Cmd) (s : State) : Host.Outcome State Fault Refusal :=
  .next (mailbox 0x0E04 c (exerStopWork c) s)

/-- Passes done of a run. -/
def passesDone (s : State) (e : Exer) : Nat := e.passNo + (if passDone s e then 1 else 0)

def exerStatusResult (s : State) (n : Nat) : List Byte :=
  let e := exerOf s n
  leBytes 1 (if e.running then 0 else e.outcome) ++ leBytes 1 e.captures.length ++ leBytes 2 (passesDone s e) ++
    leBytes 4 e.errors ++ leBytes 4 e.corrections ++ leBytes 1 (flag (stackOf s n).restore 0)

def exerStatusWork (c : Cmd) (s : State) : Reply :=
  let n := par c 0 1
  if 8 ≤ n then .done s stBadParam [] else .done s stOK (exerStatusResult s n)

/-- EXER_STATUS (R478, R485). -/
def execExerStatus (c : Cmd) (s : State) : Host.Outcome State Fault Refusal :=
  .next (mailbox 0x0E05 c (exerStatusWork c) s)

/-- What EXER_CAPTURE_READ writes: the captured records, then the error counts of the 36 lanes. -/
def captureBytes (e : Exer) : List Byte :=
  e.captures.flatMap id ++ (List.range 36).flatMap (fun l => leBytes 4 (cget e.laneErrors l))

def exerCaptureReadWork (c : Cmd) (s : State) : Reply :=
  let n := par c 0 1
  let addr := par c 8 8
  if 8 ≤ n || addr % 64 ≠ 0 then .done s stBadParam []
  else .done (emit (.hostWrite (cmdFn c) addr (captureBytes (exerOf s n))) s) stOK []

/-- EXER_CAPTURE_READ (R477, R485). -/
def execExerCaptureRead (c : Cmd) (s : State) : Host.Outcome State Fault Refusal :=
  .next (mailbox 0x0E06 c (exerCaptureReadWork c) s)

/-- EXER_RUN_DONE: the last pass of a run has ended (R476, R479). -/
def execExerRunDone (n : Fin 8) (s : State) : Host.Outcome State Fault Refusal :=
  let e := exerOf s n.val
  .next (if e.running && e.passes != 0 && e.passes ≤ passesDone s e then exerEnd n.val 1 s else s)

/-- EXER_RESTORE_DONE: the reserved range is rewritten (R479). -/
def execExerRestoreDone (n : Fin 8) (s : State) : Host.Outcome State Fault Refusal :=
  let k := stackOf s n.val
  .next (if k.restore && k.online && !rinseWaits s n.val then
      modStack n.val (fun k => { k with restore := false }) (writeReserved n.val s)
    else s)

end Sys2Proof.Machine
end

