-- ==== Sys2Proof/Machine/SleepBase.lean ====
section
/-! DEFINITION. What the sector path and the governor share about sleeping channels (R241, R242): which channels are
idle, in service and to enter self-refresh. -/

namespace Sys2Proof.Machine

open Sys2Proof

/-- Rinse or join writes of the HKP port are to be issued on stack n (R187, R189). -/
def rinsePending (s : State) (n : Nat) : Bool :=
  s.parts.any (fun e => e.2.joining.any (fun x => x.1 == n) ||
    (rinseRunning s e.1 && !rinseSuspended s e.1 && !(extentsOf s e.1 n).isEmpty))

/-- Requests of a channel at a gate or in a queue (R242 step 1), rinse and join writes among them but in doze entry, where
rinses wait (R252). -/
def chanBusy (s : State) (ch : Nat) : Bool :=
  s.path.reqs.any (fun r => r.kind != .pot && r.stack * 32 + r.pc / 2 == ch) ||
    ((stackOf s (ch / 32)).sleep.kind == .light && s.doze != .entering && rinsePending s (ch / 32))

/-- Periods a channel has been idle. -/
def idleFor (s : State) (ch : Nat) : Nat := if chanBusy s ch then 0 else s.clock.mark - (chanOf s ch).busyMark

/-- A channel is in service on a stack that is up. -/
def chanServes (s : State) (ch : Nat) : Bool :=
  let k := stackOf s (ch / 32)
  k.online && !k.retired && !k.mapped.contains (ch % 32)

/-- A channel is to enter self-refresh: light or partial sleep with its idle time, or doze (R241, R242 step 1). -/
def wantsSleep (s : State) (ch : Nat) : Bool :=
  let c := chanOf s ch
  let k := stackOf s (ch / 32)
  chanServes s ch && c.sr == .awake && !c.windowOpen && k.thermal.heat != .scald && !chanBusy s ch &&
    (s.doze == .entering || k.sleep.kind == .entering || (k.sleep.kind == .light && 16 ≤ idleFor s ch))

/-- Boot is to wake a channel of the stack whose turn it is: it sleeps since a warm reset, and its stack is neither cut nor
waiting for its controller and PHY (R109, R120, R245). -/
def bootWakes (s : State) (ch : Nat) : Bool :=
  let n := ch / 32
  let k := stackOf s n
  s.boot.stage == .training && s.boot.halt == .none && s.boot.nextStack == n && k.ident.isSome && !k.retired && !k.online &&
    !k.mapped.contains (ch % 32) && (chanOf s ch).sr == .asleep && k.thermal.heat != .scald && domUp s (53 + 6 * n) &&
    domUp s (49 + 6 * n) && domUp s (50 + 6 * n)
where
  /-- A domain is on. -/
  domUp (s : State) (d : Nat) : Bool := s.power.on.getLsbD d

/-- A channel is to leave self-refresh other than by a request (R245): boot, a wake, or a partial sleep that starts from
light sleep (R250). -/
def wantsWake (s : State) (ch : Nat) : Bool :=
  let k := stackOf s (ch / 32)
  bootWakes s ch || chanServes s ch && (chanOf s ch).sr == .asleep && k.thermal.heat != .scald &&
    (k.sleep.kind == .waking || k.sleep.kind == .wakingLight || (k.sleep.kind == .entering && (chanOf s ch).keepAll))

/-- A request that reaches a channel before its entry command aborts the entry (R243). -/
def countAbort (ch : Nat) (s : State) : State :=
  if wantsSleep s ch then
    modStack (ch / 32) (fun k => { k with sleep := { k.sleep with aborts := k.sleep.aborts + 1 } }) s
  else s

end Sys2Proof.Machine
end

