-- ==== Sys2Proof/Machine/Requests.lean ====
section
/-! DEFINITION. Accesses: BAR4 and BAR2 TLPs (R182, R183, R262, R264, R268, R379) and those of the device's own engines
(R199, R363, R424), their split into requests (R199) within the store of a foot die (R201), what ends them, pot requests
(R264, R376 to R380), the regulator gate (R194, R200, R208), the waits of a closed partition (R157), and the level of a
request (R209). -/

namespace Sys2Proof.Machine

open Sys2Proof

/-! ## BARs -/

/-- Function k answers on PCIe: the PF always, a VF while VF Enable is set (R110). -/
def fnPresent (s : State) (k : Nat) : Bool := k == 0 || (s.boot.vfEnable && decide (k ≤ s.ident.vfs))

/-- The host can reach the BARs of function k: the link is up and the configuration space is loaded (R119). -/
def barOpen (s : State) (k : Nat) : Bool := s.pins.hostLink == .up && s.boot.cfgLoaded && fnPresent s k

/-- Bytes of BAR4 of function k (R182). -/
def bar4Size (s : State) (k : Nat) : Nat := 2 ^ ((fnOf s k).bar4Log2.getD (if k = 0 then 39 else 36))

/-- The window stride W of function k (R182). -/
def bar4Stride (s : State) (k : Nat) : Nat := bar4Size s k / 8

/-- The tenant address of a BAR4 offset with stride w. -/
def barTa (w off : Nat) : Nat := off / w * 2 ^ 36 + off % w

/-- The BAR offset of a tenant address: of BAR4 with stride w, or of BAR2 with stride 0. -/
def taBar (w ta : Nat) : Nat := if w = 0 then ta % 2 ^ 27 else ta / 2 ^ 36 * w + ta % 2 ^ 36

/-- The PCIe ending of a status (Table 6.6): an unmapped offset is an Unsupported Request. -/
def tlpStatusOf (st : Nat) : TlpStatus := if st = stAddressUnmapped then .unsupported else .completerAbort

/-! ## Completions (R262) -/

/-- A byte of gathered units, and whether its unit failed. -/
def gatheredByte (got : List (Nat × List Byte × Bool)) (o : Nat) : Byte × Bool :=
  match got.find? (fun e => e.1 == o / 32 * 32) with
  | none => (0, false)
  | some e => (e.2.1.getD (o % 32) 0, e.2.2)

/-- One completion TLP over BAR offsets lo to hi - 1. -/
def completionOf (k tag : Nat) (got : List (Nat × List Byte × Bool)) (lo hi : Nat) : Out :=
  let bs := (List.range (hi - lo)).map (fun i => gatheredByte got (lo + i))
  .tlp k tag .success (bs.any (·.2)) (bs.map (·.1))

/-- The completion of a read: one TLP, or, when a failed sector is in it, one for each naturally aligned 64 B block,
the Read Completion Boundary (PRESUMED), of which those with a failed sector are poisoned. -/
def readCompletion (k tag off len : Nat) (got : List (Nat × List Byte × Bool)) (s : State) : State :=
  if got.any (fun e => e.2.2) then
    (List.range (ceilDiv (off + len) 64 - off / 64)).foldl (fun s i =>
      let lo := max off ((off / 64 + i) * 64)
      let hi := min (off + len) ((off / 64 + i + 1) * 64)
      emit (completionOf k tag got lo hi) s) s
  else emit (completionOf k tag got off (off + len)) s

/-- How a host access ends that is not served: a completion, or, for a posted write, an AER report (Table 6.6). -/
def failTlp (k tag : Nat) (write : Bool) (st : TlpStatus) (s : State) : State :=
  if write then emit (.aer k st) s else emit (.tlp k tag st false []) s

/-! ## Accesses -/

def accessOfId (s : State) (id : Nat) : Option Access := s.path.accesses.find? (fun a => a.id == id)

def dropAccess (id : Nat) (s : State) : State :=
  { s with path := { s.path with accesses := s.path.accesses.filter (fun a => a.id != id) } }

def modAccess (id : Nat) (f : Access → Access) (s : State) : State :=
  { s with path := { s.path with accesses := modFirst s.path.accesses (fun a => a.id == id) f } }

def reqOf (s : State) (id : Nat) : Option Req := s.path.reqs.find? (fun r => r.id == id)

def dropReq (id : Nat) (s : State) : State :=
  { s with path := { s.path with reqs := s.path.reqs.filter (fun r => r.id != id) } }

def modReq (id : Nat) (f : Req → Req) (s : State) : State :=
  { s with path := { s.path with reqs := modFirst s.path.reqs (fun r => r.id == id) f } }

/-- The access has been served in full: a read of the host completes (R262), a posted write is done (R268); the result of
any other waits for its owner. -/
def accessDone (a : Access) (s : State) : State :=
  if a.owner != .host then modAccess a.id (fun _ => a) s
  else
    let s := dropAccess a.id s
    if a.write then s else readCompletion a.fn a.tag a.start a.len a.got s

/-- One sector of an access is served: for a read with its data and whether it failed, for a write with its outcome
(Table 9.5). -/
def sectorOutcome (id : Nat) (unit : Option (Nat × List Byte × Bool)) (outcome : Nat) (s : State) : State :=
  match accessOfId s id with
  | none => s
  | some a =>
    if a.left = 0 then s
    else
      let a := { a with left := a.left - 1, worst := max a.worst outcome, got := match unit with
        | some (ta, u) => a.got ++ [(if a.owner == .host then taBar a.stride ta else ta, u)]
        | none => a.got }
      if a.left = 0 then accessDone a s else modAccess id (fun _ => a) s

/-- One sector of an access is served, with no outcome of a partial write. -/
def sectorServed (id : Nat) (unit : Option (Nat × List Byte × Bool)) (s : State) : State := sectorOutcome id unit 0 s

/-- Ends an access with a status: its requests that are not queued yet go, with no effect. The owner of one that is not the
host's finds the status. -/
def endAccess (id st : Nat) (s : State) : State :=
  let s := { s with path := { s.path with
    reqs := s.path.reqs.filter (fun r => r.access != id || r.kind == .readHalf || r.kind == .writeBack ||
      r.place == .queued) } }
  match accessOfId s id with
  | none => s
  | some a =>
    if a.owner == .host then failTlp a.fn a.tag a.write (tlpStatusOf st) (dropAccess id s)
    else modAccess id (fun a => { a with left := 0, status := if a.status = 0 then st else a.status }) s

/-! ## Splitting (R199) -/

/-- The bytes of a write that fall in the 64 B line at a BAR offset. -/
def lineBytes (off : Nat) (data : List Byte) (line : Nat) : List Byte :=
  (List.range 64).map (fun i => if off ≤ line + i then data.getD (line + i - off) 0 else 0)

/-- Which bytes of the line at a BAR offset an access covers. -/
def lineMask (off len line : Nat) : List Bool :=
  (List.range 64).map (fun i => decide (off ≤ line + i) && decide (line + i < off + len))

/-- The sectors of a line that a byte mask touches. -/
def sectorsOf (mask : List Bool) : Nat :=
  flag ((mask.take 32).any id) 0 + flag ((mask.drop 32).any id) 1

/-- A request with the pseudo-channel, bank, row and line that its line lies in. -/
def located (s : State) (r : Req) : Req :=
  match translate s r.tenant r.ta with
  | .inl (.hbm n o) =>
    let p := placeAt s n o
    { r with stack := n, offset := o, pc := p.pc, bank := p.bank, row := p.row, line := p.line }
  | _ => r

/-- The request of one line of an access: the line's tenant address, the bytes of the line it covers, and for a write their
values; every request of an access carries the tick of its arrival (R199). -/
def lineReq (s : State) (access t port ta : Nat) (mask : List Bool) (write : Bool) (data : List Byte) (place : ReqPlace) :
    Req :=
  located s
    { id := s.path.nextId, access := access, place := place, tenant := t, port := port, write := write, ta := ta,
      stack := bitsOf ta 36 3, offset := 0, pc := 0, bank := 0, row := 0, line := 0, mask := sectorsOf mask,
      touch := sectorsOf mask, data := if write then data else [], byteMask := mask, stamp := now s, arrived := now s }

/-- The request of one line of a host access. -/
def hostReq (s : State) (access t w off len line : Nat) (write : Bool) (data : List Byte) (ep : Bool)
    (place : ReqPlace) : Req :=
  let mask := lineMask off len line
  { lineReq s access t 0 (barTa w line) mask write (lineBytes off data line) place with
    poison := ep, poisonMask := if ep then sectorsOf mask else 0 }

/-- Adds a request to the path. -/
def pushReq (r : Req) (s : State) : State :=
  { s with path := { s.path with reqs := s.path.reqs ++ [r], nextId := s.path.nextId + 1 } }

/-! ## The store of a foot die (R201) -/

/-- Requests that wait at the gates of foot die n. -/
def dieHeld (s : State) (n : Nat) : Nat :=
  (s.path.reqs.filter (fun r => r.stack == n && r.kind != .pot &&
    (r.place == .regulator || r.place == .kettle || r.place == .gate))).length

/-- The stem link takes requests for foot die n: it holds fewer than 8192. -/
def storeRoom (s : State) (n : Nat) : Bool := dieHeld s n < 8192

/-- Where a request for stack n stands on arrival: at its first gate, or at the hub's ingress behind a full store. -/
def arrival (s : State) (n : Nat) : ReqPlace :=
  if storeRoom s n && !(s.path.reqs.any (fun r => r.stack == n && r.place == .stem)) then .regulator else .stem

/-- Takes the next identifier of the path. -/
def takeId (s : State) : State := { s with path := { s.path with nextId := s.path.nextId + 1 } }

/-- The partition of tenant t holds what arrives (R156, Table 6.6): a RINSE_INCOMPLETE partition answers instead, and so
does an empty one (Table 6.7). -/
def holds (s : State) (t : Nat) : Bool := (partOf s t).closed && !rinseIncomplete s t && hasMemory s t

/-- The first 2 ms of a closure are over (R157). -/
def holdOver (s : State) (t : Nat) : Bool := due s ((partOf s t).closedAt + msTicks 2)

/-- Counts a request that a closed partition ended (R157). -/
def countHeldEnd (t : Nat) (s : State) : State := modPart t (fun p => { p with heldEnded := p.heldEnded + 1 }) s

/-- What a BAR4 access of function k answers before any effect; none where it is served or held. -/
def bar4Status (s : State) (k off len : Nat) : Option (Nat × Nat) :=
  let w := bar4Stride s k
  (lineStarts off len).findSome? (fun l => (lineStatus s k (barTa w l)).map (fun st => (barTa w l, st)))

/-- A BAR4 access (R182, R183, R199). A length of 0 touches no sector. -/
def bar4Access (k tag off len : Nat) (write : Bool) (data : List Byte) (ep : Bool) (s : State) : State :=
  if !barOpen s k then s
  else if bar4Size s k < off + len then failTlp k tag write .unsupported s
  else if len = 0 then (if write then s else emit (.tlp k tag .success false []) s)
  else if holds s k && holdOver s k then failTlp k tag write .completerAbort (countHeldEnd k s)
  else
    match (if holds s k then none else bar4Status s k off len) with
    | some (ta, st) => failTlp k tag write (tlpStatusOf st) (accessEvent k ta st s)
    | none =>
      let id := s.path.nextId
      let w := bar4Stride s k
      let a : Access :=
        { id := id, fn := k, tag := tag, write := write, start := off, len := len, stride := w,
          left := (unitStarts off len).length }
      let s := hostPayload false data.length s
      let s := takeId { s with path := { s.path with accesses := s.path.accesses ++ [a] } }
      (lineStarts off len).foldl (fun s l =>
        let r := hostReq s id k w off len l write data ep .held
        let r := if holds s k then r else { r with place := arrival s r.stack }
        pushReq r (countAbort (r.stack * 32 + r.pc / 2) s)) s

/-- BAR4_READ (R182). -/
def execBar4Read (k : Fin 128) (tag off len : Nat) (s : State) : Host.Outcome State Fault Refusal :=
  .next (bar4Access k.val tag off len false [] false s)

/-- BAR4_WRITE (R182, R268). -/
def execBar4Write (k : Fin 128) (off : Nat) (data : List Byte) (ep : Bool) (s : State) :
    Host.Outcome State Fault Refusal :=
  .next (bar4Access k.val 0 off data.length true data ep s)

/-- BAR4_ATOMIC: Unsupported Request (R182). -/
def execBar4Atomic (k : Fin 128) (tag : Nat) (s : State) : Host.Outcome State Fault Refusal :=
  .next (if barOpen s k.val then emit (.tlp k.val tag .unsupported false []) s else s)

/-! ## The pot (R264, R376 to R379) -/

/-- The pot units of an access, by BAR2 offset. -/
def potUnits (t off len : Nat) (s : State) : List (Nat × List Byte × Bool) :=
  (unitStarts off len).map (fun u =>
    match translate s t (2 ^ 39 + u) with
    | .inl (.pot o) => (u, potBytes s (o / 32 * 32) 32, potFlagged s o)
    | _ => (u, List.replicate 32 0, true))

/-- A slice pair under an access is being cleared, so the access waits (R91). -/
def potClearing (s : State) (t off len : Nat) : Bool :=
  (lineStarts off len).any (fun u =>
    match translate s t (2 ^ 39 + u) with
    | .inl (.pot o) => s.pot.clearing.contains (potSlice o / 2)
    | _ => false)

/-- The value an atomic stores, from the value it finds, of n bytes (Table 13.8). -/
def atomicValue (n old : Nat) (op : AtomicOp) : Nat :=
  match op with
  | .fetchAdd v => (old + v.toNat) % 2 ^ (8 * n)
  | .swap v => v.toNat % 2 ^ (8 * n)
  | .cas c v => if old = c.toNat % 2 ^ (8 * n) then v.toNat % 2 ^ (8 * n) else old

/-- One atomic of n bytes on the pot; answers the value found, or none on a flagged block, which it leaves alone
(R264, R378). -/
def potAtomic (o n : Nat) (op : AtomicOp) (s : State) : Option Nat × State :=
  if potFlagged s o then (none, s)
  else
    let old := ofLe (potBytes s o n)
    let s := potWrite o (leBytes n (atomicValue n old op)) s
    let slice := potSlice o
    let s := { s with pot := { s.pot with atomics := cadd s.pot.atomics slice 1 } }
    (some old, countEvent (devCtr 17) 1 s)

/-- A BAR2 write: bytes of the units it covers; poisoned TLPs are written as poison (R264, R268). -/
def potHostWrite (t off : Nat) (data : List Byte) (ep : Bool) (s : State) : State :=
  (unitStarts off data.length).foldl (fun s u =>
    match translate s t (2 ^ 39 + u) with
    | .inl (.pot o) =>
      potUnitWrite (o / 32 * 32) (bytesAt (List.replicate 32 0 ++ data) (u + 32 - off) 32)
        ((List.range 32).map (fun i => decide (off ≤ u + i) && decide (u + i < off + data.length))) ep s
    | _ => s) (countPot (2 ^ 39 + off) data.length s)

/-- Performs a BAR2 access: read, write or atomic (R379: an atomic on a flagged block answers with EP set). -/
def potPerform (k tag off len : Nat) (write : Bool) (data : List Byte) (ep : Bool) (op : Option (AtomicOp × Nat))
    (s : State) : State :=
  match op with
  | some (a, n) =>
    (match translate s k (2 ^ 39 + off) with
      | .inl (.pot o) =>
        let r := potAtomic o n a (countPot (2 ^ 39 + off) n s)
        (match r.1 with
          | some old => emit (.tlp k tag .success false (leBytes n old)) r.2
          | none => emit (.tlp k tag .success true (potBytes s o n)) r.2)
      | _ => s)
  | none =>
    if write then potHostWrite k off data ep s
    else readCompletion k tag off len (potUnits k off len s) (countPot (2 ^ 39 + off) len s)

/-- What a BAR2 access answers before any effect: the address and the status. -/
def bar2Status (s : State) (k off len : Nat) : Option (Nat × Nat) :=
  (lineStarts off len).findSome? (fun l => (lineStatus s k (2 ^ 39 + l)).map (fun st => (2 ^ 39 + l, st)))

/-- The debit of a pot access of n bytes (R42). -/
def potDebit (s : State) (n : Nat) : Nat := evPower s .pot 8 (units64 n)

/-- Holds a BAR2 access as one request: at admission of a closed partition, or for the allowance or a clear. -/
def potHold (k tag off len : Nat) (write : Bool) (data : List Byte) (ep : Bool) (op : Option (AtomicOp × Nat))
    (place : ReqPlace) (s : State) : State :=
  let id := s.path.nextId
  let a : Access := { id := id, fn := k, tag := tag, write := write, start := off, len := len, left := 1 }
  let s := takeId { s with path := { s.path with accesses := s.path.accesses ++ [a] } }
  pushReq
    { id := s.path.nextId, access := id, kind := .pot, place := place, tenant := k, port := 0, write := write,
      ta := 2 ^ 39 + off, stack := 0, offset := off, pc := 0, bank := 0, row := 0, line := 0, mask := 0, data := data,
      poison := ep, stamp := now s, arrived := now s, atomic := op } s

/-- Operand bytes that an AtomicOp request carries: one operand, two for a compare-and-swap. -/
def atomicPayload (op : Option (AtomicOp × Nat)) : Nat :=
  match op with
  | none => 0
  | some (.cas _ _, w) => 2 * w
  | some (_, w) => w

/-! ## Accesses of engines (R199, R363, R424) -/

/-- What an engine asks of the sector path: a read, or a write of bytes with the units, in order, that are poisoned. Without
`bytes` the units keep their data: each is read and written back (R285). `exempt` takes no tokens and serves a standby copy
(R435, R438). -/
structure Ask where
  owner : Owner
  tenant : Nat
  port : Nat
  ta : Nat
  len : Nat
  write : Bool := false
  bytes : Bool := true
  data : List Byte := []
  poison : List Bool := []
  coll : Option (BitVec 32) := none
  exempt : Bool := false
  deriving DecidableEq, Repr

/-- Adds an access that has n sectors to be served. -/
def pushAccess (o : Owner) (t ta len n : Nat) (write : Bool) (s : State) : State :=
  takeId { s with path := { s.path with accesses := s.path.accesses ++
    [{ id := s.path.nextId, owner := o, fn := t, write := write, start := ta, len := len, left := n }] } }

/-- The request of one line of an engine's access. -/
def askReq (s : State) (access : Nat) (a : Ask) (line : Nat) : Req :=
  let mask := lineMask a.ta a.len line
  let bad := fun (b : Nat) => (sectorsOf mask).testBit b && a.poison.getD (line / 32 + b - a.ta / 32) false
  let pot := 2 ^ 39 ≤ line
  let r := lineReq s access a.tenant a.port line mask a.write (lineBytes a.ta a.data line) .kettle
  { r with
    kind := if pot then .pot else .host, place := if pot then .kettle else arrival s r.stack,
    byteMask := if a.write && !a.bytes then List.replicate 64 false else mask,
    poisonMask := if a.write then flag (bad 0) 0 + flag (bad 1) 1 else 0, collective := a.coll, exempt := a.exempt }

/-- An engine issues an access: one request for every line. -/
def ask (a : Ask) (s : State) : State :=
  let id := s.path.nextId
  let s := pushAccess a.owner a.tenant a.ta a.len (unitStarts a.ta a.len).length a.write s
  if a.len = 0 then s
  else
    (lineStarts a.ta a.len).foldl (fun s l =>
      let r := askReq s id a l
      pushReq r (if r.kind == .pot then s else countAbort (r.stack * 32 + r.pc / 2) s)) s

/-- A request of an engine to the pot at an aligned word or run of elements of one line: an atomic, or a vector reduction
of source elements. -/
def potReq (s : State) (access t port ta : Nat) (data : List Byte) (coll : Option (BitVec 32)) : Req :=
  { id := s.path.nextId, access := access, kind := .pot, place := .kettle, tenant := t, port := port, write := true, ta := ta,
    stack := 0, offset := 0, pc := 0, bank := 0, row := 0, line := 0, mask := 1, data := data, collective := coll,
    stamp := now s, arrived := now s }

/-- An engine's pot atomic of n bytes. -/
def askAtomic (o : Owner) (t port ta n : Nat) (op : AtomicOp) (s : State) : State :=
  let id := s.path.nextId
  let s := pushAccess o t ta n 1 true s
  pushReq { potReq s id t port ta [] none with atomic := some (op, n) } s

/-- The elements of a run from i on that lie in one 64 B line of the pot, of n left. -/
def lineElems (ta size n : Nat) : Nat := min n (max 1 ((ta / 64 * 64 + 64 - ta) / size))

/-- Cuts n elements at a pot address into runs of one line each: address, first element, count. -/
def elemRuns (fuel ta size first n : Nat) : List (Nat × Nat × Nat) :=
  match fuel with
  | 0 => []
  | fuel + 1 =>
    if n = 0 then []
    else
      let k := lineElems ta size n
      (ta, first, k) :: elemRuns fuel (ta + k * size) size (first + k) (n - k)

/-- A vector reduction of source elements into a run of pot elements: one request for every line of the pot (R380). -/
def askReduce (o : Owner) (t port ta op srcFmt potFmt : Nat) (src : List Byte) (coll : Option (BitVec 32)) (s : State) :
    State :=
  let n := src.length / fmtSize srcFmt
  let runs := elemRuns n ta (fmtSize potFmt) 0 n
  let id := s.path.nextId
  let s := pushAccess o t ta (n * fmtSize potFmt) runs.length true s
  runs.foldl (fun s r =>
    pushReq { potReq s id t port r.1 (bytesAt src (r.2.1 * fmtSize srcFmt) (r.2.2 * fmtSize srcFmt)) coll with
      reduce := some (op, srcFmt, potFmt) } s) s

/-! ## What an access gave its owner -/

/-- The accesses of an owner, in the order of issue. -/
def accessesOf (s : State) (o : Owner) : List Access := s.path.accesses.filter (fun a => a.owner == o)

/-- Every access of an owner is complete. -/
def ownerDone (s : State) (o : Owner) : Bool := (accessesOf s o).all (fun a => a.left == 0)

/-- The status that ended one of them, the first in order; none where all were served. -/
def ownerStatus (s : State) (o : Owner) : Option Nat :=
  ((accessesOf s o).find? (fun a => a.status != 0)).map (·.status)

/-- The worst outcome of an owner's writes. -/
def ownerWorst (s : State) (o : Owner) : Nat := maxOf ((accessesOf s o).map (·.worst))

/-- What a read access gathered. -/
def gathered (a : Access) : RangeRead :=
  let us := (unitStarts a.start a.len).map (fun u => a.got.find? (fun e => e.1 == u))
  { bytes := bytesAt (us.flatMap (fun e => padTo 32 ((e.map (·.2.1)).getD []))) (a.start % 32) a.len,
    failed := us.map (fun e => (e.map (·.2.2)).getD false) }

/-- The owner takes the results: its accesses go, and its requests that no queue holds. -/
def dropOwner (o : Owner) (s : State) : State :=
  let ids := (accessesOf s o).map (·.id)
  { s with path := { s.path with
    accesses := s.path.accesses.filter (fun a => a.owner != o),
    reqs := s.path.reqs.filter (fun r => !ids.contains r.access || r.kind == .readHalf || r.kind == .writeBack ||
      r.place == .queued) } }

/-! ## The pot's side of an engine's request (R264, R378, R380) -/

/-- One element of a vector reduction at a pot offset, as one atomic; answers false on a flagged block, which it leaves
alone. -/
def potElement (o op srcFmt src potFmt : Nat) (s : State) : Bool × State :=
  if potFlagged s o then (false, s)
  else
    let n := fmtSize potFmt
    let v := reduceElem op srcFmt src potFmt (ofLe (potBytes s o n))
    let s := potStore o (leBytes n v) s
    let s := { s with pot := { s.pot with atomics := cadd s.pot.atomics (potSlice o) 1 } }
    (true, countEvent (devCtr 17) 1 s)

/-- The elements of a run, in index order; answers whether every one was applied. -/
def potElements (o op srcFmt potFmt : Nat) (src : List Byte) (s : State) : Bool × State :=
  (List.range (src.length / fmtSize srcFmt)).foldl (fun acc i =>
    let x := potElement (o + i * fmtSize potFmt) op srcFmt (elemCode srcFmt src i) potFmt acc.2
    (acc.1 && x.1, x.2)) (true, s)

/-- Bytes of the pot that a request moves. -/
def potLen (r : Req) : Nat :=
  match r.atomic, r.reduce with
  | some (_, n), _ => n
  | none, some (_, sf, pf) => r.data.length / fmtSize sf * fmtSize pf
  | none, none => (r.byteMask.filter id).length

/-- A sector of a pot line: written, or read. -/
def potSector (r : Req) (o b : Nat) (s : State) : State :=
  if !r.mask.testBit b then s
  else
    let base := o / 64 * 64 + 32 * b
    if r.write then
      sectorServed r.access none
        (potUnitWrite base ((r.data.drop (32 * b)).take 32) ((r.byteMask.drop (32 * b)).take 32) (r.poisonMask.testBit b) s)
    else sectorServed r.access (some (r.ta + 32 * b, potBytes s base 32, potFlagged s base)) s

/-- The slice of an engine's request accepts it: it takes effect, and becomes visible (R275). -/
def potServe (r : Req) (s : State) : State :=
  match translate s r.tenant r.ta with
  | .inl (.pot o) =>
    let s := countPot (2 ^ 39) (potLen r) s
    (match r.atomic, r.reduce with
      | some (op, n), _ =>
        let x := potAtomic o n op s
        sectorOutcome r.access none (if x.1.isSome then 0 else 2) x.2
      | none, some (op, sf, pf) =>
        let x := potElements o op sf pf r.data s
        sectorOutcome r.access none (if x.1 then 0 else 2) x.2
      | none, none => potSector r o 1 (potSector r o 0 s))
  | _ => s

/-- The slice pair of an engine's pot request is being cleared (R91). -/
def reqClearing (s : State) (r : Req) : Bool :=
  match translate s r.tenant r.ta with
  | .inl (.pot o) => s.pot.clearing.contains (potSlice o / 2)
  | _ => false

/-! ## Levels (R209) -/

/-- The urgency level of an elapsed time under a target; target 0 is none. -/
def levelOf (e target : Nat) : Nat :=
  if 64000 ≤ e then 3
  else if target = 0 then 0
  else if 2 * e < target then 0
  else if 4 * e < 3 * target then 1
  else if e < target then 2
  else 3

/-- The level of a request now. Before its first gate it has the target in force. -/
def reqLevel (s : State) (r : Req) : Nat :=
  let t := if r.place == .regulator || r.place == .stem || r.place == .held then (cfgList s 0x0300 0 (r.tenant * 32 + r.port)).headD 0
    else r.target
  levelOf (now s - r.stamp) t

/-- Sectors a request names. -/
def reqSectors (r : Req) : Nat := popcount 2 r.mask

/-- The first sector's rank in admission: collective-marked before others, then by level (R43). -/
def reqRank (s : State) (r : Req) : Nat := reqLevel s r + (if r.collective.isSome then 4 else 0)

/-- How many turns tenant t waits in round robin after the tenant served last. -/
def turnOf (last t : Nat) : Nat := (t + 127 - last) % 128

/-- Work of tenant t' at rank k' goes before work of tenant t at rank k: by rank, then round robin across tenants
(R43). -/
def goesFirst (last k t k' t' : Nat) : Bool := k < k' || (k == k' && turnOf last t' < turnOf last t)

/-- An earlier request of the same tenant, port and pseudo-channel waits at the same gate (R43, R200). -/
def earlierWaits (s : State) (r : Req) : Bool :=
  let gate := fun (p : ReqPlace) => if p == .stem then .regulator else p
  (s.path.reqs.takeWhile (fun x => x.id != r.id)).any (fun x =>
    gate x.place == gate r.place && x.kind == r.kind && x.tenant == r.tenant && x.port == r.port && x.stack == r.stack &&
      x.pc == r.pc)

/-- The target that a request takes at its first gate (R208). -/
def takeTarget (s : State) (r : Req) : Nat :=
  (cfgAtPc s 0x0300 0 (r.tenant * 32 + r.port) (unitPcOf (r.stack * 64 + r.pc))).headD 0
where
  /-- The unit number of a pseudo-channel in a class M window. -/
  unitPcOf (pc : Nat) : Nat := pc / 64 * 256 + 2 + 3 * (pc % 64 / 2) + pc % 2

/-! ## The first gate (R194, R200) -/

/-- A request at the regulator that its tokens cover. -/
def tokensCover (s : State) (r : Req) : Bool :=
  r.exempt || !regOn s r.tenant r.stack || reqSectors r ≤ (bucketOf s r.tenant r.stack).tokens

/-- A request of the same regulator that goes first: one its tokens cover, with a higher rank (R43). -/
def regulatorFirst (s : State) (r : Req) : Bool :=
  s.path.reqs.any (fun x => x.place == .regulator && x.tenant == r.tenant && x.stack == r.stack && x.id != r.id &&
    reqRank s r < reqRank s x && tokensCover s x && !earlierWaits s x)

/-- What a request answers when its address is checked again at a gate: its extent may have changed while it was held,
and its partition may have become a standby copy. -/
def gateStatus (s : State) (r : Req) : Option Nat :=
  match translate s r.tenant r.ta with
  | .inr st => some st
  | .inl _ => if standby s r.tenant && !r.exempt then some stTwinStandby else none

/-- Bytes of an access. -/
def accessLen (s : State) (id : Nat) : Nat :=
  match accessOfId s id with
  | none => 1
  | some a => a.len

/-- A request passes its regulator, or is noted as waiting for tokens (R194); one at the ingress first enters the store of
its foot die (R201). -/
def regulatorAdmit (id : Nat) (s : State) : State :=
  match reqOf s id with
  | none => s
  | some r =>
    if !(r.place == .regulator || (r.place == .stem && storeRoom s r.stack)) || earlierWaits s r then s
    else if r.kind == .pot then
      match bar2Status s r.tenant r.offset (accessLen s r.access) with
      | some (ta, st) => endAccess r.access st (accessEvent r.tenant ta st s)
      | none => modReq id (fun r => { r with place := .kettle }) s
    else
      match gateStatus s r with
      | some st => endAccess r.access st (accessEvent r.tenant r.ta st s)
      | none =>
        if !tokensCover s r then
          let b := bucketOf s r.tenant r.stack
          setBucket r.tenant r.stack { b with waits := b.waits + 1, waited := true }
            (modReq id (fun x => { x with place := .regulator }) s)
        else if regulatorFirst s r then s
        else
          modReq id (fun x => { x with place := .kettle, target := takeTarget s r })
            (if r.exempt then s else takeTokens r.tenant r.stack (reqSectors r) s)

/-! ## Requests held by a closed partition (R157) -/

/-- A host access that a closed partition has held for 2 ms ends with Completer Abort and is counted (R157). -/
def heldTimeout (id : Nat) (s : State) : State :=
  match s.path.reqs.find? (fun r => r.access == id && r.place == .held) with
  | none => s
  | some r =>
    if due s (r.arrived + msTicks 2) then endAccess id stPartitionClosed (countHeldEnd r.tenant s) else s

end Sys2Proof.Machine
end

