-- ==== Sys2Proof/Machine/Slot.lean ====
section
/-! DEFINITION. The reorder queue and the command slot: entry into the queue (R202, R215, R216, R436), eligibility
(R203, R238), batches (R206), the pick and the issue of one command (R205, R207), row disturbance (R234 to R239), spare
slots (R211), the simmer limit (R336, R337) and the counts of completed requests (R210). -/

namespace Sys2Proof.Machine

open Sys2Proof

/-! ## The queue of a pseudo-channel -/

/-- Flat pseudo-channel of a request. -/
def reqPc (r : Req) : Nat := r.stack * 64 + r.pc

/-- The entries of the reorder queue of a pseudo-channel: a read keeps its entry until its data has left (R202). -/
def queueOf (s : State) (fp : Nat) : List Req := s.path.reqs.filter (fun r => r.place == .queued && reqPc r == fp)

/-- Two requests name the same line of DRAM. -/
def sameLine (a b : Req) : Bool := a.bank == b.bank && a.row == b.row && a.line == b.line

/-- The byte mask of one sector of a request. -/
def sectorMask (r : Req) (b : Nat) : List Bool := (r.byteMask.drop (32 * b)).take 32

/-- The request covers the whole of a sector. -/
def sectorWhole (r : Req) (b : Nat) : Bool := wholeUnit (sectorMask r b)

/-- Sectors a write covers only in part. -/
def partialSectors (r : Req) : Nat :=
  flag (r.mask.testBit 0 && !sectorWhole r 0) 0 + flag (r.mask.testBit 1 && !sectorWhole r 1) 1

/-- The physical sector of one half of a request's line. -/
def reqSector (r : Req) (b : Nat) : Nat := sectorNo r.stack r.pc r.bank r.row r.line b

/-- The sip path of stack n has power (R216). -/
def sipOn (s : State) (n : Nat) : Bool := s.power.on.getLsbD (52 + 6 * n)

/-- The queued write that a partial write of sector b joins (R215): an earlier one whose read half has not been issued,
with no other request to the sector since. -/
def joinTarget (s : State) (r : Req) (b : Nat) : Option Req :=
  let q := queueOf s (reqPc r)
  q.find? (fun w =>
    w.write && w.kind == .host && w.tenant == r.tenant && sameLine w r && w.mask.testBit b && !sectorWhole w b &&
      q.any (fun h => h.kind == .readHalf && h.parent == w.id && h.mask.testBit b) &&
      q.all (fun x => x.seq ≤ w.seq || !(sameLine x r) || !(x.mask.testBit b)))

/-- Bytes of a newer write over an older one's, in one sector. -/
def overlaySector (w r : Req) (b : Nat) : Req :=
  let i := 32 * b
  let inB := fun j => decide (i ≤ j) && decide (j < i + 32)
  { w with
    data := (List.range 64).map (fun j => if inB j && r.byteMask.getD j false then r.data.getD j 0 else w.data.getD j 0),
    byteMask := (List.range 64).map (fun j => (inB j && r.byteMask.getD j false) || w.byteMask.getD j false),
    poisonMask := if r.poisonMask.testBit b && !w.poisonMask.testBit b then w.poisonMask + 2 ^ b else w.poisonMask,
    joined := w.joined ++ [r.access] }

/-- Joins what can be joined of a partial write; the request keeps the sectors that did not join. One that joins whole
completes with the write it joined last (R210, R215); a poisoned TLP counts as received all the same (R268). -/
def joinSector (b : Nat) (x : Req × State) : Req × State :=
  let r := x.1
  if !r.write || !r.mask.testBit b || sectorWhole r b then x
  else
    match joinTarget x.2 r b with
    | none => x
    | some w =>
      let whole := r.mask = 2 ^ b
      let join := fun (w : Req) =>
        let w := overlaySector w r b
        if whole then { w with joinedQos := w.joinedQos ++ [(r.port, r.stamp, r.target)] } else w
      let s := modReq w.id join x.2
      ({ r with mask := r.mask - 2 ^ b, touch := r.touch - 2 ^ b },
        if r.poison then poisonedWrite (reqSector w b) s else s)

/-! ## Entry (R202) -/

/-- Entries that a request takes: a partial write takes one for its read half too (R215). -/
def entriesNeeded (r : Req) : Nat := if r.write && partialSectors r ≠ 0 then 2 else 1

/-- A request of another port waits to enter the queue of r. -/
def otherPortWaits (s : State) (r : Req) : Bool :=
  s.path.reqs.any (fun x => x.place == .gate && reqPc x == reqPc r && x.port != r.port)

/-- The rules of R202 let a request in. -/
def mayEnter (s : State) (r : Req) : Bool :=
  let q := queueOf s (reqPc r)
  let n := q.length + entriesNeeded r
  let room := if 2 ≤ reqLevel s r && !r.spare then 64 else 56
  decide (n ≤ room) &&
    !(otherPortWaits s r && 32 ≤ (q.filter (fun x => x.port == r.port)).length) &&
    !(r.spare && 16 ≤ (q.filter (·.spare)).length) &&
    !(!sipOn s r.stack && entriesNeeded r == 2 && q.any (·.rmw))

/-- A waiting request for the same queue that goes first: one of higher rank, or of equal rank whose tenant's turn comes
first, that may enter (R43). -/
def entersFirst (s : State) (r : Req) : Bool :=
  let last := (pcOf s (reqPc r)).lastTenant
  s.path.reqs.any (fun x => x.place == .gate && reqPc x == reqPc r && x.id != r.id &&
    goesFirst last (reqRank s r) r.tenant (reqRank s x) x.tenant && mayEnter s x && !earlierWaits s x)

/-- What a request answers at its queue: the checks of the first gate, a benched channel (R472), and a stack that is
asleep in every channel (R248). -/
def queueStatus (s : State) (r : Req) : Option Nat :=
  match gateStatus s r with
  | some st => some st
  | none =>
    if (stackOf s r.stack).sleep.kind == .partialSleep then some stStackAsleep
    else if (chanOf s (r.stack * 32 + r.pc / 2)).bench != .none then some stChannelBench
    else none

/-- The sectors of a write that are known when it becomes visible. -/
def visibleSectors (r : Req) : List (Nat × Option (List Byte × Bool)) :=
  ([0, 1].filter (fun b => r.mask.testBit b)).map (fun b =>
    (r.ta + 32 * b, if sectorWhole r b then some ((r.data.drop (32 * b)).take 32, r.poisonMask.testBit b) else none))

/-- The read half of a partial write (R215): on port 23, with the write's stamp. -/
def readHalf (s : State) (r : Req) : Req :=
  { r with
    id := s.path.nextId, kind := .readHalf, place := .queued, write := false, port := 23, mask := partialSectors r, parent := r.id,
    target := (cfgAtPc s 0x0300 0 (r.tenant * 32 + 23) (takeTarget.unitPcOf (reqPc r))).headD 0, seq := s.path.nextSeq,
    touch := partialSectors r, joined := [], joinedQos := [], poisonMask := 0, spare := false }

/-- Puts a request into its queue: it becomes visible (R275). -/
def enterQueue (r : Req) (s : State) : State :=
  let r := { r with rmw := r.write && partialSectors r != 0 }
  let s := modPc (reqPc r) (fun p => { p with lastTenant := r.tenant, usedNow := true }) s
  let s :=
    if r.write && partialSectors r ≠ 0 then
      let h := readHalf s r
      let s := pushReq h s
      countEvent (stackCtr r.stack 19) 1 { s with path := { s.path with nextSeq := s.path.nextSeq + 1 } }
    else s
  let s := modReq r.id (fun _ => { r with place := .queued, seq := s.path.nextSeq }) s
  let s := { s with path := { s.path with nextSeq := s.path.nextSeq + 1 } }
  if r.write then mirrorVisible r.tenant { req := some r.id, sectors := visibleSectors r } s else s

/-- The map-out window of a channel holds new requests at the gates (R302 step 1). -/
def mapoutHolds (s : State) (r : Req) : Bool :=
  let c := chanOf s (r.stack * 32 + (placeAt s r.stack r.offset).pc / 2)
  c.windowOpen && c.window == .mapout

/-- A request of a descriptor fetch. -/
def isFetch (s : State) (r : Req) : Bool :=
  (accessOfId s r.access).any (fun a => match a.owner with
    | .fetch _ => true
    | _ => false)

/-- An offline window is to open on a channel that still answers, or on its stack (R290). -/
def windowComes (s : State) (ch : Nat) : Bool :=
  let c := chanOf s ch
  let k := stackOf s (ch / 32)
  let out := fun (m : Mapout) => m.recorded && !m.failedChannel
  !c.windowOpen && (c.window != .none || c.retrainDue || k.mapout.any (fun m => out m && m.ch == ch % 32) || k.retireProc.any out)

/-- A BENCH_ENTER of a channel that waits for descriptor fetches (R473). -/
def benchWaiting (s : State) : List Exec := s.cmds.filter (fun e => e.op == 0x0E01#16 && e.started && e.done.isNone)
def benchComes (s : State) (ch : Nat) : Bool := (benchWaiting s).any (fun e => par e.cmd 0 2 == ch)

/-- Before a window opens, and before a command benches the channel, no further descriptor fetch is issued to it (R290,
R473). -/
def fetchHeld (s : State) (r : Req) : Bool :=
  let ch := r.stack * 32 + (placeAt s r.stack r.offset).pc / 2
  isFetch s r && (windowComes s ch || benchComes s ch)

/-- Descriptor fetches that have been issued to a channel are under way (R290). -/
def fetchUnderWay (s : State) (ch : Nat) : Bool :=
  s.path.reqs.any (fun r => r.place == .queued && r.stack * 32 + r.pc / 2 == ch && isFetch s r)

/-- A request enters its reorder queue, under the map in force now (R202, R303). -/
def queueEntry (id : Nat) (s : State) : State :=
  match reqOf s id with
  | none => s
  | some r =>
    if r.place != .gate || earlierWaits s r || mapoutHolds s r || fetchHeld s r then s
    else
      match queueStatus s r with
      | some st => endAccess r.access st (accessEvent r.tenant r.ta st s)
      | none =>
        let p := placeAt s r.stack r.offset
        let r := { r with pc := p.pc, bank := p.bank, row := p.row, line := p.line }
        if !mayEnter s r || entersFirst s r || (r.write && !mirrorGate s r.tenant) then s
        else
          let j := joinSector 1 (joinSector 0 (r, s))
          if j.1.mask = 0 then dropReq id j.2 else enterQueue j.1 j.2

/-! ## Row disturbance (R232 to R240) -/

/-- The channel of a pseudo-channel runs strainer mode (R232). -/
def strainerMode (s : State) (fp : Nat) : Bool :=
  cfgN s 0x0401 0 (fp / 2) == 0 &&
    (match (stackOf s (fp / 64)).ident with
      | some d => d.directed
      | none => true)

/-- The throttle limits apply: throttle mode, or the rest of a window after a switch from it (R240). -/
def throttled (s : State) (fp : Nat) : Bool := !strainerMode s fp || (pcOf s fp).throttleTail

/-- Requesters of throttle mode: tenant and port, cosy reads, the exerciser (R237). -/
def requesterOf (t port : Nat) : Nat := t * 32 + port
def cosyRequester : Nat := 128 * 32
def exerRequester : Nat := 128 * 32 + 1

/-- The key of a requester's activates of a bank. -/
def actKey (bank requester : Nat) : Nat := bank * 8192 + requester

/-- Activates of a bank by a requester in this period; the mark of a counted offence is kept at 64 and above. -/
def actsOf (s : State) (fp bank requester : Nat) : Nat := cget (pcOf s fp).acts (actKey bank requester) % 64

/-- The requester's budget holds its activate back. -/
def budgetHolds (s : State) (fp bank requester : Nat) : Bool :=
  throttled s fp && cfgN s 0x0402 1 fp ≤ actsOf s fp bank requester

/-- An activate of a bank may be issued (R236, R238). -/
def mayActivate (s : State) (fp bank requester : Nat) : Bool :=
  (pcOf s fp).nbrDue.length < 8 && !budgetHolds s fp bank requester &&
    !(throttled s fp && cfgN s 0x0402 2 fp ≤ cget (pcOf s fp).bankActs bank)

/-- Counts an offence of a requester, once in a period (R238). -/
def offence (fp bank requester : Nat) (s : State) : State :=
  let p := pcOf s fp
  let k := actKey bank requester
  if 64 ≤ cget p.acts k then s
  else
    let s := setPc fp { p with acts := tset 0 p.acts k (cget p.acts k + 64), offences := p.offences + 1 } s
    let s := countEvent (stackCtr (fp / 64) 15) 1 s
    let t := requester / 32
    if t < 128 then firstOfKind t offenceKind (logEvent 0x0D01 t 1 (fp / 64) (leBytes 2 fp) []) s else s

/-- The entry with the lowest count, the lowest index first. -/
def lowestEntry (l : List (Nat × Nat × Nat)) : Nat :=
  let m := l.foldl (fun m e => min m e.2.2) (2 ^ 64)
  (findIdx? l (fun e => e.2.2 == m)).getD 0

/-- One activate in the strainer (R234). -/
def strain (threshold : Nat) (bank row : Nat) (p : Pc) : Pc :=
  let i := findIdx? p.strain (fun e => e.1 == bank && e.2.1 == row)
  let q : List (Nat × Nat × Nat) × Nat × Nat :=
    match i with
    | some i => (p.strain.set i (bank, row, (p.strain.getD i (0, 0, 0)).2.2 + 1), p.spill, i)
    | none =>
      if p.strain.length < 256 then (p.strain ++ [(bank, row, p.spill + 1)], p.spill, p.strain.length)
      else
        let i := lowestEntry p.strain
        let sp := max p.spill (p.strain.getD i (0, 0, 0)).2.2
        (p.strain.set i (bank, row, sp + 1), sp, i)
  if threshold ≤ (q.1.getD q.2.2 (0, 0, 0)).2.2 then
    { p with strain := q.1.set q.2.2 (bank, row, 0), spill := q.2.1, nbrDue := p.nbrDue ++ [(bank, row)] }
  else { p with strain := q.1, spill := q.2.1 }

/-- Counts an activate in the estimator, the channel's counter, the strainer and the throttle (R46, R234, R237). -/
def countActivate (fp bank row requester : Nat) (origin : Origin) (s : State) : State :=
  let s := countEvent (fp / 2) 1 (countEv .activate origin (fp / 64) 1 s)
  let threshold := cfgN s 0x0402 0 fp
  let on := strainerMode s fp
  modPc fp (fun p =>
    let p := { p with
      acts := cadd p.acts (actKey bank requester) 1, bankActs := cadd p.bankActs bank 1 }
    if on then strain threshold bank row p else p) s

/-- Activates a row. -/
def activate (fp bank row requester : Nat) (origin : Origin) (s : State) : State :=
  let s := retryPush fp { pc := fp, bank := bank, row := row, kind := 0, origin := origin.num }
    (countActivate fp bank row requester origin s)
  modPc fp (fun p => { p with rows := tput p.rows bank { row := row } }) s

/-- Precharges a bank. -/
def precharge (fp bank : Nat) (s : State) : State :=
  modPc fp (fun p => { p with rows := terase p.rows bank })
    (retryPush fp { pc := fp, bank := bank, row := 0, kind := 1 } s)

/-- A due neighbour refresh is issued: open banks are precharged, and the pseudo-channel stalls for tDRFM (R236). After the
last one of a channel that left strainer mode, the table is emptied (R240). -/
def neighbourRefresh (fp : Nat) (s : State) : State :=
  let p := pcOf s fp
  match p.nbrDue with
  | [] => s
  | (bank, row) :: rest =>
    let s := setPc fp { p with
      rows := [], nbrDue := rest, nbrCount := p.nbrCount + 1, refreshUntil := now s + tdrfm s (fp / 64), allBank := false,
      strain := if strainerMode s fp || !rest.isEmpty then p.strain else [],
      spill := if strainerMode s fp || !rest.isEmpty then p.spill else 0 } s
    let s := retryPush fp { pc := fp, bank := bank, row := row, kind := 5, origin := 0 } s
    countEvent (stackCtr (fp / 64) 3) 1 (countEv .activate .mandatory (fp / 64) 4 s)

/-! ## Eligibility (R203) -/

/-- An older request of the queue touches a sector that r has to touch: it holds its entry, so that a younger access waits
until the data of an older read has left and its write-back stands in its place (R203, R261). -/
def olderTouches (q : List Req) (r : Req) : Bool :=
  q.any (fun x => x.seq < r.seq && sameLine x r && (Nat.land x.touch r.mask) != 0 && !(x.kind == .readHalf && x.parent == r.id))

/-- A write may be stored: its read half has left the queue, its data merged. -/
def writeReady (q : List Req) (r : Req) : Bool :=
  !r.write || (partialSectors r == 0 && !(q.any (fun h => h.kind == .readHalf && h.parent == r.id)))

/-- The older request that waits for a bank while its open row serves hits (R205). -/
def olderOtherRow (q : List Req) (r : Req) : Bool :=
  q.any (fun x => x.seq < r.seq && x.bank == r.bank && x.row != r.row && x.mask != 0)

/-- The step that binds the column commands of a stack: its own in simmer, else all of its peak (R204, R336). -/
def stepInForce (s : State) (n : Nat) : Nat :=
  let h := (stackOf s n).thermal
  if h.heat == .simmer then h.step else 8

/-- The limit of column commands of a pseudo-channel this period: Q sectors, or L/8 of it in simmer (R204, R336). -/
def columnLimit (s : State) (fp : Nat) : Nat := (stepInForce s (fp / 64) * peakTenths s + (pcOf s fp).carry) / 80

/-- Another column command fits in the period's limit. -/
def columnFits (s : State) (fp : Nat) : Bool := (pcOf s fp).columnsNow < columnLimit s fp

/-- The policy that the batch in progress runs under (R222): WRITE_HIGH, WRITE_LOW, MIN_BATCH, STREAK_CAP. -/
def batchPolicy (s : State) (fp : Nat) : List Nat :=
  let p := (pcOf s fp).policy
  if p.isEmpty then (List.range 4).map (fun f => cfgN s 0x0303 f fp) else p

/-- The row r wants is open. -/
def rowHit (s : State) (fp : Nat) (r : Req) : Bool :=
  match tfind (pcOf s fp).rows r.bank with
  | some o => o.row == r.row
  | none => false

/-- The open row's streak has reached its cap while an older request to another row waits (R205). -/
def streakStops (s : State) (fp : Nat) (q : List Req) (r : Req) : Bool :=
  match tfind (pcOf s fp).rows r.bank with
  | some o => o.row == r.row && (batchPolicy s fp).getD 3 16 ≤ o.streak && olderOtherRow q r
  | none => false

/-- The next command of a request may be issued, but for the limits of activates. -/
def couldIssue (s : State) (fp : Nat) (q : List Req) (ready : List Nat) (r : Req) : Bool :=
  r.mask != 0 && ready.contains r.id && !olderTouches q r && writeReady q r && !streakStops s fp q r &&
    (!rowHit s fp r || r.kind == .writeBack || columnFits s fp)

/-- The next command of a request is an activate. -/
def wantsActivate (s : State) (fp : Nat) (r : Req) : Bool := (tfind (pcOf s fp).rows r.bank).isNone

/-- Eligible user requests of a pseudo-channel (R203, R238). -/
def eligible (s : State) (fp : Nat) (ready : List Nat) : List Req :=
  let q := queueOf s fp
  q.filter (fun r => couldIssue s fp q ready r &&
    (!wantsActivate s fp r || mayActivate s fp r.bank (requesterOf r.tenant r.port)))

/-- Notes the offences of requesters whose budget holds a request back. -/
def noteOffences (fp : Nat) (ready : List Nat) (s : State) : State :=
  let q := queueOf s fp
  (q.filter (fun r => couldIssue s fp q ready r && wantsActivate s fp r &&
      budgetHolds s fp r.bank (requesterOf r.tenant r.port))).foldl
    (fun s r => offence fp r.bank (requesterOf r.tenant r.port) s) s

/-! ## The pick (R206, R207) -/

/-- The highest level of a list. -/
def topLevel (s : State) (l : List Req) : Nat := maxOf (l.map (reqLevel s))

/-- The direction of the batch after R206, given the eligible requests, of which there is one. -/
def nextDirection (s : State) (fp : Nat) (c : List Req) : Bool :=
  let p := pcOf s fp
  let pol := batchPolicy s fp
  let writes := ((queueOf s fp).filter (·.write)).length
  let rd := c.filter (fun r => !r.write)
  let wr := c.filter (·.write)
  if rd.isEmpty then true
  else if wr.isEmpty then false
  else if p.batchCount < pol.getD 2 8 then p.batchWrite
  else if p.batchWrite then !(writes ≤ pol.getD 1 16) && !(topLevel s wr < topLevel s rd)
  else pol.getD 0 40 ≤ writes || topLevel s rd < topLevel s wr

/-- The members of a list for which p holds, or the whole list where there is none. -/
def narrow (p : Req → Bool) (l : List Req) : List Req := if l.any p then l.filter p else l

/-- The request with the oldest stamp; of equal stamps, the first in the queue. -/
def oldest (l : List Req) : Option Req :=
  l.foldl (fun b r =>
    match b with
    | none => some r
    | some x => if r.stamp < x.stamp || (r.stamp == x.stamp && r.seq < x.seq) then some r else some x) none

/-- pick(c) of R207 in a direction. -/
def pick (s : State) (fp : Nat) (write : Bool) (c : List Req) : Option Req :=
  let c := c.filter (fun r => r.write == write)
  let u := topLevel s c
  let c := c.filter (fun r => reqLevel s r == u)
  let c := narrow (fun r => r.collective.isSome) c
  let cap := (batchPolicy s fp).getD 3 16
  let c := narrow (fun r =>
    match tfind (pcOf s fp).rows r.bank with
    | some o => o.row == r.row && o.streak < cap
    | none => false) c
  oldest c

/-! ## Completion at the foot die (R210) -/

/-- Counts a completed request with its stamp and target. -/
def qosDone (t port n stamp target : Nat) (s : State) : State :=
  let k := (t * 32 + port) * 8 + n
  let e := now s - stamp
  let q := tget {} s.qos k
  let late := target != 0 && target ≤ e
  let q := { completed := q.completed + 1, late := q.late + (if late then 1 else 0), maxE := max q.maxE e : Qos }
  let s := { s with qos := tset {} s.qos k q }
  if late then countEvent (stackCtr n 14) 1 s else s

/-- A request completes, with those that joined it. -/
def reqCompletes (r : Req) (s : State) : State :=
  r.joinedQos.foldl (fun s j => qosDone r.tenant j.1 r.stack j.2.1 j.2.2 s)
    (qosDone r.tenant r.port r.stack r.stamp r.target s)

/-! ## Issue -/

/-- Counts a data column command of a pseudo-channel. -/
def countColumn (fp : Nat) (s : State) : State :=
  modPc fp (fun p => { p with sectorsNow := p.sectorsNow + 1, columnsNow := p.columnsNow + 1 }) s

/-- Reads of the same sector that one sector read serves: narrow reads queued with no write before them (R214). -/
def sharers (s : State) (q : List Req) (r : Req) (b : Nat) : List Req :=
  let narrowRead := fun (x : Req) => x.kind == .host && !x.write && !sectorWhole x b
  if !narrowRead r || !sipOn s r.stack then []
  else
    q.filter (fun x => x.id != r.id && x.tenant == r.tenant && narrowRead x && sameLine x r && x.mask.testBit b &&
      !(q.any (fun w => w.write && w.seq < x.seq && sameLine w x && w.mask.testBit b)))

/-- Clears one sector of a request that is still to be issued. -/
def clearSector (b : Nat) (r : Req) : Req := if r.mask.testBit b then { r with mask := r.mask - 2 ^ b } else r

/-- Moves of a sector over the stem link, and the counts of a read or write that the tenant asked for. -/
def countUser (r : Req) (write : Bool) (s : State) : State :=
  let i := if write then 1 else 0
  let s := countVolume (stackCtr r.stack i) 32 s
  let s := if r.spare || r.exempt then s else countVolume (768 + 2 * r.tenant + i) 32 s
  countMoved .user r.stack 1 s

/-- Issues the read of one sector of a request (R203, R214). -/
def issueRead (r : Req) (b : Nat) (s : State) : State :=
  let q := reqSector r b
  let also := sharers s (queueOf s (reqPc r)) r b
  let fl : Flight :=
    { id := s.path.nextId, req := r.id, kind := if r.kind == .readHalf then .readHalf else .host, access := r.access,
      tenant := r.tenant, port := r.port, sector := q, colour := colourOf s r.tenant, stored := storedSector s q,
      ta := r.ta + 32 * b, also := also.map (·.id), stamp := r.stamp, target := r.target }
  let s := takeId { s with path := { s.path with flights := s.path.flights ++ [fl] } }
  let s := (r :: also).foldl (fun s x => modReq x.id (clearSector b) s) s
  let s := countEv .sectorRead .user r.stack 1 s
  if r.kind == .readHalf then countVolume (stackCtr r.stack 0) 32 s
  else
    let narrows := (if sectorWhole r b then 0 else 1) + also.length
    let s := if narrows = 0 || !sipOn s r.stack then s
      else countEv .sip .user r.stack narrows (countEvent (stackCtr r.stack 18) narrows s)
    countUser r false s

/-- Issues the write of one sector of a request (R255, R257, R266, R268). -/
def issueWrite (r : Req) (b : Nat) (s : State) : State :=
  let q := reqSector r b
  let data := (r.data.drop (32 * b)).take 32
  let poison := r.poisonMask.testBit b
  let s := writeSector q (colourOf s r.tenant) poison data s
  let s := modReq r.id (clearSector b) s
  let s :=
    if r.kind == .writeBack then countEv .sectorWrite .mandatory r.stack 1 s
    else
      let s := countUser r true (countEv .sectorWrite .user r.stack 1 s)
      let s := if r.poison then poisonedWrite q s else s
      sectorOutcome r.access none r.status s
  if (clearSector b r).mask = 0 then
    r.joined.foldl (fun s a => sectorOutcome a none r.status s) (dropReq r.id (reqCompletes r s))
  else s

/-- The column command is the last queued access to its row: it carries auto-precharge (R205). What it serves itself, the
reads that share its sector among it, waits no longer. -/
def lastOfRow (s : State) (fp : Nat) (r : Req) (b : Nat) : Bool :=
  let q := queueOf s fp
  let served := r.id :: (if r.write then [] else (sharers s q r b).map (·.id))
  !(q.any (fun x => x.bank == r.bank && x.row == r.row &&
    (if served.contains x.id then (clearSector b x).mask != 0 else x.mask != 0)))

/-- Issues a column command of a request whose row is open. -/
def issueColumn (fp : Nat) (r : Req) (s : State) : State :=
  let b := if r.mask.testBit 0 then 0 else 1
  let q := queueOf s fp
  let last := lastOfRow s fp r b
  let older := olderOtherRow q r
  let s := modPc fp (fun p => { p with
    batchCount := p.batchCount + 1,
    rows := if last then terase p.rows r.bank
      else tput p.rows r.bank { row := r.row, streak := if older then ((tfind p.rows r.bank).getD { row := r.row }).streak + 1 else 0 } }) s
  let s := countColumn fp s
  let s := retryPush fp
    { pc := fp, bank := r.bank, row := r.row, kind := if r.write then 3 else 2, sector := reqSector r b,
      data := if r.write then (r.data.drop (32 * b)).take 32 else [],
      origin := if r.kind == .writeBack then 0 else 2, autoPre := last } s
  if r.write then issueWrite r b s else issueRead r b s

/-- Issues the next command of a request: precharge, activate or column (R205, R207). -/
def issueFor (fp : Nat) (r : Req) (s : State) : State :=
  match tfind (pcOf s fp).rows r.bank with
  | none => activate fp r.bank r.row (requesterOf r.tenant r.port) (if r.kind == .writeBack then .mandatory else .user) s
  | some o => if o.row = r.row then issueColumn fp r s else precharge fp r.bank s

/-- Sets the direction of the batch; a new batch takes the policy in force (R206, R222). -/
def setDirection (fp : Nat) (write : Bool) (s : State) : State :=
  let p := pcOf s fp
  if p.batchWrite == write && !p.policy.isEmpty then s
  else
    setPc fp { p with
      batchWrite := write, batchCount := 0, policy := (List.range 4).map (fun f => cfgN s 0x0303 f fp) } s

/-! ## Spare slots (R211) -/

/-- Requests that a spare slot may allow: they wait for tokens of a regulator with the spare flag. -/
def spareWaiting (s : State) (fp : Nat) : List Req :=
  s.path.reqs.filter (fun r => r.place == .regulator && r.kind == .host && reqPc r == fp && !r.exempt && regOn s r.tenant r.stack &&
    bitOf (regFlags s r.tenant r.stack) 1 && !tokensCover s r && !earlierWaits s r && mayEnter s { r with spare := true })

/-- Admits one request without tokens, in the order of R43. -/
def spareAdmit (fp : Nat) (s : State) : State :=
  let c := spareWaiting s fp
  let last := (pcOf s fp).lastTenant
  match c.find? (fun r => !(c.any (fun x => goesFirst last (reqRank s r) r.tenant (reqRank s x) x.tenant))) with
  | none => s
  | some r =>
    modPc fp (fun p => { p with lastTenant := r.tenant })
      (modReq r.id (fun x => { x with place := .kettle, spare := true, target := takeTarget s r }) s)

/-! ## Exerciser and cosy load at a slot -/

/-- Reads of the exerciser that hold a queue entry of a pseudo-channel: their data has not left (R202). -/
def exerHeld (s : State) (fp : Nat) : Nat :=
  (s.path.flights.filter (fun f => f.kind == .exerciser && secStack f.sector * 64 + secPc f.sector == fp)).length

/-- The exerciser may go on with its next command: in shadow mode its cap, its 4 entries and an unreserved one free (R202,
R475), and the limit of column commands (R337). -/
def exerMay (s : State) (fp : Nat) (e : Exer) : Bool :=
  columnFits s fp && (e.mode != 0 || ((pcOf s fp).exerNow < e.capPerPeriod && exerHeld s fp < 4 &&
    (queueOf s fp).length + exerHeld s fp < 56))

/-- The exerciser or cosy load is held back by its ACT_BUDGET: an offence (R237, R238). -/
def heldBack (fp bank requester : Nat) (s : State) : State :=
  if budgetHolds s fp bank requester then offence fp bank requester s else s

/-- Opens a row for the exerciser or cosy load: true in the answer when it is open already. -/
def openFor (fp bank row requester : Nat) (origin : Origin) (s : State) : Bool × State :=
  match tfind (pcOf s fp).rows bank with
  | some o => if o.row = row then (true, s) else (false, precharge fp bank s)
  | none =>
    if mayActivate s fp bank requester then (false, activate fp bank row requester origin s)
    else (false, heldBack fp bank requester s)

/-- Unless its next data command, or a queued request, targets the open row, the exerciser's command carries auto-precharge
(R205). -/
def exerLast (s : State) (fp bank row : Nat) (more : Bool) : Bool :=
  !more && !((queueOf s fp).any (fun x => x.bank == bank && x.row == row && x.mask != 0))

/-- Counts one data command of the exerciser in a bank. -/
def exerColumn (fp bank : Nat) (last : Bool) (s : State) : State :=
  modPc fp (fun p => { p with exerNow := p.exerNow + 1, rows := if last then terase p.rows bank else p.rows }) (countColumn fp s)

/-- The exerciser's next data command on a pseudo-channel is in the same row as place p. -/
def exerMore (s : State) (n v : Nat) (e : Exer) (i : Nat) : Bool :=
  let a := exerPlace s n e i
  let b := exerPlace s n e (i + 1)
  decide (i + 1 < runSectors s e) && a.1 == b.1 && a.2.1 == b.2.1 && exerStep s n e v != .hammer

/-- A data command of the exerciser in the retry buffer (R269): read 2 or write 3, at bank, row, line and sector. -/
def exerRetry (fp : Nat) (p : Nat × Nat × Nat × Nat) (kind : Nat) (data : List Byte) (last : Bool) (s : State) : State :=
  let q := sectorNo (fp / 64) (fp % 64) p.1 p.2.1 p.2.2.1 p.2.2.2
  exerColumn fp p.1 last
    (retryPush fp { pc := fp, bank := p.1, row := p.2.1, kind := kind, data := data, sector := q, autoPre := last } s)

/-- One command of the exerciser on a pseudo-channel (R475, R476), admitted under R42. -/
def exerSlot (fp : Nat) (s : State) : State :=
  let n := fp / 64
  let v := fp % 64
  let e := exerOf s n
  if !exerMay s fp e then s
  else
    match exerStep s n e v with
    | .idle => s
    | .hammer =>
      let i := (pcOf s fp).exerNow
      let bank := i / 2 % bankCount s.ident.big
      let row := i % 2 * 2
      let s := hammerStart n v s
      if mayActivate s fp bank exerRequester then
        match allow n (evPower s .activate n 1) s with
        | none => allowanceWait s
        | some s =>
          modPc fp (fun p => { p with exerNow := p.exerNow + 1 })
            (precharge fp bank (activate fp bank row exerRequester .user s))
      else heldBack fp bank exerRequester s
    | .write i =>
      let p := exerPlace s n e i
      let o := openFor fp p.1 p.2.1 exerRequester .user s
      if !o.1 then o.2
      else
        match allow n (hbmDebit s n 1 true) s with
        | none => allowanceWait s
        | some s =>
          let q := sectorNo n v p.1 p.2.1 p.2.2.1 p.2.2.2
          let s := writeSector q 0 false (exerData s n e v i) s
          let s := countVolume (stackCtr n 1) 32 (countEv .sectorWrite .user n 1 s)
          exerAdvance n v (exerRetry fp p 3 (exerData s n e v i) (exerLast s fp p.1 p.2.1 (exerMore s n v e i)) s)
    | .read i =>
      let p := exerPlace s n e i
      let o := openFor fp p.1 p.2.1 exerRequester .user s
      if !o.1 then o.2
      else
        match allow n (hbmDebit s n 1 false) s with
        | none => allowanceWait s
        | some s =>
          let q := sectorNo n v p.1 p.2.1 p.2.2.1 p.2.2.2
          let fl : Flight :=
            { id := s.path.nextId, req := 0, kind := .exerciser, sector := q, colour := 0, stored := storedSector s q,
              ta := 0, expect := exerData s n e v i }
          let s := takeId { s with path := { s.path with flights := s.path.flights ++ [fl] } }
          let s := countVolume (stackCtr n 0) 32 (countEv .sectorRead .user n 1 s)
          exerAdvance n v (exerRetry fp p 2 [] (exerLast s fp p.1 p.2.1 (exerMore s n v e i)) s)

/-- Bank, row and line of a step of the cosy walk: line by line, row by row through the 32 row numbers of the cosy pages
in the 16 banks of the highest stack ID (R46, Table 6.2). -/
def cosyPlace (s : State) (n i : Nat) : Nat × Nat × Nat :=
  let t := reservedBlock s.ident.big (mappedCount s n) + i / 16 % 32
  (t / 16384 * 16 + i / 512 % 16, t % 16384, i % 16)

/-- Cosy load may run on a pseudo-channel (R48). -/
def cosyAllowed (s : State) (fp : Nat) : Bool :=
  let k := stackOf s (fp / 64)
  inService s fp && !(k.thermal.heat == .simmer || k.thermal.heat == .scald) && k.sleep.kind != .partialSleep &&
    !(chanOf s (fp / 2)).windowOpen && (chanOf s (fp / 2)).sr == .awake

/-- A user request waits or is queued on a pseudo-channel: cosy load issues nothing there, so that it opens and closes no
row that the request needs (R30, R46, R47). -/
def pcHasUser (s : State) (fp : Nat) : Bool :=
  s.path.reqs.any (fun r => r.kind != .pot && r.stack * 64 + r.pc == fp)

/-- Cosy events add to the cosy power of the period. -/
def cosyCount (power : Nat) (s : State) : State :=
  { s with kettle := { s.kettle with cosySpent := s.kettle.cosySpent + power } }

/-- Cosy load may use a slot of a pseudo-channel now: the governor has placed some there for the period, and no user request
waits. -/
def cosyMay (s : State) (fp : Nat) : Bool :=
  cosyAllowed s fp && columnFits s fp && s.kettle.cosySet.contains fp && (pcOf s fp).cosyNow < s.kettle.cosyShare && !pcHasUser s fp

/-- One cosy command: a row command, or the read of one 64 B line, two sector reads (R46). It runs where the governor
has placed cosy load for the period. -/
def cosySlot (fp : Nat) (s : State) : State :=
  let n := fp / 64
  let p := pcOf s fp
  if !cosyMay s fp then s
  else
    let pl := cosyPlace s n p.cosyPos
    let o := openFor fp pl.1 pl.2.1 cosyRequester .cosy s
    if !o.1 then
      (if (tfind (pcOf o.2 fp).rows pl.1).isSome then cosyCount (evPower s .activate n 1) o.2 else o.2)
    else
      let flight := fun (b : Nat) (s : State) =>
        let q := sectorNo n (fp % 64) pl.1 pl.2.1 pl.2.2 b
        let fl : Flight :=
          { id := s.path.nextId, req := 0, kind := .cosy, sector := q, colour := 0, stored := storedSector s q, ta := 0 }
        takeId { s with path := { s.path with flights := s.path.flights ++ [fl] } }
      let push := fun (b : Nat) (s : State) =>
        let q := sectorNo n (fp % 64) pl.1 pl.2.1 pl.2.2 b
        retryPush fp
          { pc := fp, bank := pl.1, row := pl.2.1, kind := 2, origin := Origin.cosy.num, sector := q,
            autoPre := pl.2.2 == 15 && b == 1 } s
      let s := push 1 (push 0 (flight 1 (flight 0 s)))
      let s := cosyCount (evPower s .sectorRead n 2) (countEvent (stackCtr n 16) 1 (countEv .sectorRead .cosy n 2 (countColumn fp (countColumn fp s))))
      modPc fp (fun p => { p with
        cosyNow := p.cosyNow + 1, cosyPos := (p.cosyPos + 1) % 8192,
        rows := if pl.2.2 = 15 then terase p.rows pl.1 else p.rows }) s

/-! ## The slot -/

/-- A pseudo-channel issues nothing, calibrating or not: its stack is cut or not up, its channel is in a window, mapped out,
asleep, in refresh or in a replay (R207, R231, R271). -/
def slotShut (s : State) (fp : Nat) : Bool :=
  let k := stackOf s (fp / 64)
  let c := chanOf s (fp / 2)
  !k.online || k.retired || k.thermal.heat == .scald || k.mapped.contains (fp % 64 / 2) || c.windowOpen ||
    c.sr != .awake || now s < (pcOf s fp).refreshUntil || replaying s fp || s.boot.halt != .none

/-- A pseudo-channel issues no traffic: none at all, or it calibrates (R322). -/
def slotClosed (s : State) (fp : Nat) : Bool := slotShut s fp || calibrating s fp

/-- A due neighbour refresh may be issued: in a calibration, at a boundary of its steps (R236, R322). -/
def neighbourDue (s : State) (fp : Nat) : Bool := !slotShut s fp && !(pcOf s fp).nbrDue.isEmpty

/-- What a slot does when no user request is eligible. -/
def idleSlot (fp : Nat) (exerReady cosyReady : Bool) (s : State) : State :=
  let s := spareAdmit fp s
  if slackStart s fp then startCal fp false s
  else if exerReady && exerStep s (fp / 64) (exerOf s (fp / 64)) (fp % 64) != .idle && exerMay s fp (exerOf s (fp / 64)) then
    exerSlot fp s
  else if cosyReady then cosySlot fp s
  else s

/-- What a pseudo-channel does with a command slot (R207). -/
def ownSlot (fp : Nat) (ready : List Nat) (exerReady cosyReady : Bool) (s : State) : State :=
  if neighbourDue s fp then neighbourRefresh fp s
  else if slotClosed s fp then s
  else if forcedDue s fp then startCal fp true s
  else
    let s := noteOffences fp ready s
    let c := eligible s fp ready
    if c.isEmpty then idleSlot fp exerReady cosyReady s
    else
      let d := nextDirection s fp c
      let s := setDirection fp d s
      match pick s fp d c with
      | none => s
      | some r => issueFor fp r s

/-- The pseudo-channel can use a slot: it is not closed, and a neighbour refresh, a calibration, an eligible request, or idle
work is there for it. -/
def usesSlot (s : State) (fp : Nat) (ready : List Nat) (exerReady cosyReady : Bool) : Bool :=
  neighbourDue s fp || !slotClosed s fp &&
    (forcedDue s fp || !(eligible s fp ready).isEmpty || !(spareWaiting s fp).isEmpty ||
      slackStart s fp ||
      (exerReady && exerStep s (fp / 64) (exerOf s (fp / 64)) (fp % 64) != .idle && exerMay s fp (exerOf s (fp / 64))) ||
      (cosyReady && cosyMay s fp))

/-- The other pseudo-channel of the channel. -/
def partner (fp : Nat) : Nat := if fp % 2 = 0 then fp + 1 else fp - 1

/-- One command slot of a pseudo-channel (R207); one that it cannot use passes to the other of its channel (R204). -/
def commandSlot (fp : Nat) (ready : List Nat) (exerReady cosyReady : Bool) (s : State) : State :=
  let s := if slotClosed s fp then s else noteOffences fp ready s
  if usesSlot s fp ready exerReady cosyReady || !usesSlot s (partner fp) ready exerReady cosyReady then
    ownSlot fp ready exerReady cosyReady s
  else ownSlot (partner fp) ready exerReady cosyReady s

end Sys2Proof.Machine
end

