-- ==== Sys2Proof/Machine/ReadReturn.lean ====
section
/-! DEFINITION. The return of a sector's data (R259 to R263): user reads and read halves with their write-back (R261) and
merge (R267), cosy reads (R49), the exerciser (R477) and the repair scrub (R291). POISON_INJECT (R285). -/

namespace Sys2Proof.Machine

open Sys2Proof

/-! ## Flights -/

def flightOf (s : State) (id : Nat) : Option Flight := s.path.flights.find? (fun f => f.id == id)

def dropFlight (id : Nat) (s : State) : State :=
  { s with path := { s.path with flights := s.path.flights.filter (fun f => f.id != id) } }

/-- The stored bytes as they arrive, with the bits that the link or the array turned over. -/
def flipped (stored : List Byte) (flips : List (Nat × Byte)) : List Byte :=
  (List.range 36).map (fun i => flips.foldl (fun b f => if f.1 = i then b ^^^ f.2 else b) (stored.getD i 0))

/-- A read whose sectors have all returned leaves the queue (R202, R210). -/
def readLeaves (id : Nat) (s : State) : State :=
  match reqOf s id with
  | none => s
  | some r =>
    if r.write || r.mask != 0 || s.path.flights.any (fun f => f.req == id || f.also.contains id) then s
    else dropReq id (reqCompletes r s)

/-! ## Write-back (R261) -/

/-- A full-sector write to the sector is queued behind the read, so its write-back is skipped. -/
def laterFullWrite (s : State) (q seq : Nat) (fp : Nat) : Bool :=
  (queueOf s fp).any (fun x => x.write && x.kind == .host && seq < x.seq &&
    ([0, 1].any (fun b => x.mask.testBit b && reqSector x b == q && sectorWhole x b)))

/-- The request of a write-back: it takes over the entry of its read, in front of every younger request. -/
def writeBackReq (s : State) (f : Flight) (r : Req) (data : List Byte) (poison : Bool) : Req :=
  let b := f.sector % 2
  { r with
    id := s.path.nextId, kind := .writeBack, write := true, port := 24, mask := 2 ^ b,
    data := (if b = 0 then [] else List.replicate 32 0) ++ data,
    byteMask := List.replicate 64 true, poison := false, poisonMask := if poison then 2 ^ b else 0, parent := 0, joined := [],
    touch := 2 ^ b, joinedQos := [], collective := none,
    target := (cfgAtPc s 0x0300 0 (r.tenant * 32 + 24) (takeTarget.unitPcOf (reqPc r))).headD 0, access := 2 ^ 64,
    spare := false }

/-- Issues the write-back of a user read, unless a younger full-sector write is queued. -/
def writeBack (f : Flight) (stored : List Byte) (o : SectorOutcome) (s : State) : State :=
  match writeBackOf (policyOf s (secStack f.sector)) stored o, reqOf s f.req with
  | some (d, poison), some r =>
    if laterFullWrite s f.sector r.seq (reqPc r) then s else pushReq (writeBackReq s f r d poison) s
  | _, _ => s

/-! ## User reads -/

/-- The data of a sector goes to every read it serves (R214, R262). -/
def deliver (f : Flight) (u : List Byte × Bool) (s : State) : State :=
  let one := fun (access ta : Nat) (s : State) => sectorServed access (some (ta, u)) s
  let s := one f.access f.ta s
  let others := f.also.filterMap (fun id => reqOf s id)
  let s := others.foldl (fun s r => one r.access f.ta s) s
  (f.req :: f.also).foldl (fun s id => readLeaves id s) s

/-- A user read returns (R260, R261, R262). -/
def userReturn (f : Flight) (stored : List Byte) (s : State) : State :=
  let o := classify (policyOf s (secStack f.sector)) f.colour stored
  let s := readOutcome (.user f.tenant f.ta) f.sector o s
  let s := writeBack f stored o s
  deliver f (outcomeData stored o, o.failed) s

/-! ## Read halves (R215, R267) -/

/-- The write with one sector merged over the data read (Table 9.5). -/
def mergeHalf (r : Req) (b : Nat) (old : List Byte) (outcome : Nat) : Req :=
  let i := 32 * b
  let failed := outcome == 2
  let inB := fun j => decide (i ≤ j) && decide (j < i + 32)
  { r with
    data := (List.range 64).map (fun j =>
      if inB j && !r.byteMask.getD j false then old.getD (j - i) 0 else r.data.getD j 0),
    byteMask := (List.range 64).map (fun j => inB j || r.byteMask.getD j false),
    status := max r.status outcome,
    poisonMask := if failed && !r.poisonMask.testBit b then r.poisonMask + 2 ^ b else r.poisonMask }

/-- What the read half gives a partial write: 0 OK, 1 CORRECTED, 2 WRITE_OVER_POISON (Table 9.5). -/
def halfOutcome (o : SectorOutcome) : Nat :=
  match o with
  | .clean => 0
  | .corrected _ => 1
  | _ => 2

/-- A write over poison is counted, once for every write that it merges, and reported where it is the host's (R268). A write
without bytes, POISON_INJECT's, is none. -/
def writeOver (f : Flight) (r : Req) (s : State) : State :=
  if !(r.byteMask.any id) then s
  else
    let host := (accessOfId s r.access).all (fun a => a.owner == .host)
    (r.access :: r.joined).foldl (fun s _ => poisonedWrite f.sector s)
      (if host then overPoisonEvent f.tenant f.ta f.sector s else s)

/-- A read half returns: the write it serves is merged, and encoded with poison where the read failed. -/
def halfReturn (f : Flight) (stored : List Byte) (s : State) : State :=
  let o := classify (policyOf s (secStack f.sector)) f.colour stored
  let s := readOutcome (.user f.tenant f.ta) f.sector o s
  let s := match reqOf s f.req with
    | none => s
    | some h =>
      let b := f.sector % 2
      let before := reqOf s h.parent
      let s := modReq h.parent (fun r => mergeHalf r b (outcomeData stored o) (halfOutcome o)) s
      let s := match reqOf s h.parent with
        | none => s
        | some r => mirrorKnown r.tenant r.id f.ta ((r.data.drop (32 * b)).take 32) (r.poisonMask.testBit b) s
      match before with
      | some r => if o.failed then writeOver f r s else s
      | none => s
  readLeaves f.req s

/-! ## Cosy reads (R49) -/

/-- A cosy read returns: its data is discarded. -/
def cosyReturn (q : Nat) (stored : List Byte) (s : State) : State :=
  let n := secStack q
  let o := classify (policyOf s n) 0 stored
  let ch := n * 32 + secPc q / 2
  if o.failed then
    let s := countEvent (stackCtr n 29) 1 s
    if (chanOf s ch).cosyLogged then s
    else
      logEvent 0x0505 noTenant 1 n
        (leBytes 2 (n * 64 + secPc q) ++ leBytes 1 (secBank q) ++ leBytes 2 (secRow q) ++ leBytes 1 (outcomeOrder o)) []
        (modChan ch (fun c => { c with cosyLogged := true }) s)
  else
    match o with
    | .corrected _ => countOutcome q o s
    | _ => s

/-! ## The repair scrub (R291) -/

/-- The lane under repair on a pseudo-channel. -/
def scrubLane (s : State) (fp : Nat) : Option Nat := (pcOf s fp).scrub

/-- The scrub reads every sector of rows whose extents a partition owns. -/
def scrubbed (s : State) (q : Nat) : Bool :=
  let n := secStack q
  match rowBlockOf s.ident.big (stackOf s n).mapped (secPc q) (secBank q) (secRow q) with
  | none => false
  | some blk =>
    decide (blk < reservedBlock s.ident.big (mappedCount s n)) && (extentOwner s n (blk / 256)).isSome

/-- The colour of the row that a physical sector lies in. -/
def sectorColour (s : State) (q : Nat) : BitVec 8 :=
  let n := secStack q
  match rowBlockOf s.ident.big (stackOf s n).mapped (secPc q) (secBank q) (secRow q) with
  | none => 0
  | some blk => blockColour s n blk

/-- A single bad byte in the repaired lane's position, under any policy. -/
def laneFault (colour : BitVec 8) (stored : List Byte) (lane : Nat) : Option (List (Nat × Byte)) :=
  match classify 0 colour stored with
  | .corrected [(p, v)] => if posByte p = lane then some [(p, v)] else none
  | _ => none

/-- The sectors that the scrub of a pseudo-channel may read in one period: a sixteenth of its peak, throttled with the stack
in simmer (R291, Table 10.9). -/
def scrubLimit (s : State) (fp : Nat) : Nat := stepInForce s (fp / 64) * peakTenths s / 1280

/-- The scrub opens the row of a sector, on port 24 for the tenant that owns it; none while an activate may not be issued. -/
def scrubOpen (fp bank row t : Nat) (s : State) : Option State :=
  match tfind (pcOf s fp).rows bank with
  | some o => if o.row = row then some s else open? (precharge fp bank s)
  | none => open? s
where
  /-- The activate, where it may be issued. -/
  open? (s : State) : Option State :=
    if mayActivate s fp bank (requesterOf t 24) then some (activate fp bank row (requesterOf t 24) .user s) else none

/-- The tenant that owns the row of a physical sector. -/
def sectorOwner (s : State) (q : Nat) : Nat :=
  let n := secStack q
  ((rowBlockOf s.ident.big (stackOf s n).mapped (secPc q) (secBank q) (secRow q)).bind
    (fun blk => extentOwner s n (blk / 256))).getD 0

/-- A column command of the scrub: counted, and in the retry buffer (R269). -/
def scrubColumn (fp q kind : Nat) (data : List Byte) (s : State) : State :=
  let last := decide (kind = 2) && exerLast s fp (secBank q) (secRow q) (q % 32 != 31)
  let s := modPc fp (fun p => { p with rows := if last then terase p.rows (secBank q) else p.rows }) (countColumn fp s)
  retryPush fp
    { pc := fp, bank := secBank q, row := secRow q, kind := kind, sector := q, data := data,
      origin := if kind = 3 then 0 else 2, autoPre := last } s

/-- A scrub read returns; its write-backs are done at once. It reads nothing while the pseudo-channel issues nothing, or
beyond its limit of the period. -/
def scrubReturn (q : Nat) (flips : List (Nat × Byte)) (s : State) : State :=
  let n := secStack q
  let fp := n * 64 + secPc q
  match scrubLane s fp with
  | none => s
  | some lane =>
    if !scrubbed s q || 512 ≤ fp || slotClosed s fp || scrubLimit s fp ≤ (pcOf s fp).scrubNow || !columnFits s fp then s
    else
      match scrubOpen fp (secBank q) (secRow q) (sectorOwner s q) s with
      | none => s
      | some s =>
      let colour := sectorColour s q
      let stored := flipped (storedSector s q) flips
      let write := fun (d : List Byte) (poison : Bool) (s : State) =>
        writeSector q colour poison d (countEv .sectorWrite .mandatory n 1 (scrubColumn fp q 3 d s))
      let s := modPc fp (fun p => { p with scrubNow := p.scrubNow + 1 }) s
      let s := countEv .sectorRead .user n 1 (scrubColumn fp q 2 [] s)
      match laneFault colour stored lane with
      | some bad => write ((correctStored stored bad).take 32) false (countOutcome q (.corrected bad) s)
      | none =>
        let o := classify (policyOf s n) colour stored
        let s := readOutcome (.scrub (some lane)) q o s
        match o with
        | .corrected bad => write ((correctStored stored bad).take 32) false s
        | .uncorrectable => write (stored.take 32) true s
        | _ => s

/-! ## Pot words (R264) -/

/-- The bad bits of an 8 B pot word: flips of its bytes 0 to 7, and of its check byte 8. -/
def badBits (flips : List (Nat × Byte)) : List (Nat × Nat) :=
  (List.range 9).flatMap (fun i =>
    let b := flips.foldl (fun (b : Byte) f => if f.1 = i then b ^^^ f.2 else b) 0
    ((List.range 8).filter (fun j => b.getLsbD j)).map (fun j => (i, j)))

/-- Bits of an 8 B word of the pot turn over; its flag stays as it is. -/
def potTurn (w : Nat) (bits : List (Nat × Nat)) (s : State) : State :=
  (bits.filter (fun b => b.1 < 8)).foldl (fun s b =>
    potStore (8 * w + b.1) [potByte s (8 * w + b.1) ^^^ BitVec.ofNat 8 (2 ^ b.2)] s) s

/-- The decoder finds a single bad bit, and corrects it: it is counted. -/
def potCorrected (w : Nat) (s : State) : State :=
  countEvent (devCtr 18) 1 { s with pot := { s.pot with corrected := cadd s.pot.corrected (potSlice (8 * w)) 1 } }

/-- A read of a pot word finds bad bits: one is corrected, two flag its 32 B, and of three or more the decoder flags the word,
corrects it wrongly, or finds nothing (a free choice, R264). -/
def potReturn (w : Nat) (flips : List (Nat × Byte)) (s : State) : State :=
  let bits := badBits flips
  let flagged := fun (s : State) => potFlag (w / 4) true (potTurn w bits s)
  if 2 ^ 27 ≤ 8 * w || s.pot.clearing.contains (potSlice (8 * w) / 2) then s
  else
    match bits.length with
    | 0 => s
    | 1 => potCorrected w s
    | 2 => flagged s
    | _ =>
      let k := freeNat s
      let s := freeStep s
      if k % 3 = 0 then flagged s
      else if k % 3 = 1 then potCorrected w (potTurn w ((k / 3 % 64 / 8, k / 3 % 8) :: bits) s)
      else potTurn w bits s

/-! ## READ_DATA_RETURN -/

/-- A flight returns its data. -/
def flightReturn (id : Nat) (flips : List (Nat × Byte)) (s : State) : State :=
  match flightOf s id with
  | none => s
  | some f =>
    let s := dropFlight id s
    let stored := flipped f.stored flips
    match f.kind with
    | .host => userReturn f stored s
    | .readHalf => halfReturn f stored s
    | .cosy => cosyReturn f.sector stored s
    | .exerciser => exerCheck (secStack f.sector) f.sector stored f.expect s

/-- A read of the sector path, of the repair scrub, or of a pot word returns its data (R259, R264). -/
def readReturn (src : ReadSrc) (flips : List (Nat × Byte)) (s : State) : State :=
  match src with
  | .flight id => flightReturn id flips s
  | .scrub q => scrubReturn q flips s
  | .potWord w => potReturn w flips s

/-! ## POISON_INJECT -/

/-- POISON_INJECT's own work: the range check of R183, then the access, which reads each sector and writes it back as poison
on port 24. A pot address is not a sector's (R285), and answers BAD_PARAM. -/
def poisonInjectWork (c : Cmd) (s : State) : Reply :=
  let ta := par c 0 5
  let n := par c 6 2
  let t := cmdTarget c
  if ta % 32 ≠ 0 || n = 0 || 64 < n || 2 ^ 39 ≤ ta then .done s stBadParam []
  else if (partOf s t).closed && !rinseIncomplete s t then .done s stPartitionClosed []
  else
    match rangeStatus s t ta (32 * n) with
    | some st => .done (accessEvent t ta st s) st []
    | none =>
      .wait (ask
        { owner := .command 0x0505 c, tenant := t, port := 24, ta := ta, len := 32 * n, write := true, bytes := false,
          poison := List.replicate n true } s)

/-- Every sector of a POISON_INJECT is written, or its access ended: POISON where one had failed already (R263). -/
def injectDone (c : Cmd) (s : State) : State :=
  let o : Owner := .command 0x0505 c
  let n := par c 6 2
  match ownerStatus s o with
  | some st => finish 0x0505 c st [] (dropOwner o s)
  | none =>
    doneAfterMirror (cmdTarget c) 0x0505 c (if ownerWorst s o = 2 then stPoison else stOK) (leBytes 2 n) (dropOwner o s)

/-- POISON_INJECT (R285). -/
def execPoisonInject (c : Cmd) (s : State) : Host.Outcome State Fault Refusal :=
  .next (mailbox 0x0505 c (poisonInjectWork c) s)

end Sys2Proof.Machine
end

