-- ==== Sys2Proof/Machine/Pour.lean ====
section
/-! DEFINITION. Pours (R147 to R154): the request, the checks of Table 5.1, acceptance, the switching of units and the
completion; and the hooks of the items that a class D switch changes (R172, R179, R185, R189, R297). -/

namespace Sys2Proof.Machine

open Sys2Proof

/-! ## The resulting configuration -/

/-- The instances a broadcast entry stands for: those of its kind that are not on a retired stack (R147). -/
def presentInsts (s : State) (op : Nat) : List Nat :=
  match cfgKind op with
  | 2 => (List.range 256).filter (fun c => !(stackOf s (c / 32)).retired)
  | 3 => (List.range 512).filter (fun p => !(stackOf s (p / 64)).retired)
  | _ => []

/-- The staged set with its broadcast entries expanded; an instance's own entry stands against the broadcast (R147). -/
def expandSet (s : State) (set : Table (List Nat)) : Table (List Nat) :=
  let own := set.filter (fun e => keyInst e.1 != bcast)
  (set.filter (fun e => keyInst e.1 == bcast)).foldl (fun t e =>
    (presentInsts s (keyOp e.1)).foldl (fun t i =>
      let k := cfgKey (keyOp e.1) (keyFld e.1) i
      if (tfind t k).isSome then t else tput t k e.2) t) own

/-- A field of the configuration that would result from an expanded set (R148 step 3). -/
def newList (s : State) (set : Table (List Nat)) (op fld inst : Nat) : List Nat :=
  (tfind set (cfgKey op fld inst)).getD (cfgList s op fld inst)

def newN (s : State) (set : Table (List Nat)) (op fld inst : Nat) : Nat := (newList s set op fld inst).headD 0

/-- The set stages a field of an instance. -/
def stages (set : Table (List Nat)) (op fld inst : Nat) : Bool := (tfind set (cfgKey op fld inst)).isSome

/-! ## Checks 1 to 4 of Table 5.1 -/

/-- Check 1: the issuer may stage and pour an entry (R165, R167). -/
def mayPour (s : State) (c : Cmd) (k : Nat) : Bool :=
  match c.issuer with
  | .fn f => f.val == 0 || (keyOp k == 0x0300 && keyInst k / 32 == f.val && bitOf (permWord s f.val) 5)
  | .oob => keyOp k == 0x0801 && bitOf (oobWord s) 16

/-- Check 2: an entry's value is in range under the variant and the stacks (R165, R171, R179, R232). Bits 15:6 of a
permission word, of which R165 says that they must be 0, fail here with reason 1 (DESIGN CHOICE, log entry 74). -/
def inRange (s : State) (k : Nat) (v : List Nat) : Bool :=
  let i := keyInst k
  let w := v.headD 0
  match keyOp k with
  | 0x0004 => w % 2 ^ 16 < 2 ^ 6 && w < 2 ^ 19 && (if i = 0x80 then w % 2 ^ 6 == 0 else w < 2 ^ 16)
  | 0x0200 =>
    (stackOf s (i % 8)).retired || v.all (fun x => x < extentCount s.ident.big (mappedCount s (i % 8)))
  | 0x0401 =>
    w == 1 || (match (stackOf s (i / 32)).ident with
      | some d => d.directed
      | none => true)
  | _ => true

/-- Check 3: an entry's instance is present (R147). A list for a retired stack is left to check 4 (R181). -/
def present (s : State) (k : Nat) : Bool :=
  let i := keyInst k
  match keyOp k with
  | 0x0004 => i == 0x80 || i ≤ s.ident.vfs
  | 0x0203 | 0x0501 => !(stackOf s i).retired
  | 0x0204 => !(stackOf s (i % 8)).retired
  | 0x0401 => !(stackOf s (i / 32)).retired
  | 0x0303 | 0x0402 => !(stackOf s (i / 64)).retired
  | _ => true

/-- One field bounds another (R149): an entry passes when the bound holds, or when it is the bounding field and the
bounded one is staged too and will be named. -/
def pairOk (s : State) (set : Table (List Nat)) (k bounded bounding : Nat) (holds : Nat → Nat → Bool) : Bool :=
  let op := keyOp k
  let i := keyInst k
  if keyFld k = bounded then holds (newN s set op bounded i) (newN s set op bounding i)
  else if keyFld k = bounding then
    stages set op bounded i || holds (newN s set op bounded i) (newN s set op bounding i)
  else true

/-- A hash mask obeys R174: bits 35:10 only, and of 19:10 exactly its own. -/
def maskOk (fld m : Nat) : Bool :=
  m < 2 ^ 36 && m % 1024 == 0 && bitsOf m 10 10 == 2 ^ fld

/-- The tenants other than t whose resulting list of an item holds x. -/
def heldByOther (s : State) (set : Table (List Nat)) (op : Nat) (inst : Nat → Nat) (t x : Nat) : Bool :=
  (List.range 128).any (fun u => u != t && (newList s set op 0 (inst u)).contains x)

/-- Some partition's resulting lists still hold an offline extent (R304). -/
def keepsOffline (s : State) (set : Table (List Nat)) : Bool :=
  s.parts.any (fun e => e.2.offline.any (fun o => (newList s set 0x0200 0 (e.1 * 8 + o.1)).contains o.2))

/-- Check 4 for extent lists (R181, R304, R475, R484). -/
def extentsOk (s : State) (set : Table (List Nat)) (i : Nat) : Bool :=
  let l := newList s set 0x0200 0 i
  let t := i / 8
  let n := i % 8
  let short := extentCount s.ident.big (mappedCount s n) - 1
  l.eraseDups.length == l.length && !(l.any (fun x => heldByOther s set 0x0200 (fun u => u * 8 + n) t x)) &&
    !(l.dropLast.contains short) && !((stackOf s n).retired && !l.isEmpty) && !rinseIncomplete s t &&
    !keepsOffline s set &&
    (l.isEmpty || (s.dbg.level == 0 && !((exerOf s n).running && (exerOf s n).mode == 2)))

/-- The twin port that would result; 0xFF for none. -/
def newTwinPort (s : State) (set : Table (List Nat)) : Nat := newN s set 0x0C05 0 0

/-- Port k would be gated off. -/
def newGated (s : State) (set : Table (List Nat)) (k : Nat) : Bool := (newN s set 0x080A 0 0).testBit (40 + k)

/-- Port k would be enabled. -/
def newPortOn (s : State) (set : Table (List Nat)) (k : Nat) : Bool := (newN s set 0x0C01 0 k).testBit 0

/-- Connection c of port k would be enabled. -/
def newConnOn (s : State) (set : Table (List Nat)) (k c : Nat) : Bool := (newN s set 0x0C02 1 (k * 64 + c)).testBit 0

/-- Port k may be the twin port (R429). -/
def twinPortOk (s : State) (set : Table (List Nat)) (k : Nat) : Bool :=
  bitsOf s.pins.straps.toNat 2 2 != 0 && bitsOf s.pins.straps.toNat 2 2 != 3 && !((List.range 64).any (newConnOn s set k)) && !newGated s set k &&
    (!stages set 0x0C01 0 k || newPortOn s set k)

/-- Check 4 for one peer-port entry (R443). -/
def peerPortOk (s : State) (set : Table (List Nat)) (k : Nat) : Bool :=
  let i := keyInst k
  let was := (cfgN s 0x0C01 0 i).testBit 0
  let on := newPortOn s set i
  let fld := keyFld k
  let flags := fun w => w % 64 / 2
  !(on && (newN s set 0x0C01 1 i == 0) && (fld == 0 || fld == 1)) &&
    !(was && on && fld == 0 && flags (newN s set 0x0C01 0 i) != flags (cfgN s 0x0C01 0 i)) &&
    !(was && on && (fld == 1 || fld == 2 || fld == 3) && newN s set 0x0C01 fld i != cfgN s 0x0C01 fld i) &&
    !(fld == 0 && !on && newTwinPort s set == i)

/-- How many instances a debug-mux group has (Table 18.1); a group without instances takes any value. -/
def muxInstances (g : Nat) : Nat :=
  match g with
  | 2 => 9
  | 5 => 512
  | 6 | 7 | 8 | 10 => 8
  | _ => 65536

/-- Check 4: an entry agrees with the fields it must agree with. -/
def agrees (s : State) (set : Table (List Nat)) (k : Nat) : Bool :=
  let i := keyInst k
  let fld := keyFld k
  match keyOp k with
  | 0x0801 => pairOk s set k 3 2 (fun floor ceil => floor ≤ ceil)
  | 0x0204 => pairOk s set k 2 1 (fun depth rate => rate ≤ depth)
  | 0x0402 => pairOk s set k 1 2 (fun budget cap => budget ≤ cap)
  | 0x0303 =>
    pairOk s set k 1 0 (fun lo hi => lo < hi) &&
      newN s set 0x0303 fld i == newN s set 0x0303 fld (i / 2 * 2 + (1 - i % 2))
  | 0x080A =>
    let map := newN s set 0x080A 0 0
    (List.range 16).all (fun t => map.testBit (2 * t) == map.testBit (2 * t + 1)) &&
      !(newTwinPort s set < 4 && newGated s set (newTwinPort s set))
  | 0x0200 => extentsOk s set i
  | 0x0201 =>
    let col := newN s set 0x0201 0 i
    !(heldByOther s set 0x0201 id i col) && !((List.range 128).any (fun u => u != i && (pendingColours s u).contains col)) &&
      !rinseIncomplete s i
  | 0x0202 =>
    let l := newList s set 0x0202 0 i
    l.eraseDups.length == l.length && !(l.any (fun g => heldByOther s set 0x0202 id i g)) && !rinseIncomplete s i &&
      (l.isEmpty || s.dbg.level == 0)
  | 0x0203 => (List.range 10).all (fun j => maskOk j ((newList s set 0x0203 0 i).getD j 0))
  | 0x0C01 => peerPortOk s set k
  | 0x0C02 =>
    !(fld == 0 && (cfgN s 0x0C02 1 i).testBit 0 && newN s set 0x0C02 0 i != cfgN s 0x0C02 0 i) &&
      !(fld == 1 && newN s set 0x0C02 1 i % 2 == 1 && newTwinPort s set == i / 64)
  | 0x0C05 => fld != 0 || newTwinPort s set == 0xFF || twinPortOk s set (newTwinPort s set)
  | 0x0E00 => fld == 2 || newN s set 0x0E00 1 i < muxInstances (newN s set 0x0E00 0 i)
  | 0x0D00 => fld == 1 || newN s set 0x0D00 0 0 == 0 || newN s set 0x0D00 2 0 != 0
  | _ => true

/-- What checks 1 to 4 say of an expanded set: the status, the reason byte and the entry named, if one fails (R149). -/
def pourFailure (s : State) (c : Cmd) (set : Table (List Nat)) : Option (Nat × Nat × Nat) :=
  let first := fun (status reason : Nat) (p : Nat × List Nat → Bool) =>
    (set.find? p).map (fun e => (status, reason, e.1))
  ((first stNotPermitted 3 (fun e => !mayPour s c e.1)).orElse
    (fun _ => (first stPourRejected 1 (fun e => !inRange s e.1 e.2)).orElse
      (fun _ => (first stPourRejected 4 (fun e => !present s e.1)).orElse
        (fun _ => first stPourRejected 2 (fun e => !agrees s set e.1)))))

/-- The result of a rejected pour (Table 5.7). -/
def rejectedResult (reason k : Nat) : List Byte :=
  leBytes 2 (keyOp k) ++ leBytes 1 (keyFld k) ++ leBytes 1 reason ++ leBytes 2 (keyInst k) ++
    leBytes 1 (cfgKind (keyOp k))

/-! ## Check 5 -/

/-- The partitions that class D entries affect (R153, R433). -/
def affectedTenants (s : State) (set : Table (List Nat)) : List Nat :=
  (List.range 128).filter (fun t => set.any (fun e =>
    let i := keyInst e.1
    match keyOp e.1 with
    | 0x0200 => i / 8 == t
    | 0x0201 | 0x0202 | 0x0C06 => i == t
    | 0x0203 => !(extentsOf s t i).isEmpty
    | _ => false))

/-- The stacks that class D entries affect (Table 10.9). -/
def affectedStacks (s : State) (set : Table (List Nat)) : List Nat :=
  let ts := affectedTenants s set
  (List.range 8).filter (fun n =>
    set.any (fun e => (keyOp e.1 == 0x0203 && keyInst e.1 == n) || (keyOp e.1 == 0x0200 && keyInst e.1 % 8 == n)) ||
      ts.any (fun t => !(extentsOf s t n).isEmpty))

/-- A partition a class D pour may change: closed, drained, no rinse or join of its own (R158, R191). -/
def pourDrained (s : State) (t : Nat) : Bool :=
  (partOf s t).closed && drainedNow s t && (partOf s t).rinse.isNone

/-- The affected partitions that are not drained. -/
def undrained (s : State) (set : Table (List Nat)) : List Nat := (affectedTenants s set).filter (fun t => !pourDrained s t)

/-! ## Units (R150, R151) -/

/-- Numbers of the units that switch after the hub, in the order they switch: by stack, in a stack its foot die, then
each channel with its two pseudo-channels; then the tiles' allowances and the peer ports. -/
def unitStack (n : Nat) : Nat := n * 256
def unitChan (ch : Nat) : Nat := ch / 32 * 256 + 1 + 3 * (ch % 32)
def unitPc (pc : Nat) : Nat := pc / 64 * 256 + 2 + 3 * (pc % 64 / 2) + pc % 2
def unitTile (t : Nat) : Nat := 8 * 256 + 8 + t
def unitPort (k : Nat) : Nat := 8 * 256 + k

/-- The units of one entry other than the hub. A latency target switches on every pseudo-channel, a kettle limit or
trim on every foot die and tile (Table 5.2). -/
def unitsOf (s : State) (k : Nat) : List Nat :=
  let i := keyInst k
  let live := fun n => !(stackOf s n).retired
  match keyOp k with
  | 0x0801 | 0x0803 => ((List.range 8).filter live).map unitStack ++ (List.range 16).map unitTile
  | 0x0204 => [unitStack (i % 8)]
  | 0x0501 => [unitStack i]
  | 0x0401 => [unitChan i]
  | 0x0303 | 0x0402 => [unitPc i]
  | 0x0300 => ((List.range 512).filter (fun p => live (p / 64))).map unitPc
  | 0x0C01 => [unitPort i]
  | _ => []

/-- An entry that a unit other than the hub holds alone: it comes into force when that unit switches. -/
def ownUnit (k : Nat) : Bool :=
  match keyOp k with
  | 0x0204 | 0x0501 | 0x0401 | 0x0303 | 0x0402 | 0x0C01 => true
  | _ => false

/-- Units of a set after the hub, in order. -/
def setUnits (s : State) (set : Table (List Nat)) : List Nat :=
  (set.flatMap (fun e => if cfgClassD (keyOp e.1) then [] else unitsOf s e.1)).foldl insertNat []

/-- A class M entry of the hub. -/
def hubEntry (k : Nat) : Bool := !cfgClassD (keyOp k) && cfgUnit (keyOp k) == .hub

/-- A unit is offline, benched or in self-refresh, so that it switches at once (R151). -/
def unitOffline (s : State) (u : Nat) : Bool :=
  let n := u / 256
  let j := u % 256
  if 8 ≤ n then false
  else if j = 0 then (stackOf s n).sleep.kind == .partialSleep
  else
    let ch := n * 32 + (j - 1) / 3
    chanOffline s ch || (chanOf s ch).bench != .none

/-! ## The request (R148 steps 1 and 2) -/

def configPourWork (c : Cmd) (s : State) : Reply :=
  let b := par c 0 1
  let r : PourReq := { cmd := c, persist := bitOf b 0, reopen := bitOf b 1 }
  .wait { s with cfg := { s.cfg with waiting := s.cfg.waiting ++ [r] } }

/-- CONFIG_POUR (R148): the pour waits for its turn. -/
def execConfigPour (c : Cmd) (s : State) : Host.Outcome State Fault Refusal :=
  .next (mailbox 0x0100 c (configPourWork c) s)

/-- A steep command of the same area, fetched before the pour, still executes (R148 step 1). -/
def earlierSteep (s : State) (c : Cmd) : Bool :=
  (s.cmds.takeWhile (fun e => !execMatches 0x0100 c e)).any (fun e =>
    e.done.isNone && cmdArea e.cmd == cmdArea c && (match Sys2Proof.ofOpcode e.op.toNat e.cmd with
      | some i => isSteep i
      | none => false))
where
  /-- The steep commands (Table 5.12). -/
  isSteep : Instr → Bool
    | .kettleSteepLimits _ | .kettleSteepTrim _ | .kbSteepMaster _ | .pdSteepGate _ | .vcoreSteepTarget _
    | .functionSteepPerm _ | .partitionSteepExtents _ | .partitionSteepColour _ | .partitionSteepPot _
    | .hashSteepMasks _ | .regulatorSteep _ | .latencySteepTargets _ | .schedSteepPolicy _ | .disturbSteepMode _
    | .disturbSteepLimits _ | .integritySteepPolicy _ | .thermalSteepAdvisory _ | .tileSteepPolicy _
    | .peerSteepPort _ | .peerSteepConn _ | .peerSteepHandle _ | .twinSteep _ | .twinSteepPartition _
    | .spoutSteep _ | .debugSteepMux _ => true
    | _ => false

/-- The number of the mark carried out last. -/
def markNow (s : State) : Nat := s.clock.mark

/-- No die has had a heavy mark in the last 8 marks (R213). -/
def heavyClear (s : State) : Bool := s.cfg.heavy.all (fun e => e.2 + 8 ≤ markNow s)

/-- A window of a repair or map-out is open on a stack (Table 10.9). -/
def stackWindow (s : State) (n : Nat) : Bool :=
  (stackChans n).any (fun ch => (chanOf s ch).windowOpen) ||
    (match (stackOf s n).mapout with
      | some m => m.opened
      | none => false) ||
    (match (stackOf s n).retireProc with
      | some m => m.opened
      | none => false)

/-- The pour's class D entries may be accepted now. -/
def classDReady (s : State) (set : Table (List Nat)) : Bool :=
  !(set.any (fun e => cfgClassD (keyOp e.1))) || (heavyClear s && !((affectedStacks s set).any (stackWindow s)))

/-- The pour needs a store record (R148 step 5). -/
def needsRecord (r : PourReq) (set : Table (List Nat)) (undoPersist : Bool) : Bool :=
  r.persist || undoPersist || set.any (fun e => cfgClassD (keyOp e.1))

/-- Less than 64 KiB free, or compacting: pours that need a record are held (R163). -/
def storeHeld (s : State) : Bool := s.flash.store.compacting || s.flash.store.freeBytes < 65536

/-- The pour whose turn it is: pours run in the order of their fetches (R148 step 2), so the oldest CONFIG_POUR that has no
answer, once its request is in. -/
def frontPour (s : State) : Option PourReq :=
  match s.cmds.find? (fun e => e.op == 0x0100#16 && e.done.isNone) with
  | none => s.cfg.waiting.head?
  | some e => s.cfg.waiting.find? (fun r => execMatches 0x0100 r.cmd e)

/-- Removes a request. -/
def popPour (r : PourReq) (s : State) : State := { s with cfg := { s.cfg with waiting := s.cfg.waiting.erase r } }

/-- Units that are offline when their turn comes, at the front of the order, switch at once (R151). -/
def dropUnits (p : Nat → Bool) (l : List Nat) : List Nat × List Nat :=
  match l with
  | [] => ([], [])
  | u :: r => if p u then (u :: (dropUnits p r).1, (dropUnits p r).2) else ([], u :: r)

/-- Starts the switching of an accepted pour. The 64 marks of R151 are counted from here: with a store record, from the end
of its write (DESIGN CHOICE, log entry 43). -/
def startPour (p : Pour) (s : State) : State :=
  { s with cfg := { s.cfg with pour := some { p with recordPending := false, acceptMark := markNow s } } }

/-- Accepts the front request with its expanded set (R148 steps 4 and 5). -/
def acceptPour (r : PourReq) (set : Table (List Nat)) (s : State) : State :=
  let a := cmdArea r.cmd
  let persist := tget false s.cfg.areaPersist a
  let serial := s.cfg.serial + 1
  let rec_ := needsRecord r set persist
  let units := setUnits s set
  let p : Pour :=
    { req := { r with persist := r.persist || persist }, serial := serial, entries := set,
      old := set.map (fun e => (e.1, cfgList s (keyOp e.1) (keyFld e.1) (keyInst e.1))),
      set := staged s a, setPersist := persist, prevFn := tget 0 s.cfg.fnSerial a, prevState := s.cfg.lastState,
      recordPending := rec_, unitsLeft := units,
      classDDone := !(set.any (fun e => cfgClassD (keyOp e.1))),
      hubDone := !(set.any (fun e => hubEntry e.1)) }
  let s := popPour r s
  let s := { s with cfg := { s.cfg with
      serial := serial, lastState := 1,
      fnSerial := tset 0 s.cfg.fnSerial a serial,
      areas := tset [] s.cfg.areas a [], areaPersist := tset false s.cfg.areaPersist a false } }
  if rec_ then pushJob .pourRecord { s with cfg := { s.cfg with pour := some p } } else startPour p s

/-- POUR_ACCEPT: the request whose turn it is (R148, R149, R213). -/
def pourAccept (s : State) : State :=
  match frontPour s with
  | none => s
  | some r =>
    if s.cfg.pour.isSome || earlierSteep s r.cmd then s
    else
      let set := expandSet s (staged s (cmdArea r.cmd))
      if !classDReady s set then s
      else
        match pourFailure s r.cmd set with
        | some (st, reason, k) => finish 0x0100 r.cmd st (rejectedResult reason k) (popPour r s)
        | none =>
          match undrained s set with
          | t :: rest =>
            finish 0x0100 r.cmd stNeedsDrain (leBytes 2 t ++ leBytes 2 (rest.length + 1)) (popPour r s)
          | [] =>
            if needsRecord r set (tget false s.cfg.areaPersist (cmdArea r.cmd)) then
              if !s.flash.answers then finish 0x0100 r.cmd stFlashFault [] (popPour r s)
              else if storeHeld s then s
              else acceptPour r set s
            else acceptPour r set s

/-- POUR_ACCEPT (R148, R149). -/
def execPourAccept (s : State) : Host.Outcome State Fault Refusal := .next (pourAccept s)

/-! ## The store record (R160, R161) -/

/-- Bytes the record of n entries takes: whole pages. -/
def recordBytes (n : Nat) : Nat := 256 * Nat.max 1 (Config.recordPages n)

/-- A half with a record more. -/
def addRec (r : StoreRec) (h : StoreHalf) : StoreHalf := { h with recs := h.recs ++ [r] }

/-- A record of so many bytes is appended to the active half (R161). -/
def appendRec (r : StoreRec) (bytes : Nat) (st : Store) : Store :=
  let st := { st with freeBytes := st.freeBytes - bytes }
  if st.half = 0 then { st with half0 := addRec r st.half0 } else { st with half1 := addRec r st.half1 }

/-- The pour's record is written: its entries persist, and the switching starts (R160). -/
def recordWritten (p : Pour) (s : State) : State :=
  let st := s.flash.store
  let st := appendRec { serial := p.serial, entries := p.entries } (recordBytes p.entries.length)
    { st with items := p.entries.foldl (fun t e => tput t e.1 e.2) st.items }
  startPour p { s with flash := { s.flash with store := st } }

/-- The record's write failed: FLASH_FAULT, no effect, no serial; the staged set is given back, under what its function has
staged since (R160). -/
def recordFailed (p : Pour) (s : State) : State :=
  let a := cmdArea p.req.cmd
  let again := (staged s a).foldl (fun t e => tput t e.1 e.2) p.set
  let s := { s with cfg := { s.cfg with
      pour := none, serial := s.cfg.serial - 1, lastState := p.prevState,
      fnSerial := tset 0 s.cfg.fnSerial a p.prevFn, areas := tset [] s.cfg.areas a again,
      areaPersist := tset false s.cfg.areaPersist a (p.setPersist || tget false s.cfg.areaPersist a) } }
  finish 0x0100 p.req.cmd stFlashFault [] s

/-! ## Switching -/

/-- Puts an entry in force. -/
def putForce (e : Nat × List Nat) (s : State) : State :=
  { s with cfg := { s.cfg with inForce := tput s.cfg.inForce e.1 e.2 } }

def putForces (l : Table (List Nat)) (s : State) : State := l.foldl (fun s e => putForce e s) s

/-- An extent list changes: added extents join, removed ones are free at once (R189, R297). -/
def extentsSwitched (t n : Nat) (old new : List Nat) (s : State) : State :=
  let added := (new.filter (fun x => !old.contains x)).map (fun x => (n, x))
  let s := modPart t (fun p =>
    { p with
      joining := p.joining.filter (fun e => e.1 != n || new.contains e.2) ++ added,
      offline := p.offline.filter (fun e => e.1 != n || new.contains e.2) }) s
  modStack n (fun k => { k with 
    prepared := k.prepared.filter (fun x => !new.contains x),
    prep := k.prep.filter (fun e => !new.contains e.1) }) s

/-- A poured colour: a partition with extents is RINSE_INCOMPLETE and rinsed from step 4 on (R185, R187). -/
def colourSwitched (t : Nat) (s : State) : State :=
  if (tenantStacks s t).isEmpty then s
  else
    let s := clearGrains t s
    let s := { s with flash := { s.flash with mirror := tput s.flash.mirror t (colourOf s t) } }
    modPart t (fun p => { rinseFromStart p with incomplete := true, rinse := some { phase := .running, recorded := true } }) s

/-- What a class D entry's switch does beside its new value. -/
def classDHook (s0 : State) (e : Nat × List Nat) (s : State) : State :=
  let i := keyInst e.1
  let old := cfgList s0 (keyOp e.1) (keyFld e.1) i
  match keyOp e.1 with
  | 0x0200 => extentsSwitched (i / 8) (i % 8) old e.2 s
  | 0x0201 => colourSwitched i s
  | 0x0202 => (old.filter (fun g => !e.2.contains g)).foldl (fun s g => potClearGrain g s) s
  | 0x0203 => writeReserved i s
  | _ => s

/-- Every die carries a heavy item at mark k (R213). -/
def heavyAll (k : Nat) (s : State) : State :=
  let s := countEvent (devCtr 10) 1 s
  let s := { s with cfg := { s.cfg with heavy := (List.range 9).map (fun d => (d, k)) } }
  (List.range 9).foldl (fun s d => modDie d (fun x => { x with heavyMarks := x.heavyMarks + 1 }) s) s

/-- The class D entries of a pour. -/
def classDEntries (p : Pour) : Table (List Nat) := p.entries.filter (fun e => cfgClassD (keyOp e.1))

/-- The class D switch (R153): every unit at one mark, k. -/
def classDSwitch (k : Nat) (p : Pour) (s0 : State) : State :=
  let s := putForces (classDEntries p) s0
  let s := (classDEntries p).foldl (fun s e => classDHook s0 e s) s
  let s := heavyAll k s
  { s with cfg := { s.cfg with pour := some { p with classDDone := true, switched := p.switched + 1 } } }

/-- Whether a hub entry of a pour restarts the device ring (R448, R449). -/
def ringPoured (set : Table (List Nat)) : Bool := set.any (fun e => keyOp e.1 == 0x0D00 && keyFld e.1 != 0)

/-- A permission word that clears the dumps bit detaches the function's tenant ring (R453). -/
def dumpsCleared (e : Nat × List Nat) (s : State) : State :=
  if keyOp e.1 = 0x0004 && keyInst e.1 < 128 && !(e.2.headD 0).testBit 1 then
    let r := tget {} s.tele.tenantRings (keyInst e.1)
    if r.state = 0 && r.nextAttach.isNone then s
    else { s with tele := { s.tele with
        tenantRings := tset {} s.tele.tenantRings (keyInst e.1) { r with detachNext := true, nextAttach := none } } }
  else s

/-- The device ring as poured: attached with a producer count of 0, which is written to its control block, or off
without a base (R448, R449). -/
def ringSwitched (s : State) : State :=
  let base := cfgN s 0x0D00 2 0
  let s := if base = 0 then s else emit (.hostWrite 0 base (leBytes 8 0)) s
  { s with tele := { s.tele with ring :=
      { base := base, slots := cfgN s 0x0D00 1 0, state := if base = 0 then 0 else 1 } } }

/-- A pour of kettle limits or trims: every foot die and tile goes on with the allowance of the old ones until it follows,
within the 64 periods of the window (R39). -/
def limitsSwitched (p : Pour) (set : Table (List Nat)) (s : State) : State :=
  let l := fun (e : Nat × List Nat) => keyOp e.1 == 0x0801 || keyOp e.1 == 0x0803
  if set.any l then
    { s with kettle := { s.kettle with
        follow := List.range 24, followBy := p.acceptMark + 64, oldLimits := p.old.filter l, altE := s.kettle.e,
        altAllowance := s.kettle.allowance } }
  else s

/-- The hub's class M entries switch (R151). -/
def hubSwitch (p : Pour) (s : State) : State :=
  let set := p.entries.filter (fun e => hubEntry e.1)
  let s := putForces set (limitsSwitched p set s)
  let s := set.foldl (fun s e => dumpsCleared e s) s
  let s := if ringPoured set then ringSwitched s else s
  { s with cfg := { s.cfg with pour := some { p with hubDone := true, switched := p.switched + 1 } } }

/-- What a unit's switch does beside its new values: a bucket keeps its tokens up to the new depth (Table 5.3), and a
regulator that is disabled keeps none (R194); a
channel that leaves strainer mode empties its table once its due neighbour refreshes are issued, and one that enters it
starts empty with its throttle limits until the window ends (R240). -/
def unitHook (e : Nat × List Nat) (old : List Nat) (s : State) : State :=
  let i := keyInst e.1
  match keyOp e.1 with
  | 0x0204 =>
    let b := tget {} s.buckets i
    { s with buckets := tset {} s.buckets i { b with
      tokens := if (cfgN s 0x0204 0 i).testBit 0 then Nat.min b.tokens (cfgN s 0x0204 2 i) else 0 } }
  | 0x0401 =>
    if old = e.2 then s
    else
      [2 * i, 2 * i + 1].foldl (fun s q =>
        modPc q (fun p =>
          let keep := e.2.headD 0 != 0 && !p.nbrDue.isEmpty
          { p with
            strain := if keep then p.strain else [], spill := if keep then p.spill else 0,
            throttleTail := e.2.headD 0 == 0 }) s) s
  | _ => s

/-- One unit switches: every entry it holds alone comes into force together (R150). -/
def unitSwitch (p : Pour) (u : Nat) (s : State) : State :=
  let set := p.entries.filter (fun e => ownUnit e.1 && (unitsOf s e.1).contains u)
  let s := putForces set s
  set.foldl (fun s e => unitHook e (tget [] p.old e.1) s) s

/-- Takes the units that switch at one mark of a die: up to `k` that belong to it at the front of the order, and those
that are offline when their turn comes; all of them when the window ends. -/
def takeUnits (s : State) (mine : Nat → Bool) (k : Nat) (l : List Nat) : List Nat × List Nat :=
  match l with
  | [] => ([], [])
  | u :: r =>
    if unitOffline s u then (u :: (takeUnits s mine k r).1, (takeUnits s mine k r).2)
    else if mine u then
      match k with
      | 0 => ([], u :: r)
      | k + 1 => (u :: (takeUnits s mine k r).1, (takeUnits s mine k r).2)
    else ([], u :: r)

/-- The entries that switch on many units, put in force once the last has switched (latency targets, R152). -/
def lastForces (p : Pour) : Table (List Nat) := p.entries.filter (fun e => keyOp e.1 == 0x0300)

/-- Switches units of the running pour in die d's work for mark k (8 is the hub), at most `units` of them; all that are
left at the 64th mark (R151). -/
def unitsWork (d k units : Nat) (p : Pour) (s : State) : State :=
  let all := p.acceptMark + 64 ≤ k
  let mine := fun u => u / 256 == d
  let tk := if all then (p.unitsLeft, []) else takeUnits s mine units p.unitsLeft
  let s := tk.1.foldl (fun s u => unitSwitch p u s) s
  let s := if tk.2.isEmpty && !p.unitsLeft.isEmpty then putForces (lastForces p) s else s
  { s with cfg := { s.cfg with pour := some { p with unitsLeft := tk.2, switched := p.switched + tk.1.length } } }

/-- The pour may switch something in the work for mark k: its record is written, and the mark follows its acceptance
(R151). -/
def pourDue (k : Nat) (p : Pour) : Bool := !p.recordPending && decide (p.acceptMark < k)

/-- A die's share of the running pour in its work for mark k: the class D switch and the hub's items at the hub's first
mark after acceptance, then units in order (R151, R153). -/
def pourWork (d k units : Nat) (s : State) : State :=
  let s :=
    match s.cfg.pour with
    | none => s
    | some p => if d = 8 && pourDue k p && !p.classDDone then classDSwitch k p s else s
  let s :=
    match s.cfg.pour with
    | none => s
    | some p => if d = 8 && pourDue k p && p.classDDone && !p.hubDone then hubSwitch p s else s
  match s.cfg.pour with
  | none => s
  | some p =>
    if !pourDue k p || !p.classDDone || !p.hubDone || p.unitsLeft.isEmpty then s else unitsWork d k units p s

/-- Every unit of an accepted pour that has not switched switches at once (Table 5.4, warm reset), its record written or
not. -/
def pourFlush (s : State) : State :=
  let s :=
    match s.cfg.pour with
    | none => s
    | some p => if !p.classDDone then classDSwitch (markNow s) p s else s
  let s :=
    match s.cfg.pour with
    | none => s
    | some p => if !p.hubDone then hubSwitch p s else s
  match s.cfg.pour with
  | none => s
  | some p =>
    let s := p.unitsLeft.foldl (fun s u => unitSwitch p u s) s
    let s := putForces (lastForces p) s
    { s with cfg := { s.cfg with pour := some { p with
        recordPending := false, unitsLeft := [], switched := p.switched + p.unitsLeft.length } } }

/-! ## Completion (R154, R159, R164) -/

/-- Opens the closed partitions that the pour's class D entries affected (R159). -/
def openAffected (p : Pour) (s : State) : State :=
  (affectedTenants s (classDEntries p)).foldl (fun s t => if (partOf s t).closed then openPart t s else s) s

/-- The undo of one staged entry (R164): its own instance's old value; of a broadcast entry, a broadcast of the old value
of its first instance, with the own entries of those that had another. -/
def undoEntry (p : Pour) (e : Nat × List Nat) : Table (List Nat) :=
  let op := keyOp e.1
  let fld := keyFld e.1
  if keyInst e.1 != bcast then [(e.1, tget [] p.old e.1)]
  else
    let mine := p.old.filter (fun o => keyOp o.1 == op && keyFld o.1 == fld && !(tfind p.set o.1).isSome)
    match mine with
    | [] => []
    | o :: r => (cfgKey op fld bcast, o.2) :: r.filter (fun x => x.2 != o.2)

/-- The undo set of a pour. -/
def undoSet (p : Pour) : Table (List Nat) :=
  (p.set.flatMap (undoEntry p)).foldl (fun t e => tput t e.1 e.2) []

/-- Ends the pour: the undo set of its function is kept and the state is complete (R164). -/
def endPour (p : Pour) (s : State) : State :=
  let a := cmdArea p.req.cmd
  { s with cfg := { s.cfg with
      pour := none, lastState := 2, lastCompleted := p.serial,
      undo := tset [] s.cfg.undo a (undoSet p), undoPersist := tset false s.cfg.undoPersist a p.req.persist } }

/-- POUR_COMPLETE: every unit has switched (R154). -/
def pourComplete (s : State) : State :=
  match s.cfg.pour with
  | none => s
  | some p =>
    if p.recordPending || !p.classDDone || !p.hubDone || !p.unitsLeft.isEmpty then s
    else
      let persisted := needsRecord p.req p.entries false
      let s := endPour p s
      let s := if p.req.reopen then openAffected p s else s
      finish 0x0100 p.req.cmd stOK
        (leBytes 4 p.serial.toNat ++ leBytes 2 p.switched ++ leBytes 1 (flag persisted 0)) s

/-- POUR_COMPLETE (R154). -/
def execPourComplete (s : State) : Host.Outcome State Fault Refusal := .next (pourComplete s)

/-! ## Compaction (R163) -/

/-- STORE_COMPACTION: below 64 KiB free, the store starts to compact into its other half; the end comes with the
flash's completion. -/
def storeCompact (s : State) : State :=
  let st := s.flash.store
  if st.valid && !st.compacting && st.freeBytes < 65536 && s.flash.answers then
    { s with flash := { s.flash with store := { st with compacting := true } } }
  else s

def execStoreCompaction (s : State) : Host.Outcome State Fault Refusal := .next (storeCompact s)

end Sys2Proof.Machine
end

