-- ==== Sys2Proof/Machine/Governor.lean ====
section
/-! DEFINITION. The kettle governor (R34 to R59): the fixed terms (Table 2.2, Table 3.5), the estimate, the envelope, the
allowance, cosy load, and the falls and rises that the envelope leads (R58, R87, R92, R242, R245, R342). -/

namespace Sys2Proof.Machine

open Sys2Proof

/-! ## Fixed terms -/

/-- u µW of a fixed term, times the trim of its block (R37). -/
def perUw (s : State) (u block : Nat) : Nat := u * 1000 * (16 * 3375000 * trim s block)

/-- The largest x whose 100th power is at most n, given its `bits` low bits to find over what is found already. -/
def root100 (n : Nat) (bits x : Nat) : Nat :=
  match bits with
  | 0 => x
  | b + 1 => root100 n b (if (x + 2 ^ b) ^ 100 ≤ n then x + 2 ^ b else x)

/-- p times 2^(d/100), rounded down (DESIGN CHOICE: the spec gives no rounding where it is irrational). -/
def timesPow2 (p : Nat) (d : Int) : Nat :=
  if d % 100 = 0 then
    if 0 ≤ d then p * 2 ^ (d / 100).toNat else p / 2 ^ (-(d / 100)).toNat
  else
    let n := if 0 ≤ d then p ^ 100 * 2 ^ d.toNat else p ^ 100 / 2 ^ (-d).toNat
    root100 n (Nat.log2 n / 100 + 1) 0

/-- A static term of clockless logic, given as its value at 0.75 V and 85 °C (Table 2.2), at a core voltage in 5 mV steps
and a junction temperature in quarter degrees: times (V / 0.75 V)³ and 2^((Tj - 85 °C) / 25 °C). -/
def staticTerm (base v : Nat) (tj : Int) : Nat := timesPow2 (base * v ^ 3 / 3375000) (tj - 340)

/-- Domain d is on. -/
def domOn (s : State) (d : Nat) : Bool := s.power.on.getLsbD d

/-- The static share of a domain in mW at 0.75 V and 85 °C (Table 3.5); the HKP island has its own term. -/
def shareMw (d : Nat) : Nat :=
  if d < 32 then (if d % 2 = 0 then 1800 else 600)
  else if d < 40 then 1500
  else if d < 44 then 1200
  else if d = 44 then 2000
  else if d = 45 then 12000
  else if d = 46 then 0
  else if d = 47 then 800
  else
    match (d - 48) % 6 with
    | 0 => 300
    | 1 => 3500
    | 3 => 1400
    | 4 => 800
    | _ => 0

/-- The unit of a domain: a foot die, or 8 for the hub. -/
def domUnit (d : Nat) : Nat := if d < 48 then 8 else (d - 48) / 6

/-- Domains of a unit. -/
def unitDomains (u : Nat) : List Nat := if u = 8 then List.range 48 else (List.range 6).map (fun i => 48 + 6 * u + i)

/-- The static term of a unit: the shares of its domains that are on. -/
def unitStatic (s : State) (u : Nat) : Nat :=
  let mW := sumOf (((unitDomains u).filter (domOn s)).map shareMw)
  staticTerm (perUw s (mW * 1000) (if u = 8 then 0 else 1)) (volts s u) s.hub.tj

/-- Background of one channel awake and in self-refresh, and the difference: a channel's share (R242). -/
def bgAwake (s : State) : Nat := perUw s 312500 2
def bgAsleep (s : State) : Nat := perUw s 37500 2
def bgShare (s : State) : Nat := perUw s 275000 2

/-- What one domain adds to the fixed terms now: its static share, or the background of a stack whose supply switch
closes (R120). -/
def domainShare (s : State) (d : Nat) : Nat :=
  if 48 ≤ d && (d - 48) % 6 = 5 then 32 * bgAwake s
  else staticTerm (perUw s (shareMw d * 1000) (if d < 48 then 0 else 1)) (volts s (domUnit d)) s.hub.tj

/-- The background of stack n: none while its supply switch is open (R93). -/
def background (s : State) (n : Nat) : Nat :=
  if domOn s (53 + 6 * n) then
    sumOf ((stackChans n).map (fun ch => if (chanOf s ch).sr == .asleep then bgAsleep s else bgAwake s))
  else 0

/-- SerDes terms: the host port and each peer port while its link is up (Table 2.2). -/
def serdes (s : State) : Nat :=
  (if s.pins.hostLink == .up then perUw s 12000000 6 else 0) +
    sumOf ((List.range 4).map (fun k => if linkUp s k then perUw s 9000000 6 else 0))

/-- P_fix: the fixed terms at present voltage and temperature (R34). -/
def kFix (s : State) : Nat :=
  sumOf ((List.range 9).map (unitStatic s)) + (if domOn s 46 then perUw s 3000000 0 else 0) +
    sumOf ((List.range 8).map (background s)) + serdes s

/-- A power in whole mW, rounded down. -/
def toMw (p : Nat) : Nat := p / mw

/-! ## Limits (R38, R41, R74) -/

/-- SLEW_UP or SLEW_DOWN in force in mW/ms, under a fleet cap. -/
def slewOf (s : State) (up : Bool) : Nat :=
  let v := cfgN s 0x0801 (if up then 0 else 1) 0
  match s.kb.cap with
  | none => v
  | some c => min v (c * 100)

/-- A slew over one period, as power. -/
def perPeriod (slew : Nat) : Nat := slew * 1024 * nw

/-- CEILING and WARM_FLOOR. -/
def ceiling (s : State) : Nat := cfgN s 0x0801 2 0 * mw
def warmFloor (s : State) : Nat := cfgN s 0x0801 3 0 * mw

/-- Doze entry has begun (R252). -/
def dozeEntry (s : State) : Bool := s.doze == .entering || s.doze == .asleep

/-- WARM_FLOOR applies: the device is active (R40). -/
def floorApplies (s : State) : Bool :=
  s.kettle.active && !dozeEntry s &&
    (match s.kettle.quiesce with
      | some q => !q.ignoreFloor
      | none => true)

/-- The device follows grants: a member that has acquired the chain, or a master that has sent its first frame. -/
def chained (s : State) : Bool := (kbStrap s == 0 && s.kb.acquired) || (kbStrap s == 1 && s.kb.started)

/-! ## What the envelope leads: falls and rises -/

/-- A domain that doze switches off (Table 3.5). -/
def dozeOff (d : Nat) : Bool := d < 46 || (48 ≤ d && (d - 48) % 6 != 0 && (d - 48) % 6 != 5)

/-- A domain holds no work (R92). -/
def domainIdle (s : State) (d : Nat) : Bool :=
  if d < 32 then !(tileOf s (d / 2)).running
  else if 40 ≤ d && d < 44 then
    !s.peers.ops.any (fun o => o.conn / 65 == d - 40) && !s.peers.held.any (fun h => h.port == d - 40) &&
      (List.range 65).all (fun c => (connOf s (d - 40) c).kept.isEmpty)
  else if 48 ≤ d && (d - 48) % 6 = 3 then
    (infuserOf s ((d - 48) / 6)).running.isNone && (infuserOf s ((d - 48) / 6)).queue.isEmpty
  else if 48 ≤ d && (d - 48) % 6 = 4 then
    !s.path.reqs.any (fun r => r.stack == (d - 48) / 6 && r.port == 22) &&
      !s.compute.lists.any (fun e => e.2.inflight.any (fun x => x.stage ≤ 1 && leAt x.bytes 0 1 == 3 &&
        leAt x.bytes 20 1 / 16 == (d - 48) / 6))
  else true

/-- A domain is to go off: gated and idle, or in doze entry. -/
def wantsOff (s : State) (d : Nat) : Bool :=
  domOn s d && ((gatedOff s d && domainIdle s d) || (s.doze == .entering && dozeOff d))

/-- The stack of a foot domain is retired. -/
def domRetired (s : State) (d : Nat) : Bool := 48 ≤ d && (stackOf s ((d - 48) / 6)).retired

/-- A domain that boot switches on for the stack whose turn it is: its supply switch, then controller and PHY (R53,
R120). -/
def bootDomain (s : State) (d : Nat) : Bool :=
  let n := s.boot.nextStack
  s.boot.stage == .training && s.boot.halt == .none && decide (n < 8) &&
    (d == 53 + 6 * n || (domOn s (53 + 6 * n) && (d == 49 + 6 * n || d == 50 + 6 * n)))

/-- The domains of a stack that training needs are on (R120). -/
def bootPowered (s : State) (n : Nat) : Bool := domOn s (53 + 6 * n) && domOn s (49 + 6 * n) && domOn s (50 + 6 * n)

/-- The unit of a domain that the PF may gate is up: the hub's from the start of training on, a foot die's once its stack is
online. -/
def unitUp (s : State) (d : Nat) : Bool :=
  s.boot.stage == .ready || (s.boot.stage == .training && (d < 48 || (stackOf s ((d - 48) / 6)).online))

/-- A domain is to go on: one that boot needs, or one that is gated on in force (R92, R93, R120). -/
def wantsOn (s : State) (d : Nat) : Bool :=
  !domOn s d && !domRetired s d &&
    (bootDomain s d || (mayGate d && !gatedOff s d && unitUp s d && s.doze == .none))
where
  /-- The domains that the PF may gate (Table 3.5). -/
  mayGate (d : Nat) : Bool :=
    d < 32 || (40 ≤ d && d ≤ 43) || (48 ≤ d && ((d - 48) % 6 = 3 || (d - 48) % 6 = 4))

/-- The stack waits for E before its exit from scald (R342). -/
def exitShare (s : State) (n : Nat) : Nat :=
  if (stackOf s n).thermal.exitWait then bgShare s * (stackOf s n).thermal.cutChannels.length else 0

/-- The voltage that a rail moves toward: its target in force, under the hub throttle's ceiling for VCORE_H (R87,
R343). -/
def railTarget (s : State) (r : Nat) : Nat :=
  let t := cfgN s 0x080C r 0
  if r = 0 then
    match s.hub.ceiling with
    | none => t
    | some c => min t c
  else t

/-- A rail's present setpoint in mV. -/
def railMv (s : State) (r : Nat) : Nat := s.power.rails.getD r 750

/-- A rail may move: the bus answers and the regulator has not faulted (R88). -/
def railMoves (s : State) (r : Nat) : Bool := !s.power.avsAbsent && !s.power.heldRails.contains r

/-- The fixed and scaling terms with the last window's events at a set of rails. -/
def scalingPower (s : State) (rails : List Nat) : Nat :=
  let s' := { s with power := { s.power with rails := rails } }
  kFix s' + sumOf ([Origin.mandatory, .cosy, .user].map (originPower s' s.kettle.lastCounts))

/-- The increase that a 5 mV step up of a rail causes (R87). -/
def stepRise (s : State) (r : Nat) : Nat :=
  scalingPower s (s.power.rails.set r (railMv s r + 5)) - scalingPower s s.power.rails

/-- The rises that wait for room in E. -/
def pendingRise (s : State) : Nat :=
  sumOf (((List.range 96).filter (wantsOn s)).map (domainShare s)) +
    bgShare s * ((List.range 256).filter (wantsWake s)).length +
    sumOf ((List.range 8).map (exitShare s)) +
    sumOf (((List.range 5).filter (fun r => railMv s r < railTarget s r && railMoves s r)).map (stepRise s))

/-- The falls that E leads: domains that doze switches off, and channels that are to sleep (R58). -/
def pendingFall (s : State) : Nat :=
  (if s.doze == .entering then sumOf (((List.range 96).filter (wantsOff s)).map (domainShare s)) else 0) +
    bgShare s * ((List.range 256).filter (wantsSleep s)).length

/-- The terms that E covers whatever the cosy load: fixed terms now, mandatory and user power of the last window. -/
def baseLoad (s : State) : Nat := kFix s + s.kettle.mandLast + s.kettle.userLast

/-- What of E is committed in the period that runs: fixed terms now, the mandatory power of the last window, the user
work admitted, and the cosy reads made. -/
def committed (s : State) : Nat :=
  kFix s + s.kettle.mandLast + (s.kettle.allowanceFull - s.kettle.allowance) + s.kettle.cosySpent

/-- E has room for a rise (R44, R92): it covers the last window's load, and what is committed, with the rise. -/
def hasRoom (s : State) (share : Nat) : Bool := baseLoad s + share ≤ s.kettle.e && committed s + share ≤ s.kettle.e

/-- The power that E leaves for cosy load now: what is neither committed nor a dummy block already given. -/
def cosyRoom (s : State) : Nat := s.kettle.e - committed s - s.kettle.dummyBlocks * dummyBlock s
where
  /-- The power of one dummy block a period: 4096 INT8 operations. -/
  dummyBlock (s : State) : Nat := evPower s .int8 8 1

/-- After a rise that found room: dummy blocks are withdrawn first, then the allowance that is left is lowered, so that
the rise causes no excess (R44). -/
def makeRoom (s : State) : State :=
  let left := s.kettle.e - committed s
  let d := cosyRoom.dummyBlock s
  let cut := s.kettle.allowance - left
  { s with kettle := { s.kettle with
      dummyBlocks := min s.kettle.dummyBlocks (if d = 0 then 0 else left / d),
      allowance := s.kettle.allowance - cut, allowanceFull := s.kettle.allowanceFull - cut,
      altAllowance := s.kettle.altAllowance - cut } }

/-- E has fallen by a share (R58), or WARM_FLOOR holds it (DESIGN CHOICE: the envelope cannot fall further). -/
def hasFallen (s : State) (share : Nat) : Bool :=
  s.kettle.e + share ≤ baseLoad s || (floorApplies s && s.kettle.e ≤ warmFloor s)

/-! ## The envelope (R41) -/

/-- want of R41, with the falls and rises that E leads. -/
def wantOf (s : State) (fix mand user : Nat) : Nat :=
  let w := if s.kettle.userWaits && !quiesced s then ceiling s else fix + mand + user - pendingFall s + pendingRise s
  let w := if floorApplies s then max w (warmFloor s) else w
  min w (ceiling s)

/-- The step of E toward want. -/
def envelopeStep (s : State) (c : Closed) (e want : Nat) : Nat :=
  if 0 < s.kb.holdPeriods then e
  else if e < want then
    let room := perPeriod (slewOf s true)
    let step := if chained s then min (room * c.upAcc) c.up else room
    e + min (want - e) step
  else
    let room := perPeriod (slewOf s false)
    let step := if chained s then min (room * c.downAcc) c.down else room
    e - min (e - want) step

/-- The power of a window's events that a cut stack issued: its foot events and the hub halves of its moves. -/
def stackLoad (s : State) (counts : Table Nat) (n : Nat) : Nat :=
  sumOf ([Origin.mandatory, .cosy, .user].flatMap (fun o =>
    evPower s .movedHub 8 (cget counts (evKey .movedFoot o n)) ::
      Ev.all.map (fun e => evPower s e n (cget counts (evKey e o n)))))

/-! ## Cosy load (R46 to R50) -/

/-- Pseudo-channels that may carry cosy reads in the coming period. -/
def cosyPcs (s : State) : List Nat := (List.range 512).filter (fun fp => cosyAllowed s fp && !pcHasUser s fp)

/-- The power of one cosy read a period: two sector reads, and its share of the activate that opens a row for 16. -/
def cosyLine (s : State) : Nat := evPower s .sectorRead 0 2 + evPower s .activate 0 1 / 16

/-- Tiles that may run dummy blocks (R46, R47, R343). -/
def dummyTiles (s : State) : List Nat :=
  if 420 ≤ s.hub.tj then []
  else (List.range 16).filter (fun t => domOn s (2 * t) && !gatedOff s (2 * t) && !(tileOf s t).running)

/-- The lines that one pseudo-channel can carry in a period: half its columns, and under the throttle limits 16 for
each activate of its budget (R46, R237). -/
def cosyCap (s : State) (fp : Nat) : Nat :=
  let peak := peakTenths s / 20
  if throttled s fp then min peak (16 * cfgN s 0x0402 1 fp) else peak

/-- The equal share, in lines, of a cosy-read part over pseudo-channels that carry at most `caps`: those that cannot
carry the share carry what they can, and the rest is divided again (R46). -/
def fillLevel (fuel lines : Nat) (caps : List Nat) : Nat :=
  match fuel with
  | 0 => 0
  | fuel + 1 =>
    let q := lines / caps.length
    let full := caps.filter (· ≤ q)
    let rest := caps.filter (q < ·)
    if rest.isEmpty then maxOf caps
    else if full.isEmpty then q
    else fillLevel fuel (lines - sumOf full) rest

/-- The block whose counts an event comes from: foot die n as n, the tiles as 8, infuser n as 9 + n, the links as 17; the
hub's own events are of block 18 (R27). -/
def countBlock (e : Ev) (unit : Nat) : Nat :=
  match e with
  | .int8 | .bf16 => 8
  | .mul | .add => 9 + unit
  | .host | .peer => 17
  | .movedHub | .pot => 18
  | _ => unit

/-- The power of one kind of event of a window: of a block whose counts are missing, that of the window before (R27). -/
def eventPower (s : State) (missing : List Nat) (counts : Table Nat) (e : Ev) (o : Origin) (u : Nat) : Nat :=
  if missing.contains (countBlock e u) then cget s.kettle.lastPower (evKey e o u)
  else evPower s e u (cget counts (evKey e o u))

/-- The power of every event of an origin in a window (R34, R35). -/
def windowPower (s : State) (missing : List Nat) (counts : Table Nat) (o : Origin) : Nat :=
  sumOf (Ev.all.flatMap (fun e => (List.range 9).map (eventPower s missing counts e o)))

/-- The powers of a window by key, kept for a block whose counts will be missing. -/
def keptPowers (s : State) (missing : List Nat) (counts : Table Nat) : Table Nat :=
  Ev.all.foldl (fun t e => [Origin.mandatory, .cosy, .user].foldl (fun t o => (List.range 9).foldl (fun t u =>
    tset 0 t (evKey e o u) (eventPower s missing counts e o u)) t) t) []

/-- Infuser arithmetic power of a window. -/
def infuserPower (s : State) (counts : Table Nat) : Nat :=
  sumOf ([Origin.mandatory, .cosy, .user].flatMap (fun o => (List.range 8).flatMap (fun n =>
    [evPower s .mul n (cget counts (evKey .mul o n)), evPower s .add n (cget counts (evKey .add o n))])))

/-- Every stack is cool or warm, and the hub does not throttle. -/
def calmDevice (s : State) : Bool :=
  s.hub.state == 0 && (List.range 8).all (fun n =>
    let k := stackOf s n
    k.retired || k.thermal.heat == .cool || k.thermal.heat == .warm)

/-- The shortfall of a cosy target (R50): what the cosy capacity, which the spec leaves open, does not cover; on a calm
device at most the infuser arithmetic of the window before. -/
def shortfallOf (s : State) (counts : Table Nat) (target : Nat) : Nat :=
  let sh := target - Config.cosyCapacity s.freeCount
  if calmDevice s then min sh (infuserPower s counts) else sh

/-- Spreads cosy power over the cosy reads and the dummy tiles of the coming period (R46). -/
def spreadCosy (power : Nat) (s : State) : State :=
  let pcs := cosyPcs s
  let caps := pcs.map (cosyCap s)
  let line := cosyLine s
  let level := if line = 0 then 0 else fillLevel pcs.length (power / line) caps
  let rest := power - sumOf (caps.map (min level)) * line
  let tiles := dummyTiles s
  let d := cosyRoom.dummyBlock s
  let blocks := if tiles.isEmpty || d = 0 then 0 else rest / d
  let s := { s with kettle := { s.kettle with cosyShare := level, cosySet := pcs, cosySpent := 0, dummyBlocks := blocks } }
  if blocks = 0 then s else tiles.foldl (fun s t => modTile t (fun x => { x with dummy := true }) s) s

/-! ## The governor's work of one mark -/

/-- Logs a slew event: power in mW, then the cause (Table 16.7). -/
def slewEvent (p cause : Nat) (s : State) : State :=
  let s := { s with kettle := { s.kettle with slewEvents := s.kettle.slewEvents + 1 } }
  devEvent 0x0800 1 (leBytes 4 (toMw p) ++ leBytes 1 cause) s

/-- Counts the energies of the window (Tables 16.2 and 16.4). -/
def countEnergy (p mand cosy user : Nat) (counts : Table Nat) (s : State) : State :=
  let s := countVolume (devCtr 0) p s
  let s := countVolume (devCtr 3) user (countVolume (devCtr 2) cosy (countVolume (devCtr 1) mand s))
  (List.range 8).foldl (fun s n =>
    countVolume (stackCtr n 23)
      (sumOf ([Origin.mandatory, .cosy, .user].flatMap (fun o => Ev.all.map (fun e => evPower s e n (cget counts (evKey e o n))))) +
        unitStatic s n + background s n) s) s

/-- The level a KETTLE_QUIESCE brings E to (R76). -/
def quiesceLevel (s : State) (fix mand : Nat) : Nat := if floorApplies s then max (fix + mand) (warmFloor s) else fix + mand

/-- Completes a KETTLE_QUIESCE that has reached its level. -/
def quiesceReached (level : Nat) (s : State) : State :=
  match s.kettle.quiesce with
  | some { cmd := some c, ignoreFloor := f, deadline := d } =>
    if s.kettle.e ≤ level then
      finish 0x0804 c stOK [] { s with kettle := { s.kettle with quiesce := some { cmd := none, ignoreFloor := f, deadline := d } } }
    else s
  | _ => s

/-- The request that the governor latches for the kettle bus (R64): the change it wants in E in whole mW, positive for
a rise, capped by the slew of the accrued periods and by the field. -/
def latchRequest (want : Nat) (s : State) : State :=
  let e := s.kettle.e
  let cap := fun (up : Bool) (acc : Nat) => min (perPeriod (slewOf s up) * acc / mw) 1048575
  let r : Int :=
    if !chained s || 0 < s.kb.holdPeriods then 0
    else if e < want then ((min ((want - e) / mw) (cap true s.kb.accUp) : Nat) : Int)
    else -((min ((e - want) / mw) (cap false s.kb.accDown) : Nat) : Int)
  { s with kb := { s.kb with request := some r } }

/-- Job work was admitted in the window, or the idle time grows (R52). -/
def jobIdle (k : Kettle) : Kettle :=
  if k.jobThisPeriod then { k with jobThisPeriod := false, idlePeriods := 0 }
  else { k with idlePeriods := min (k.idlePeriods + 1) (2 ^ 32 - 1) }

/-- The device as it would be under the limits and trims before the last pour of them (R39). -/
def underOldLimits (s : State) : State :=
  { s with cfg := { s.cfg with
      inForce := s.kettle.oldLimits.foldl (fun t e => tput t e.1 e.2) s.cfg.inForce } }

/-- The envelope that the old limits give, for the units that still apply its allowance (R39). -/
def followOld (c : Closed) (missing : List Nat) (recover : Bool) (s : State) : State :=
  if s.kettle.follow.isEmpty then { s with kettle := { s.kettle with altAllowance := 0 } }
  else
    let o := underOldLimits s
    let fix := kFix o
    let mand := windowPower o missing c.counts .mandatory
    let e := envelopeStep o c s.kettle.altE (wantOf o fix mand (windowPower o missing c.counts .user))
    { s with kettle := { s.kettle with altE := e, altAllowance := if recover then 0 else e - fix - mand } }

/-- Writes the new envelope and what follows from it: allowance and cosy target (R41, R343). While an excess is
recovered, admission is held (R44). -/
def setEnvelope (e fix mand user : Nat) (recover : Bool) (s : State) : State :=
  let a := if recover then 0 else e - fix - mand
  { s with kettle := { s.kettle with
      e := e, allowance := a, allowanceFull := a, tileSpent := 0, mandLast := mand,
      userLast := user, cosyTarget := e - fix - mand - user } }

/-- The excess of a window over the envelope it ran under (R44): the falls that E leads are none, and cosy load counts
up to its target. -/
def excessOf (s : State) (fix mand cosy user : Nat) : Nat :=
  fix + mand + min cosy s.kettle.cosyTarget + user - (s.kettle.e + pendingFall s)

/-- Counts an excess. -/
def noteExcess (ex : Nat) (s : State) : State :=
  if ex = 0 then s
  else slewEvent ex 2 (countEvent (devCtr 5) 1 { s with kettle := { s.kettle with excesses := s.kettle.excesses + 1, slewFlag := true } })

/-- Counts a shortfall of the cosy target (R50). -/
def noteShortfall (sh : Nat) (s : State) : State :=
  let s := freeStep s
  if sh = 0 then s
  else
    let s := { s with kettle := { s.kettle with shortfalls := s.kettle.shortfalls + 1, slewFlag := true } }
    slewEvent sh 1 (countVolume (devCtr 6) sh (countEvent (devCtr 4) 1 s))

/-- The drop of E for stacks cut by scald (R55): to the estimate without their load, with a slew break. -/
def scaldDropTo (fix mand cosy user : Nat) (counts : Table Nat) (s : State) : Nat :=
  min s.kettle.e (fix + mand + cosy + user - sumOf (s.kettle.scaldDrop.map (stackLoad s counts)))

/-- Work stands at kettle admission: a request, a block of a tile or a step of an infuser. -/
def atKettle (s : State) : Bool :=
  s.path.reqs.any (fun r => r.place == .kettle) ||
    s.compute.lists.any (fun l => l.2.inflight.any (fun d => d.matrix + d.vector != 0)) ||
    s.infusers.any (fun i => i.2.running.isSome && !i.2.steps.isEmpty)

/-- A period with work held at admission. -/
def heldWork (s : State) : Bool := s.kettle.userWaits || s.path.reqs.any (fun r => r.place == .kettle)

/-- The governor's part of the hub's work for a mark (R24 items 1 and 4, R41), where the counts of some blocks are
missing (R27). Work that the allowance did not cover goes on waiting for it while it stands at admission. -/
def governorWork (c : Closed) (missing : List Nat) (s : State) : State :=
  let counts := c.counts
  let fix := kFix s
  let mand := windowPower s missing counts .mandatory
  let cosy := windowPower s missing counts .cosy
  let user := windowPower s missing counts .user
  let p := fix + mand + cosy + user
  let s := countEnergy p mand cosy user counts s
  let s := if heldWork s then countEvent (devCtr 7) 1 s else s
  let ex := excessOf s fix mand cosy user
  let s := noteExcess ex s
  let s := { s with kettle := { jobIdle s.kettle with
    pest := p, cosyLast := cosy, lastCounts := counts, lastPower := keptPowers s missing counts } }
  let want := wantOf s fix mand user
  let s :=
    if s.kettle.scaldDrop.isEmpty then setEnvelope (envelopeStep s c s.kettle.e want) fix mand user (ex != 0) s
    else
      let e := scaldDropTo fix mand cosy user counts s
      let s := slewEvent (s.kettle.e - e) 0 { s with kettle := { s.kettle with breaks := s.kettle.breaks + 1 } }
      setEnvelope e fix mand user (ex != 0) { s with kettle := { s.kettle with scaldDrop := [] } }
  let s := followOld c missing (ex != 0) s
  let s := { s with
    kettle := { s.kettle with userWaits := s.kettle.userWaits && atKettle s },
    kb := { s.kb with holdPeriods := if 1 < s.kb.holdPeriods then s.kb.holdPeriods - 1 else s.kb.holdPeriods } }
  let sh := shortfallOf s counts s.kettle.cosyTarget
  let s := spreadCosy (s.kettle.cosyTarget - sh) (noteShortfall sh s)
  let s := latchRequest want s
  quiesceReached (quiesceLevel s fix mand) s

end Sys2Proof.Machine
end

