-- ==== Sys2Proof/Machine/Refresh.lean ====
section
/-! DEFINITION. Refresh, row disturbance and self-refresh as commands and events (R223 to R250, Table 8.4): the refresh
comb, self-refresh entry and exit of a channel, stack sleep and wake, and the statuses. -/

namespace Sys2Proof.Machine

open Sys2Proof

/-! ## The refresh comb (R225 to R231) -/

/-- The comb position of a pseudo-channel. -/
def combPosition (fp : Nat) : Nat := fp % 64 * 8 + fp / 64

/-- Its offset at the interval in force. -/
def combOffset (s : State) (fp : Nat) : Nat := combPosition fp * trefi s (fp / 64) / 512

/-- A tick is one of its refresh instants. -/
def isInstant (s : State) (fp t : Nat) : Bool :=
  combOffset s fp ≤ t && (t - combOffset s fp) % trefi s (fp / 64) == 0

/-- A pseudo-channel has refresh instants: not mapped out, retired or in self-refresh (R226, R231). -/
def hasInstants (s : State) (fp : Nat) : Bool :=
  chanServes s (fp / 2) && (chanOf s (fp / 2)).sr == .awake && s.boot.halt == .none

/-- One all-bank refresh of a pseudo-channel. At each 8192nd, the strainer empties and old throttle limits end (R234,
R240). -/
def refreshPc (fp : Nat) (s : State) : State :=
  let s := modPc fp (fun p =>
    let p := { p with rows := [], refreshUntil := now s + trfc s (fp / 64), allBank := true, inWindow := p.inWindow + 1 }
    if p.inWindow < 8192 then p
    else { p with inWindow := 0, windows := (p.windows + 1) % 2 ^ 32, strain := [], spill := 0, throttleTail := false }) s
  let s := retryPush fp { pc := fp, bank := 0, row := 0, kind := 4, origin := 0 } s
  countEvent (stackCtr (fp / 64) 2) 1 (countEv .refresh .mandatory (fp / 64) 1 s)

/-- Another pseudo-channel of the stack can take the instant (R227). -/
def canTake (s : State) (ready : List Nat) (fp q : Nat) : Bool :=
  q != fp && inService s q && hasInstants s q && !(chanOf s (q / 2)).windowOpen && !calibrating s q && !replaying s q &&
    (pcOf s q).refreshUntil ≤ now s && (eligible s q ready).isEmpty && (-4 < (pcOf s q).balance)

/-- The one that takes it: the most owed, ties in ascending index counted on from the owner. -/
def takerOf (s : State) (ready : List Nat) (fp : Nat) : Option Nat :=
  let c := ((List.range 63).map (fun i => fp / 64 * 64 + (fp % 64 + 1 + i) % 64)).filter (canTake s ready fp)
  let best := c.foldl (fun b q => max b (pcOf s q).balance) (-5)
  c.find? (fun q => (pcOf s q).balance == best)

/-- REFRESH_INSTANT: exactly one all-bank refresh starts, on the owner or on the pseudo-channel that takes the instant
(R226 to R228). An owner that calibrates, or is in a window or a replay, refreshes itself (R231, R271). -/
def refreshInstant (fp : Nat) (ready : List Nat) (s : State) : State :=
  if !hasInstants s fp || !isInstant s fp (now s) || (pcOf s fp).servedAt == some (now s) then s
  else
    let s := modPc fp (fun p => { p with servedAt := some (now s) }) s
    let may := !(eligible s fp ready).isEmpty && !(chanOf s (fp / 2)).windowOpen && !calibrating s fp && !replaying s fp &&
      (pcOf s fp).balance < 4
    match (if may then takerOf s ready fp else none) with
    | none => refreshPc fp s
    | some q =>
      let s := modPc fp (fun p => { p with balance := p.balance + 1, taken := (p.taken + 1) % 2 ^ 32 }) s
      refreshPc q (modPc q (fun p => { p with balance := p.balance - 1 }) s)

def execRefreshInstant (pc : Fin 512) (ready : List Nat) (s : State) : Host.Outcome State Fault Refusal :=
  .next (refreshInstant pc.val ready s)

/-! ## Self-refresh of one channel (R242 to R246) -/

/-- The entry command of a channel: banks are precharged; the stack refreshes itself from here on (R242, R244). What the
retry buffer held has executed. -/
def srEnter (ch : Nat) (keepAll : Bool) (s : State) : State :=
  let s := chanAway ch s
  let s := (chanPcs ch).foldl (fun s fp => modPc fp (fun p => { p with rows := [], balance := 0 }) s) s
  countEvent (stackCtr (ch / 32) 28) 1
    (modChan ch (fun c => { c with sr := .asleep, keepAll := keepAll, retry := [], retryRows := [] }) s)

/-- Segments of a stack that are present (R247). -/
def presentMask (s : State) : Nat := if s.ident.big then 0xFFFF else 0x0FFF

/-- The owned extents of stack n that lie in segments a mask does not keep, with their owners. -/
def unkeptExtents (s : State) (n mask : Nat) : List (Nat × Nat) :=
  (List.range 128).flatMap (fun t =>
    ((extentsOf s t n).filter (fun x => !mask.testBit (x / 16))).map (fun x => (t, x)))

/-- Every channel of stack n that serves has entered self-refresh under the mask of the partial sleep. -/
def allAsleep (s : State) (n : Nat) : Bool := (stackChans n).all (fun ch => !chanServes s ch || ((chanOf s ch).sr == .asleep && !(chanOf s ch).keepAll))

/-- Partial sleep is reached when every channel is in self-refresh: the STACK_SLEEP completes (R248). -/
def sleepReached (n : Nat) (s : State) : State :=
  let k := stackOf s n
  if k.sleep.kind == .entering && allAsleep s n then
    let s := modStack n (fun k => { k with sleep := { k.sleep with kind := .partialSleep, cmd := none } }) s
    match k.sleep.cmd with
    | none => s
    | some c => finish 0x0404 c stOK (leBytes 2 (unkeptExtents s n k.sleep.keep).length) s
  else s

/-- Doze is reached when every domain marked off and every channel has gone: EN_CORE falls (R96, R252). -/
def dozeReached (s : State) : State :=
  if s.doze == .entering && (List.range 96).all (fun d => !(domOn s d && dozeOff d)) &&
      (List.range 256).all (fun ch => !chanServes s ch || (chanOf s ch).sr == .asleep) then
    { s with doze := .asleep, pins := { s.pins with enCore := false } }
  else s

/-- A channel's next command slot repays a refresh of a pseudo-channel (R242 step 3): steps 1 and 2 hold, it still owes, and
the stack is not to go into doze. -/
def repayDue (s : State) (fp : Nat) : Bool :=
  wantsSleep s (fp / 2) && hasFallen s (bgShare s) && s.doze != .entering && decide (0 < (pcOf s fp).balance)

/-- One repayment refresh, outside the comb (R226, R242 step 3). -/
def repay (fp : Nat) (s : State) : State := refreshPc fp (modPc fp (fun p => { p with balance := p.balance - 1 }) s)

/-- A command slot, which repays before it does anything else once the channel is to sleep (R207, R242). -/
def slotOrRepay (fp : Nat) (ready : List Nat) (exerReady cosyReady : Bool) (s : State) : State :=
  if !slotClosed s fp && repayDue s fp then repay fp s else commandSlot fp ready exerReady cosyReady s

/-- SELF_REFRESH_ENTRY (R242): once the channel is idle, E has fallen by its share and, but in doze, no refresh is owed, the
entry command is issued. -/
def selfRefreshEntry (ch : Nat) (s : State) : State :=
  let n := ch / 32
  if !wantsSleep s ch || (chanPcs ch).any (fun fp => calibrating s fp || now s < (pcOf s fp).refreshUntil || replaying s fp) ||
      !hasFallen s (bgShare s) || (chanPcs ch).any (repayDue s) then s
  else
    let part := (stackOf s n).sleep.kind == .entering
    let s := srEnter ch (!part) s
    let s := if part then modStack n (fun k => { k with sleep := { k.sleep with lost := true } }) s else s
    dozeReached (sleepReached n s)

def execSelfRefreshEntry (ch : Fin 256) (s : State) : Host.Outcome State Fault Refusal :=
  .next (selfRefreshEntry ch.val s)

/-- SELF_REFRESH_EXIT: a request starts the exit of its channel at once, as mandatory work; a wake, and the exit at boot,
wait for room in E (R243, R245). -/
def selfRefreshExit (ch : Nat) (s : State) : State :=
  let n := ch / 32
  let k := stackOf s n
  let leave := fun (s : State) => modChan ch (fun c => { c with sr := .leaving }) s
  if bootWakes s ch then (if hasRoom s (bgShare s) then makeRoom (leave s) else s)
  else if !chanServes s ch || (chanOf s ch).sr != .asleep || k.thermal.heat == .scald || dozeEntry s then s
  else if (k.sleep.kind == .light || k.sleep.kind == .wakingLight || (k.sleep.kind == .entering && (chanOf s ch).keepAll)) &&
      chanBusy s ch then
    leave (modStack n (fun k => { k with sleep := { k.sleep with wakes := (k.sleep.wakes + 1) % 2 ^ 32 } }) s)
  else if wantsWake s ch && hasRoom s (bgShare s) then makeRoom (leave s)
  else s

def execSelfRefreshExit (ch : Fin 256) (s : State) : Host.Outcome State Fault Refusal :=
  .next (selfRefreshExit ch.val s)

/-- The extents in segments not kept join when the stack wakes (R249). -/
def joinLost (n mask : Nat) (s : State) : State :=
  (unkeptExtents s n mask).foldl (fun s e =>
    modPart e.1 (fun p => if p.joining.contains (n, e.2) then p else { p with joining := p.joining ++ [(n, e.2)] }) s) s

/-- The wake of a stack ends: its commands complete, and the lost extents join (R249). -/
def wakeDone (n : Nat) (s : State) : State :=
  let k := stackOf s n
  let part := k.sleep.kind == .waking
  let lost := if part then (unkeptExtents s n k.sleep.keep).length else 0
  let s := if part then joinLost n k.sleep.keep s else s
  let s := modStack n (fun k => { k with sleep := { k.sleep with
    kind := .awake, keep := 0xFFFF, lost := false, wakers := [] } }) s
  k.sleep.wakers.foldl (fun s c => finish 0x0405 c stOK (leBytes 2 lost) s) s

/-- Every channel of a waking stack serves. -/
def wakeReached (n : Nat) (s : State) : State :=
  let k := stackOf s n
  if (k.sleep.kind == .waking || k.sleep.kind == .wakingLight) &&
      (stackChans n).all (fun ch => !chanServes s ch || (chanOf s ch).sr == .awake) then wakeDone n s
  else s

/-- A pseudo-channel after self-refresh: one all-bank refresh, nothing owed or pulled in, an empty strainer (R240,
R246). -/
def pcAwake (fp : Nat) (s : State) : State :=
  modPc fp (fun p => { p with balance := 0, strain := [], spill := 0 }) (refreshPc fp s)

/-- A channel serves again after its exit. -/
def chanAwake (ch : Nat) (s : State) : State :=
  let s := (chanPcs ch).foldl (fun s fp => pcAwake fp s) s
  chanBack ch (modChan ch (fun c => { c with sr := .awake, keepAll := true, busyMark := s.clock.mark }) s)

/-- SELF_REFRESH_EXIT_DONE (R246): the exit refresh has ended. -/
def selfRefreshExitDone (ch : Nat) (s : State) : State :=
  if (chanOf s ch).sr != .leaving || !chanServes s ch then s else wakeReached (ch / 32) (chanAwake ch s)

def execSelfRefreshExitDone (ch : Fin 256) (s : State) : Host.Outcome State Fault Refusal :=
  .next (selfRefreshExitDone ch.val s)

/-! ## Stack sleep (R247 to R250) -/

/-- Segments that a keep mask must keep: those that hold any offset from B to C − 1 (R247). -/
def mustKeep (s : State) (n : Nat) : List Nat :=
  let b := reservedBlock s.ident.big (mappedCount s n) / 4096
  let c := rowBlocks s.ident.big / 4096
  (List.range (c - b)).map (fun i => b + i)

/-- A keep mask names what must be kept. -/
def keepOk (s : State) (n mask : Nat) : Bool := (mustKeep s n).all mask.testBit

/-- The mask keeps every present segment. -/
def keepsAll (s : State) (mask : Nat) : Bool := Nat.land mask (presentMask s) == presentMask s

/-- The stack holds extents of a mirrored partition. -/
def holdsMirrored (s : State) (n : Nat) : Bool :=
  (List.range 128).any (fun t => mirrored s t && !(extentsOf s t n).isEmpty)

/-- A channel of the stack is in an offline window or benched. -/
def stackUnsettled (s : State) (n : Nat) : Bool :=
  (stackChans n).any (fun ch => (chanOf s ch).windowOpen || (chanOf s ch).bench != .none)

/-- The stack is in partial sleep, or changing its sleep state (R250). -/
def changing (k : Stack) : Bool := !(k.sleep.kind == .awake || k.sleep.kind == .light)

/-- STACK_SLEEP (R247 to R250), its checks in the order of R249. -/
def stackSleepWork (c : Cmd) (s : State) : Reply :=
  let n := par c 0 1
  let mask := par c 2 2
  let k := stackOf s n
  if 8 ≤ n || !keepOk s n mask then .done s stBadParam []
  else if stackUnsettled s n || k.thermal.heat == .simmer || k.thermal.heat == .scald || changing k then .done s stBusy []
  else if k.retired || !k.online then .done s stChannelOffline []
  else if holdsMirrored s n then .done s stNotPermitted []
  else
    let lost := leBytes 2 (unkeptExtents s n mask).length
    match k.sleep.kind with
    | .awake | .light =>
      if keepsAll s mask then
        .done (modStack n (fun k => { k with sleep := { k.sleep with kind := .light } }) s) stOK lost
      else
        .wait (modStack n (fun k => { k with sleep := { k.sleep with
          kind := .entering, keep := mask, lost := false, cmd := some c } }) s)
    | _ => .done s stBusy []

def execStackSleep (c : Cmd) (s : State) : Host.Outcome State Fault Refusal :=
  .next (mailbox 0x0404 c (stackSleepWork c) s)

/-- STACK_WAKE (R249, R250); a stack that is retired, or not up (R101), is offline. -/
def stackWakeWork (c : Cmd) (s : State) : Reply :=
  let n := par c 0 1
  let k := stackOf s n
  let wake := fun (kind : SleepKind) =>
    let s := modStack n (fun k => { k with sleep := { k.sleep with kind := kind, wakers := k.sleep.wakers ++ [c] } }) s
    if (stackChans n).all (fun ch => !chanServes s ch || (chanOf s ch).sr == .awake) then Reply.over (wakeReached n s)
    else .wait s
  if 8 ≤ n then .done s stBadParam []
  else if k.retired || !k.online then .done s stChannelOffline []
  else
    match k.sleep.kind with
    | .awake => .done s stOK (leBytes 2 0)
    | .light => wake .wakingLight
    | .entering => .done s stBusy []
    | .partialSleep => wake .waking
    | .waking | .wakingLight => .wait (modStack n (fun k => { k with sleep := { k.sleep with wakers := k.sleep.wakers ++ [c] } }) s)

def execStackWake (c : Cmd) (s : State) : Host.Outcome State Fault Refusal :=
  .next (mailbox 0x0405 c (stackWakeWork c) s)

/-! ## Statuses (Table 8.4) -/

/-- REFRESH_STATUS's result. -/
def refreshStatusResult (s : State) (fp : Nat) : List Byte :=
  let p := pcOf s fp
  leBytes 2 (trefi s (fp / 64)) ++ leBytes 2 (trfc s (fp / 64)) ++
    leBytes 1 (p.balance.toNat % 8 + (-p.balance).toNat % 8 * 8 + flag (stackOf s (fp / 64)).warmNow 6 +
      flag (!hasInstants s fp) 7) ++ [0] ++
    leBytes 2 p.inWindow ++ leBytes 4 p.windows ++ leBytes 4 p.taken

def refreshStatusWork (c : Cmd) (s : State) : Reply :=
  let fp := par c 0 2
  if 512 ≤ fp then .done s stBadParam [] else .done s stOK (refreshStatusResult s fp)

/-- REFRESH_STATUS (R253). -/
def execRefreshStatus (c : Cmd) (s : State) : Host.Outcome State Fault Refusal :=
  .next (mailbox 0x0400 c (refreshStatusWork c) s)

/-- DISTURB_STATUS's result. -/
def disturbStatusResult (s : State) (fp : Nat) : List Byte :=
  let p := pcOf s fp
  leBytes 1 (if strainerMode s fp then 0 else 1) ++ leBytes 1 p.nbrDue.length ++ leBytes 2 p.strain.length ++
    leBytes 4 p.spill ++ leBytes 4 p.nbrCount ++ leBytes 4 p.offences

def disturbStatusWork (c : Cmd) (s : State) : Reply :=
  let fp := par c 0 2
  if 512 ≤ fp then .done s stBadParam []
  else
    let r := disturbStatusResult s fp
    let s := if bitOf (par c 2 1) 0 then modPc fp (fun p => { p with nbrCount := 0, offences := 0 }) s else s
    .done s stOK r

/-- DISTURB_STATUS (R253). -/
def execDisturbStatus (c : Cmd) (s : State) : Host.Outcome State Fault Refusal :=
  .next (mailbox 0x0403 c (disturbStatusWork c) s)

/-- The sleep state byte of LOWPOWER_STATUS. -/
def sleepByte (s : State) (n : Nat) : Nat :=
  if s.doze == .entering then 5
  else
    match (stackOf s n).sleep.kind with
    | .awake => 0
    | .light => 1
    | .entering => 2
    | .partialSleep => 3
    | .waking | .wakingLight => 4

/-- The keep mask in force. -/
def keepMask (s : State) (n : Nat) : Nat :=
  if asleep s n then Nat.land (stackOf s n).sleep.keep (presentMask s) else presentMask s

/-- Lost extents of a stack that still join. -/
def lostJoining (s : State) (n : Nat) : Nat := sumOf (s.parts.map (fun e => (e.2.joining.filter (fun x => x.1 == n)).length))

/-- LOWPOWER_STATUS's result. -/
def lowpowerStatusResult (s : State) (n : Nat) : List Byte :=
  let k := stackOf s n
  leBytes 1 (sleepByte s n) ++ leBytes 1 ((stackChans n).filter (fun ch => (chanOf s ch).sr == .asleep)).length ++
    leBytes 2 (keepMask s n) ++ leBytes 2 (lostJoining s n) ++ [0, 0] ++ leBytes 4 k.sleep.wakes ++ leBytes 4 k.sleep.aborts

def lowpowerStatusWork (c : Cmd) (s : State) : Reply :=
  let n := par c 0 1
  if 8 ≤ n then .done s stBadParam [] else .done s stOK (lowpowerStatusResult s n)

/-- LOWPOWER_STATUS (R253). -/
def execLowpowerStatus (c : Cmd) (s : State) : Host.Outcome State Fault Refusal :=
  .next (mailbox 0x0407 c (lowpowerStatusWork c) s)

end Sys2Proof.Machine
end

