-- ==== Sys2Proof/Machine/Collapse.lean ====
section
/-! DEFINITION. What a reset and a loss of clock, core supply or cooling have in common (R96, R103, R108, R112, R345):
work and commands end without a completion, links drop, and every stack goes into self-refresh. -/

namespace Sys2Proof.Machine

open Sys2Proof

/-- Stack n goes into self-refresh without the steps of R242: running calibrations are abandoned, every bank is
precharged (R108, R241, R322). -/
def stackToSelfRefresh (n : Nat) (s : State) : State :=
  let s := (stackPcs n).foldl (fun s fp => abandonCal fp (now s + 1) s) s
  ((stackChans n).filter (fun ch => chanServes s ch && (chanOf s ch).sr != .asleep)).foldl (fun s ch => srEnter ch true s) s

/-- Every stack that is up goes into self-refresh. -/
def allToSelfRefresh (s : State) : State :=
  ((List.range 8).filter (fun n => (stackOf s n).online)).foldl (fun s n => stackToSelfRefresh n s) s

/-- Commands that a channel, a stack or a partition held are forgotten: they end without a completion. -/
def forgetHeld (s : State) : State :=
  let s := (s.chans.map Prod.fst).foldl (fun s ch => modChan ch (fun c => { c with
    exitCmd := none, repairCmd := none }) s) s
  let s := (s.stk.map Prod.fst).foldl (fun s n => modStack n (fun k => { k with
    sleep := { k.sleep with cmd := none, wakers := [] },
    mapout := k.mapout.map (fun m => { m with cmd := none }),
    mapQueue := k.mapQueue.map (fun m => { m with cmd := none }),
    retireProc := k.retireProc.map (fun m => { m with cmd := none }) }) s) s
  let s := (s.parts.map Prod.fst).foldl (fun s t => modPart t (fun p => { p with
    drainCmds := [], rinse := p.rinse.map (fun r => { r with cmds := [] }) }) s) s
  let s := (s.twin.parts.map Prod.fst).foldl (fun s t => modTwinPart t (fun p => { p with
    takeover := none, heldReplies := [], outbox := [], unacked := [] }) s) s
  { s with
    kettle := { s.kettle with quiesce := s.kettle.quiesce.map (fun q => { q with cmd := none }) },
    kb := { s.kb with admins := [], adminSent := [] },
    tele := { s.tele with
      snapshots := [], mctpCounters := [],
      latching := s.tele.latching.map (fun (l : Latch) => { l with cmds := [], reqs := [] }) } }

/-- Every memory request, engine and command ends where it stands (R108, R112); what the foot dies had issued has taken
effect. Peer link and sequence state is lost (Table 3.5). -/
def endWork (s : State) : State :=
  let s := forgetHeld s
  let s := (s.infusers.map Prod.fst).foldl (fun s n => modInfuser n (fun i => { i with
    queue := [], running := none, steps := [], checking := false, operand := 0, stage := 0, ends := none }) s) s
  { s with
    cmds := [],
    path := { s.path with reqs := [], flights := [], accesses := [] },
    compute := {},
    peers := { nextTag := s.peers.nextTag } }

/-- The device stops with nothing completed and waits for a reset: the links are down, admission and the governor stand
still, the stacks refresh themselves. -/
def collapse (h : Halt) (s : State) : State :=
  let s := endWork (allToSelfRefresh s)
  { s with
    boot := { s.boot with halt := h },
    pins := { s.pins with hostLink := .down },
    doze := .none,
    kettle := { s.kettle with
      running := false, allowance := 0, allowanceFull := 0, cosyTarget := 0, cosyShare := 0,
      cosySet := [], cosySpent := 0, dummyBlocks := 0, follow := [], closed := [] } }

/-- The stacks whose contents are recorded as lost when the core supply falls: those with a channel that is not already
in self-refresh (R96). -/
def recordLost (s : State) : State :=
  (List.range 8).foldl (fun s n =>
    let k := stackOf s n
    if k.online && (stackChans n).any (fun ch => chanServes s ch && (chanOf s ch).sr != .asleep) then
      modStack n (fun k => { k with contentsLost := true }) s
    else s) s

end Sys2Proof.Machine
end

