-- ==== Sys2Proof/Machine/Thermal.lean ====
section
/-! DEFINITION. Heat (R332 to R351): stack samples and states, the scald cut, abort and exit, the hub's temperature,
throttle and trip, collective-marked work and lateness advisories, and the thermal commands (Table 12.5). -/

namespace Sys2Proof.Machine

open Sys2Proof

/-! ## Lateness (R346 to R349) -/

/-- Identifier of the pool of collectives beyond 64 on a stack. -/
def poolId : BitVec 32 := 0xFFFFFFFF#32

/-- Ticks within which an advisory is issued. -/
def adviceTicks : Nat := 4096

/-- The entry of a collective on a stack: its own, or the pool's when it has none and 64 are tracked. -/
def collKey (s : State) (n : Nat) (id : BitVec 32) : BitVec 32 :=
  let here := s.late.colls.filter (fun c => c.stack == n)
  if here.any (fun c => c.id == id) then id
  else if (here.filter (fun c => c.id != poolId)).length < 64 then id
  else poolId

/-- The stack is in simmer or scald. -/
def hot (s : State) (n : Nat) : Bool := (stackOf s n).thermal.heat == .simmer || (stackOf s n).thermal.heat == .scald

/-- Marks a collective on a stack for an advisory; a mark for an abort or a clear is not overwritten by a plain one. -/
def askAdvice (t why : Nat) (c : Coll) : Coll :=
  if c.dueBy.isSome && c.why ≥ why then c else { c with dueBy := some (t + adviceTicks), why := why }

/-- The collective was advised with a state other than clear. -/
def advised (c : Coll) : Bool := !c.lastRecord.isEmpty && c.lastRecord.getD 7 0 != 0

/-- Why an advisory is due: 1 a state or step change, 2 a first request, 3 a change of D, 4 a clear, 5 an abort. -/
def modColl (n : Nat) (id : BitVec 32) (f : Coll → Coll) (s : State) : State :=
  { s with late := { s.late with colls := modFirst s.late.colls (fun c => c.stack == n && c.id == id) f } }

/-- Sectors of a collective become outstanding on a stack (R346); the first on a hot stack is advised (R348). -/
def collStart (n : Nat) (id : BitVec 32) (t k : Nat) (s : State) : State :=
  let id := collKey s n id
  if s.late.colls.any (fun c => c.stack == n && c.id == id) then
    modColl n id (fun c => { c with sectors := c.sectors + k }) s
  else
    let c : Coll := { stack := n, id := id, tenant := t, sectors := k }
    let c := if hot s n then askAdvice (now s) 2 c else c
    { s with late := { s.late with colls := s.late.colls ++ [c] } }

/-- Sectors of a collective are served: when none is left, an advised collective is cleared, another is forgotten. -/
def collEnd (n : Nat) (id : BitVec 32) (k : Nat) (s : State) : State :=
  let here := s.late.colls.any (fun c => c.stack == n && c.id == id)
  let id := if here then id else poolId
  let s := modColl n id (fun c =>
    let c := { c with sectors := c.sectors - k }
    if c.sectors = 0 && advised c then askAdvice (now s) 4 c else c) s
  { s with late := { s.late with colls := s.late.colls.filter (fun c => !(c.stack == n && c.id == id && c.sectors == 0 && c.dueBy.isNone)) } }

/-- The predicted delay in µs, rounded up (R347): r_p is 64 Q sectors a period, r_s is 0.92 of it. -/
def lateDelay (s : State) (n nc : Nat) : Nat :=
  let h := (stackOf s n).thermal
  match h.heat with
  | .scald => 0xFFFFFFFF
  | .simmer => ceilDiv (nc * 1024 * (184 - 25 * h.step)) (2300 * h.step * 64 * peakTenths s)
  | _ => 0

/-- The state byte of an advisory. -/
def adviceState (s : State) (n : Nat) (c : Coll) : Nat :=
  if c.why = 4 then 0 else if c.why = 5 then 3
  else
    match (stackOf s n).thermal.heat with
    | .simmer => 1
    | .scald => 2
    | _ => 0

/-- The record of Table 12.3. -/
def adviceRecord (s : State) (c : Coll) : List Byte :=
  let n := c.stack
  leBytes 4 c.id.toNat ++ leBytes 2 c.tenant ++ leBytes 1 n ++ leBytes 1 (adviceState s n c) ++
    leBytes 1 ((stackOf s n).thermal.step) ++ leBytes 1 c.seq.toNat ++ [0, 0] ++
    leBytes 4 (lateDelay s n c.sectors) ++ leBytes 8 (now s)

/-- Sends an advisory frame on every peer port whose link is up and whose advisory bit is set (R349, R428). -/
def adviceFrames (rcd : List Byte) (s : State) : State :=
  (List.range 4).foldl (fun s k =>
    if linkUp s k && bitOf (cfgN s 0x0903 0 0) k then
      countEvent (portCtr k 10) 1
        (emitFrame k 0x0B { blankFrame with src := portMac s k, dst := BitVec.ofNat 48 (cfgN s 0x0C01 5 k), payload := rcd } s)
    else s) s

/-- LATENESS_ADVISORY: an advisory that is due is issued (R348, R349); at most one per sample apart from clears and
aborts. -/
def latenessAdvisory (n : Nat) (id : BitVec 32) (s : State) : State :=
  match s.late.colls.find? (fun c => c.stack == n && c.id == id) with
  | none => s
  | some c =>
    if c.dueBy.isNone || (c.sampleSent && c.why < 4) then s
    else
      let rcd := adviceRecord s c
      let rings := if bitOf (cfgN s 0x0903 0 0) 4 && c.tenant < 128 then [0, c.tenant].eraseDups else [0]
      let s := adviceFrames rcd (logRecord 0x0901 c.tenant 1 n rcd rings s)
      let s := modColl n id (fun c => { c with
        seq := c.seq + 1, lastD := lateDelay s n c.sectors, lastRecord := rcd, dueBy := none,
        sampleSent := c.sampleSent || c.why < 4 }) s
      { s with late := { s.late with
          issued := s.late.issued + 1,
          colls := s.late.colls.filter (fun c => !(c.stack == n && c.id == id && c.sectors == 0)) } }

def execLatenessAdvisory (n : Fin 8) (coll : Word32) (s : State) : Host.Outcome State Fault Refusal :=
  .next (latenessAdvisory n.val coll s)

/-- After a sample or a change: marks the advisories that R348 asks for on stack n. -/
def noteLateness (n : Nat) (changed : Bool) (s : State) : State :=
  let h := (stackOf s n).thermal
  let cool := !(hot s n) || (h.heat == .simmer && h.step == 8)
  let th := cfgN s 0x0903 1 0
  let f := fun (c : Coll) =>
    if c.stack != n || c.sectors = 0 then c
    else if cool then (if changed && advised c then askAdvice (now s) 4 c else c)
    else if changed then askAdvice (now s) 1 c
    else
      let d := lateDelay s n c.sectors
      if advised c && th * c.lastD < 100 * (max d c.lastD - min d c.lastD) then askAdvice (now s) 3 c else c
  { s with late := { s.late with colls := s.late.colls.map f } }

/-! ## Stack states (R332 to R335) -/

/-- A temperature field in quarter degrees. -/
def tempField (t : Option Int) : Nat :=
  match t with
  | none => 0x8000
  | some v => sbits 16 v

/-- The state byte of THERMAL_STATUS. -/
def heatCode : Heat → Nat
  | .cool => 0
  | .warm => 1
  | .simmer => 2
  | .scald => 3

/-- A change of state or step is counted and logged (R335). -/
def heatChanged (n : Nat) (s : State) : State :=
  let h := (stackOf s n).thermal
  let s := countEvent (stackCtr n 12) 1 s
  let s := logEvent 0x0900 noTenant 1 n (leBytes 1 (heatCode h.heat) ++ leBytes 1 h.step ++ leBytes 2 (tempField h.temp)) [] s
  noteLateness n true s

/-- Puts a stack into a state and step. -/
def setHeat (n : Nat) (heat : Heat) (step : Nat) (s : State) : State :=
  let enter := heat == .simmer && (stackOf s n).thermal.heat != .simmer
  heatChanged n (modStack n (fun k => { k with thermal := { k.thermal with
    heat := heat, step := step, age := 0, simmerEntries := k.thermal.simmerEntries + (if enter then 1 else 0) } }) s)

/-- SCALD_CUT (R340): no further command, self-refresh entry on every channel that is not already asleep; E drops at the
next mark (R55). -/
def scaldCut (n : Nat) (s : State) : State :=
  let cut := (stackChans n).filter (fun ch => chanServes s ch && (chanOf s ch).sr != .asleep)
  let s := stackToSelfRefresh n s
  let s := modStack n (fun k => { k with thermal := { k.thermal with cutAt := now s, cutChannels := cut, exitWait := false } }) s
  let s := { s with kettle := { s.kettle with scaldDrop := insertNat s.kettle.scaldDrop n } }
  setHeat n .scald 0 s

/-- Table 12.1 at a valid sample T, in quarter degrees. -/
def heatSample (n : Nat) (t : Int) (s : State) : State :=
  let h := (stackOf s n).thermal
  let wait := fun (b : Bool) (s : State) => modStack n (fun k => { k with thermal := { k.thermal with exitWait := b } }) s
  match h.heat with
  | .scald => if t < 380 then wait true s else wait false s
  | .cool =>
    if 400 ≤ t then scaldCut n s
    else if 368 ≤ t then setHeat n .simmer 7 s
    else if 340 ≤ t then setHeat n .warm 0 s
    else s
  | .warm =>
    if 400 ≤ t then scaldCut n s
    else if 368 ≤ t then setHeat n .simmer 7 s
    else if t < 328 then setHeat n .cool 0 s
    else s
  | .simmer =>
    if 400 ≤ t then scaldCut n s
    else if 368 ≤ t && 64 ≤ h.age then (if h.step ≤ 1 then s else setHeat n .simmer (h.step - 1) s)
    else if t < 360 && h.step < 8 && 128 ≤ h.age then setHeat n .simmer (h.step + 1) s
    else if t < 356 && h.step = 8 && 128 ≤ h.age then setHeat n .warm 0 s
    else s

/-- The warm interval from the next mark on: a stack that is warm or hotter, or whose temperature cannot be read
(R224). -/
def setWarmNext (n : Nat) (s : State) : State :=
  modStack n (fun k => { k with warmNext := k.thermal.failing || k.thermal.heat != .cool }) s

/-- A valid sample. -/
def validSample (n : Nat) (t : Int) (s : State) : State :=
  let s := modStack n (fun k => { k with thermal := { k.thermal with
    temp := some t, peak := some (match k.thermal.peak with
      | none => t
      | some p => max p t),
    failing := false, fails := 0, held4 := false,
    age := if k.thermal.heat == .simmer then k.thermal.age + 1 else k.thermal.age } }) s
  noteLateness n false (heatSample n t s)

/-- The number that names a sensor or rail in event 0x0006: rails 0 to 4, stack sensors 16 + n, the hub's 24. -/
def sensorName (n : Nat) : Nat := 16 + n

/-- A failed sample (R333): the 64th in a row holds the stack in simmer at step 4. -/
def failedSample (n : Nat) (s : State) : State :=
  let s := modStack n (fun k => { k with thermal := { k.thermal with failing := true, fails := k.thermal.fails + 1 } }) s
  let h := (stackOf s n).thermal
  if h.fails = 64 then
    let s := alertEvent 0x0006 2 (leBytes 1 (sensorName n)) [0] s
    if h.heat == .scald then s
    else
      let s := modStack n (fun k => { k with thermal := { k.thermal with held4 := true } }) s
      if h.heat == .simmer && h.step = 4 then s else setHeat n .simmer 4 s
  else s

/-- Readings in range, in quarter degrees: a reading is in thousandths of a degree, rounded down (R332, R333). -/
def validReadings (l : List Int) : List Int := (l.filter (fun r => -40000 ≤ r && r ≤ 150000)).map (fun r => r / 250)

/-- The highest of a list of readings. -/
def highest (l : List Int) : Option Int :=
  l.foldl (fun m r => match m with
    | none => some r
    | some v => some (max v r)) none

/-- STACK_THERMAL_SAMPLE at a mark whose number is a multiple of 16, once for each such mark (R332). Readings are in
thousandths of a degree, of the sensors that answer. -/
def thermalSample (n : Nat) (readings : List Int) (s : State) : State :=
  if s.clock.mark % 16 ≠ 0 || (stackOf s n).thermal.sampled = some s.clock.mark || !s.pins.vaux then s
  else
    let s := modStack n (fun k => { k with thermal := { k.thermal with sampled := some s.clock.mark } }) s
    let s := { s with late := { s.late with
      colls := s.late.colls.map (fun c => if c.stack = n then { c with sampleSent := false } else c) } }
    let s :=
      match highest (validReadings readings) with
      | none => failedSample n s
      | some t => validSample n t s
    setWarmNext n s

def execStackThermalSample (n : Fin 8) (readings : List Int) (s : State) : Host.Outcome State Fault Refusal :=
  .next (thermalSample n.val readings s)

/-! ## Scald (R340 to R342) -/

/-- Counts a THERMAL_ABORT completion of a stack; the first of a collective is advised (R348). -/
def countAborted (n : Nat) (coll : Option (BitVec 32)) (s : State) : State :=
  let s := countEvent (stackCtr n 13) 1 (modStack n (fun k => { k with thermal := { k.thermal with aborts := k.thermal.aborts + 1 } }) s)
  match coll with
  | none => s
  | some id => modColl n (collKey s n id) (fun c => if c.lastRecord.getD 7 0 = 3 then c else askAdvice (now s) 5 c) s

/-- Ends one access with THERMAL_ABORT and no effect: its requests go, wherever they stand. -/
def abortAccess (n id : Nat) (s : State) : State :=
  let mine := s.path.reqs.filter (fun r => r.access == id && r.kind != .writeBack)
  let s := mine.foldl (fun s r => if r.write then mirrorDrop r.tenant r.id s else s) s
  let s := { s with path := { s.path with reqs := s.path.reqs.filter (fun r => !(r.access == id && r.kind != .writeBack)) } }
  countAborted n (mine.head?.bind (·.collective)) (endAccess id stThermalAbort s)

/-- A request has waited 2 ms on a scalded stack, from the later of the cut and its arrival (R341). -/
def waitedOut (s : State) (n since : Nat) : Bool :=
  (stackOf s n).thermal.heat == .scald && due s (max (stackOf s n).thermal.cutAt since + msTicks 2)

/-- The stream of a request (Table 9.7): of a function's host, a brew list, an infuser's operation, a peer's tenant on a
port, or the mailbox. -/
def streamOf (s : State) (r : Req) : Nat × Nat × Nat × Nat :=
  match ((accessOfId s r.access).map (·.owner)).getD .host with
  | .host => (0, r.tenant, 0, 0)
  | .fetch h => (1, h, 0, 0)
  | .desc h _ => (1, h, 0, 0)
  | .infuser n => (2, n, 0, 0)
  | .frame i =>
    match s.peers.held.find? (fun h => h.id == i) with
    | none => (3, 4, 0, i)
    | some h => (3, h.port, h.frame.srcTenant.toNat, h.frame.src.toNat)
  | .command _ c => (4, (match c.issuer with | .fn k => k.val | .oob => 128), 0, 0)
  | .resync t => (5, t, 0, 0)

/-- A request aborts, with every later one of its stream to that stack (R279, R341). -/
def abortRequest (id : Nat) (s : State) : State :=
  match reqOf s id with
  | none => s
  | some r =>
    if r.kind == .pot || r.kind == .writeBack || !waitedOut s r.stack r.arrived then s
    else
      let later := s.path.reqs.filter (fun x => x.stack == r.stack && x.kind != .pot &&
        x.kind != .writeBack && r.access ≤ x.access && streamOf s x == streamOf s r)
      ((later.map (·.access)).eraseDups).foldl (fun s a => abortAccess r.stack a s) s

/-! ## The hub (R334, R343 to R345) -/

/-- The hub trips (R345). -/
def hubTrip (s : State) : State :=
  let s := alertEvent 0x0003 3 (leBytes 2 (sbits 16 s.hub.tj)) [] s
  let s := collapse .tripped s
  { s with pins := { s.pins with thermTrip := true, enCore := false } }

/-- HUB_THERMAL_SAMPLE within a mark (R334): Tj is the highest sensor, or 105 °C when every one fails. Readings are in
thousandths of a degree, of the sensors that answer. -/
def hubSample (sensors : List Int) (s : State) : State :=
  let r := highest (sensors.map (fun x => x / 250))
  let failed := r.isNone
  let tj := r.getD 420
  let s := if failed && !s.hub.sensorsFailed then alertEvent 0x0006 2 (leBytes 1 24) [0] s else s
  let h := s.hub
  let state := if 420 ≤ tj then 1 else h.state
  let cool := if tj < 400 then h.coolMarks + 1 else 0
  let state := if state = 1 && 1024 ≤ cool then 2 else state
  let h := { h with
    tj := tj, maxTj := max h.maxTj tj, sensorsFailed := failed, coolMarks := min cool 1024, state := state,
    entries := h.entries + (if state = 1 && h.state ≠ 1 then 1 else 0),
    marks := if state = 1 then min (h.marks + 1) (2 ^ 32 - 1) else h.marks }
  let s := { s with hub := h }
  let s := if state = 1 then countEvent (devCtr 23) 1 s else s
  if 460 ≤ tj && s.boot.halt != .tripped then hubTrip s else s

/-- VCORE_H cannot be lowered: at 600 mV, the bus absent, or its regulator faulted (R343). -/
def vcoreHStuck (s : State) : Bool := railMv s 0 ≤ 600 || !railMoves s 0

/-- HUB_THROTTLE_STEP: while Tj ≥ 105 °C, VCORE_H goes down a step at every mark that is a multiple of 16, then the
tile share by an eighth at every multiple of 1024; once for each such mark (R343). -/
def hubThrottleStep (s : State) : State :=
  let m := s.clock.mark
  if s.hub.tj < 420 || s.hub.stepMark = m || s.boot.halt != .none then s
  else if !vcoreHStuck s then
    if m % 16 ≠ 0 then s
    else
      let mv := railMv s 0 - 5
      let s := { s with
        hub := { s.hub with ceiling := some mv, stepMark := m },
        power := { s.power with rails := s.power.rails.set 0 mv } }
      avsWrite 0 mv s
  else if m % 1024 ≠ 0 then s
  else { s with hub := { s.hub with share := max 1 (s.hub.share - 1), stepMark := m } }

def execHubThrottleStep (s : State) : Host.Outcome State Fault Refusal := .next (hubThrottleStep s)

/-- HUB_THROTTLE_RECOVERY_STEP: once recovering and while Tj < 100 °C, the tile share, then the VCORE_H ceiling, go
back up; the ceiling lapses at the target in force (R344). -/
def hubRecoveryStep (s : State) : State :=
  let m := s.clock.mark
  if s.hub.state ≠ 2 || 400 ≤ s.hub.tj || s.hub.stepMark = m || s.boot.halt != .none then s
  else if s.hub.share < 8 then
    if m % 1024 ≠ 0 then s
    else
      let share := s.hub.share + 1
      let state := if share = 8 && s.hub.ceiling.isNone then 0 else 2
      { s with hub := { s.hub with share := share, stepMark := m, state := state } }
  else
    match s.hub.ceiling with
    | none => { s with hub := { s.hub with state := 0 } }
    | some c =>
      if m % 64 ≠ 0 then s
      else
        let done := decide (cfgN s 0x080C 0 0 ≤ c + 5)
        { s with hub := { s.hub with
            ceiling := if done then none else some (c + 5), stepMark := m, state := if done then 0 else 2 } }

def execHubThrottleRecoveryStep (s : State) : Host.Outcome State Fault Refusal := .next (hubRecoveryStep s)

/-! ## Commands (Table 12.5) -/

/-- THERMAL_STATUS's result. -/
def thermalStatusResult (s : State) (n : Nat) : List Byte :=
  let h := (stackOf s n).thermal
  leBytes 2 (tempField h.temp) ++ leBytes 1 (heatCode h.heat) ++ leBytes 1 (if h.heat == .simmer then h.step else 0) ++
    leBytes 2 (tempField h.peak) ++ leBytes 1 (flag h.failing 0 + flag h.held4 1 + flag h.exitWait 2) ++ [0] ++
    leBytes 4 h.simmerEntries ++ leBytes 4 h.aborts

def thermalStatusWork (c : Cmd) (s : State) : Reply :=
  let n := par c 0 1
  if 8 ≤ n then .done s stBadParam []
  else
    let r := thermalStatusResult s n
    let s := if bitOf (par c 1 1) 0 then modStack n (fun k => { k with thermal := { k.thermal with peak := none } }) s else s
    .done s stOK r

/-- THERMAL_STATUS (R351). -/
def execThermalStatus (c : Cmd) (s : State) : Host.Outcome State Fault Refusal :=
  .next (mailbox 0x0900 c (thermalStatusWork c) s)

/-- HUB_THERMAL_STATUS's result. -/
def hubThermalStatusResult (s : State) : List Byte :=
  let h := s.hub
  leBytes 2 (sbits 16 h.tj) ++ leBytes 1 h.state ++ leBytes 1 h.share ++ leBytes 2 (h.ceiling.getD 0) ++
    leBytes 2 (sbits 16 h.maxTj) ++ leBytes 4 h.entries ++ leBytes 4 h.marks

/-- HUB_THERMAL_STATUS (R351). -/
def execHubThermalStatus (c : Cmd) (s : State) : Host.Outcome State Fault Refusal :=
  .next (mailbox 0x0901 c (fun s => .done s stOK (hubThermalStatusResult s)) s)

/-- The records LATENESS_STATUS writes: the last advisory of each tracked collective, of the caller's alone for a VF. -/
def latenessRecords (s : State) (c : Cmd) (n : Nat) : List (List Byte) :=
  (s.late.colls.filter (fun x => (n == 0xFF || x.stack == n) && !x.lastRecord.isEmpty &&
    (cmdPf c || x.tenant == cmdFn c))).map (fun x => padTo 32 x.lastRecord)

def latenessStatusWork (c : Cmd) (s : State) : Reply :=
  let n := par c 0 1
  let addr := par c 8 8
  if (8 ≤ n && n ≠ 0xFF) || addr % 32 ≠ 0 then .done s stBadParam []
  else
    let r := latenessRecords s c n
    let s := if r.isEmpty then s else emit (.hostWrite (cmdFn c) addr (r.flatMap id)) s
    .done s stOK (leBytes 2 r.length ++ [0, 0] ++ leBytes 4 s.late.issued ++ leBytes 4 s.late.received)

/-- LATENESS_STATUS (R351). -/
def execLatenessStatus (c : Cmd) (s : State) : Host.Outcome State Fault Refusal :=
  .next (mailbox 0x0902 c (latenessStatusWork c) s)

end Sys2Proof.Machine
end

