-- ==== Sys2Proof/Machine/PeerOps.lean ====
section
/-! DEFINITION. Issuing peer operations (R421, R422), as PEER_OP and the remote-form descriptors do. -/

namespace Sys2Proof.Machine

open Sys2Proof

/-- Field i of handle h in force: valid, port and connection, owner, remote tenant, base, length (Table 15.11). -/
def handleField (s : State) (h i : Nat) : Nat := cfgN s 0x0C03 i h

/-- Port and connection of a handle. -/
def handlePort (s : State) (h : Nat) : Nat := handleField s h 1 / 64
def handleConn (s : State) (h : Nat) : Nat := handleField s h 1 % 64

/-- What an operation of tenant t ends with before any frame is sent: a bad handle or remote range (R421), a gated
port (R92), a connection that is not open (Table 15.12). -/
def issueStatus (s : State) (t h off len : Nat) : Option Nat :=
  if 4096 ≤ h || handleField s h 0 ≠ 1 || handleField s h 2 ≠ t || handleField s h 5 < off + len then some stBadParam
  else if gatedOff s (40 + handlePort s h) then some stDomainGated
  else if (connOf s (handlePort s h) (handleConn s h)).phase ≠ 2 then some stPeerUnreachable
  else none

/-- Which 32 B payload sectors of a range are poisoned, from the units it was read in. -/
def sectorPoison (ta n : Nat) (failed : List Bool) : List Bool :=
  (List.range (ceilDiv n 32)).map (fun i =>
    let lo := (ta + 32 * i) / 32 - ta / 32
    let hi := (ta + min (32 * i + 31) (n - 1)) / 32 - ta / 32
    (List.range (hi + 1 - lo)).any (fun j => failed.getD (lo + j) false))

/-- The data frames of an operation or reply (R413, R422), from its first frame's fields. -/
def dataFrames (s : State) (k : Nat) (base : Frame) (bytes : List Byte) (poison : List Bool) : List Frame :=
  let size := payloadSize s k
  let n := max 1 (ceilDiv bytes.length size)
  (List.range n).map (fun i =>
    { base with
      first := i == 0, last := i + 1 == n, offset := BitVec.ofNat 32 (i * size),
      length := if i = 0 then BitVec.ofNat 32 bytes.length else 0,
      poison := poisonField ((poison.drop (i * (size / 32))).take (size / 32)),
      payload := (bytes.drop (i * size)).take size })

/-- Sends frames on a connection in order. -/
def sendFrames (k c type : Nat) (fs : List Frame) (s : State) : State := fs.foldl (fun s f => connSend k c type f s) s

/-- The frame fields of an operation: 0 PUT, 1 GET, 2 REDUCE-PUT, 3 SIGNAL. -/
structure OpReq where
  kind : Nat
  tenant : Nat
  handle : Nat
  off : Nat
  localTa : Nat
  len : Nat
  coll : Option (BitVec 32) := none
  op : Nat := 0
  fmt : Nat := 0
  issuer : PeerIssuer
  deriving DecidableEq, Repr

/-- The frame type of an operation's request. -/
def opType (kind : Nat) : Nat := if kind = 0 then 1 else if kind = 1 then 2 else if kind = 2 then 4 else 5

/-- Issues an operation that passed its checks: its frames go out in order and it is outstanding until its reply
(R422, R425). -/
def issueOp (q : OpReq) (bytes : List Byte) (poison : List Bool) (s : State) : State :=
  let k := handlePort s q.handle
  let c := handleConn s q.handle
  let tag := s.peers.nextTag
  let o : PeerOpState :=
    { tag := tag, conn := connKey k c, issuer := q.issuer, kind := q.kind, tenant := q.tenant, localTa := q.localTa,
      length := q.len, poisoned := poison.any id }
  let s := { s with peers := { s.peers with ops := s.peers.ops ++ [o], nextTag := tag + 1 } }
  let base : Frame :=
    { blankFrame with
      first := true, last := true, collective := q.coll.isSome, collId := q.coll.getD 0,
      srcTenant := BitVec.ofNat 16 q.tenant, dstTenant := BitVec.ofNat 16 (handleField s q.handle 3), opTag := tag,
      addr := BitVec.ofNat 64 (handleField s q.handle 4 + q.off), length := BitVec.ofNat 32 q.len,
      operation := BitVec.ofNat 8 q.op, format := BitVec.ofNat 8 q.fmt }
  if q.kind = 1 then connSend k c 2 base s
  else if q.kind = 3 then connSend k c 5 { base with payload := bytes } s
  else sendFrames k c (opType q.kind) (dataFrames s k base bytes poison) s

/-- Sectors of a range that lie on stack n. -/
def sectorsOn (n ta len : Nat) : Nat :=
  ((unitStarts ta len).filter (fun a => decide (a < 2 ^ 39) && bitsOf a 36 3 == n)).length

/-- A range's sectors of a collective become outstanding, stack by stack (R346). -/
def collRange (id : BitVec 32) (t ta len : Nat) (s : State) : State :=
  (List.range 8).foldl (fun s n => let k := sectorsOn n ta len; if k = 0 then s else collStart n id t k s) s

end Sys2Proof.Machine
end

