-- ==== Sys2Proof/Machine/Compute.lean ====
section
/-! DEFINITION. Operator descriptors (R352 to R358, R369 to R373, R380): their fields and checks in the order of R370,
and what each operator reads, computes and writes. -/

namespace Sys2Proof.Machine

open Sys2Proof

/-! ## Header (Table 13.3) -/

def dOp (d : List Byte) : Nat := leAt d 0 1
def dFlag (d : List Byte) (i : Nat) : Bool := bitOf (leAt d 1 1) i
def dEnd (d : List Byte) : Bool := dFlag d 0
def dColl (d : List Byte) : Option (BitVec 32) := if dFlag d 1 then some (BitVec.ofNat 32 (leAt d 4 4)) else none
def dRemote (d : List Byte) : Bool := dFlag d 4
def dIn1 (d : List Byte) : Nat := leAt d 2 1 % 16
def dIn2 (d : List Byte) : Nat := leAt d 2 1 / 16
def dOut (d : List Byte) : Nat := leAt d 3 1 % 16
def dSat (d : List Byte) : Bool := bitOf (leAt d 3 1) 4
def dAcc (d : List Byte) : Bool := bitOf (leAt d 3 1) 5
def dContinue (d : List Byte) : Bool := bitOf (leAt d 3 1) 6
def dTiles (d : List Byte) : Nat := leAt d 13 1

/-- The next descriptor's address (R360). -/
def dNext (ta : Nat) (d : List Byte) : Nat := if dFlag d 2 then leAt d 8 5 else ta + 128

/-- Operators by code (Table 13.4). -/
def opFence : Nat := 0x0B
def opSignal : Nat := 0x0C
def opWait : Nat := 0x0D
def knownOp (op : Nat) : Bool := 1 ≤ op && op ≤ 13

/-- FENCE, SIGNAL and WAIT need no tile (R361). -/
def needsTile (op : Nat) : Bool := 1 ≤ op && op ≤ 10

/-- FENCE and WAIT hold back what follows. -/
def isBarrier (op : Nat) : Bool := op == opFence || op == opWait

/-! ## Operands (Table 13.5) -/

def u32 (d : List Byte) (o : Nat) : Nat := leAt d o 4
def u64 (d : List Byte) (o : Nat) : Nat := leAt d o 8
def f32 (d : List Byte) (o : Nat) : BitVec 32 := BitVec.ofNat 32 (u32 d o)

/-- The address that means none. -/
def noAddr : Nat := 2 ^ 64 - 1

/-- An optional operand's address. -/
def optAddr (d : List Byte) (o : Nat) : Option Nat := if u64 d o = noAddr then none else some (u64 d o)

/-- An operand as strided rows: base, rows, bytes of a row, stride. -/
structure Rows where
  ta : Nat
  rows : Nat
  len : Nat
  stride : Nat
  deriving DecidableEq, Repr

/-- One contiguous operand. -/
def flat (ta len : Nat) : Rows := { ta := ta, rows := 1, len := len, stride := len }

/-- The address ranges of an operand. -/
def Rows.segs (r : Rows) : List (Nat × Nat) := (List.range r.rows).map (fun i => (r.ta + i * r.stride, r.len))

/-- A descriptor's inputs, outputs and pot reduction targets, as far as its fields give them. -/
structure Shape where
  ins : List Rows := []
  outs : List Rows := []
  deriving DecidableEq, Repr

/-- An optional flat operand. -/
def optRows (d : List Byte) (o len : Nat) : List Rows :=
  match optAddr d o with
  | none => []
  | some a => [flat a len]

/-- Functions of two operands (Table 13.7). -/
def binaryFn (fn : Nat) : Bool := fn ≤ 5

/-- The operands of a descriptor (Tables 13.5, 13.6). The table of EMBED_GATHER and the rows of SCATTER_ADD's destination
follow from the index list. -/
def shapeOf (d : List Byte) : Shape :=
  let f1 := fmtSize (dIn1 d)
  let f2 := fmtSize (dIn2 d)
  let fo := fmtSize (dOut d)
  match dOp d with
  | 1 =>
    let m := u32 d 56
    let k := u32 d 60
    { ins := [{ ta := u64 d 16, rows := m, len := k * f1, stride := u32 d 64 }, flat (u64 d 24) (k * f2)] ++
        optRows d 40 (4 * m) ++ optRows d 48 (4 * m),
      outs := [flat (u64 d 32) (m * fo)] }
  | 2 =>
    let m := u32 d 56
    let n := u32 d 60
    let k := u32 d 64
    { ins := [{ ta := u64 d 16, rows := m, len := k * f1, stride := u32 d 68 },
        { ta := u64 d 24, rows := n, len := k * f2, stride := u32 d 72 }] ++ optRows d 40 (4 * n) ++ optRows d 48 (4 * n),
      outs := [{ ta := u64 d 32, rows := m, len := n * fo, stride := u32 d 76 }] }
  | 3 =>
    let bag := u32 d 48
    let row := u32 d 44
    let out := if bag = 1 then row else row / f1 * fo
    { ins := [flat (u64 d 24) (4 * u32 d 40)], outs := [flat (u64 d 32) (u32 d 40 / bag * out)] }
  | 4 =>
    let n := u32 d 40
    let p := u32 d 44
    { ins := [flat (u64 d 16) (n * f1)] ++ (if binaryFn (leAt d 48 1) then [flat (u64 d 24) ((if p = 0 then n else p) * f2)] else []),
      outs := [flat (u64 d 32) (n * fo)] }
  | 5 =>
    { ins := [{ ta := u64 d 16, rows := u32 d 40, len := u32 d 44 * f1, stride := u32 d 48 }],
      outs := [{ ta := u64 d 24, rows := u32 d 40, len := u32 d 44 * fo, stride := u32 d 48 }] }
  | 6 =>
    { ins := [{ ta := u64 d 16, rows := u32 d 48, len := u32 d 52 * f1, stride := u32 d 56 }] ++
        optRows d 32 (4 * u32 d 52) ++ optRows d 40 (4 * u32 d 52),
      outs := [{ ta := u64 d 24, rows := u32 d 48, len := u32 d 52 * fo, stride := u32 d 56 }] }
  | 7 =>
    { ins := [flat (u64 d 16) (u32 d 40 * f1)] ++ optRows d 32 (4 * (u32 d 40 / u32 d 44)),
      outs := [flat (u64 d 24) (u32 d 40 * fo)] }
  | 8 =>
    { ins := [{ ta := u64 d 16, rows := u32 d 32, len := u32 d 36, stride := u32 d 40 }],
      outs := if dRemote d then [] else [{ ta := u64 d 24, rows := u32 d 32, len := u32 d 36, stride := u32 d 44 }] }
  | 9 =>
    { ins := [flat (u64 d 16) (u32 d 32 * f1)], outs := if dRemote d then [] else [flat (u64 d 24) (u32 d 32 * fo)] }
  | 10 => { ins := [flat (u64 d 16) (u32 d 40 * u32 d 44 * f1), flat (u64 d 24) (4 * u32 d 40)] }
  | 12 => { outs := if dRemote d then [] else [flat (u64 d 16) 8] }
  | 13 => { ins := [flat (u64 d 16) 8] }
  | _ => {}

/-! ## Checks (R370) -/

/-- The bytes of the operand area that an operator names, as (first, count). -/
def namedBytes (d : List Byte) : List (Nat × Nat) :=
  match dOp d with
  | 1 => [(16, 56)]
  | 2 => [(16, 68)]
  | 3 => [(16, 36)]
  | 4 => [(16, 33), (52, 4)]
  | 5 => [(16, 16), (40, 20)]
  | 6 => [(16, 49)]
  | 7 => [(16, 37)]
  | 8 => [(16, 32)] ++ (if dRemote d then [(48, 2)] else [])
  | 9 => [(16, 21)] ++ (if dRemote d then [(48, 2)] else [])
  | 10 => [(16, 32)]
  | 12 => [(16, 17)] ++ (if dRemote d then [(48, 2)] else [])
  | 13 => [(16, 17), (36, 4)]
  | _ => []

/-- Every reserved byte is zero; the reserved bits of bytes 1, 3 and 14 are ignored (R8). -/
def reservedZero (d : List Byte) : Bool :=
  let named := namedBytes d
  leAt d 15 1 == 0 &&
    (List.range 112).all (fun i => named.any (fun r => decide (r.1 ≤ 16 + i) && decide (16 + i < r.1 + r.2)) || leAt d (16 + i) 1 == 0)

/-- The header's own fields are in range: tiles, link and collective identifier. -/
def headerOk (d : List Byte) : Bool :=
  dTiles d ≤ 16 && (if dFlag d 2 then leAt d 8 5 % 128 == 0 else leAt d 8 5 == 0) && (dFlag d 1 || leAt d 4 4 == 0)

/-- A value from lo to hi. -/
def between (lo hi v : Nat) : Bool := lo ≤ v && v ≤ hi

/-- An address field: bits 63:40 zero. -/
def addrOk (d : List Byte) (o : Nat) : Bool := u64 d o < 2 ^ 40

/-- An address field that may be none. -/
def optOk (d : List Byte) (o : Nat) : Bool := addrOk d o || u64 d o == noAddr

/-- The format pairs of the matrix unit (R356). -/
def fmtPairOk (a b : Nat) : Bool := (a == 0 && b == 0) || (between 1 2 a && between 1 2 b) || (a == 3 && b == 3)

/-- FP8, BF16 or FP32. -/
def floatFmt (f : Nat) : Bool := between 1 4 f

/-- Fields and formats of an operator (Tables 13.5, 13.6). -/
def fieldsOk (d : List Byte) : Bool :=
  let a := dIn1 d
  let b := dIn2 d
  let o := dOut d
  match dOp d with
  | 1 =>
    addrOk d 16 && addrOk d 24 && addrOk d 32 && optOk d 40 && optOk d 48 && between 1 1048576 (u32 d 56) &&
      between 1 1048576 (u32 d 60) && u32 d 60 * fmtSize a ≤ u32 d 64 && fmtPairOk a b && o ≤ 4
  | 2 =>
    addrOk d 16 && addrOk d 24 && addrOk d 32 && optOk d 40 && optOk d 48 && between 1 64 (u32 d 56) &&
      between 1 1048576 (u32 d 60) && between 1 1048576 (u32 d 64) && fmtPairOk a b && o ≤ 4
  | 3 =>
    addrOk d 16 && addrOk d 24 && addrOk d 32 && between 1 65536 (u32 d 40) && between 4 4096 (u32 d 44) &&
      2 ^ Nat.log2 (u32 d 44) == u32 d 44 && between 1 256 (u32 d 48) && u32 d 40 % u32 d 48 == 0 && a ≤ 5 &&
      (u32 d 48 == 1 || o ≤ 5)
  | 4 =>
    let fn := leAt d 48 1
    addrOk d 16 && (if binaryFn fn then addrOk d 24 else u64 d 24 == noAddr) && addrOk d 32 && between 1 (2 ^ 30) (u32 d 40) &&
      (u32 d 44 == 0 || u32 d 40 % u32 d 44 == 0) && fn ≤ 12 && a ≤ 4 && (!binaryFn fn || b ≤ 4) && floatFmt o
  | 5 =>
    addrOk d 16 && addrOk d 24 && between 1 (2 ^ 20) (u32 d 40) && between 1 (2 ^ 24) (u32 d 44) && floatFmt a &&
      between 3 4 o
  | 6 =>
    addrOk d 16 && addrOk d 24 && optOk d 32 && optOk d 40 && between 1 (2 ^ 20) (u32 d 48) &&
      between 1 (2 ^ 24) (u32 d 52) && leAt d 64 1 ≤ 1 && between 3 4 a && floatFmt o
  | 7 =>
    addrOk d 16 && addrOk d 24 && optOk d 32 && between 1 (2 ^ 30) (u32 d 40) && between 1 (2 ^ 24) (u32 d 44) &&
      u32 d 40 % u32 d 44 == 0 && (if leAt d 52 1 = 0 then between 3 4 a && o ≤ 2 else leAt d 52 1 == 1 && a ≤ 2 && between 3 4 o)
  | 8 => addrOk d 16 && addrOk d 24 && between 1 (2 ^ 20) (u32 d 32) && between 1 (2 ^ 30) (u32 d 36) &&
      (!dRemote d || u32 d 36 % 32 == 0)
  | 9 =>
    addrOk d 16 && addrOk d 24 && between 1 (2 ^ 24) (u32 d 32) && leAt d 36 1 ≤ 2 && between 3 5 a && between 3 5 o &&
      (if dRemote d then u32 d 32 * fmtSize a % 32 == 0 else u64 d 24 % fmtSize o == 0)
  | 10 =>
    addrOk d 16 && addrOk d 24 && addrOk d 32 && between 1 65536 (u32 d 40) && between 1 65536 (u32 d 44) && between 3 5 a &&
      between 3 5 o && u64 d 32 % fmtSize o == 0
  | 11 => true
  | 12 => addrOk d 16 && u64 d 16 % 8 == 0 && leAt d 32 1 ≤ 1
  | 13 => addrOk d 16 && u64 d 16 % 8 == 0 && leAt d 32 1 ≤ 2
  | _ => false

/-- Two ranges share a byte. -/
def overlaps (a b : Nat × Nat) : Bool := decide (a.1 < b.1 + b.2) && decide (b.1 < a.1 + a.2)

/-- ELEMWISE and QUANT may write over their first operand, with elements of equal size (R370 check 3). -/
def inPlace (d : List Byte) : Bool :=
  (dOp d == 4 && u64 d 32 == u64 d 16 || dOp d == 7 && u64 d 24 == u64 d 16) && fmtSize (dIn1 d) == fmtSize (dOut d)

/-- Check 3: an output shares a byte with an input. -/
def overlapBad (d : List Byte) : Bool :=
  let sh := shapeOf d
  let ins := if inPlace d then sh.ins.drop 1 else sh.ins
  let pairs := (sh.outs.flatMap Rows.segs).flatMap (fun o => (ins.flatMap Rows.segs).map (fun i => overlaps o i))
  needsTile (dOp d) && pairs.any id

/-- The pot target of an operator that takes only the pot. -/
def potTarget (d : List Byte) : Option Nat :=
  match dOp d with
  | 9 => if dRemote d then none else some (u64 d 24)
  | 10 => some (u64 d 32)
  | 12 => if dRemote d then none else some (u64 d 16)
  | 13 => some (u64 d 16)
  | _ => none

/-- What the known ranges of a descriptor answer (R183, Table 6.5). -/
def shapeStatus (s : State) (t : Nat) (d : List Byte) : Option Nat :=
  let sh := shapeOf d
  ((sh.ins ++ sh.outs).flatMap Rows.segs).findSome? (fun r => rangeStatus s t r.1 r.2)

/-- Check 4. -/
def check4 (s : State) (t : Nat) (d : List Byte) : Option Nat :=
  match potTarget d with
  | some a => if a < 2 ^ 39 then some stAtomicUnsupported else shapeStatus s t d
  | none =>
    if dOp d = 3 then
      if 2 ^ 39 ≤ u64 d 16 then some stBadParam
      else if gatedOff s (52 + 6 * bitsOf (u64 d 16) 36 3) then some stDomainGated
      else shapeStatus s t d
    else shapeStatus s t d

/-- Tenant t has peer permission (Table 5.6); the PF always. -/
def peerAllowed (s : State) (t : Nat) : Bool := t == 0 || bitOf (permWord s t) 4

/-- The bytes a remote form sends, and its remote ranges: one operation, or one per row where the rows lie apart. -/
def remoteRows (d : List Byte) : List (Nat × Nat × Nat) :=
  match dOp d with
  | 8 =>
    if u32 d 32 = 1 || u32 d 44 = u32 d 36 && u32 d 40 = u32 d 36 then [(u64 d 16, u64 d 24, u32 d 32 * u32 d 36)]
    else (List.range (u32 d 32)).map (fun i => (u64 d 16 + i * u32 d 40, u64 d 24 + i * u32 d 44, u32 d 36))
  | 9 => [(u64 d 16, u64 d 24, u32 d 32 * fmtSize (dIn1 d))]
  | _ => [(0, u64 d 16, 8)]

/-- Check 5, and the checks of R421 on the remote ranges; the named port is the handle's. -/
def check5 (s : State) (t : Nat) (d : List Byte) : Option Nat :=
  if !dRemote d then none
  else if !(dOp d == 8 || dOp d == 9 || dOp d == opSignal) then some stBadParam
  else if !peerAllowed s t then some stNotPermitted
  else if handlePort s (leAt d 48 2) ≠ leAt d 14 1 % 4 then some stBadParam
  else (remoteRows d).findSome? (fun r => issueStatus s t (leAt d 48 2) r.2.1 r.2.2)

/-- What a descriptor's checks end it with, in the order of R370. -/
def descCheck (s : State) (t : Nat) (d : List Byte) : Option Nat :=
  if !knownOp (dOp d) then some stBadOpcode
  else if !(reservedZero d && headerOk d && fieldsOk d) then some stBadParam
  else if overlapBad d then some stBadParam
  else
    match check4 s t d with
    | some st => some st
    | none => check5 s t d

/-! ## Blocks (R353) -/

/-- Matrix blocks of 4096 operations. -/
def matrixBlocks (d : List Byte) : Nat :=
  match dOp d with
  | 1 => ceilDiv (2 * u32 d 56 * u32 d 60) 4096
  | 2 => ceilDiv (2 * u32 d 56 * u32 d 60 * u32 d 64) 4096
  | _ => 0

/-- Vector element operations; those that R353 does not fix are free. -/
def vectorElems (d : List Byte) : Nat :=
  match dOp d with
  | 3 => if u32 d 48 = 1 then 0 else u32 d 40 * (u32 d 44 / fmtSize (dIn1 d))
  | 4 =>
    let n := u32 d 40
    let fn := leAt d 48 1
    if fn ≤ 6 || fn = 10 then n else if fn = 9 || 11 ≤ fn then 4 * n else Config.vectorOps (0x400 + fn) n
  | 5 => Config.vectorOps 5 (u32 d 40 * u32 d 44)
  | 6 => Config.vectorOps 6 (u32 d 48 * u32 d 52)
  | 7 => u32 d 40
  | _ => 0

/-- INT8 blocks of 1024 vector element operations. -/
def vectorBlocks (d : List Byte) : Nat := ceilDiv (vectorElems d) 1024

/-- The block kind of the matrix unit. -/
def matrixEv (d : List Byte) : Ev := if dIn1 d = 3 then .bf16 else .int8

/-! ## Reading and writing operands (R363) -/

/-- The port that a descriptor's next access goes by: that of a tile that runs it; which one is free, and so it is among all
tiles for an operator that needs none. -/
def descPort (s : State) (d : InDesc) : Nat :=
  if d.tiles.isEmpty then 5 + freeNat s % 16 else 5 + d.tiles.getD (freeNat s % d.tiles.length) 0

/-- A descriptor's access: the tenant, the port, its range and its collective identifier. -/
def descAsk (s : State) (h t : Nat) (d : InDesc) (ta len : Nat) (write : Bool) : Ask :=
  { owner := .desc h d.id, tenant := t, port := descPort s d, ta := ta, len := len, write := write, coll := dColl d.bytes }

/-- A descriptor reads a range. -/
def descRead (h t : Nat) (d : InDesc) (g : Nat × Nat) (s : State) : State :=
  ask (descAsk s h t d g.1 g.2 false) (freeStep s)

/-- A descriptor writes bytes, with the units of the range that are poison. -/
def descWrite (h t : Nat) (d : InDesc) (ta : Nat) (data : List Byte) (poison : List Bool) (s : State) : State :=
  ask { descAsk s h t d ta data.length true with data := data, poison := poison } (freeStep s)

/-- Writes packed bytes to an operand row by row. -/
def writeRows (h t : Nat) (d : InDesc) (r : Rows) (bytes : List Byte) (s : State) : State :=
  (List.range r.rows).foldl (fun s i => descWrite h t d (r.ta + i * r.stride) (bytesAt bytes (i * r.len) r.len) [] s) s

/-- Computing work that read poison writes its whole output range as poison (R263); the data of those sectors is free. -/
def poisonRanges (h t : Nat) (d : InDesc) (l : List (Nat × Nat)) (s : State) : State :=
  l.foldl (fun s g => descWrite h t d g.1 (leBytes g.2 (freeNat s)) ((unitStarts g.1 g.2).map (fun _ => true)) s) s

/-- The packed bytes of each operand, from the accesses of its rows in order. -/
def operandBytes (l : List Rows) (as : List Access) : List (List Byte) :=
  match l with
  | [] => []
  | r :: rest => ((as.take r.rows).flatMap (fun a => (gathered a).bytes)) :: operandBytes rest (as.drop r.rows)

/-- Some unit that the accesses read failed. -/
def readFailed (as : List Access) : Bool := as.any (fun a => (gathered a).anyFailed)

/-! ## What the computing operators compute, from the packed bytes of their inputs -/

/-- Entry i of an optional FP32 vector. -/
def vecAt (present : Bool) (bs : List Byte) (i : Nat) : Option (BitVec 32) := if present then some (elem 4 bs i) else none

/-- Row i of packed rows. -/
def rowAt (bs : List Byte) (i len : Nat) : List Byte := bytesAt bs (i * len) len

/-- The matrix operators: entry (i, j) is row i of the first against row j of the second; scales and bias go with rows for
GEMV and with columns for GEMM. -/
def matrixBytes (d : List Byte) (ins : List (List Byte)) (old : List Byte) : List Byte :=
  let gemm := dOp d == 2
  let m := u32 d 56
  let n := if gemm then u32 d 60 else 1
  let k := if gemm then u32 d 64 else u32 d 60
  let hasScale := (optAddr d 40).isSome
  let hasBias := (optAddr d 48).isSome
  let scales := ins.getD 2 []
  let biases := ins.getD (if hasScale then 3 else 2) []
  let xs := f32 d (if gemm then 80 else 68)
  (List.range (m * n)).flatMap (fun e =>
    let i := e / n
    let j := e % n
    let v := if gemm then j else i
    let acc := dot k (dIn1 d) (dIn2 d) (rowAt (ins.getD 0 []) i (k * fmtSize (dIn1 d)))
      (rowAt (ins.getD 1 []) j (k * fmtSize (dIn2 d)))
    putElem (dOut d) (dSat d) (epilogue acc xs (vecAt hasScale scales v) (vecAt hasBias biases v)
      (if dAcc d then some (elem (dOut d) old e) else none)))

def elemwiseBytes (d : List Byte) (ins : List (List Byte)) : List Byte :=
  let p := u32 d 44
  (List.range (u32 d 40)).flatMap (fun i =>
    putElem (dOut d) (dSat d) (elemwise (leAt d 48 1) (f32 d 52) (elem (dIn1 d) (ins.getD 0 []) i)
      (elem (dIn2 d) (ins.getD 1 []) (if p = 0 then i else i % p))))

/-- SOFTMAX: the included elements of row i are those up to i + c; the others are written 0. -/
def softmaxBytes (d : List Byte) (ins : List (List Byte)) : List Byte :=
  let n := u32 d 44
  let c := u32 d 56
  (List.range (u32 d 40)).flatMap (fun i =>
    let lim := if c = 0xFFFFFFFF then n else min n (i + c + 1)
    let us := (List.range lim).map (fun j => fmul (f32 d 52) (elem (dIn1 d) (ins.getD 0 []) (i * n + j)))
    (List.range n).flatMap (fun j =>
      putElem (dOut d) (dSat d) (if j < lim then freeFn 0x500 (us.getD j 0 :: us) else 0)))

def normBytes (d : List Byte) (ins : List (List Byte)) : List Byte :=
  let n := u32 d 52
  let hasG := (optAddr d 32).isSome
  let hasB := (optAddr d 40).isSome
  let g := ins.getD 1 []
  let b := ins.getD (if hasG then 2 else 1) []
  (List.range (u32 d 48)).flatMap (fun i =>
    let xs := (List.range n).map (fun j => elem (dIn1 d) (ins.getD 0 []) (i * n + j))
    (List.range n).flatMap (fun j =>
      putElem (dOut d) (dSat d) (freeFn (0x600 + leAt d 64 1)
        (xs.getD j 0 :: f32 d 60 :: (vecAt hasG g j).getD 0x3F800000#32 :: (vecAt hasB b j).getD 0 :: xs))))

def quantBytes (d : List Byte) (ins : List (List Byte)) : List Byte :=
  let has := (optAddr d 32).isSome
  (List.range (u32 d 40)).flatMap (fun i =>
    let x := elem (dIn1 d) (ins.getD 0 []) i
    let k := (vecAt has (ins.getD 1 []) (i / u32 d 44)).getD (f32 d 48)
    putElem (dOut d) (dSat d) (if leAt d 52 1 = 0 then fdiv x k else fmul x k))

/-- The output bytes of a computing operator with a fixed output range. -/
def computeBytes (d : List Byte) (ins : List (List Byte)) (old : List Byte) : List Byte :=
  match dOp d with
  | 4 => elemwiseBytes d ins
  | 5 => softmaxBytes d ins
  | 6 => normBytes d ins
  | 7 => quantBytes d ins
  | _ => matrixBytes d ins old

/-- GEMV and GEMM may accumulate into their old output. -/
def accumulates (d : List Byte) : Bool := dAcc d && dOp d ≤ 2

/-- The output ranges of an operator with a fixed output range. -/
def outSegs (d : List Byte) : List (Nat × Nat) := (shapeOf d).outs.flatMap Rows.segs

/-- A computing operator writes what it computes from its operands, or poison where it read poison; answers the status that
its writes lead to. -/
def writeCompute (h t : Nat) (d : InDesc) (as : List Access) (s : State) : Nat × State :=
  let sh := shapeOf d.bytes
  if readFailed as then (stPoison, poisonRanges h t d (outSegs d.bytes) s)
  else
    let ins := operandBytes (sh.ins ++ (if accumulates d.bytes then sh.outs else [])) as
    let bytes := computeBytes d.bytes ins (ins.getD sh.ins.length [])
    (stOK, (sh.outs.foldl (fun (acc : Nat × State) r =>
      (acc.1 + r.rows * r.len, writeRows h t d r (bytes.drop acc.1) acc.2)) (0, s)).2)

/-! ## Moving operators -/

/-- The destination units whose bytes come from failed source units: bytes are moved from sa to da (R263). -/
def movedPoison (sa da n : Nat) (failed : List Bool) (unit : Nat) : Bool :=
  let lo := max unit da
  let hi := min (unit + 32) (da + n)
  decide (lo < hi) &&
    (List.range ((sa + (hi - 1 - da)) / 32 + 1 - (sa + (lo - da)) / 32)).any (fun j =>
      failed.getD ((sa + (lo - da)) / 32 + j - sa / 32) false)

/-- Which units of the destination are poison when n bytes move from sa to da. -/
def movedUnits (sa da n : Nat) (failed : List Bool) : List Bool := (unitStarts da n).map (movedPoison sa da n failed)

/-- Writes what an access read to another address, with its poison. -/
def writeMoved (h t : Nat) (d : InDesc) (da : Nat) (a : Access) (s : State) : State :=
  let r := gathered a
  descWrite h t d da r.bytes (movedUnits a.start da a.len r.failed) s

/-- COPY: byte by byte, row by row. -/
def writeCopy (h t : Nat) (d : InDesc) (as : List Access) (s : State) : Nat × State :=
  (stOK, (List.range as.length).foldl (fun s i =>
    match as[i]? with
    | none => s
    | some a => writeMoved h t d (u64 d.bytes 24 + i * u32 d.bytes 44) a s) s)

/-- What the rows that an EMBED_GATHER names answer, once its index list is read: outside the window BAD_PARAM, over the
output BAD_PARAM, else R183 (R217, R370). -/
def gatherStatus (s : State) (t : Nat) (d : List Byte) (rows : List Nat) : Option Nat :=
  let len := u32 d 44
  let out := (shapeOf d).outs.flatMap Rows.segs
  if rows.any (fun a => decide (2 ^ 39 ≤ a) || (a + len - 1) / 2 ^ 36 != u64 d 16 / 2 ^ 36) then some stBadParam
  else if rows.any (fun a => out.any (fun o => overlaps o (a, len))) then some stBadParam
  else rows.findSome? (fun a => rangeStatus s t a len)

/-- One bag: its rows summed element by element in FP32; the order is open for three rows or more. -/
def bagBytes (d : List Byte) (rows : List (List Byte)) : List Byte :=
  (List.range (u32 d 44 / fmtSize (dIn1 d))).flatMap (fun j =>
    let xs := rows.map (fun r => elem (dIn1 d) r j)
    let v :=
      match xs with
      | [a] => a
      | [a, b] => fadd a b
      | _ => freeFn 0x300 xs
    putElem (dOut d) (dSat d) v)

/-- The rows that an EMBED_GATHER names, by the bytes of its index list. -/
def gatherRows (d : List Byte) (idx : List Byte) : List Nat :=
  (List.range (u32 d 40)).map (fun i => u64 d 16 + leAt idx (4 * i) 4 * u32 d 44)

/-- How many element reads a gather keeps in flight: 1024 (R217), in simmer at step L no more than L/8 of that (R338). -/
def gatherBound (s : State) (d : List Byte) : Nat :=
  let th := (stackOf s (bitsOf (u64 d 16) 36 3)).thermal
  if th.heat == .simmer then 128 * th.step else 1024

/-- The gather engine issues further element reads, on port 22, and counts its elements (R217, Table 16.2). -/
def gatherFeed (n h t : Nat) (d : InDesc) (rows : List Nat) (s : State) : InDesc × State :=
  match n with
  | 0 => (d, s)
  | n + 1 =>
    match rows[d.rows]? with
    | none => (d, s)
    | some ta =>
      if gatherBound s d.bytes ≤ ((accessesOf s (.desc h d.id)).filter (fun a => a.left != 0)).length then (d, s)
      else
        gatherFeed n h t { d with rows := d.rows + 1 } rows
          (ask { descAsk s h t d ta (u32 d.bytes 44) false with port := 22 }
            (countEvent (stackCtr (bitsOf (u64 d.bytes 16) 36 3) 20) 1 s))

/-- A gather has its rows: it writes them packed, or pooled in bags (R217). -/
def writeGather (h t : Nat) (d : InDesc) (as : List Access) (s : State) : Nat × State :=
  let bag := u32 d.bytes 48
  let len := u32 d.bytes 44
  if bag = 1 then
    (stOK, (List.range as.length).foldl (fun s i =>
      match as[i]? with
      | none => s
      | some a => writeMoved h t d (u64 d.bytes 32 + i * len) a s) s)
  else if readFailed as then (stPoison, poisonRanges h t d (outSegs d.bytes) s)
  else
    let rows := as.map (fun a => (gathered a).bytes)
    (stOK, descWrite h t d (u64 d.bytes 32)
      ((List.range (u32 d.bytes 40 / bag)).flatMap (fun i => bagBytes d.bytes ((rows.drop (i * bag)).take bag))) [] s)

/-! ## Pot reductions (R378, R380) -/

/-- REDUCE_POT. -/
def writeReduce (h t : Nat) (d : InDesc) (as : List Access) (s : State) : Nat × State :=
  let b := d.bytes
  if readFailed as then (stPoison, poisonRanges h t d (outSegs b) s)
  else
    (stOK, askReduce (.desc h d.id) t (descPort s d) (u64 b 24) (leAt b 36 1) (dIn1 b) (dOut b)
      (as.flatMap (fun a => (gathered a).bytes)) (dColl b) (freeStep s))

/-- SCATTER_ADD: the pot rows that the index list names are checked before any is changed. -/
def writeScatter (h t : Nat) (d : InDesc) (as : List Access) (s : State) : Nat × State :=
  let b := d.bytes
  let len := u32 b 44
  let out := len * fmtSize (dOut b)
  let ins := operandBytes (shapeOf b).ins as
  let dst := (List.range (u32 b 40)).map (fun i => (u64 b 32 + leAt (ins.getD 1 []) (4 * i) 4 * out, out))
  match (if dst.any (fun a => ((shapeOf b).ins.flatMap Rows.segs).any (overlaps a)) then some stBadParam
      else dst.findSome? (fun a => rangeStatus s t a.1 a.2)) with
  | some st =>
    (st, accessEvent t ((dst.find? (fun a => (rangeStatus s t a.1 a.2).isSome)).getD (u64 b 32, 0)).1 st s)
  | none =>
    if readFailed as then (stPoison, poisonRanges h t d dst s)
    else
      (stOK, (List.range dst.length).foldl (fun s i =>
        askReduce (.desc h d.id) t (descPort s d) ((dst.getD i (0, 0)).1) 0 (dIn1 b) (dOut b)
          (bytesAt (ins.getD 0 []) (i * len * fmtSize (dIn1 b)) (len * fmtSize (dIn1 b))) (dColl b) (freeStep s)) s)

/-! ## The accesses of a descriptor, stage by stage -/

/-- Every range of a descriptor. -/
def descSegs (d : List Byte) : List (Nat × Nat) := ((shapeOf d).ins ++ (shapeOf d).outs).flatMap Rows.segs

/-- What a started descriptor reads first: its inputs, with its old output where it accumulates; a gather its index list; a
remote form what it sends. FENCE, SIGNAL and WAIT read nothing so. -/
def readSegs (d : List Byte) : List (Nat × Nat) :=
  if !needsTile (dOp d) then []
  else if dRemote d then (remoteRows d).map (fun r => (r.1, r.2.2))
  else (shapeOf d).ins.flatMap Rows.segs ++ (if accumulates d then outSegs d else [])

/-- An operator has its operands, and its blocks are admitted: what it writes. -/
def descWrites (h t : Nat) (d : InDesc) (as : List Access) (s : State) : Nat × State :=
  match dOp d.bytes with
  | 3 => writeGather h t d (as.drop 1) s
  | 8 => writeCopy h t d as s
  | 9 => writeReduce h t d as s
  | 10 => writeScatter h t d as s
  | _ => writeCompute h t d as s

/-- A gather has its index list: poison, a check that fails, or its rows are read next (R217, R263). -/
def gatherStart (h t : Nat) (d : InDesc) (as : List Access) (s : State) : InDesc × State :=
  let rows := gatherRows d.bytes (operandBytes (shapeOf d.bytes).ins as).flatten
  if readFailed as then
    ({ d with stage := 2, ends := stPoison },
      poisonRanges h t d (outSegs d.bytes) (dropOwner (.desc h d.id) s))
  else
    match gatherStatus s t d.bytes rows with
    | some st =>
      let bad := (rows.find? (fun a => (rangeStatus s t a (u32 d.bytes 44)).isSome)).getD (u64 d.bytes 16)
      ({ d with stage := 2, ends := st }, accessEvent t bad st (dropOwner (.desc h d.id) s))
    | none => gatherFeed rows.length h t { d with stage := 1 } rows s

/-- An operator goes on where what it waited for has come: operands, a gather's rows, the admission of its blocks. At stage 2
its writes are under way; where an access ended before its effect, nothing more is issued. -/
def descNext (h t : Nat) (d : InDesc) (s : State) : InDesc × State :=
  let o := Owner.desc h d.id
  let as := accessesOf s o
  let writes := fun (s : State) =>
    let w := descWrites h t d as (dropOwner o s)
    ({ d with stage := 2, ends := w.1 }, w.2)
  if d.stage = 2 || dRemote d.bytes || !needsTile (dOp d.bytes) || (ownerStatus s o).isSome then (d, s)
  else if d.stage = 0 then
    if !ownerDone s o then (d, s)
    else if dOp d.bytes = 3 then gatherStart h t d as s
    else if d.matrix + d.vector ≠ 0 then (d, s)
    else writes s
  else
    let rows := gatherRows d.bytes (operandBytes (shapeOf d.bytes).ins (as.take 1)).flatten
    if d.rows < rows.length then gatherFeed (rows.length - d.rows) h t d rows s
    else if ownerDone s o && d.matrix + d.vector = 0 then writes s
    else (d, s)

/-- The status a descriptor ends with, once its accesses are complete: one that ended before its effect, or a flagged pot
block, or what its writes lead to. -/
def descEnds (s : State) (h : Nat) (d : InDesc) : Nat :=
  match ownerStatus s (.desc h d.id) with
  | some st => st
  | none => if d.ends = stOK && (dOp d.bytes = 9 || dOp d.bytes = 10 || dOp d.bytes = opSignal) &&
      ownerWorst s (.desc h d.id) = 2 then stPoison else d.ends

/-- SIGNAL on this device: one pot atomic of 64 bits (R372). -/
def sendSignal (h t : Nat) (d : InDesc) (s : State) : State :=
  let v := BitVec.ofNat 64 (u64 d.bytes 24)
  askAtomic (.desc h d.id) t (descPort s d) (u64 d.bytes 16) 8
    (if leAt d.bytes 32 1 = 0 then .swap v else .fetchAdd v) (freeStep s)

/-- What a WAIT's word gives now: OK where its condition holds, POISON where it is flagged (R373). -/
def waitStatus (s : State) (t : Nat) (d : List Byte) : Option Nat :=
  match translate s t (u64 d 16) with
  | .inl (.pot o) =>
    if s.pot.clearing.contains (potSlice o / 2) then none
    else if potFlagged s o then some stPoison
    else
      let w := ofLe (potBytes s o 8)
      let v := u64 d 24
      let c := leAt d 32 1
      if (c = 0 && v ≤ w) || (c = 1 && w = v) || (c = 2 && w ≠ v) then some stOK else none
  | .inl _ => some stAtomicUnsupported
  | .inr st => some st

end Sys2Proof.Machine
end

