-- ==== Sys2Proof/Machine/Brew.lean ====
section
/-! DEFINITION. Brew lists (R359 to R366, R371 to R375): tiles between lists, fetching, starting and completing
descriptors, fences, signals and waits, the end of a list, and the compute commands (Table 13.12). -/

namespace Sys2Proof.Machine

open Sys2Proof

/-! ## Lists and tiles -/

/-- The partition of a list is closed: the list pauses at descriptor boundaries (R156, Table 13.10). -/
def paused (s : State) (l : BrewList) : Bool := (partOf s l.tenant).closed || rinseIncomplete s l.tenant

/-- The tiles a tenant may use, in force (R368). -/
def allowedTiles (s : State) (t : Nat) : Nat := cfgN s 0x0A04 0 t

/-- The command's mask AND the allowed mask. -/
def wantedMask (s : State) (l : BrewList) : Nat := Nat.land l.cmdMask.toNat (allowedTiles s l.tenant)

/-- Tile t is in the effective mask of a list: wanted, and not gated off (R359). -/
def tileUsable (s : State) (l : BrewList) (t : Nat) : Bool := (wantedMask s l).testBit t && !gatedOff s (2 * t)

/-- Tiles of the effective mask. -/
def maskTiles (s : State) (l : BrewList) : List Nat := (List.range 16).filter (tileUsable s l)

/-- Every wanted tile is gated off (Table 13.10). -/
def allGated (s : State) (l : BrewList) : Bool := wantedMask s l != 0 && (maskTiles s l).isEmpty

/-- The next descriptor of a list may start but for its tiles (R361). -/
def mayStart (s : State) (l : BrewList) : Bool :=
  !l.stopping && !l.held && !paused s l && l.inflight.length < 8 && !(l.inflight.any (fun d => isBarrier (dOp d.bytes)))

/-- How many tiles the next descriptor of a list asks for; 0 where none is ready to use a tile. -/
def tilesAsked (s : State) (l : BrewList) : Nat :=
  match l.fetched with
  | [] => 0
  | f :: _ =>
    if f.failed = 0 && mayStart s l && needsTile (dOp f.bytes) then
      let m := (maskTiles s l).length
      let n := dTiles f.bytes
      if n = 0 then m else min n m
    else 0

/-- Tiles that a list holds and that run nothing. -/
def idleTiles (s : State) (h : Nat) : List Nat :=
  (List.range 16).filter (fun t => (tileOf s t).holder == some h && !(tileOf s t).running)

/-- Tiles that a list holds. -/
def heldTiles (s : State) (h : Nat) : Nat := ((List.range 16).filter (fun t => (tileOf s t).holder == some h)).length

/-- A list waits for tiles and can use tile t, whose domains have power (R92). -/
def canUse (s : State) (h : Nat) (l : BrewList) (t : Nat) : Bool :=
  tileUsable s l t && s.power.on.getLsbD (2 * t) && s.power.on.getLsbD (2 * t + 1) &&
    (idleTiles s h).length < tilesAsked s l

/-- The rank of a waiting list: priority, then a collective-marked next descriptor, then round robin across tenants, then
the lower handle (R365). Larger goes first. -/
def listRank (s : State) (h : Nat) (l : BrewList) : Nat :=
  let coll := match l.fetched with | [] => false | f :: _ => (dColl f.bytes).isSome
  let turn := 127 - (l.tenant + 127 - s.compute.lastServed) % 128
  ((l.prio * 2 + (if coll then 1 else 0)) * 128 + turn) * 64 + (63 - h)

/-- The best of some waiting lists. -/
def bestList (s : State) (ls : List (Nat × BrewList)) : Option (Nat × BrewList) :=
  ls.foldl (fun b e =>
    match b with
    | none => some e
    | some x => if listRank s x.1 x.2 < listRank s e.1 e.2 then some e else some x) none

/-- Gives a tile to a list. -/
def giveTile (t h : Nat) (s : State) : State :=
  modTile t (fun x => { x with holder := some h, heldSince := s.clock.mark }) s

/-- The list that still waits for tiles and holds tile t, idle: the tile has no descriptor to finish, so it goes to a list
that comes before, and no two lists wait for one another (R366; DEDUCED, log entry 77). -/
def waitingHolder (s : State) (t : Nat) : Option (Nat × BrewList) :=
  match (tileOf s t).holder with
  | none => none
  | some h =>
    match listOf s h with
    | none => none
    | some l => if !(tileOf s t).running && (idleTiles s h).length < tilesAsked s l then some (h, l) else none

/-- Gives every free tile to the list that goes first. -/
def assignTiles (s : State) : State :=
  (List.range 16).foldl (fun s t =>
    let w := waitingHolder s t
    if (tileOf s t).running || ((tileOf s t).holder.isSome && w.isNone) then s
    else
      match bestList s (w.toList ++ s.compute.lists.filter (fun e => canUse s e.1 e.2 t)) with
      | none => s
      | some e => if (tileOf s t).holder == some e.1 then s else giveTile t e.1 s) s

/-- A list gives back at once the idle tiles that its next descriptor does not use, and those outside its mask (R365,
R368). -/
def trimTiles (s : State) : State :=
  s.compute.lists.foldl (fun s e =>
    let idle := idleTiles s e.1
    let keep := (idle.filter (tileUsable s e.2)).take (tilesAsked s e.2)
    (idle.filter (fun t => !keep.contains t)).foldl (fun s t => modTile t (fun x => { x with holder := none }) s) s) s

/-- Tiles after any change of the lists. -/
def settleTiles (s : State) : State := assignTiles (trimTiles s)

/-- Lists that take tile t from list h at a boundary (R366): higher priority, or the same once the quantum is over. -/
def takers (s : State) (h : Nat) (l : BrewList) (t : Nat) : List (Nat × BrewList) :=
  let over_ := cfgN s 0x0A04 2 l.tenant ≤ s.clock.mark - (tileOf s t).heldSince
  s.compute.lists.filter (fun e => e.1 != h && canUse s e.1 e.2 t && (l.prio < e.2.prio || (l.prio == e.2.prio && over_)))

/-- The tiles of a descriptor that completed stop; each goes to a list that takes it (R366). -/
def freeTiles (h : Nat) (l : BrewList) (ts : List Nat) (s : State) : State :=
  ts.foldl (fun s t =>
    let s := modTile t (fun x => { x with running := false, clearing := false }) s
    match bestList s (takers s h l t) with
    | none => s
    | some e => giveTile t e.1 s) s

/-! ## The end of a list -/

/-- Writes a brew-list event to the tenant's ring (Table 13.9). -/
def brewEvent (h reason status ta : Nat) (l : BrewList) (s : State) : State :=
  logEvent 0x0A00 l.tenant (if reason = 1 then 2 else 1) noStack
    (leBytes 1 h ++ leBytes 1 reason ++ leBytes 2 status ++ leBytes 4 l.done ++ leBytes 8 ta) [l.tenant] s

/-- Ends a list: its event, its handle and tiles, and the BREW_STOP commands that wait (R364, R374, R375). -/
def closeList (h reason status ta : Nat) (l : BrewList) (s : State) : State :=
  let s := dropOwner (.fetch h) s
  let s := (List.range 16).foldl (fun s t =>
    if (tileOf s t).holder == some h then modTile t (fun x => { x with holder := none }) s else s) (dropList h s)
  let s := brewEvent h reason status ta l s
  settleTiles (l.stopCmds.foldl (fun s c => finish 0x0A02 c stOK (leBytes 4 l.done) s) s)

/-- Ends a list whose last descriptor has completed. -/
def endIfDone (h : Nat) (s : State) : State :=
  match listOf s h with
  | none => s
  | some l =>
    if !l.inflight.isEmpty then s
    else if l.stopping then closeList h l.reason l.fail l.failTa l s
    else if l.endSeen && l.fetched.isEmpty then closeList h 0 stOK l.endTa l s
    else s

/-- What stays in flight when a list stops: no WAIT, and no signal that has not been sent (R374). -/
def staysInFlight (d : InDesc) : Bool :=
  dOp d.bytes != opWait && (dOp d.bytes != opSignal || d.issued || d.result.isSome || d.stage == 2)

/-- Stops a list after its first n descriptors in flight: no later descriptor starts, no later signal is sent, a WAIT is
abandoned (R374, R375). -/
def stopList (h n reason status ta : Nat) (s : State) : State :=
  match listOf s h with
  | none => s
  | some l =>
    let keep := (l.inflight.take n).filter (fun d => dOp d.bytes != opWait) ++ (l.inflight.drop n).filter staysInFlight
    let l := { l with fetched := [], inflight := keep, fetching := false }
    endIfDone h (setList h
      (if l.stopping then l else { l with stopping := true, reason := reason, fail := status, failTa := ta })
      (dropOwner (.fetch h) s))

/-! ## Fetch (R360) -/

/-- A barrier or an end has been fetched and has not completed. -/
def fetchBlocked (l : BrewList) : Bool :=
  l.endSeen || l.fetched.any (fun f => f.failed != 0 || isBarrier (dOp f.bytes)) ||
    l.inflight.any (fun d => isBarrier (dOp d.bytes))

/-- The next descriptor of a list has been read, or ended with a status. -/
def addFetched (h : Nat) (l : BrewList) (f : Fetched) (s : State) : State :=
  settleTiles (setList h { l with
    fetched := l.fetched ++ [f], fetching := false,
    nextTa := if f.failed = 0 then dNext l.nextTa f.bytes else l.nextTa,
    endSeen := f.failed == 0 && dEnd f.bytes, endTa := f.ta } s)

/-- The port of a fetch: a tile of the list's, which one is free. -/
def fetchPort (s : State) (l : BrewList) : Nat :=
  let ts := maskTiles s l
  5 + ts.getD (freeNat s % ts.length) 0

/-- DESCRIPTOR_FETCH: the next descriptor is read, at most 8 ahead of the oldest that has not started, one at a time. -/
def descriptorFetch (h : Nat) (s : State) : State :=
  match listOf s h with
  | none => s
  | some l =>
    if l.stopping || l.held || l.fetching || paused s l || fetchBlocked l || 9 ≤ l.fetched.length then s
    else
      match rangeStatus s l.tenant l.nextTa 128 with
      | some st =>
        addFetched h l { ta := l.nextTa, bytes := [], failed := st } (accessEvent l.tenant l.nextTa st s)
      | none =>
        ask { owner := .fetch h, tenant := l.tenant, port := fetchPort s l, ta := l.nextTa, len := 128, write := false }
          (setList h { l with fetching := true } (freeStep s))

/-- The fetch of list h has its bytes, or has ended. -/
def fetchDone (h : Nat) (s : State) : State :=
  match listOf s h, accessesOf s (.fetch h) with
  | some l, a :: _ =>
    let r := gathered a
    let st := if a.status ≠ 0 then a.status else if r.anyFailed then stPoison else 0
    let s := dropOwner (.fetch h) s
    if l.fetching then addFetched h l { ta := l.nextTa, bytes := r.bytes, failed := st } s else s
  | _, _ => dropOwner (.fetch h) s

/-- DESCRIPTOR_FETCH (R360). -/
def execDescriptorFetch (h : Fin 64) (s : State) : Host.Outcome State Fault Refusal := .next (descriptorFetch h.val s)

/-! ## Completion (R362, R374) -/

/-- A status that stops the list: any but OK, or but POISON with the continue bit. -/
def stopsList (d : InDesc) (st : Nat) : Bool := st != stOK && !(st == stPoison && dContinue d.bytes)

/-- Descriptor i of list h completes with a status: counts, event, tiles, and the list's end or stop. -/
def completeDesc (h i st : Nat) (s : State) : State :=
  match listOf s h with
  | none => s
  | some l =>
    match l.inflight[i]? with
    | none => s
    | some d =>
      let l := { l with inflight := l.inflight.eraseIdx i, done := (l.done + 1) % 2 ^ 32, lastTa := d.ta }
      let s := countEvent (devCtr 20) 1 (setList h l (dropOwner (.desc h d.id) s))
      let s := d.tiles.foldl (fun s t => countEvent (704 + 4 * t + 2) 1 s) s
      let s := if dFlag d.bytes 3 then brewEvent h 4 st d.ta l s else s
      let s := freeTiles h l d.tiles s
      let s := if stopsList d st then stopList h i 1 st d.ta s else endIfDone h s
      settleTiles s

/-- A mirrored write of the tenant waits for the partner in synchronous mode (R436). -/
def mirrorPending (s : State) (t : Nat) : Bool :=
  mirrorMode s t == 1 && mirrored s t && !((twinPartOf s t).unacked.isEmpty && (twinPartOf s t).outbox.isEmpty)

/-- Sets what descriptor i of list h ends with. -/
def setResult (h i st : Nat) (s : State) : State :=
  match listOf s h with
  | none => s
  | some l =>
    match l.inflight[i]? with
    | none => s
    | some d => setList h { l with inflight := l.inflight.set i { d with result := some st } } s

/-- Descriptor i of list h has its status: it completes, or waits for the partner first. -/
def settleDesc (h i st t : Nat) (s : State) : State :=
  if mirrorPending s t then setResult h i st s else completeDesc h i st s

/-! ## Remote forms (R370, R372) -/

/-- The operation kind of a remote form. -/
def remoteKind (d : List Byte) : Nat := if dOp d = 8 then 0 else if dOp d = 9 then 2 else 3

/-- What a remote form sends in its operation j: bytes, and the poison of their sectors. -/
def remoteData (d : List Byte) (as : List Access) (j : Nat) : List Byte × List Bool :=
  if dOp d = opSignal then (leBytes 8 (u64 d 24), [false])
  else
    match as[j]? with
    | none => ([], [])
    | some a => let r := gathered a; (r.bytes, sectorPoison a.start a.len r.failed)

/-- A remote form may send its frames now: it has read what it sends; a SIGNAL, which reads nothing and so is admitted here
(R76), is the oldest in flight (R372). -/
def mayIssue (s : State) (h i : Nat) (d : InDesc) : Bool :=
  dRemote d.bytes && !d.issued && d.result.isNone && ownerDone s (.desc h d.id) && (ownerStatus s (.desc h d.id)).isNone &&
    (dOp d.bytes != opSignal || (i == 0 && !quiesced s))

/-- Sends the frames of a remote form; on a connection that is not open it ends at once (R420). -/
def issueRemote (h i : Nat) (s : State) : State :=
  match listOf s h with
  | none => s
  | some l =>
    match l.inflight[i]? with
    | none => s
    | some d =>
      let hd := leAt d.bytes 48 2
      if !mayIssue s h i d then s
      else if (connOf s (handlePort s hd) (handleConn s hd)).phase ≠ 2 then completeDesc h i stPeerUnreachable s
      else
        let rows := remoteRows d.bytes
        let as := accessesOf s (.desc h d.id)
        let s := setList h { l with inflight := l.inflight.set i { d with issued := true } } (dropOwner (.desc h d.id) s)
        (List.range rows.length).foldl (fun s j =>
          let r := rows.getD j (0, 0, 0)
          let y := remoteData d.bytes as j
          let signal := dOp d.bytes == opSignal
          issueOp
            { kind := remoteKind d.bytes, tenant := l.tenant, handle := hd, off := r.2.1, localTa := r.1,
              len := r.2.2, coll := dColl d.bytes, op := if signal then leAt d.bytes 32 1 else leAt d.bytes 36 1,
              fmt := if signal then 0 else dIn1 d.bytes, issuer := .descriptor h d.id } y.1 y.2 s) s

/-- Descriptor i of list h goes on as far as it can: a local form to its writes, a SIGNAL that is the oldest in flight to its
atomic, a remote form to its frames. -/
def descProgress (h i : Nat) (s : State) : State :=
  match listOf s h with
  | none => s
  | some l =>
    match l.inflight[i]? with
    | none => s
    | some d =>
      if d.result.isSome then s
      else if dRemote d.bytes then issueRemote h i s
      else if dOp d.bytes = opSignal then
        (if d.stage = 0 && i = 0 then
          sendSignal h l.tenant d (setList h { l with inflight := l.inflight.set i { d with stage := 2 } } s) else s)
      else
        let x := descNext h l.tenant d s
        match listOf x.2 h with
        | none => x.2
        | some l => setList h { l with inflight := modFirst l.inflight (fun y => y.id == d.id) (fun _ => x.1) } x.2

/-- Every descriptor in flight goes on as far as it can. -/
def descsProgress (s : State) : State :=
  s.compute.lists.foldl (fun s e => (List.range e.2.inflight.length).foldl (fun s i => descProgress e.1 i s) s) s

/-! ## Start (R361, R370) -/

/-- Takes tiles for a descriptor, which is its tenant's turn (R365): they run, abandon dummy blocks, and clear for a new tenant (R47, R354). -/
def runTiles (t : Nat) (ts : List Nat) (s : State) : State :=
  let s := if ts.isEmpty then s else { s with compute := { s.compute with lastServed := t } }
  ts.foldl (fun s i => modTile i (fun x =>
    { x with running := true, dummy := false, clearing := x.lastTenant != t, lastTenant := t }) s) s

/-- A collective-marked descriptor's sectors become outstanding (R346). -/
def descCollective (t : Nat) (d : List Byte) (s : State) : State :=
  match dColl d with
  | none => s
  | some id => (descSegs d).foldl (fun s g => collRange id t g.1 g.2 s) s

/-- What a started descriptor is checked to (R370), with DOMAIN_GATED where no tile of its mask is left on (Table 13.10),
or the status of its failed fetch. -/
def startStatus (s : State) (l : BrewList) (f : Fetched) : Option Nat :=
  if f.failed ≠ 0 then some f.failed
  else
    match descCheck s l.tenant f.bytes with
    | some st => some st
    | none => if needsTile (dOp f.bytes) && allGated s l then some stDomainGated else none

/-- DESCRIPTOR_START: the oldest fetched descriptor starts when its tiles are held. A check that fails ends it with no
effect. -/
def descriptorStart (h : Nat) (s : State) : State :=
  match listOf s h with
  | none => s
  | some l =>
    match l.fetched with
    | [] => s
    | f :: rest =>
      let asked := tilesAsked s l
      let needs := f.failed = 0 && needsTile (dOp f.bytes) && !allGated s l
      if !mayStart s l || (needs && (asked = 0 || (idleTiles s h).length < asked)) then s
      else
        let ts := (idleTiles s h).take asked
        let st := startStatus s l f
        let d : InDesc :=
          { id := l.started, ta := f.ta, bytes := f.bytes, tiles := ts, since := now s,
            matrix := if st.isSome then 0 else matrixBlocks f.bytes,
            vector := if st.isSome then 0 else vectorBlocks f.bytes }
        let s := setList h { l with fetched := rest, inflight := l.inflight ++ [d], started := l.started + 1 } s
        let s := descCollective l.tenant f.bytes (runTiles l.tenant ts s)
        match st with
        | some e =>
          settleTiles (completeDesc h l.inflight.length e
            (match rangeOf f.bytes with | none => s | some a => accessEvent l.tenant a e s))
        | none =>
          settleTiles (descProgress h l.inflight.length
            ((readSegs f.bytes).foldl (fun s g => descRead h l.tenant d g s) s))
where
  /-- The first address of a descriptor, for the event of Table 6.6. -/
  rangeOf (d : List Byte) : Option Nat := ((descSegs d).head?).map (·.1)

/-- DESCRIPTOR_START (R361, R370). -/
def execDescriptorStart (h : Fin 64) (s : State) : Host.Outcome State Fault Refusal := .next (descriptorStart h.val s)

/-- The accesses of descriptor d are over: its writes are made, or one of its accesses ended it before its effect. -/
def descOver (s : State) (h : Nat) (d : InDesc) : Bool :=
  ownerDone s (.desc h d.id) && !d.issued && (d.stage == 2 || (ownerStatus s (.desc h d.id)).isSome)

/-- DESCRIPTOR_COMPLETE for descriptor i in flight: nothing happens while it still waits for blocks, for its accesses, for
an earlier descriptor or for a reply. -/
def descriptorComplete (h i : Nat) (s : State) : State :=
  let s := descProgress h i s
  match listOf s h with
  | none => s
  | some l =>
    match l.inflight[i]? with
    | none => s
    | some d =>
      match d.result with
      | some st => if mirrorPending s l.tenant then s else completeDesc h i st s
      | none =>
        if dOp d.bytes = opWait then s
        else if dOp d.bytes = opFence then (if i = 0 then completeDesc h i stOK s else s)
        else if descOver s h d then settleDesc h i (descEnds s h d) l.tenant s
        else s

/-- DESCRIPTOR_COMPLETE (R362, R371, R372). -/
def execDescriptorComplete (h : Fin 64) (i : Nat) (s : State) : Host.Outcome State Fault Refusal :=
  .next (descriptorComplete h.val i s)

/-- The WAIT in flight of a list. -/
def waitIndex (l : BrewList) : Option Nat := findIdx? l.inflight (fun d => dOp d.bytes == opWait)

/-- WAIT_SATISFIED: the condition of the list's WAIT holds, or its word is flagged (R373). -/
def waitSatisfied (h : Nat) (s : State) : State :=
  match listOf s h with
  | none => s
  | some l =>
    match waitIndex l with
    | none => s
    | some i =>
      match l.inflight[i]? with
      | none => s
      | some d =>
        match waitStatus s l.tenant d.bytes with
        | none => s
        | some st => completeDesc h i st s

def execWaitSatisfied (h : Fin 64) (s : State) : Host.Outcome State Fault Refusal := .next (waitSatisfied h.val s)

/-- WAIT_TIMEOUT_EXPIRY: the list's WAIT has reached its timeout (R373). -/
def waitTimeout (h : Nat) (s : State) : State :=
  match listOf s h with
  | none => s
  | some l =>
    match waitIndex l with
    | none => s
    | some i =>
      match l.inflight[i]? with
      | none => s
      | some d =>
        if u32 d.bytes 36 ≠ 0 && due s (d.since + usTicks (u32 d.bytes 36)) then completeDesc h i stWaitTimeout s else s

def execWaitTimeoutExpiry (h : Fin 64) (s : State) : Host.Outcome State Fault Refusal := .next (waitTimeout h.val s)

/-- Requests of an owner that have waited 2 ms on a scalded stack abort (R341). -/
def abortOwner (o : Owner) (s : State) : State :=
  let ids := (accessesOf s o).map (·.id)
  (s.path.reqs.filter (fun r => ids.contains r.access)).foldl (fun s r => abortRequest r.id s) s

/-- A descriptor's requests have waited 2 ms on a scalded stack. -/
def abortDesc (h i : Nat) (s : State) : State :=
  match (listOf s h).bind (fun l => l.inflight[i]?) with
  | none => s
  | some d => abortOwner (.desc h d.id) s

/-! ## Resets (R111, R375) -/

/-- Stops every brew list of a tenant with PARTITION_STOPPED. -/
def stopTenantLists (t : Nat) (s : State) : State :=
  (s.compute.lists.filter (fun e => e.2.tenant == t)).foldl (fun s e =>
    stopList e.1 0 3 stPartitionStopped e.2.lastTa s) s

/-! ## Commands (Table 13.12) -/

/-- Free handles. -/
def freeHandles (s : State) : List Nat := (List.range 64).filter (fun h => (listOf s h).isNone)

/-- Why BREW_START is refused, in the order of R359. -/
def brewRefused (c : Cmd) (s : State) : Option Nat :=
  let t := cmdTarget c
  let m := Nat.land (par c 8 2) (allowedTiles s t)
  if rinseIncomplete s t then some stRinseIncomplete
  else if (partOf s t).closed then some stPartitionClosed
  else if 64 ≤ s.compute.lists.length || 16 ≤ (s.compute.lists.filter (fun e => e.2.tenant == t)).length then some stBusy
  else if par c 0 8 % 128 ≠ 0 || 2 ^ 40 ≤ par c 0 8 || cfgN s 0x0A04 1 t < par c 10 1 || m = 0 then some stBadParam
  else if (List.range 16).all (fun i => !m.testBit i || gatedOff s (2 * i)) then some stDomainGated
  else none

def brewStartWork (c : Cmd) (s : State) : Reply :=
  match brewRefused c s with
  | some st =>
    .done (if st = stRinseIncomplete then accessEvent (cmdTarget c) (par c 0 5) st s else s) st []
  | none =>
    let fh := freeHandles s
    let h := fh.getD (freeNat s % fh.length) 0
    let j := jobArrive (freeStep s)
    let l : BrewList :=
      { tenant := cmdTarget c, prio := par c 10 1, cmdMask := BitVec.ofNat 16 (par c 8 2), held := j.1, nextTa := par c 0 8 }
    let s := countEvent (devCtr 19) 1 (setList h l j.2)
    .done s stOK (leBytes 1 h ++ [0] ++ leBytes 2 (maskOf (maskTiles s l)))

/-- BREW_START (R52, R359). -/
def execBrewStart (c : Cmd) (s : State) : Host.Outcome State Fault Refusal :=
  .next (mailbox 0x0A00 c (brewStartWork c) s)

/-- The state byte of BREW_STATUS. -/
def brewState (s : State) (h : Nat) (l : BrewList) : Nat :=
  if l.stopping then 4
  else if paused s l then 5
  else if (waitIndex l).isSome then 3
  else if (idleTiles s h).length < tilesAsked s l then 2
  else 1

/-- The oldest descriptor not completed, or the failing one. -/
def oldestTa (l : BrewList) : Nat :=
  if l.fail ≠ 0 then l.failTa
  else
    match l.inflight, l.fetched with
    | d :: _, _ => d.ta
    | [], f :: _ => f.ta
    | [], [] => l.nextTa

def brewStatusWork (c : Cmd) (s : State) : Reply :=
  let h := par c 0 1
  if 64 ≤ h then .done s stBadParam []
  else
    match listOf s h with
    | none => .done s stOK [0]
    | some l =>
      if l.tenant ≠ cmdTarget c then .done s stBadParam []
      else
        .done s stOK (leBytes 1 (brewState s h l) ++ leBytes 1 (heldTiles s h) ++ leBytes 2 l.fail ++ leBytes 4 l.done ++
          leBytes 8 (oldestTa l))

/-- BREW_STATUS (R383). -/
def execBrewStatus (c : Cmd) (s : State) : Host.Outcome State Fault Refusal :=
  .next (mailbox 0x0A01 c (brewStatusWork c) s)

def brewStopWork (c : Cmd) (s : State) : Reply :=
  let h := par c 0 1
  match listOf s h with
  | none => .done s stBadParam []
  | some l =>
    if l.tenant ≠ cmdTarget c then .done s stBadParam []
    else
      .over (stopList h 0 2 stListStopped l.lastTa (setList h { l with stopCmds := l.stopCmds ++ [c] } (hold 0x0A02 c s)))

/-- BREW_STOP: the list stops as after a failure, and the command completes when it has ended (R375). -/
def execBrewStop (c : Cmd) (s : State) : Host.Outcome State Fault Refusal :=
  .next (mailbox 0x0A02 c (brewStopWork c) s)

/-- The state byte of TILE_STATUS. -/
def tileState (s : State) (t : Nat) : Nat :=
  let x := tileOf s t
  if gatedOff s (2 * t) && !x.running then 3 else if x.clearing then 2 else if x.running then 1 else if x.dummy then 4 else 0

def tileStatusWork (c : Cmd) (s : State) : Reply :=
  let t := par c 0 1
  if 16 ≤ t then .done s stBadParam []
  else
    let x := tileOf s t
    .done s stOK (leBytes 1 (tileState s t) ++ leBytes 1 (x.holder.getD 0xFF) ++ leBytes 2 x.lastTenant ++ leBytes 4 0 ++
      leBytes 8 x.blocks)

/-- TILE_STATUS (R383). -/
def execTileStatus (c : Cmd) (s : State) : Host.Outcome State Fault Refusal :=
  .next (mailbox 0x0A03 c (tileStatusWork c) s)

def potStatusWork (c : Cmd) (s : State) : Reply :=
  let q := par c 0 1
  if 16 ≤ q then .done s stBadParam []
  else .done s stOK (leBytes 4 (cget s.pot.corrected q) ++ leBytes 4 (cget s.pot.flagsSet q) ++ leBytes 4 (cget s.pot.atomics q))

/-- POT_STATUS (R383). -/
def execPotStatus (c : Cmd) (s : State) : Host.Outcome State Fault Refusal :=
  .next (mailbox 0x0A05 c (potStatusWork c) s)

end Sys2Proof.Machine
end

