-- ==== Sys2Proof/Machine/InfuserMath.lean ====
section
/-! DEFINITION. The modular arithmetic of the infuser: primality (R389), Barrett constants (R391), transforms (R392),
automorphisms (R394), basis conversion (R396), rescaling (R395) and the key switch (R399), on limbs as lists of words. -/

namespace Sys2Proof.Machine

open Sys2Proof

/-- b^e mod q, by squares; n bits of e are looked at. -/
def powLoop (n q b e acc : Nat) : Nat :=
  match n with
  | 0 => acc
  | n + 1 => powLoop n q (b * b % q) (e / 2) (if e % 2 = 1 then acc * b % q else acc)

def powMod (q b e : Nat) : Nat := powLoop 64 q (b % q) e (1 % q)

/-- The inverse modulo a prime (Fermat). -/
def invMod (q x : Nat) : Nat := powMod q x (q - 2)

/-- Modular difference. -/
def subMod (q a b : Nat) : Nat := (a + (q - b % q)) % q

/-- Powers of two that divide n, at most k. -/
def twos (k n : Nat) : Nat :=
  match k with
  | 0 => 0
  | k + 1 => if n % 2 = 0 then 1 + twos k (n / 2) else 0

/-- Squares up to k times until q - 1 appears. -/
def reaches (k q x : Nat) : Bool :=
  match k with
  | 0 => false
  | k + 1 => x == q - 1 || reaches k q (x * x % q)

/-- One Miller–Rabin round with a base. -/
def mrRound (q base : Nat) : Bool :=
  let s := twos 64 (q - 1)
  let x := powMod q base ((q - 1) / 2 ^ s)
  base % q == 0 || x == 1 || reaches s q x

/-- The bases of R389. -/
def mrBases : List Nat := [2, 3, 5, 7, 11, 13, 17, 19, 23, 29, 31, 37]

/-- The primality test of R389. -/
def isPrime (q : Nat) : Bool := decide (2 < q) && q % 2 == 1 && mrBases.all (mrRound q)

/-- Bits that q takes. -/
def bitLen (q : Nat) : Nat := if q = 0 then 0 else Nat.log2 q + 1

/-- The Barrett constant (R391). -/
def barrettMu (q : Nat) : Nat := 2 ^ (2 * bitLen q) / q

/-- The reduction of R391; it gives x mod q for x < q². -/
def barrett (q x : Nat) : Nat :=
  let w := bitLen q
  let t := (x / 2 ^ (w - 1)) * barrettMu q / 2 ^ (w + 1)
  let r := x - t * q
  let r := if q ≤ r then r - q else r
  if q ≤ r then r - q else r

/-- A product modulo q. -/
def mulMod (q a b : Nat) : Nat := barrett q (a * b)

/-- One record of a context (Table 14.2). -/
structure CtxRec where
  q : Nat
  psi : Nat
  psiInv : Nat
  nInv : Nat
  tInv : Nat
  deriving DecidableEq, Repr

/-- brv(k): the low n bits reversed (R392). -/
def brv (n k : Nat) : Nat := sumOf ((List.range n).map (fun i => flag (k.testBit i) (n - 1 - i)))

/-- Forward transform of a limb of 2^n coefficients (R392). -/
def nttLimb (n : Nat) (r : CtxRec) (a : List Nat) : List Nat :=
  (List.range (2 ^ n)).map (fun k =>
    (List.range (2 ^ n)).foldl (fun acc i =>
      (acc + a.getD i 0 * powMod r.q r.psi ((2 * brv n k + 1) * i % (2 * 2 ^ n))) % r.q) 0)

/-- Inverse transform (R392). -/
def inttLimb (n : Nat) (r : CtxRec) (a : List Nat) : List Nat :=
  (List.range (2 ^ n)).map (fun i =>
    mulMod r.q r.nInv ((List.range (2 ^ n)).foldl (fun acc k =>
      (acc + a.getD k 0 * powMod r.q r.psiInv ((2 * brv n k + 1) * i % (2 * 2 ^ n))) % r.q) 0))

/-- X → X^g in coefficient form (R394). -/
def autoCoeff (n g q : Nat) (a : List Nat) : List Nat :=
  let m := 2 ^ n
  (List.range (2 ^ n)).foldl (fun out i =>
    let v := a.getD i 0
    out.set (i * g % m) (if i * g / m % 2 = 1 then subMod q 0 v else v)) (List.replicate m 0)

/-- X → X^g in evaluation form: the slot whose odd exponent is g times as large. -/
def autoEval (n g : Nat) (a : List Nat) : List Nat :=
  (List.range (2 ^ n)).map (fun k => a.getD (brv n (((2 * brv n k + 1) * g % (2 * 2 ^ n)) / 2)) 0)

/-- Word by word. -/
def zipWords (f : Nat → Nat → Nat) (a b : List Nat) : List Nat := List.zipWith f a b

/-- Product of the moduli of some records. -/
def prodQ (l : List CtxRec) : Nat := l.foldl (fun p r => p * r.q) 1

/-- The basis conversion of R396 from limbs on the source records to the target records. -/
def convBasis (src dst : List CtxRec) (limbs : List (List Nat)) : List (List Nat) :=
  let qs := prodQ src
  let ys := (src.zip limbs).map (fun e => e.2.map (fun x => mulMod e.1.q x (invMod e.1.q (qs / e.1.q % e.1.q))))
  let len := (limbs.headD []).length
  dst.map (fun p =>
    (List.range len).map (fun i =>
      ((src.zip ys).foldl (fun acc e => (acc + e.2.getD i 0 * (qs / e.1.q % p.q)) % p.q) 0)))

/-- t modulo a record's modulus where t is not zero: the factor t′ of R395 and R401. -/
def tFactor (t q : Nat) : Nat := if t = 0 then 1 % q else t % q

/-- RESCALE (R395): limbs on records, the last of which is dropped. -/
def rescale (n t : Nat) (recs : List CtxRec) (limbs : List (List Nat)) : List (List Nat) :=
  match recs.getLast?, limbs.getLast? with
  | some rm, some am =>
    let v := (inttLimb n rm am).map (fun x => if t = 0 then x else mulMod rm.q rm.tInv x)
    ((recs.zip limbs).take (recs.length - 1)).map (fun e =>
      let q := e.1.q
      let lift := v.map (fun x => if 2 * x < rm.q then x % q else subMod q x rm.q)
      let b := nttLimb n e.1 lift
      zipWords (fun a c => mulMod q (subMod q a (mulMod q (tFactor t q) c)) (invMod q (rm.q % q))) e.2 b)
  | _, _ => []

/-- The digits of l limbs: first limb and length, α at a time (R399). -/
def digits (l alpha : Nat) : List (Nat × Nat) :=
  (List.range (ceilDiv l alpha)).map (fun d => (d * alpha, min alpha (l - d * alpha)))

/-- ModUp of one digit onto the extended basis, in evaluation form: the digit's own limbs as they are. -/
def modUp (n : Nat) (ext : List CtxRec) (limbs : List (List Nat)) (d : Nat × Nat) : List (List Nat) :=
  let src := (ext.drop d.1).take d.2
  let coeff := (src.zip ((limbs.drop d.1).take d.2)).map (fun e => inttLimb n e.1 e.2)
  (List.range ext.length).map (fun j =>
    if d.1 ≤ j && j < d.1 + d.2 then limbs.getD j []
    else
      match ext[j]? with
      | none => []
      | some r => nttLimb n r ((convBasis src [r] coeff).headD []))

/-- ModDown (R399, R401): l ordinary limbs from l + K. -/
def modDown (n t l : Nat) (ext : List CtxRec) (acc : List (List Nat)) : List (List Nat) :=
  let sp := ext.drop l
  let v := (sp.zip (acc.drop l)).map (fun e =>
    (inttLimb n e.1 e.2).map (fun x => if t = 0 then x else mulMod e.1.q e.1.tInv x))
  let p := prodQ sp
  ((ext.take l).zip (acc.take l)).map (fun e =>
    let q := e.1.q
    let b := nttLimb n e.1 ((convBasis sp [e.1] v).headD [])
    zipWords (fun a c => mulMod q (subMod q a (mulMod q (tFactor t q) c)) (invMod q (p % q))) e.2 b)

/-- The key switch (R399): key d b j is limb j of key[d][b]. Answers the limbs of out[0] and out[1]. -/
def keySwitch (n t l alpha : Nat) (ext : List CtxRec) (limbs : List (List Nat)) (key : Nat → Nat → Nat → List Nat) :
    List (List (List Nat)) :=
  let ups := (digits l alpha).map (modUp n ext limbs)
  (List.range 2).map (fun b =>
    modDown n t l ext ((List.range ext.length).map (fun j =>
      match ext[j]? with
      | none => []
      | some r =>
        (List.range (2 ^ n)).map (fun i =>
          (List.range ups.length).foldl (fun acc d =>
            (acc + ((ups.getD d []).getD j []).getD i 0 * (key d b j).getD i 0) % r.q) 0))))

end Sys2Proof.Machine
end

