-- ==== Sys2Proof/Machine/Infuser.lean ====
section
/-! DEFINITION. The infusers (R384 to R407): contexts, the queue, the checks of Table 14.4 in order, the operations and
how they end (Table 14.5), their steps, and the infuser commands (Table 14.9). -/

namespace Sys2Proof.Machine

open Sys2Proof

/-! ## Contexts (R389, R390) -/

/-- A parsed context (Table 14.2). -/
structure Ctx where
  logN : Nat
  l : Nat
  k : Nat
  alpha : Nat
  t : Nat
  fp : Nat
  recs : List CtxRec
  deriving DecidableEq, Repr

/-- Bytes of a context. -/
def ctxBytes : Nat := 8192

/-- Record r of a context's bytes. -/
def ctxRec (bs : List Byte) (r : Nat) : CtxRec :=
  let o := 64 + 64 * r
  { q := leAt bs o 8, psi := leAt bs (o + 24) 8, psiInv := leAt bs (o + 32) 8, nInv := leAt bs (o + 40) 8,
    tInv := leAt bs (o + 48) 8 }

/-- The context that bytes hold. -/
def ctxOf (bs : List Byte) : Ctx :=
  { logN := leAt bs 4 1, l := leAt bs 5 1, k := leAt bs 6 1, alpha := leAt bs 7 1, t := leAt bs 8 8, fp := leAt bs 16 4,
    recs := (List.range (min 64 (leAt bs 5 1 + leAt bs 6 1))).map (ctxRec bs) }

/-- The CRC over a context, its own bytes taken as zero. -/
def ctxCrc (bs : List Byte) : Nat := (crc32 (bytesAt bs 0 20 ++ [0, 0, 0, 0] ++ bytesAt bs 24 (ctxBytes - 24))).toNat

/-- Magic and CRC are right. -/
def ctxValid (bs : List Byte) : Bool := leAt bs 0 4 == 0x58544E43 && leAt bs 20 4 == ctxCrc bs

/-- Record r of the extended basis of level l: ordinary moduli, then the special ones. -/
def extRecord (x : Ctx) (l j : Nat) : Nat := if j < l then j else x.l + (j - l)

/-- The extended basis of level l. -/
def extBasis (x : Ctx) (l : Nat) : List CtxRec :=
  (List.range (l + x.k)).filterMap (fun j => x.recs[extRecord x l j]?)

/-- Why a record fails, as the reason code of R389. -/
def recordFault (n t : Nat) (earlier : List Nat) (q psi : Nat) : Option Nat :=
  if !(20 ≤ bitLen q && bitLen q ≤ 60) then some 1
  else if q % (2 * 2 ^ n) ≠ 1 then some 2
  else if !isPrime q then some 3
  else if powMod q psi (2 ^ n) ≠ q - 1 then some 4
  else if earlier.contains q then some 5
  else if t ≠ 0 && !(2 ≤ t && t < 2 ^ 60 && Nat.gcd t q == 1) then some 6
  else none

/-- The first record that fails, with its reason. -/
def recordsFault (n t : Nat) (i : Nat) (earlier : List Nat) (l : List (Nat × Nat)) : Option (Nat × Nat) :=
  match l with
  | [] => none
  | (q, psi) :: r =>
    match recordFault n t earlier q psi with
    | some e => some (i, e)
    | none => recordsFault n t (i + 1) (earlier ++ [q]) r

/-- A record's 64 bytes. -/
def ctxRecBytes (n t q psi : Nat) : List Byte :=
  leBytes 8 q ++ leBytes 8 (barrettMu q) ++ leBytes 1 (bitLen q) ++ List.replicate 7 0 ++ leBytes 8 psi ++
    leBytes 8 (powMod q psi (2 * 2 ^ n - 1)) ++ leBytes 8 (invMod q (2 ^ n % q)) ++
    leBytes 8 (if t = 0 then 0 else invMod q (t % q)) ++ List.replicate 8 0

/-- The fingerprint (R390). -/
def fingerprint (head : List Byte) (l : List (Nat × Nat)) : Nat :=
  (crc32 (head ++ l.flatMap (fun e => leBytes 8 e.1 ++ leBytes 8 e.2))).toNat

/-- The 8 KiB of a new context. -/
def newContext (n l k alpha t : Nat) (recs : List (Nat × Nat)) : List Byte :=
  let head := leBytes 1 n ++ leBytes 1 l ++ leBytes 1 k ++ leBytes 1 alpha ++ leBytes 8 t
  let body := leBytes 4 0x58544E43 ++ head ++ leBytes 4 (fingerprint head recs)
  let tail := List.replicate 40 0 ++ recs.flatMap (fun e => ctxRecBytes n t e.1 e.2)
  let all := padTo ctxBytes (body ++ [0, 0, 0, 0] ++ tail)
  padTo ctxBytes (body ++ leBytes 4 (ctxCrc all) ++ tail)

/-! ## Operands -/

/-- The page field at a parameter byte, as a tenant address; bits 31:28 of the field are reserved and ignored (R8). -/
def pageTa (c : Cmd) (o : Nat) : Nat := par c o 4 % 2 ^ 28 * 4096

def opStack (c : Cmd) : Nat := par c 0 1
def opL (c : Cmd) : Nat := par c 2 1
def opF (c : Cmd) : Nat := par c 3 1
def opCount (c : Cmd) : Nat := par c 4 2
def opLogN (c : Cmd) : Nat := par c 6 1
def opCtx (c : Cmd) : Nat := pageTa c 8

/-- An operand: where it lies, how many polynomials, and the context record of each limb. -/
structure Operand where
  ta : Nat
  polys : Nat
  recs : List Nat
  deriving DecidableEq, Repr

/-- Bytes of one limb. -/
def limbBytes (c : Cmd) : Nat := 8 * 2 ^ opLogN c

/-- Bytes of an operand. -/
def Operand.size (o : Operand) (c : Cmd) : Nat := o.polys * o.recs.length * limbBytes c

/-- Records f to f + l - 1. -/
def ownRecs (c : Cmd) : List Nat := (List.range (opL c)).map (· + opF c)

/-- K and α that a key switch names. -/
def ksK (c : Cmd) : Nat := par c 44 1
def ksAlpha (c : Cmd) : Nat := par c 45 1
def ksDnum (c : Cmd) : Nat := ceilDiv (opL c) (ksAlpha c)

/-- Limbs of the key data: digit, polynomial, extended limb (R399). -/
def keyLimbs (c : Cmd) : Nat := 2 * ksDnum c * (opL c + ksK c)

/-- The key data as an operand: its limb j of every group stands on extended record j. The special records follow the
context's L, which x gives. -/
def keyOperand (c : Cmd) (ctxL : Nat) : Operand :=
  let w := opL c + ksK c
  { ta := pageTa c 24 + 256, polys := 1,
    recs := (List.range (keyLimbs c)).map (fun i => if i % w < opL c then i % w else ctxL + (i % w - opL c)) }

/-- The input operands of an operation. -/
def opInputs (op : Nat) (c : Cmd) (ctxL : Nat) : List Operand :=
  let own := fun (o : Nat) (polys : Nat) => ({ ta := pageTa c o, polys := polys, recs := ownRecs c } : Operand)
  match op with
  | 0x0B04 =>
    [own 20 (opCount c), own 24 (if par c 17 1 % 2 = 1 then 1 else opCount c)] ++
      (if par c 16 1 = 3 then [own 28 (opCount c)] else [])
  | 0x0B08 => [own 16 1, keyOperand c ctxL]
  | _ => [own 16 (opCount c)]

/-- Where an operation's output lies: address and bytes. -/
def opOutput (op : Nat) (c : Cmd) : Nat × Nat :=
  let b := limbBytes c
  match op with
  | 0x0B04 => (pageTa c 32, opCount c * opL c * b)
  | 0x0B06 => (pageTa c 20, opCount c * (opL c - 1) * b)
  | 0x0B07 => (pageTa c 20, opCount c * par c 25 1 * b)
  | 0x0B08 => (pageTa c 20, 2 * opL c * b)
  | _ => (pageTa c 20, opCount c * opL c * b)

/-- The scratch of a key switch. -/
def opScratch (op : Nat) (c : Cmd) : List (Nat × Nat) :=
  if op = 0x0B08 then
    let sum := sumOf ((digits (opL c) (ksAlpha c)).map (fun d => opL c + ksK c - d.2))
    [(pageTa c 28, limbBytes c * (sum + 2 * opL c))]
  else []

/-- The ranges that an operation reads: operands, context, key header. -/
def opReads (op : Nat) (c : Cmd) : List (Nat × Nat) :=
  (opInputs op c 0).map (fun o => (o.ta, o.size c)) ++ [(opCtx c, ctxBytes)] ++
    (if op = 0x0B08 then [(pageTa c 24, 256)] else [])

/-- Every range of an operation. -/
def opRanges (op : Nat) (c : Cmd) : List (Nat × Nat) := opReads op c ++ [opOutput op c] ++ opScratch op c

/-! ## Checks (Table 14.4) -/

/-- PD51 + 6n is gated off in force: new work is turned away, what the infuser holds is finished (R92). -/
def infGated (s : State) (n : Nat) : Bool := gatedOff s (51 + 6 * n)

/-- Check 1: permission, partition, infuser. -/
def infCheck1 (op : Nat) (c : Cmd) (n : Nat) (s : State) : Option Nat :=
  let t := cmdTarget c
  if gate op c s = some stNotPermitted then some stNotPermitted
  else if rinseIncomplete s t then some stRinseIncomplete
  else if (partOf s t).closed then some stPartitionClosed
  else if (stackOf s n).retired then some stChannelOffline
  else if !s.power.on.getLsbD (51 + 6 * n) then some stDomainGated
  else if asleep s n then some stStackAsleep
  else if (infuserOf s n).faulted then some stInfuserFaulted
  else none

/-- Parameter bytes lo to hi are zero. -/
def zeroPar (c : Cmd) (lo hi : Nat) : Bool := (List.range (hi + 1 - lo)).all (fun i => par c (lo + i) 1 == 0)

/-- Check 2: fields in range, reserved bytes zero; reserved bits are ignored (R8). -/
def infFields (op : Nat) (c : Cmd) : Bool :=
  opStack c < 8 && between 1 64 (opL c) && between 1 1024 (opCount c) && between 12 17 (opLogN c) &&
    par c 1 1 == 0 && par c 7 1 == 0 && zeroPar c 12 15 &&
    (match op with
      | 0x0B02 | 0x0B03 | 0x0B06 => zeroPar c 24 47
      | 0x0B04 =>
        par c 16 1 ≤ 3 && zeroPar c 18 19 && (par c 16 1 == 3 || par c 28 4 == 0) && zeroPar c 36 47
      | 0x0B05 =>
        par c 24 4 % 2 == 1 && par c 24 4 < 2 * 2 ^ opLogN c && par c 28 1 ≤ 1 && zeroPar c 29 47
      | 0x0B07 =>
        between 1 64 (par c 25 1) && zeroPar c 26 47 &&
          (decide (par c 24 1 + par c 25 1 ≤ opF c) || decide (opF c + opL c ≤ par c 24 1))
      | 0x0B08 =>
        opCount c == 1 && between 1 64 (ksAlpha c) && ksK c ≤ 64 &&
          zeroPar c 46 47
      | _ => false)

/-- Check 3: every range in the infuser's stack window, mapped and open. -/
def infRanges (s : State) (t n : Nat) (l : List (Nat × Nat)) : Option Nat :=
  if l.any (fun r => decide (2 ^ 39 ≤ r.1) || bitsOf r.1 36 3 != n || decide ((n + 1) * 2 ^ 36 < r.1 + r.2)) then
    some stBadParam
  else l.findSome? (fun r => rangeStatus s t r.1 r.2)

/-- An output may coincide exactly with an input: NTT and INTT in place, POINTWISE with a or with c. -/
def mayCoincide (op i : Nat) : Bool := ((op == 0x0B02 || op == 0x0B03) && i == 0) || (op == 0x0B04 && i != 1)

/-- Check 4: an output or scratch overlaps another operand, the context or the key. -/
def infOverlap (op : Nat) (c : Cmd) : Bool :=
  let ins := (opInputs op c 0).map (fun o => (o.ta, o.size c))
  let rest := (opReads op c).drop ins.length
  let out := opOutput op c
  let sc := opScratch op c
  (List.range ins.length).any (fun i =>
    let r := ins.getD i (0, 0)
    overlaps out r && !(mayCoincide op i && out == r)) ||
    rest.any (overlaps out) || sc.any (fun x => overlaps x out || (ins ++ rest).any (overlaps x))

/-- Check 5: the context, once read. -/
def infContext (op : Nat) (c : Cmd) (bs : List Byte) : Bool :=
  let x := ctxOf bs
  ctxValid bs && x.logN == opLogN c && opF c + opL c ≤ x.l + x.k &&
    (match op with
      | 0x0B06 => decide (2 ≤ opL c)
      | 0x0B07 => decide (par c 24 1 + par c 25 1 ≤ x.l + x.k)
      | 0x0B08 => opF c == 0 && decide (opL c ≤ x.l) && decide (1 ≤ x.k) && ksK c == x.k && ksAlpha c == x.alpha
      | _ => true)

/-- Check 6: the store holds what R401 needs. -/
def infStore (op : Nat) (c : Cmd) : Bool :=
  op != 0x0B08 || (max (ksAlpha c) (2 * ksK c) + 4) * limbBytes c ≤ 33554432

/-- Check 7: the reason code of a key header that does not match (R400). -/
def keyFault (c : Cmd) (x : Ctx) (h : List Byte) : Option Nat :=
  if leAt h 0 4 ≠ 0x4845594B || leAt h 4 2 ≠ 1 || leAt h 32 4 ≠ (crc32 (bytesAt h 0 32)).toNat then some 1
  else if leAt h 8 8 ≠ par c 32 8 then some 2
  else if leAt h 16 4 ≠ par c 40 4 || par c 40 4 ≠ x.fp then some 3
  else if leAt h 6 1 ≠ opLogN c || leAt h 7 1 ≠ opL c || leAt h 20 1 ≠ ksK c || leAt h 21 1 ≠ ksAlpha c ||
      leAt h 22 1 ≠ ksDnum c then some 4
  else if leAt h 24 8 ≠ keyLimbs c * limbBytes c then some 5
  else none

/-- Checks 1 to 4: status and reason. -/
def infPrecheck (op : Nat) (c : Cmd) (n : Nat) (s : State) : Option (Nat × Nat) :=
  match infCheck1 op c n s with
  | some st => some (st, 1)
  | none =>
    if !infFields op c then some (stBadParam, 2)
    else
      match infRanges s (cmdTarget c) n (opRanges op c) with
      | some st => some (st, 3)
      | none => if infOverlap op c then some (stBadParam, 4) else none

/-- Checks 5 to 7, with what was read of the context and the key header. One that reads as poison ends the operation with
POISON. -/
def infCheckRead (op : Nat) (c : Cmd) (ctx key : RangeRead) : Option (Nat × Nat) :=
  if ctx.anyFailed then some (stPoison, 5)
  else if !infContext op c ctx.bytes then some (stBadParam, 5)
  else if !infStore op c then some (stBadParam, 6)
  else if op ≠ 0x0B08 then none
  else if key.anyFailed then some (stPoison, 7)
  else (keyFault c (ctxOf ctx.bytes) key.bytes).map (fun e => (stKeyMismatch, e))

/-! ## Steps (R404, Table 14.6) -/

/-- k steps of a phase with the same multiplies and adds. -/
def stepsOf (k phase m a : Nat) : List (Nat × Nat × Nat) := List.replicate k (phase, m, a)

/-- The steps of an operation; t tells whether the context has a correction modulus. -/
def opSteps (op : Nat) (c : Cmd) (hasT : Bool) : List (Nat × Nat × Nat) :=
  let n := opLogN c
  let w := 2 ^ n
  let h := w / 2 * n
  let l := opL c
  let cnt := opCount c
  let tn := if hasT then w else 0
  match op with
  | 0x0B02 => stepsOf (cnt * l) 1 h (w * n)
  | 0x0B03 => stepsOf (cnt * l) 1 (h + w) (w * n)
  | 0x0B04 =>
    let f := par c 16 1
    stepsOf (cnt * l) 1 (if f ≤ 1 then 0 else w) (if f = 2 then 0 else w)
  | 0x0B05 => []
  | 0x0B06 =>
    (List.replicate cnt (stepsOf 1 1 (h + w + tn) (w * n) ++ stepsOf (l - 1) 1 (h + 2 * w + tn) (w * n + w))).flatten
  | 0x0B07 => (List.replicate cnt (stepsOf l 1 w 0 ++ stepsOf (par c 25 1) 1 (w * l) (w * l))).flatten
  | _ =>
    let k := ksK c
    let ds := digits l (ksAlpha c)
    stepsOf l 1 (h + w) (w * n) ++
      ds.flatMap (fun d => stepsOf (l + k - d.2) 1 (d.2 * w + h) (d.2 * w + w * n)) ++
      stepsOf (l + k) 2 (2 * ds.length * w) (2 * ds.length * w) ++
      stepsOf (2 * k) 3 (h + w) (w * n) ++ stepsOf (2 * l) 3 (k * w + h + w + tn) (k * w + w * n + w)

/-- Ticks that a step's arithmetic takes at L/8 of the unthrottled rate of 1024 multiplies and 2048 adds a tick (R338,
R405). -/
def stepTicks (l m a : Nat) : Nat := ceilDiv (8 * max m (ceilDiv a 2)) (1024 * max 1 l)

/-- The infuser may start a step: its stack is not cut (R403), and in simmer the last step is done (R338). -/
def stepReady (s : State) (n : Nat) : Bool :=
  match (stackOf s n).thermal.heat with
  | .scald => false
  | .simmer => (infuserOf s n).notBefore ≤ now s
  | _ => true

/-- Admits the next step of the running operation, if the allowance covers it (R45, R404). -/
def admitStep (n : Nat) (s : State) : State :=
  let i := infuserOf s n
  match i.running, i.steps with
  | some _, (ph, m, a) :: rest =>
    if !stepReady s n then s else
    (match allow n (evPower s .mul n m + evPower s .add n a) s with
      | none => allowanceWait s
      | some s =>
        let s := countEv .add .user n a (countEv .mul .user n m s)
        let s := countEvent (stackCtr n 21) ((i.multiplies + m) / 2 ^ 20 - i.multiplies / 2 ^ 20) s
        modInfuser n (fun i => { i with
          steps := rest, phase := ph, multiplies := i.multiplies + m,
          notBefore := now s + stepTicks (stackOf s n).thermal.step m a }) s)
  | _, _ => s

/-! ## What an operation computes -/

/-- The words of limb i of an operand's bytes. -/
def wordsAt (n : Nat) (bs : List Byte) (i : Nat) : List Nat :=
  (List.range (2 ^ n)).map (fun j => leAt bs ((i * 2 ^ n + j) * 8) 8)

/-- Words as bytes. -/
def wordBytes (l : List Nat) : List Byte := l.flatMap (leBytes 8)

/-- The limbs of polynomial p of an operand with l limbs. -/
def polyAt (n l p : Nat) (bs : List Byte) : List (List Nat) := (List.range l).map (fun r => wordsAt n bs (p * l + r))

/-- One polynomial of an operation but for the key switch: a, b and c are its operands' limbs. -/
def polyResult (op : Nat) (c : Cmd) (x : Ctx) (a b d : List (List Nat)) : List (List Nat) :=
  let n := opLogN c
  let recs := (x.recs.drop (opF c)).take (opL c)
  match op with
  | 0x0B02 => (recs.zip a).map (fun e => nttLimb n e.1 e.2)
  | 0x0B03 => (recs.zip a).map (fun e => inttLimb n e.1 e.2)
  | 0x0B04 =>
    (List.range recs.length).map (fun r =>
      let q := (recs.map (·.q)).getD r 0
      let u := a.getD r []
      let v := b.getD r []
      match par c 16 1 with
      | 0 => zipWords (fun x y => (x + y) % q) u v
      | 1 => zipWords (subMod q) u v
      | 2 => zipWords (mulMod q) u v
      | _ => zipWords (fun x y => (x + y) % q) (zipWords (mulMod q) u v) (d.getD r []))
  | 0x0B05 =>
    (recs.zip a).map (fun e =>
      if par c 28 1 = 0 then autoCoeff n (par c 24 4) e.1.q e.2 else autoEval n (par c 24 4) e.2)
  | 0x0B06 => rescale n x.t recs a
  | _ => convBasis recs ((x.recs.drop (par c 24 1)).take (par c 25 1)) a

/-- An operation's output bytes from its operands' bytes. -/
def opResult (op : Nat) (c : Cmd) (x : Ctx) (ins : List (List Byte)) : List Byte :=
  let n := opLogN c
  let l := opL c
  if op = 0x0B08 then
    let w := l + ksK c
    (keySwitch n x.t l (ksAlpha c) (extBasis x l) (polyAt n l 0 (ins.getD 0 []))
      (fun d b j => wordsAt n (ins.getD 1 []) ((2 * d + b) * w + j))).flatMap (fun p => p.flatMap wordBytes)
  else
    (List.range (opCount c)).flatMap (fun p =>
      (polyResult op c x (polyAt n l p (ins.getD 0 []))
        (polyAt n l (if par c 17 1 % 2 = 1 then 0 else p) (ins.getD 1 [])) (polyAt n l p (ins.getD 2 []))).flatMap wordBytes)

/-- Why reading an operand stops: the first of its limbs with a failed sector or a word not below its modulus (R263,
R388), as status and limb. -/
def operandStop (c : Cmd) (x : Ctx) (o : Operand) (r : RangeRead) : Option (Nat × Nat) :=
  let n := opLogN c
  let per := limbBytes c / 32
  (List.range (o.polys * o.recs.length)).findSome? (fun i =>
    if ((r.failed.drop (i * per)).take per).any id then some (stPoison, i % o.recs.length)
    else
      let q := ((x.recs[o.recs.getD (i % o.recs.length) 0]?).map (·.q)).getD 0
      if (wordsAt n r.bytes i).any (fun v => decide (q ≤ v)) then some (stNoncanonical, i % o.recs.length) else none)

/-! ## How an operation ends -/

/-- The result bytes of an operation command (R407). The run time in µs is rounded either way. -/
def infResult (s : State) (reason phase limb since : Nat) : List Byte :=
  let dt := now s - since
  leBytes 1 reason ++ leBytes 1 phase ++ leBytes 2 limb ++
    leBytes 4 (dt / 1000 + (if dt % 1000 = 0 then 0 else freeNat s % 2))

/-- The oldest queued operation is at the head from now on. -/
def newHead (n : Nat) (s : State) : State :=
  modInfuser n (fun i =>
    { i with queue := match i.queue with | [] => [] | o :: r => { o with since := now s } :: r }) s

/-- Ends the running operation with a status. -/
def endInfuser (n : Nat) (o : InfOp) (st reason phase limb : Nat) (s : State) : State :=
  let r := infResult s reason phase limb (infuserOf s n).startedAt
  let s := modInfuser n (fun i => { i with
    running := none, steps := [], context := [], phase := 0, operand := 0, stage := 0, ends := none,
    completed := i.completed + 1 }) (freeStep (dropOwner (.infuser n) s))
  doneAfterMirror o.tenant o.op.toNat o.cmd st r (newHead n (countEvent (stackCtr n 22) 1 s))

/-- An access of infuser n, on port 21, with no collective flag (R386). -/
def infAsk (n : Nat) (o : InfOp) (ta len : Nat) (write : Bool) : Ask :=
  { owner := .infuser n, tenant := o.tenant, port := 21, ta := ta, len := len, write := write }

/-- The scratch of a key switch that has started holds nothing that can be relied on (R401): its bytes are free. -/
def looseScratch (o : InfOp) (s : State) : State :=
  (opScratch o.op.toNat o.cmd).foldl (fun s g =>
    (unitStarts g.1 g.2).foldl (fun s a =>
      match translate s o.tenant a with
      | .inl (.hbm m off) => writeSector (sectorAt s m off) (colourOf s o.tenant) false (leBytes 32 (freeNat s)) (freeStep s)
      | _ => s) s) s

/-- The running operation stops and its whole output range is written as poison, with free data (R263); once that is visible
it ends with a status. -/
def poisonOutput (n : Nat) (o : InfOp) (st phase limb : Nat) (s : State) : State :=
  let g := opOutput o.op.toNat o.cmd
  let s := modInfuser n (fun i => { i with steps := [], stage := 3, ends := some (st, 0, phase, limb) })
    (dropOwner (.infuser n) s)
  ask { infAsk n o g.1 g.2 true with data := leBytes g.2 (freeNat s), poison := (unitStarts g.1 g.2).map (fun _ => true) }
    (freeStep s)

/-- Stops a started operation: what it has written of its output stays (R403). -/
def stopInfuser (n : Nat) (o : InfOp) (st : Nat) (s : State) : State :=
  endInfuser n o st 0 (infuserOf s n).phase (freeNat s % 65536) (freeStep (looseScratch o s))

/-- A compare fault (R398): output poisoned, counted, logged; the third within 2^30 ticks faults the infuser. -/
def compareFault (n : Nat) (o : InfOp) (limb : Nat) (s : State) : State :=
  let recent := ((infuserOf s n).faultTimes.filter (fun t => now s < t + 2 ^ 30)) ++ [now s]
  let bad := 3 ≤ recent.length
  let args := leBytes 2 o.op.toNat ++ leBytes 1 limb
  let ph := (infuserOf s n).phase
  let s := modInfuser n (fun i => { i with
    compareFaults := i.compareFaults + 1, faultTimes := recent, faulted := i.faulted || bad }) s
  let s := logEvent 0x0B00 o.tenant 2 n args [0] s
  let s := if bad then assertAlert s.tele.logSeq.toNat (logEvent 0x0B00 o.tenant 3 n args [0] s) else s
  poisonOutput n o stCompareFault ph limb s

/-! ## The running operation's accesses -/

/-- Reads the running operation's next operand. -/
def readOperand (n : Nat) (o : InfOp) (x : Ctx) (i : Nat) (s : State) : State :=
  match (opInputs o.op.toNat o.cmd x.l)[i]? with
  | none => s
  | some r => ask (infAsk n o r.ta (r.size o.cmd) false) (modInfuser n (fun q => { q with operand := i }) s)

/-- Reads or writes a key switch's scratch. -/
def scratchAccess (n : Nat) (o : InfOp) (write : Bool) (s : State) : State :=
  (opScratch o.op.toNat o.cmd).foldl (fun s g =>
    ask { infAsk n o g.1 g.2 write with data := if write then leBytes g.2 (freeNat s) else [] } (freeStep s)) s

/-- The running operation has read its operands and has no step left: it writes its output. -/
def writeOutput (n : Nat) (o : InfOp) (x : Ctx) (s : State) : State :=
  let op := o.op.toNat
  let ins := ((accessesOf s (.infuser n)).take (opInputs op o.cmd x.l).length).map (fun a => (gathered a).bytes)
  let s := modInfuser n (fun i => { i with stage := 3, ends := some (stOK, 0, i.phase, 0) }) (dropOwner (.infuser n) s)
  let bytes := opResult op o.cmd x ins
  ask { infAsk n o (opOutput op o.cmd).1 bytes.length true with data := bytes } s

/-- The running operation reads its operands one by one, up to the first failed sector or word (R263, R388); a key switch
then writes its scratch and reads it back; the output follows the last step. -/
def infuserRuns (n : Nat) (o : InfOp) (s : State) : State :=
  let i := infuserOf s n
  let own := Owner.infuser n
  let x := ctxOf i.context
  let as := accessesOf s own
  let done := ownerDone s own
  let ins := opInputs o.op.toNat o.cmd x.l
  match ownerStatus s own with
  | some st => if i.stage = 3 && !done then s else stopInfuser n o st s
  | none =>
    if i.stage = 0 then
      (match ins[i.operand]?, as[i.operand]? with
        | some r, some a =>
          (match operandStop o.cmd x r (gathered a) with
            | some e => poisonOutput n o e.1 (if i.operand = 1 && o.op == 0x0B08#16 then 2 else 1) e.2 (looseScratch o s)
            | none =>
              if !done then s
              else if i.operand + 1 < ins.length then readOperand n o x (i.operand + 1) s
              else scratchAccess n o true (modInfuser n (fun q => { q with stage := 1 }) s))
        | _, _ => s)
    else if i.stage = 3 then s
    else if (as.drop ins.length).any (fun a => !a.write && (gathered a).anyFailed) then
      poisonOutput n o stPoison i.phase (freeNat s % 65536) (freeStep (looseScratch o s))
    else if !done then s
    else if i.stage = 1 then scratchAccess n o false (modInfuser n (fun q => { q with stage := 2 }) s)
    else if i.steps.isEmpty then writeOutput n o x s
    else s

/-- Operations with the hardened kernel (R396). -/
def usesKernel (op : Nat) : Bool := op == 0x0B06 || op == 0x0B07 || op == 0x0B08

/-- INFUSER_OP_COMPLETE: the running operation ends as the datapaths and the stack decide. -/
def infuserComplete (n : Nat) (how : InfuserEnd) (s : State) : State :=
  let i := infuserOf s n
  match i.running with
  | none => s
  | some o =>
    match how with
    | .compareFault limb => if usesKernel o.op.toNat && i.ends.isNone then compareFault n o limb s else s
    | .stackRetired => if (stackOf s n).retired then stopInfuser n o stChannelOffline s else s
    | .asleep => if asleep s n then stopInfuser n o stStackAsleep s else s
    | .ran =>
      let s := infuserRuns n o s
      match (infuserOf s n).running, (infuserOf s n).ends with
      | some _, some e => if ownerDone s (.infuser n) then endInfuser n o e.1 e.2.1 e.2.2.1 e.2.2.2 s else s
      | _, _ => s

/-- INFUSER_OP_COMPLETE (R398, R403). -/
def execInfuserOpComplete (n : Fin 8) (how : InfuserEnd) (s : State) : Host.Outcome State Fault Refusal :=
  .next (infuserComplete n.val how s)

/-- Ends the operation at the head of the queue without starting it. -/
def failHead (n : Nat) (o : InfOp) (st reason : Nat) (s : State) : State :=
  let s := modInfuser n (fun i => { i with
    completed := i.completed + 1, keyMismatches := i.keyMismatches + (if st = stKeyMismatch then 1 else 0) })
      (countEvent (stackCtr n 22) 1 s)
  let s := if st = stKeyMismatch then
      logEvent 0x0B01 o.tenant 2 n (leBytes 1 reason ++ leBytes 8 (par o.cmd 32 8)) [] s else s
  finish o.op.toNat o.cmd st (infResult s reason 0 0 o.since) (newHead n (freeStep s))

/-- The event of Table 6.6 for an operation that its ranges or its partition turn away. -/
def infRefused (o : InfOp) (e : Nat × Nat) (s : State) : State :=
  if e.2 = 3 || e.1 = stRinseIncomplete then accessEvent o.tenant (opCtx o.cmd) e.1 s else s

/-- INFUSER_OP_START: the head of the queue passes checks 1 to 4 and reads its context and key header, or ends with no
effect (R386, R402). -/
def infuserStart (n : Nat) (s : State) : State :=
  let i := infuserOf s n
  match i.running, i.queue with
  | none, o :: rest =>
    let op := o.op.toNat
    if o.held || i.checking then s
    else
      match infPrecheck op o.cmd n s with
      | some e => failHead n o e.1 e.2 (modInfuser n (fun i => { i with queue := rest }) (infRefused o e s))
      | none =>
        let s := modInfuser n (fun i => { i with checking := true }) (dropOwner (.infuser n) s)
        let s := ask (infAsk n o (opCtx o.cmd) ctxBytes false) s
        if op = 0x0B08 then ask (infAsk n o (pageTa o.cmd 24) 64 false) s else s
  | _, _ => s

/-- The head of the queue leaves it, checked. -/
def popHead (n : Nat) (s : State) : State :=
  modInfuser n (fun i => { i with queue := i.queue.tail, checking := false }) (dropOwner (.infuser n) s)

/-- The context and key header of the queue's head have been read: checks 5 to 7, then the operation starts (R402). -/
def infuserChecked (n : Nat) (s : State) : State :=
  let own := Owner.infuser n
  match (infuserOf s n).queue with
  | [] => s
  | o :: _ =>
    if !ownerDone s own then s
    else
      let as := (accessesOf s own).map gathered
      let blank : RangeRead := { bytes := [], failed := [] }
      let op := o.op.toNat
      let ctx := as.getD 0 blank
      let s' := popHead n s
      match ownerStatus s own with
      | some st => failHead n o st 5 s'
      | none =>
        match infCheckRead op o.cmd ctx (as.getD 1 blank) with
        | some e => failHead n o e.1 e.2 s'
        | none =>
          let x := ctxOf ctx.bytes
          readOperand n o x 0 (modInfuser n (fun i => { i with
            running := some o, startedAt := now s, context := ctx.bytes, lastTenant := o.tenant, phase := 1, stage := 0,
            ends := none, steps := opSteps op o.cmd (x.t != 0) }) s')

/-- Infuser n goes on as far as what it has read and written lets it. -/
def infuserTurn (n : Nat) (s : State) : State :=
  match (infuserOf s n).running with
  | some o => infuserRuns n o s
  | none => if (infuserOf s n).checking then infuserChecked n s else s

/-- INFUSER_OP_START (R386, R402). -/
def execInfuserOpStart (n : Fin 8) (s : State) : Host.Outcome State Fault Refusal := .next (infuserStart n.val s)

/-- What has waited 2 ms on the scalded stack of infuser n: the started operation stops; the head that waits for its
context ends (R341, R403). -/
def abortInfuser (n : Nat) (s : State) : State :=
  let i := infuserOf s n
  match i.running, i.queue with
  | some o, _ => if waitedOut s n i.startedAt then countAborted n none (stopInfuser n o stThermalAbort s) else s
  | none, o :: _ =>
    if o.held || !waitedOut s n o.since || (infPrecheck o.op.toNat o.cmd n s).isSome then s
    else countAborted n none (failHead n o stThermalAbort 0 (popHead n s))
  | none, [] => s

/-! ## Commands -/

/-- An operation command joins the queue of its infuser (R386); a held job start holds it (R52). -/
def infuseWork (op : Nat) (c : Cmd) (s : State) : Reply :=
  let n := opStack c
  let t := cmdTarget c
  if rinseIncomplete s t then .done (accessEvent t (opCtx c) stRinseIncomplete s) stRinseIncomplete [1]
  else if (partOf s t).closed then .done s stPartitionClosed [1]
  else if 8 ≤ n then .done s stBadParam [2]
  else if infGated s n then .done s stDomainGated [1]
  else if (infuserOf s n).faulted then .done s stInfuserFaulted [1]
  else if 64 ≤ (infuserOf s n).queue.length then .done s stBusy []
  else
    let j := jobArrive s
    let o : InfOp := { op := BitVec.ofNat 16 op, cmd := c, tenant := t, held := j.1, since := now s }
    .wait (modInfuser n (fun i => { i with queue := i.queue ++ [o] }) j.2)

/-- INFUSE_NTT (R392). -/
def execInfuseNtt (c : Cmd) (s : State) : Host.Outcome State Fault Refusal := .next (mailbox 0x0B02 c (infuseWork 0x0B02 c) s)

/-- INFUSE_INTT (R392). -/
def execInfuseIntt (c : Cmd) (s : State) : Host.Outcome State Fault Refusal := .next (mailbox 0x0B03 c (infuseWork 0x0B03 c) s)

/-- INFUSE_POINTWISE (R393). -/
def execInfusePointwise (c : Cmd) (s : State) : Host.Outcome State Fault Refusal :=
  .next (mailbox 0x0B04 c (infuseWork 0x0B04 c) s)

/-- INFUSE_AUTOMORPH (R394). -/
def execInfuseAutomorph (c : Cmd) (s : State) : Host.Outcome State Fault Refusal :=
  .next (mailbox 0x0B05 c (infuseWork 0x0B05 c) s)

/-- INFUSE_RESCALE (R395). -/
def execInfuseRescale (c : Cmd) (s : State) : Host.Outcome State Fault Refusal :=
  .next (mailbox 0x0B06 c (infuseWork 0x0B06 c) s)

/-- INFUSE_BASECONV (R396). -/
def execInfuseBaseconv (c : Cmd) (s : State) : Host.Outcome State Fault Refusal :=
  .next (mailbox 0x0B07 c (infuseWork 0x0B07 c) s)

/-- INFUSE_KEYSWITCH (R399). -/
def execInfuseKeyswitch (c : Cmd) (s : State) : Host.Outcome State Fault Refusal :=
  .next (mailbox 0x0B08 c (infuseWork 0x0B08 c) s)

/-- The records that INFUSER_PREPARE reads from host memory. -/
def prepareRecords (c : Cmd) : List (Nat × Nat) :=
  (List.range (par c 3 1 + par c 4 1)).map (fun i => (hostAt c (16 * i) 8, hostAt c (16 * i + 8) 8))

/-- Check 2 of INFUSER_PREPARE, with the limits of R389. -/
def prepareFields (c : Cmd) : Bool :=
  par c 0 1 < 8 && between 12 17 (par c 2 1) && between 1 64 (par c 3 1) && par c 3 1 + par c 4 1 ≤ 64 &&
    between 1 (par c 3 1) (par c 5 1) && par c 16 8 % 16 == 0 && par c 1 1 == 0 && zeroPar c 6 7 &&
    zeroPar c 12 15 && zeroPar c 32 47

/-- The context that INFUSER_PREPARE writes. -/
def prepareContext (c : Cmd) : List Byte :=
  newContext (par c 2 1) (par c 3 1) (par c 4 1) (par c 5 1) (par c 24 8) (prepareRecords c)

/-- The result of a PREPARE that failed outside its records. -/
def prepareFailed : List Byte := [0, 0, 0, 0, 0xFF, 0]

def infuserPrepareWork (c : Cmd) (s : State) : Reply :=
  let n := par c 0 1
  let t := cmdTarget c
  if 8 ≤ n then .done s stBadParam prepareFailed
  else
    match (if infGated s n then some stDomainGated else infCheck1 0x0B01 c n s) with
    | some st => .done (if st = stRinseIncomplete then accessEvent t (pageTa c 8) st s else s) st prepareFailed
    | none =>
      if !prepareFields c then .done s stBadParam prepareFailed
      else
        match recordsFault (par c 2 1) (par c 24 8) 0 [] (prepareRecords c) with
        | some e => .done s stBadParam ([0, 0, 0, 0] ++ leBytes 1 e.1 ++ leBytes 1 e.2)
        | none =>
          match infRanges s t n [(pageTa c 8, ctxBytes)] with
          | some st => .done (accessEvent t (pageTa c 8) st s) st prepareFailed
          | none =>
            let a : Ask := {
              owner := .command 0x0B01 c, tenant := t, port := 21, ta := pageTa c 8, len := ctxBytes, write := true
              data := prepareContext c }
            .wait (ask a s)

/-- The new context is written, or its access ended before it was: INFUSER_PREPARE completes. -/
def prepareDone (c : Cmd) (s : State) : State :=
  let o : Owner := .command 0x0B01 c
  match ownerStatus s o with
  | some st => finish 0x0B01 c st prepareFailed (dropOwner o s)
  | none =>
    doneAfterMirror (cmdTarget c) 0x0B01 c stOK (leBytes 4 (leAt (prepareContext c) 16 4) ++ [0xFF, 0]) (dropOwner o s)

/-- INFUSER_PREPARE (R389, R390, R402). -/
def execInfuserPrepare (c : Cmd) (s : State) : Host.Outcome State Fault Refusal :=
  .next (mailbox 0x0B01 c (infuserPrepareWork c) s)

def infuserStatusWork (c : Cmd) (s : State) : Reply :=
  let n := par c 0 1
  if 8 ≤ n then .done s stBadParam []
  else
    let i := infuserOf s n
    let st := if (stackOf s n).retired then 4 else if i.faulted then 3 else if i.running.isSome then 1
      else if gatedOff s (51 + 6 * n) then 2 else 0
    .done s stOK (leBytes 1 st ++ leBytes 1 i.queue.length ++ leBytes 2 ((i.running.map (·.tenant)).getD 0xFFFF) ++
      leBytes 4 i.completed ++ leBytes 2 i.compareFaults ++ leBytes 2 i.keyMismatches ++ leBytes 4 (i.multiplies / 2 ^ 20))

/-- INFUSER_STATUS (R407). -/
def execInfuserStatus (c : Cmd) (s : State) : Host.Outcome State Fault Refusal :=
  .next (mailbox 0x0B00 c (infuserStatusWork c) s)

end Sys2Proof.Machine
end

