-- ==== Sys2Proof/Machine/Admission.lean ====
section
/-! DEFINITION. Kettle admission of waiting work (R42, R43, R45), and BAR2 accesses as they arrive at it (R182, R379). -/

namespace Sys2Proof.Machine

open Sys2Proof

/-! ## The order of admission (R43) -/

/-- The owner of a request's access; a request whose access has gone is the host's. -/
def ownerOf (s : State) (r : Req) : Owner := ((accessOfId s r.access).map (·.owner)).getD .host

/-- A slice pair under a pot request is being cleared, so that it waits for the clear and not for the allowance (R91). -/
def waitsClear (s : State) (r : Req) : Bool :=
  r.kind == .pot &&
    (if ownerOf s r == .host then potClearing s r.tenant r.offset (accessLen s r.access) else reqClearing s r)

/-- The part of the allowance that the tile share leaves to tile blocks (R343). -/
def tileRoom (s : State) (debit : Nat) : Bool :=
  s.kettle.tileSpent + debit ≤ s.kettle.allowanceFull * s.hub.share / 8

/-- The descriptor that tile t runs: its list, place in flight and self. -/
def tileWork (s : State) (t : Nat) : Option (Nat × Nat × BrewList × InDesc) :=
  match (tileOf s t).holder with
  | none => none
  | some h =>
    match listOf s h with
    | none => none
    | some l =>
      match findIdx? l.inflight (fun d => d.tiles.contains t) with
      | none => none
      | some i => (l.inflight[i]?).map (fun d => (h, i, l, d))

/-- The rank of a tile's next block: its descriptor's collective flag. -/
def blockRank (d : InDesc) : Nat := if (dColl d.bytes).isSome then 4 else 0

/-- The event of a descriptor's next block. -/
def blockEv (d : InDesc) : Ev := if d.matrix ≠ 0 then matrixEv d.bytes else .int8

/-- Work that waits for the allowance, as rank and tenant: requests at the second gate that wait for nothing else, tiles with
a block left that their share has room for, and infusers with a step left. -/
def kettleWaiters (s : State) : List (Nat × Nat) :=
  ((s.path.reqs.filter (fun x => x.place == .kettle && !earlierWaits s x && !waitsClear s x)).map
    (fun x => (reqRank s x, x.tenant))) ++
  ((List.range 16).filterMap (fun t => (tileWork s t).bind (fun w =>
    if w.2.2.2.matrix + w.2.2.2.vector ≠ 0 && tileRoom s (evPower s (blockEv w.2.2.2) 8 1) then
      some (blockRank w.2.2.2, w.2.2.1.tenant) else none))) ++
  ((List.range 8).filterMap (fun n =>
    match (infuserOf s n).running, (infuserOf s n).steps with
    | some o, _ :: _ => if stepReady s n then some (0, o.tenant) else none
    | _, _ => none))

/-- Other work waits for the allowance and goes before work of a rank and tenant: higher in rank, or of equal rank with its
tenant's turn first. -/
def kettleFirst (s : State) (rank t : Nat) : Bool :=
  (kettleWaiters s).any (fun x => goesFirst s.kettle.lastTenant rank t x.1 x.2)

/-- Work of tenant t has been admitted: the round robin goes on behind it. -/
def tenantServed (t : Nat) (s : State) : State := { s with kettle := { s.kettle with lastTenant := t } }

/-! ## Requests -/

/-- The link payload that a request moves: host accesses over the host port, writes of received frames over their peer port
(R42). -/
def linkDebit (s : State) (r : Req) (units : Nat) : Nat :=
  match ownerOf s r with
  | .host => evPower s .host 8 units
  | .frame _ => if r.write then evPower s .peer 8 units else 0
  | _ => 0

/-- A host pot access at admission: its checks again, the slice clear, its debit, then its effect (R42, R91). -/
def admitPot (r : Req) (s : State) : State :=
  let len := accessLen s r.access
  match bar2Status s r.tenant r.offset len with
  | some (ta, st) => endAccess r.access st (accessEvent r.tenant ta st s)
  | none =>
    match allow hubUnit (potDebit s len + linkDebit s r (units64 len)) s with
    | none => allowanceWait s
    | some s =>
      let tag := ((accessOfId s r.access).map (·.tag)).getD 0
      potPerform r.tenant tag r.offset len r.write r.data r.poison r.atomic
        (dropAccess r.access (dropReq r.id (tenantServed r.tenant s)))

/-- An engine's pot request at admission (R42, R91). -/
def admitEnginePot (r : Req) (s : State) : State :=
  match gateStatus s r with
  | some st => endAccess r.access st (accessEvent r.tenant r.ta st s)
  | none =>
    match allow hubUnit (potDebit s (potLen r) + linkDebit s r (units64 (potLen r))) s with
    | none => allowanceWait s
    | some s => potServe r (dropReq r.id (tenantServed r.tenant s))

/-- A request passes the second gate when the allowance covers it (R200). -/
def admitRequest (id : Nat) (s : State) : State :=
  match reqOf s id with
  | none => s
  | some r =>
    if r.place != .kettle || waitsClear s r || earlierWaits s r || kettleFirst s (reqRank s r) r.tenant then s
    else if r.kind == .pot then (if ownerOf s r == .host then admitPot r s else admitEnginePot r s)
    else
      match gateStatus s r with
      | some st => endAccess r.access st (accessEvent r.tenant r.ta st s)
      | none =>
        match allow r.stack (hbmDebit s r.stack (reqSectors r) r.write + linkDebit s r 1) s with
        | none => allowanceWait s
        | some s => modReq id (fun r => { r with place := .gate }) (tenantServed r.tenant s)

/-! ## BAR2 (R182, R379) -/

/-- An earlier BAR2 access of function k waits: admission keeps the arrival order of its port (R43). -/
def potBehind (s : State) (k : Nat) : Bool :=
  s.path.reqs.any (fun x => x.kind == .pot && x.tenant == k && x.port == 0 && (x.place == .regulator || x.place == .kettle))

/-- A BAR2 access: it takes its effect at once where nothing goes before it and the allowance covers it, and waits otherwise
(R42, R43, R91). -/
def bar2Access (k tag off len : Nat) (write : Bool) (data : List Byte) (ep : Bool) (op : Option (AtomicOp × Nat))
    (s : State) : State :=
  if !barOpen s k then s
  else if 2 ^ 27 < off + len then failTlp k tag write .unsupported s
  else if len = 0 then (if write then s else emit (.tlp k tag .success false []) s)
  else if holds s k then
    if holdOver s k then failTlp k tag write .completerAbort (countHeldEnd k s)
    else potHold k tag off len write data ep op .held (hostPayload false (data.length + atomicPayload op) s)
  else
    let s := hostPayload false (data.length + atomicPayload op) s
    match bar2Status s k off len with
    | some (ta, st) => failTlp k tag write (tlpStatusOf st) (accessEvent k ta st s)
    | none =>
      if potBehind s k then potHold k tag off len write data ep op .regulator s
      else if potClearing s k off len || kettleFirst s 0 k then potHold k tag off len write data ep op .kettle s
      else
        match allow hubUnit (potDebit s len + evPower s .host 8 (units64 len)) s with
        | none => allowanceWait (potHold k tag off len write data ep op .kettle s)
        | some s => potPerform k tag off len write data ep op (tenantServed k s)

/-- BAR2_READ (R182, R262). -/
def execBar2Read (k : Fin 128) (tag off len : Nat) (s : State) : Host.Outcome State Fault Refusal :=
  .next (bar2Access k.val tag off len false [] false none s)

/-- BAR2_WRITE (R182, R264, R268). -/
def execBar2Write (k : Fin 128) (off : Nat) (data : List Byte) (ep : Bool) (s : State) :
    Host.Outcome State Fault Refusal :=
  .next (bar2Access k.val 0 off data.length true data ep none s)

/-- A BAR2 AtomicOp of `width` bits. 128 bits is an Unsupported Request (R379); so, by DESIGN CHOICE, is an address that
is not aligned, which R378 gives BAD_PARAM. -/
def bar2Atomic (k tag off width : Nat) (op : AtomicOp) (s : State) : State :=
  if !barOpen s k then s
  else if !(width == 32 || width == 64) || off % (width / 8) ≠ 0 then emit (.tlp k tag .unsupported false []) s
  else bar2Access k tag off (width / 8) false [] false (some (op, width / 8)) s

/-- BAR2_ATOMIC (R378, R379). -/
def execBar2Atomic (k : Fin 128) (tag off width : Nat) (op : AtomicOp) (s : State) :
    Host.Outcome State Fault Refusal :=
  .next (bar2Atomic k.val tag off width op s)

/-! ## Tiles, infusers and links -/

/-- The next block of the descriptor on tile t (R42, R45, R353). -/
def admitTile (t : Nat) (s : State) : State :=
  match tileWork s t with
  | none => s
  | some (h, i, l, d) =>
    if d.matrix + d.vector = 0 then s
    else
      let debit := evPower s (blockEv d) 8 1
      if !tileRoom s debit then allowanceWait s
      else if kettleFirst s (blockRank d) l.tenant then s
      else
        match allow (8 + t) debit s with
        | none => allowanceWait s
        | some s =>
          let d' := if d.matrix ≠ 0 then { d with matrix := d.matrix - 1 } else { d with vector := d.vector - 1 }
          let s := setList h { l with inflight := l.inflight.set i d' } (countEv (blockEv d) .user 8 1 s)
          let s := { s with kettle := { s.kettle with tileSpent := s.kettle.tileSpent + debit } }
          let s := countEvent (704 + 4 * t + (if d.matrix ≠ 0 then 0 else 1)) 1 s
          modTile t (fun x => { x with blocks := x.blocks + 1, clearing := false }) (tenantServed l.tenant s)

/-- The next step of infuser n, in its turn (R43, R45). -/
def admitInfuser (n : Nat) (s : State) : State :=
  match (infuserOf s n).running with
  | none => s
  | some o =>
    if kettleFirst s 0 o.tenant then s
    else
      let s' := admitStep n s
      if (infuserOf s' n).steps.length < (infuserOf s n).steps.length then tenantServed o.tenant s' else s'

/-- Link payload: the frames that wait on a peer port go as the allowance lets them; payload of the host port takes its
debit (R42). -/
def admitLink (port : Option Nat) (bytes : Nat) (s : State) : State :=
  match port with
  | some k => (List.range 65).foldl (fun s c => pumpAll k c s) s
  | none =>
    match allow hubUnit (evPower s .host 8 (units64 bytes)) s with
    | none => allowanceWait s
    | some s => s

/-- KETTLE_ADMIT: the work goes on if the allowance covers its debit. -/
def kettleAdmit (w : Work) (s : State) : State :=
  match w with
  | .request id => admitRequest id s
  | .tile t => admitTile t.val s
  | .infuser n => admitInfuser n.val s
  | .link p bytes => admitLink (p.map (·.val)) bytes s

end Sys2Proof.Machine
end

