-- ==== Sys2Proof/Machine/Kettle.lean ====
section
/-! DEFINITION. The kettle commands (R75, R76, Table 2.10), the job-start release (R52), and the kettle bus (R60 to R74):
frames as they pass, the master's frames and their return, and the chain's events. -/

namespace Sys2Proof.Machine

open Sys2Proof

/-! ## Statuses -/

/-- The bus mode of Table 2.10: 0 standalone, 1 member, 2 master, 3 off. -/
def kbMode (s : State) : Nat :=
  match kbStrap s with
  | 0 => if s.kb.acquired then 1 else 0
  | 1 => 2
  | _ => 3

/-- The chain-fault bit (R70, R72). -/
def chainFault (s : State) : Bool :=
  match kbStrap s with
  | 0 => !s.kb.acquired
  | 1 => s.kb.chainOpen
  | _ => false

/-- The steep delay runs: at boot, or before a job start (R52, R53). -/
def steepRuns (s : State) : Bool := s.kettle.jobRelease.isSome || s.boot.stage == .steepDelay

/-- The chain position; 0 when not on a chain. -/
def chainPosition (s : State) : Nat := if chained s then s.kb.position else 0

/-- The function that a status read is noted for. The out-of-band channel is none (DESIGN CHOICE, log entry 72): what it
reads of bit 3 is set once a shortfall or excess has occurred, and its reads clear nothing. -/
def readerFn (c : Cmd) : Option Nat :=
  match c.issuer with
  | .fn k => some k.val
  | .oob => none

/-- Shortfalls and excesses so far: what bit 3 of KETTLE_STATUS byte 13 tells of (Table 2.10). -/
def slewMisses (s : State) : Nat := s.kettle.shortfalls + s.kettle.excesses

/-- KETTLE_STATUS's work: bit 3 of byte 13 is per reading function. -/
def kettleStatusWork (c : Cmd) (s : State) : Reply :=
  let seen := match readerFn c with
    | some k => (fnOf s k).slewSeen
    | none => 0
  let r := leBytes 4 (toMw s.kettle.e) ++ leBytes 4 (toMw s.kettle.pest) ++ leBytes 4 (toMw s.kettle.cosyLast) ++
    leBytes 1 (kbMode s) ++
    leBytes 1 (flag (steepRuns s) 0 + flag s.kettle.quiesce.isSome 1 + flag (chainFault s) 2 +
      flag (decide (seen < slewMisses s)) 3) ++ leBytes 2 (chainPosition s)
  let s := match readerFn c with
    | some k => modFn k (fun f => { f with slewSeen := slewMisses s }) s
    | none => s
  .done s stOK r

/-- KETTLE_STATUS (R75). -/
def execKettleStatus (c : Cmd) (s : State) : Host.Outcome State Fault Refusal :=
  .next (mailbox 0x0800 c (kettleStatusWork c) s)

/-- KETTLE_GET_LIMITS: the limits in force, or staged. -/
def kettleGetLimitsWork (c : Cmd) (s : State) : Reply :=
  let sel := par c 0 1
  if 1 < sel then .done s stBadParam []
  else
    let v := fun i => if sel = 0 then cfgN s 0x0801 i 0 else (stagedOr s c 0x0801 i 0).headD 0
    .done s stOK ((List.range 4).flatMap (fun i => leBytes 4 (v i)))

def execKettleGetLimits (c : Cmd) (s : State) : Host.Outcome State Fault Refusal :=
  .next (mailbox 0x0802 c (kettleGetLimitsWork c) s)

/-- KETTLE_JOB_TIMING's result. -/
def kettleJobTimingResult (s : State) : List Byte :=
  leBytes 4 (steepDelay s) ++ leBytes 2 (cfgN s 0x0801 4 0) ++ leBytes 2 (cfgN s 0x0801 5 0) ++
    leBytes 4 s.kettle.idlePeriods

/-- KETTLE_JOB_TIMING (R75). -/
def execKettleJobTiming (c : Cmd) (s : State) : Host.Outcome State Fault Refusal :=
  .next (mailbox 0x0805 c (fun s => .done s stOK (kettleJobTimingResult s)) s)

/-! ## Quiesce (R76) -/

/-- A later KETTLE_QUIESCE supersedes one that waits: it completes DEFERRED. -/
def supersede (s : State) : State :=
  match s.kettle.quiesce with
  | some { cmd := some c, .. } => finish 0x0804 c stDeferred [] s
  | _ => s

/-- KETTLE_QUIESCE: a release ends the quiesce; a quiesce stops admission and brings E down. -/
def kettleQuiesceWork (c : Cmd) (s : State) : Reply :=
  let b := par c 0 1
  let ms := par c 2 2
  if ms = 0 then .done s stBadParam []
  else
    let s := supersede s
    if bitOf b 0 then .done { s with kettle := { s.kettle with quiesce := none } } stOK []
    else
      .wait { s with kettle := { s.kettle with
        quiesce := some { ignoreFloor := bitOf b 1, deadline := now s + msTicks ms, cmd := some c } } }

def execKettleQuiesce (c : Cmd) (s : State) : Host.Outcome State Fault Refusal :=
  .next (mailbox 0x0804 c (kettleQuiesceWork c) s)

/-- KETTLE_QUIESCE_TIMEOUT: the command completes DEFERRED, and the fall goes on. -/
def quiesceTimeout (s : State) : State :=
  match s.kettle.quiesce with
  | some { cmd := some c, ignoreFloor := f, deadline := d } =>
    if due s d then
      finish 0x0804 c stDeferred [] { s with kettle := { s.kettle with quiesce := some { cmd := none, ignoreFloor := f, deadline := d } } }
    else s
  | _ => s

def execKettleQuiesceTimeout (s : State) : Host.Outcome State Fault Refusal := .next (quiesceTimeout s)

/-! ## Job starts (R52) -/

/-- JOB_START_RELEASE: at its mark, the held job work is released. -/
def jobStartRelease (s : State) : State :=
  match s.kettle.jobRelease with
  | none => s
  | some t =>
    if due s t then
      let s := { s with
        compute := { s.compute with lists := s.compute.lists.map (fun (e : Nat × BrewList) => (e.1, { e.2 with held := false })) },
        infusers := s.infusers.map (fun (e : Nat × Infuser) => (e.1, { e.2 with queue := e.2.queue.map (fun (o : InfOp) => { o with held := false }) })) }
      countEvent (devCtr 8) 1 { s with kettle := { s.kettle with jobRelease := none, jobThisPeriod := true, idlePeriods := 0 } }
    else s

def execJobStartRelease (s : State) : Host.Outcome State Fault Refusal := .next (jobStartRelease s)

/-! ## Frames (R62, R63) -/

/-- The CRC over bit times 8 to 55 of a frame. -/
def kbCrc (w : BitVec 64) : BitVec 8 :=
  (List.range 48).foldl (fun c i => crcBit 8 0x07#8 c (w.getLsbD (8 + i))) 0xFF#8

/-- A CRC in its place: coefficient of x^7 at bit time 56. -/
def kbCrcBits (c : BitVec 8) : Nat := sumOf ((List.range 8).map (fun i => flag (c.getMsbD i) (56 + i)))

/-- A frame's fields before the CRC, with the sync it came with. -/
def kbBody (sync type epoch credit count : Nat) (overdraw : Bool) (reserved : Nat) : Nat :=
  sync + type * 2 ^ 8 + epoch * 2 ^ 10 + credit * 2 ^ 16 + flag overdraw 36 + count * 2 ^ 37 + reserved * 2 ^ 49

/-- The frame of a body, its CRC fresh, or inverted after a failure upstream (R67). -/
def kbFrame (body : Nat) (bad : Bool) : BitVec 64 :=
  let w := BitVec.ofNat 64 body
  let c := kbCrc w
  w ||| BitVec.ofNat 64 (kbCrcBits (if bad then ~~~ c else c))

/-- Fields of a received frame. -/
def kbSync (w : BitVec 64) : Nat := bitsOf w.toNat 0 8
def kbType (w : BitVec 64) : Nat := bitsOf w.toNat 8 2
def kbEpoch (w : BitVec 64) : Nat := bitsOf w.toNat 10 6
def kbCredit (w : BitVec 64) : Nat := bitsOf w.toNat 16 20
def kbOverdraw (w : BitVec 64) : Bool := w.getLsbD 36
def kbCount (w : BitVec 64) : Nat := bitsOf w.toNat 37 12
def kbReserved (w : BitVec 64) : Nat := bitsOf w.toNat 49 7

/-- The CRC of a received frame verifies. -/
def kbCrcOk (w : BitVec 64) : Bool := bitsOf w.toNat 56 8 * 2 ^ 56 == kbCrcBits (kbCrc w)

/-! ## A device on a passing frame (R64 to R68) -/

/-- The unused latched request in a frame's direction, in mW; zero while the governor does not run or the device is not
on the chain. -/
def requestFor (s : State) (type : Nat) : Nat :=
  if !s.kettle.running || !chained s then 0
  else
    match s.kb.request with
    | none => 0
    | some r => if type = 0 then r.toNat else if type = 1 then (-r).toNat else 0

/-- What passing a frame does to its credit and overdraw. -/
structure KbPass where
  credit : Nat
  overdraw : Bool
  granted : Nat

/-- Serial subtraction of the request (R65): a borrow, or an overdraw upstream, denies it. -/
def kbPass (type credit : Nat) (overdraw : Bool) (req : Nat) : KbPass :=
  if 2 ≤ type then { credit := credit, overdraw := overdraw, granted := 0 }
  else
    let od := overdraw || decide (credit < req)
    { credit := (credit + 2 ^ 20 - req) % 2 ^ 20, overdraw := od, granted := if od then 0 else req }

/-- The admin word takes effect (Table 2.8, R74). -/
def kbAdmin (word : Nat) (kb : Kb) : Kb :=
  let arg := word / 16
  match word % 16 with
  | 1 => { kb with holdPeriods := if arg = 0 then 0 else arg + 1 }
  | 2 => { kb with cap := some (max arg 1) }
  | 3 => { kb with cap := none }
  | _ => kb

/-- A grant or denial by a valid frame is noted for the next mark, and the accrued count of its kind restarts (R41,
R68). -/
def kbGrant (type granted : Nat) (kb : Kb) : Kb :=
  if type = 0 then { kb with grantUp := kb.grantUp + granted * mw, usedUp := max 1 kb.accUp, accUp := 0 }
  else if type = 1 then { kb with grantDown := kb.grantDown + granted * mw, usedDown := max 1 kb.accDown, accDown := 0 }
  else kb

/-- What the debug mux shows of a frame: its type, whether its overdraw bit is set as it leaves, and what became of the
request (Table 18.1). -/
def kbShown (type req : Nat) (p : KbPass) (kb : Kb) : Kb :=
  { kb with
    lastType := type, overdrawSeen := p.overdraw, askGranted := if req = 0 || 2 ≤ type then kb.askGranted else p.granted ≠ 0 }

/-- The effects of a valid frame on a device of the chain. An admin word takes effect on a device that is on the chain; a
member that has not acquired it, or has lost it, forwards the word and ignores it (DESIGN CHOICE, log entry 72). -/
def kbAccept (type credit granted : Nat) (s : State) : State :=
  let kb := kbGrant type granted s.kb
  { s with kb := if type = 3 && chained s then kbAdmin credit kb else kb }

/-- The epoch of a valid frame: one not next to the last is a skip, which restarts the accrued counts (R71). -/
def kbEpochSeen (epoch : Nat) (kb : Kb) : Kb :=
  let e := BitVec.ofNat 6 epoch
  match kb.lastEpoch with
  | none => { kb with lastEpoch := some e, epochRun := 1 }
  | some l =>
    if l + 1 = e then { kb with lastEpoch := some e, epochRun := kb.epochRun + 1 }
    else { kb with lastEpoch := some e, epochRun := 1, skips := kb.skips + 1, accUp := 0, accDown := 0 }

/-- A faulty frame denies its request: the accrued count of the kind its type names restarts, so that slew which a denied
frame could have used lapses (R41, R68). -/
def kbDenied (type : Nat) (kb : Kb) : Kb :=
  if type = 0 then { kb with accUp := 0 } else if type = 1 then { kb with accDown := 0 } else kb

/-- Counts a failed CRC (Table 16.4). -/
def kbCrcFailed (s : State) : State := countEvent (devCtr 21) 1 { s with kb := { s.kb with crcFails := s.kb.crcFails + 1 } }

/-- A member's handling of a frame. -/
def kbMember (w : BitVec 64) (s : State) : State :=
  let sync := kbSync w == 0xA7
  let crc := kbCrcOk w
  let valid := sync && crc && kbReserved w == 0
  let type := kbType w
  let req := if sync then requestFor s type else 0
  let p := kbPass type (kbCredit w) (kbOverdraw w) req
  let body := kbBody (kbSync w) type (kbEpoch w) p.credit (min (kbCount w + 1) 4095) p.overdraw (kbReserved w)
  let s := emit (.kbOut (kbFrame body (!crc))) s
  let s := if crc then s else kbCrcFailed s
  let s := { s with kb := kbShown type req { p with granted := if valid then p.granted else 0 } { s.kb with request := none, frameSeen := true } }
  if !valid then { s with kb := kbDenied type { s.kb with goodRun := 0, epochRun := 0, badRun := s.kb.badRun + 1 } }
  else
    let s := { s with kb := kbEpochSeen (kbEpoch w) { s.kb with
      goodRun := s.kb.goodRun + 1, badRun := 0, sinceValid := 0, position := kbCount w + 1 } }
    kbAccept type (kbCredit w) p.granted s

/-- KB_FRAME_RECEIVED: a member subtracts, counts and forwards; a port that is off forwards unchanged (Table 2.4,
R61). -/
def kbFrameReceived (w : BitVec 64) (s : State) : State :=
  if !s.pins.vaux then s
  else
    match kbStrap s with
    | 0 => kbMember w s
    | 1 => s
    | _ => emit (.kbOut w) s

def execKbFrameReceived (bits : BitVec 64) (s : State) : Host.Outcome State Fault Refusal := .next (kbFrameReceived bits s)

/-! ## The master (R72) -/

/-- The frame the master originates at a mark: a pending admin frame, or its pattern's slot; it takes part as the first
device. -/
def kbSend (s : State) : State :=
  let admin := s.kb.admins.head?
  let type := match admin with
    | some _ => 3
    | none => bitsOf (cfgN s 0x0806 2 0) (2 * s.kb.slot) 2
  let credit := match admin with
    | some (_, code, arg) => arg * 16 + code
    | none => if type = 0 then cfgN s 0x0806 0 0 else if type = 1 then cfgN s 0x0806 1 0 else 0
  let req := requestFor s type
  let p := kbPass type credit false req
  let s := emit (.kbOut (kbFrame (kbBody 0xA7 type s.kb.epoch.toNat p.credit 1 p.overdraw 0) false)) s
  let sent := match admin with
    | some (c, _, _) => [(c, s.kb.epoch, s.clock.mark)]
    | none => []
  let s := { s with kb := kbShown type req p { s.kb with
    started := true, request := none, slot := (s.kb.slot + 1) % 8, epoch := s.kb.epoch + 1, position := 1,
    admins := s.kb.admins.drop 1, adminSent := s.kb.adminSent ++ sent, unreturned := s.kb.unreturned + 1 } }
  kbAccept type credit p.granted s

/-- KB_FRAME_SEND within a mark: from the first mark after the end of boot, while VAUX is present. -/
def kbMarkSend (s : State) : State :=
  if kbStrap s = 1 && s.pins.vaux && (s.kb.started || s.boot.stage == .ready) then kbSend s else s

/-- Completes the admin command whose frame has returned, with the chain count and whether the CRC failed. -/
def adminReturned (w : BitVec 64) (s : State) : State :=
  match s.kb.adminSent.find? (fun e => e.2.1.toNat == kbEpoch w) with
  | none => s
  | some (c, e, _) =>
    let s := { s with kb := { s.kb with adminSent := s.kb.adminSent.filter (fun x => x.2.1 != e) } }
    finish 0x0807 c stOK (leBytes 2 (kbCount w) ++ leBytes 1 (if kbCrcOk w then 0 else 1)) s

/-- KB_FRAME_RETURN: the master checks the frame, records count, credit and overdraw, and ends it there. -/
def kbFrameReturn (w : BitVec 64) (s : State) : State :=
  if kbStrap s ≠ 1 || !s.pins.vaux then s
  else
    let s := if kbCrcOk w then s else kbCrcFailed s
    let s := adminReturned w s
    let ok := kbSync w == 0xA7 && kbCrcOk w
    let s := { s with kb := { s.kb with
      unreturned := 0, chainOpen := false, lastType := kbType w, overdrawSeen := kbOverdraw w } }
    if ok then
      { s with kb := { s.kb with
        sinceValid := 0, lastEpoch := some (BitVec.ofNat 6 (kbEpoch w)), lastCount := kbCount w,
        lastCredit := kbCredit w, lastOverdraw := kbOverdraw w } }
    else s

def execKbFrameReturn (bits : BitVec 64) (s : State) : Host.Outcome State Fault Refusal := .next (kbFrameReturn bits s)

/-- KB_CHAIN_OPEN: after 8 frames that did not return, the chain is reported open; the master goes on sending. -/
def kbChainOpen (s : State) : State :=
  if kbStrap s = 1 && 8 ≤ s.kb.unreturned && !s.kb.chainOpen then
    devEvent 0x0801 2 [] { s with kb := { s.kb with chainOpen := true } }
  else s

def execKbChainOpen (s : State) : Host.Outcome State Fault Refusal := .next (kbChainOpen s)

/-! ## A member's chain (R70) -/

/-- KB_CHAIN_ACQUIRE: after 3 consecutive valid frames, from the end of boot. -/
def kbChainAcquire (s : State) : State :=
  if kbStrap s = 0 && !s.kb.acquired && !s.kb.lost && 3 ≤ s.kb.goodRun && s.boot.stage == .ready then
    { s with kb := { s.kb with acquired := true } }
  else s

def execKbChainAcquire (s : State) : Host.Outcome State Fault Refusal := .next (kbChainAcquire s)

/-- KB_MASTER_LOSS: after 8 consecutive missing or faulty frames the member runs standalone, with E unchanged. -/
def kbMasterLoss (s : State) : State :=
  if kbStrap s = 0 && s.kb.acquired && 8 ≤ s.kb.badRun then
    let s := countEvent (devCtr 22) 1 s
    devEvent 0x0801 2 [] { s with kb := { s.kb with
      acquired := false, lost := true, cap := none, losses := s.kb.losses + 1, grantUp := 0, grantDown := 0,
      request := none } }
  else s

def execKbMasterLoss (s : State) : Host.Outcome State Fault Refusal := .next (kbMasterLoss s)

/-- KB_CHAIN_REJOIN: after 16 consecutive valid frames whose epochs rise by one; the accrued counts restart. -/
def kbChainRejoin (s : State) : State :=
  if kbStrap s = 0 && s.kb.lost && 16 ≤ s.kb.epochRun then
    { s with kb := { s.kb with acquired := true, lost := false, accUp := 0, accDown := 0 } }
  else s

def execKbChainRejoin (s : State) : Host.Outcome State Fault Refusal := .next (kbChainRejoin s)

/-- KB_ADMIN_HOLD_END: the periods of an admin hold have run out, and E may change again. -/
def kbAdminHoldEnd (s : State) : State :=
  if s.kb.holdPeriods = 1 then { s with kb := { s.kb with holdPeriods := 0 } } else s

def execKbAdminHoldEnd (s : State) : Host.Outcome State Fault Refusal := .next (kbAdminHoldEnd s)

/-! ## Kettle-bus commands -/

/-- KB_SEND_ADMIN: one admin frame at the next mark; the command completes on its return (R72, R75). -/
def kbSendAdminWork (c : Cmd) (s : State) : Reply :=
  if 3 < par c 0 1 then .done s stBadParam []
  else .wait { s with kb := { s.kb with admins := s.kb.admins ++ [(c, par c 0 1, par c 2 2)] } }

def execKbSendAdmin (c : Cmd) (s : State) : Host.Outcome State Fault Refusal :=
  .next (mailbox 0x0807 c (kbSendAdminWork c) s)

/-- KB_SEND_ADMIN_TIMEOUT: an admin frame that has not returned within 64 periods. -/
def kbSendAdminTimeout (s : State) : State :=
  match s.kb.adminSent with
  | [] => s
  | (c, _, m) :: r =>
    if m + 64 ≤ s.clock.mark then
      finish 0x0807 c stOK (leBytes 2 0 ++ leBytes 1 1) { s with kb := { s.kb with adminSent := r } }
    else s

def execKbSendAdminTimeout (s : State) : Host.Outcome State Fault Refusal := .next (kbSendAdminTimeout s)

/-- KB_CHAIN_INFO's result. -/
def kbChainInfoResult (s : State) : List Byte :=
  let kb := s.kb
  leBytes 1 (kbMode s) ++ leBytes 1 (match kb.lastEpoch with
    | some e => e.toNat
    | none => 0) ++
    leBytes 2 (if kbStrap s = 1 then kb.lastCount else chainPosition s) ++ leBytes 4 kb.crcFails ++
    leBytes 2 kb.skips ++ leBytes 2 kb.losses ++ leBytes 4 kb.sinceValid

/-- KB_CHAIN_INFO (R75). -/
def execKbChainInfo (c : Cmd) (s : State) : Host.Outcome State Fault Refusal :=
  .next (mailbox 0x0808 c (fun s => .done s stOK (kbChainInfoResult s)) s)

/-- What a mark does at the port: accrued counts, missing frames, the age of the last valid frame (R41, R70). -/
def kbMark (kb : Kb) : Kb :=
  let kb := { kb with
    accUp := min (kb.accUp + 1) 4, accDown := min (kb.accDown + 1) 4, sinceValid := min (kb.sinceValid + 1) (2 ^ 32 - 1),
    grantUp := 0, grantDown := 0 }
  if kb.frameSeen then { kb with frameSeen := false }
  else { kb with badRun := kb.badRun + 1, goodRun := 0, epochRun := 0 }

end Sys2Proof.Machine
end

