-- ==== Sys2Proof/Machine/Repair.lean ====
section
/-! DEFINITION. Repair, channel failure, map-out and stack retirement (R286 to R309): offline windows, lane and row
repair, the map-out switch, fold readiness and preparation, and the commands of Table 10.11. -/

namespace Sys2Proof.Machine

open Sys2Proof

/-! ## Windows (R290, R308) -/

/-- A pour already accepted will change the stack's class D items, so a window waits for it (Table 10.9). -/
def pourAhead (s : State) (n : Nat) : Bool :=
  match s.cfg.pour with
  | none => false
  | some p => !p.classDDone && (affectedStacks s p.entries).contains n

/-- A window may open on a channel: it is awake, in no replay, no descriptor fetch to it is under way (R290), and calibrates on neither pseudo-channel, its stack is not in
scald, and no pour is ahead of it. -/
def mayOpen (s : State) (ch : Nat) : Bool :=
  let k := stackOf s (ch / 32)
  k.online && !k.retired && k.thermal.heat != .scald && (chanOf s ch).sr == .awake &&
    !((chanPcs ch).any (fun fp => calibrating s fp || replaying s fp)) && !fetchUnderWay s ch && !pourAhead s (ch / 32)

/-- Opens a channel's window: every open bank is precharged, and the time does not count toward a deferral (R205,
R319). -/
def openWindow (ch : Nat) (s : State) : State :=
  if (chanOf s ch).windowOpen then s
  else
    let s := chanAway ch s
    let s := (chanPcs ch).foldl (fun s fp => prechargeAll fp s) s
    countEvent (stackCtr (ch / 32) 27) 1 (modChan ch (fun c => { c with windowOpen := true, windows := c.windows + 1 }) s)

/-- Closes a channel's window. -/
def closeWindow (ch : Nat) (s : State) : State :=
  chanBack ch (modChan ch (fun c => { c with windowOpen := false, window := .none }) s)

/-- Asks for an offline retraining window; a channel with one waiting or open is not given a second (R329). -/
def askRetrain (ch : Nat) (s : State) : State :=
  if (chanOf s ch).window == .retrain then s else modChan ch (fun c => { c with retrainDue := true }) s

/-! ## Fold readiness (R296, R297) -/

/-- The extents of the vacate range of stack n; none with four channels mapped out. -/
def vacateExtents (s : State) (n : Nat) : List Nat :=
  let m := mappedCount s n
  if 4 ≤ m then []
  else
    let r := vacateRange s.ident.big m
    (List.range (r.2 + 1 - r.1)).map (fun i => r.1 + i)

/-- Some partition holds extent x as offline. -/
def extentOffline (s : State) (n x : Nat) : Bool := s.parts.any (fun e => e.2.offline.contains (n, x))

/-- An extent is free: no partition owns it, or its data was given up (R304). -/
def extentFree (s : State) (n x : Nat) : Bool := (extentOwner s n x).isNone || extentOffline s n x

/-- A stack is fold-ready: the whole vacate range is free and prepared, and no restore is due (R297, R479). -/
def foldReady (s : State) (n : Nat) : Bool :=
  let v := vacateExtents s n
  let k := stackOf s n
  !v.isEmpty && !k.restore && v.all (fun x => extentFree s n x && k.prepared.contains x)

/-- The writes that prepare an extent: the lowest takes the next reserved range, the others poison below B (R296). -/
def prepareExtent (n x : Nat) (s : State) : State :=
  let m := mappedCount s n
  let next := usableBlocks s.ident.big m - bandBlocks s.ident.big
  if x * 256 < next then fillRange n (next - 64) (next - 1) 0 false s
  else fillRange n (x * 256) (min (x * 256 + 255) (reservedBlock s.ident.big m - 1)) 0 true s

/-- MiB that preparing an extent writes. -/
def prepareMiB (s : State) (n x : Nat) : Nat :=
  let m := mappedCount s n
  if x * 256 < usableBlocks s.ident.big m - bandBlocks s.ident.big then 64
  else min (x * 256 + 256) (reservedBlock s.ident.big m) - x * 256

/-- Sectors that preparing an extent writes. -/
def prepareSectors (s : State) (n x : Nat) : Nat := prepareMiB s n x * 32768

/-- The extents of the vacate range that foot die n has still to prepare (R296, R297). -/
def prepareLeft (s : State) (n : Nat) : List Nat :=
  let k := stackOf s n
  if !k.online || k.retired || k.restore then []
  else (vacateExtents s n).filter (fun x => extentFree s n x && !k.prepared.contains x)

/-- FOLD_PREP_DONE: every sector of an extent of the vacate range is written (R296, R297). -/
def foldPrepDone (n x : Nat) (s : State) : State :=
  if (prepareLeft s n).contains x && (stackOf s n).prep == some (x, prepareSectors s n x) && !rinseWaits s n then
    let s := countVolume (stackCtr n 17) (prepareMiB s n x * 1048576) (prepareExtent n x s)
    modStack n (fun k => { k with prepared := insertNat k.prepared x, prep := none }) s
  else s

def execFoldPrepDone (n : Fin 8) (extent : Nat) (s : State) : Host.Outcome State Fault Refusal :=
  .next (foldPrepDone n.val extent s)

/-! ## Map-out and retirement under way -/

/-- Capacity of stack n that a command reports. -/
def capacityResult (s : State) (n : Nat) : List Byte := leBytes 4 (usableMiB s n)

/-- Ends the command of a map-out, if it has one. -/
def endMapoutCmd (m : Mapout) (n st : Nat) (s : State) : State :=
  match m.cmd with
  | none => s
  | some c => finish 0x0603 c st (capacityResult s n) s

/-- The device benches a failed channel and advises its map-out (R289 item 3). -/
def benchFailed (ch : Nat) (s : State) : State :=
  adviseMapout ch (closeWindow ch (modChan ch (fun c => { c with bench := .device }) s))

/-- Starts a map-out: the store record goes first (R302). A failed channel answers nothing meanwhile. -/
def startMapout (n : Nat) (m : Mapout) (s : State) : State :=
  let s := modStack n (fun k => { k with mapout := some m }) s
  let s := if m.failedChannel then
      openWindow (n * 32 + m.ch) (modChan (n * 32 + m.ch) (fun c => { c with window := .mapout }) s)
    else s
  pushJob (.mapout n m.ch) s

/-- Starts the retirement of a stack: the store record goes first (R307). -/
def startRetire (n : Nat) (m : Mapout) (s : State) : State :=
  pushJob (.stackRetire n) (modStack n (fun k => { k with retireProc := some { m with retire := true } }) s)

/-- A channel has failed (R289); ch is flat. While a map-out of the stack runs, it waits for its end (Table 10.9). -/
def channelFailed (ch : Nat) (s : State) : State :=
  let n := ch / 32
  let k := stackOf s n
  let m : Mapout := { ch := ch % 32, failedChannel := true }
  let s := if (exerOf s n).running && (exerOf s n).mode ≠ 0 && (exerOf s n).channel = ch then exerEnd n 3 s else s
  if k.retired || k.retireProc.isSome || k.mapped.contains (ch % 32) then s
  else if k.mapout.isSome then modStack n (fun k => { k with mapQueue := k.mapQueue ++ [m] }) s
  else if 4 ≤ k.mapped.length then startRetire n m s
  else if foldReady s n then startMapout n m s
  else benchFailed ch s

/-- The next failure that waited for a map-out to end. -/
def nextFailed (n : Nat) (s : State) : State :=
  match (stackOf s n).mapQueue with
  | [] => s
  | m :: r => channelFailed (n * 32 + m.ch) (modStack n (fun k => { k with mapQueue := r }) s)

/-- Partitions give up the owned extents of the vacate range (R304). -/
def takeOffline (n : Nat) (s : State) : State :=
  (vacateExtents s n).foldl (fun s x =>
    match extentOwner s n x with
    | none => s
    | some t =>
      modPart t (fun p => if p.offline.contains (n, x) then p
        else { p with offline := p.offline ++ [(n, x)], joining := p.joining.filter (· != (n, x)) }) s) s

/-- The record of a map-out is written, or its write failed (R302, R304). -/
def mapoutRecorded (n ch : Nat) (ok : Bool) (s : State) : State :=
  match (stackOf s n).mapout with
  | none => s
  | some m =>
    if !ok then
      let s := modStack n (fun k => { k with mapout := none }) s
      let s := if m.failedChannel then benchFailed (n * 32 + ch) s else s
      nextFailed n (endMapoutCmd m n stFlashFault s)
    else
      let st := s.flash.store
      let s := { s with flash := { s.flash with store := { st with
        mapped := tset [] st.mapped n (tget [] st.mapped n ++ [ch]) } } }
      let s := modStack n (fun k => { k with mapout := some { m with recorded := true } }) s
      if m.forced then takeOffline n s else s

/-! ## The map-out window (R302, R303) -/

/-- The queued requests of a channel are withdrawn and held; nothing of them is lost. -/
def withdraw (ch : Nat) (s : State) : State :=
  { s with path := { s.path with
      reqs := s.path.reqs.map (fun r =>
        if r.place == .queued && r.stack * 32 + r.pc / 2 == ch && r.mask != 0 then { r with place := .window } else r) } }

/-- No die of the switch has had a heavy mark in the last 8 marks (R213). -/
def switchClear (s : State) (n : Nat) : Bool :=
  s.cfg.heavy.all (fun e => !(e.1 == n || e.1 == 8) || e.2 + 8 ≤ markNow s)

/-- MAPOUT_WINDOW_OPEN: after the record, the window opens at a mark and the channel's requests are withdrawn. -/
def mapoutOpen (n : Nat) (s : State) : State :=
  match (stackOf s n).mapout with
  | none => s
  | some m =>
    let ch := n * 32 + m.ch
    if !m.recorded || m.opened || !foldReady s n || !switchClear s n || pourAhead s n ||
        (stackOf s n).thermal.heat == .scald || (chanPcs ch).any (calibrating s) || now s % 1024 ≠ 0 ||
        (!m.failedChannel && fetchUnderWay s ch) then s
    else
      let s := modStack n (fun k => { k with mapout := some { m with opened := true, openedAt := now s } }) s
      let s := openWindow ch (modChan ch (fun c => { c with window := .mapout }) s)
      withdraw ch s

def execMapoutWindowOpen (n : Fin 8) (s : State) : Host.Outcome State Fault Refusal := .next (mapoutOpen n.val s)

/-- A flight is of a channel. -/
def flightChan (f : Flight) : Nat := secStack f.sector * 32 + secPc f.sector / 2

/-- MAPOUT_READ_TIMEOUT: a read that the failed stack has not answered for 1 ms of the window is withdrawn and held. -/
def mapoutReadTimeout (id : Nat) (s : State) : State :=
  match flightOf s id with
  | none => s
  | some f =>
    let ch := flightChan f
    if !((chanOf s ch).windowOpen && (chanOf s ch).window == .mapout) ||
        !((stackOf s (ch / 32)).mapout.any (fun m => m.opened && due s (m.openedAt + msTicks 1))) then s
    else
      let back := fun (r : Req) =>
        if r.mask.testBit (f.sector % 2) then r else { r with mask := r.mask + 2 ^ (f.sector % 2), place := .window }
      (f.req :: f.also).foldl (fun s i => modReq i back s) (dropFlight id s)

def execMapoutReadTimeout (id : Nat) (s : State) : Host.Outcome State Fault Refusal := .next (mapoutReadTimeout id s)

/-- Withdrawn requests go to their fold targets, in arrival order (R302 step 6). -/
def release (n : Nat) (s : State) : State :=
  { s with path := { s.path with
      reqs := s.path.reqs.map (fun r =>
        if r.place == .window && r.stack == n then
          let p := placeAt s n r.offset
          { r with place := .queued, pc := p.pc, bank := p.bank, row := p.row, line := p.line }
        else r) } }

/-- The switch: remap flags, fold tables, the reserved range and the exerciser move (R301, R302 steps 3 to 5). -/
def mapoutSwitch (n ch : Nat) (s : State) : State :=
  let s := modStack n (fun k => { k with mapped := k.mapped ++ [ch % 32], prepared := [], prep := none }) s
  let s := countEvent (devCtr 10) 1 { s with cfg := { s.cfg with heavy := tput s.cfg.heavy n (markNow s) } }
  let s := modDie n (fun d => { d with heavyMarks := d.heavyMarks + 1 }) s
  let s := writeReserved n s
  let e := exerOf s n
  let s := if e.running && e.mode = 0 then
      setExer n { e with cursors := [], hammerEnd := [], mask := e.mask - (Nat.land e.mask (3 * 2 ^ (2 * (ch % 32)))) } s
    else if e.running && e.channel = ch then exerEnd n 3 s
    else s
  let s := (chanPcs ch).foldl (fun s fp => setPc fp {} s) s
  setChan ch { (chanOf s ch) with
    bench := .none, window := .none, windowOpen := false, sr := .asleep, retry := [], retryRows := [], awayFrom := none,
    retrainDue := false } s

/-- MAPOUT_WINDOW_CLOSE: no read of the channel is left, the new map is in force and the requests are released. Its edits are
a heavy item, and wait until no heavy mark of the dies lies within 8 marks (R213). -/
def mapoutClose (n : Nat) (s : State) : State :=
  match (stackOf s n).mapout with
  | none => s
  | some m =>
    let ch := n * 32 + m.ch
    if !m.opened || !switchClear s n || (stackOf s n).thermal.heat == .scald || s.path.flights.any (fun f => flightChan f == ch && f.kind != .cosy) then s
    else
      let s := staleOnStack n (mapoutSwitch n ch s)
      let s := release n s
      let s := modStack n (fun k => { k with mapout := none }) s
      let s := logEvent 0x0600 noTenant 1 n (leBytes 2 ch ++ leBytes 1 (mappedCount s n)) [0] s
      nextFailed n (endMapoutCmd m n stOK s)

def execMapoutWindowClose (n : Fin 8) (s : State) : Host.Outcome State Fault Refusal := .next (mapoutClose n.val s)

/-! ## Retirement (R307, R193) -/

/-- The record of a retirement is written, or its write failed. -/
def retireRecorded (n : Nat) (ok : Bool) (s : State) : State :=
  match (stackOf s n).retireProc with
  | none => s
  | some m =>
    if ok then
      let st := s.flash.store
      let s := { s with flash := { s.flash with store := { st with retiredStacks := insertNat st.retiredStacks n } } }
      modStack n (fun k => { k with retireProc := some { m with recorded := true } }) s
    else
      let s := modStack n (fun k => { k with retireProc := none }) s
      let s := if m.failedChannel then benchFailed (n * 32 + m.ch) s else s
      endMapoutCmd m n stFlashFault s

/-- The stack's extents leave every partition, in force and in the store (R193). -/
def removeExtents (n : Nat) (s : State) : State :=
  let keys := (List.range 128).map (fun t => cfgKey 0x0200 0 (t * 8 + n))
  let drop := fun (t : Table (List Nat)) => t.filter (fun e => !keys.contains e.1)
  let s := { s with
    cfg := { s.cfg with inForce := drop s.cfg.inForce },
    flash := { s.flash with store := { s.flash.store with items := drop s.flash.store.items } } }
  (s.parts.map Prod.fst).foldl (fun s t => modPart t (fun p =>
    { p with joining := p.joining.filter (fun x => x.1 != n), offline := p.offline.filter (fun x => x.1 != n) }) s) s

/-- The identifiers of the accesses that have requests on a stack. -/
def stackAccesses (s : State) (n : Nat) : List Nat :=
  ((s.path.reqs.filter (fun r => r.stack == n && r.kind != .pot && r.kind != .writeBack)).map (·.access)).eraseDups

/-- Every request to a stack that has not completed ends CHANNEL_OFFLINE. -/
def endStackRequests (n : Nat) (s : State) : State :=
  let s := (stackAccesses s n).foldl (fun s id => endAccess id stChannelOffline s) s
  let s := (s.path.reqs.filter (fun r => r.stack == n && r.write && r.kind == .host)).foldl
    (fun s r => mirrorDrop r.tenant r.id s) s
  { s with path := { s.path with
      reqs := s.path.reqs.filter (fun r => r.stack != n || r.kind == .pot),
      flights := s.path.flights.filter (fun f => secStack f.sector != n) } }

/-- The domains of foot die n that retirement switches off (R93). -/
def retireDomains (n : Nat) (on : BitVec 96) : BitVec 96 := on &&& ~~~(31#96 <<< (49 + 6 * n))

/-- A stack is retired (R307): what it leaves behind. -/
def retireStack (n : Nat) (s : State) : State :=
  let s := exerEnd n 3 s
  let s := endStackRequests n s
  let s := removeExtents n (staleOnStack n s)
  let s := modStack n (fun k => { k with
    retired := true, online := false, retireProc := none, mapout := none, mapQueue := [], calRunning := none,
    sleep := {}, restore := false }) s
  { s with power := { s.power with on := retireDomains n s.power.on } }

/-- STACK_RETIRE_WINDOW (R307). -/
def retireWindow (n : Nat) (s : State) : State :=
  match (stackOf s n).retireProc with
  | none => s
  | some m =>
    if !m.recorded || (stackOf s n).thermal.heat == .scald ||
        (stackChans n).any (fun ch => !(m.failedChannel && ch % 32 == m.ch) && fetchUnderWay s ch) then s
    else
      let s := countEvent (stackCtr n 27) 1 (retireStack n s)
      let s := logEvent 0x0600 noTenant 2 n (leBytes 2 (n * 32 + m.ch) ++ leBytes 1 (mappedCount s n)) [0] s
      endMapoutCmd m n stOK s

def execStackRetireWindow (n : Fin 8) (s : State) : Host.Outcome State Fault Refusal := .next (retireWindow n.val s)

/-! ## Lane repair (R287, R288, R291) -/

/-- A spare for a lane is left: a data lane's on its pseudo-channel, a command lane's on the channel. -/
def laneSpare (s : State) (fp lane : Nat) : Bool :=
  if lane < 36 then spareLeft s fp ≠ 0
  else ((pcOf s (fp / 2 * 2)).lanesUsed.filter (36 ≤ ·)).length < spareCmds s (fp / 64)

/-- A lane is replaced by a spare. -/
def useLane (fp lane : Nat) (s : State) : State :=
  modPc (if lane < 36 then fp else fp / 2 * 2) (fun p => { p with lanesUsed := p.lanesUsed ++ [lane] }) s

/-- The lane-repair record is written: a command's repair then takes its window; the device's own is recorded. -/
def laneRecorded (ch fp lane : Nat) (ok : Bool) (s : State) : State :=
  match (chanOf s ch).repairCmd with
  | some c =>
    if ok then modChan ch (fun x => { x with window := .laneRepair fp lane }) s
    else finish 0x0602 c stFlashFault [] (modChan ch (fun x => { x with repairCmd := none }) s)
  | none =>
    if ok then
      { s with flash := { s.flash with store := { s.flash.store with
          laneRecs := s.flash.store.laneRecs ++ [(fp, lane)] } } }
    else s

/-- LANE_REPAIR_WINDOW: the window opens; on a benched channel the repair runs without one (Table 10.9). -/
def laneWindow (ch : Nat) (s : State) : State :=
  match (chanOf s ch).window with
  | .laneRepair _ _ => if (chanOf s ch).bench == .none && mayOpen s ch then openWindow ch s else s
  | _ => s

def execLaneRepairWindow (ch : Fin 256) (s : State) : Host.Outcome State Fault Refusal := .next (laneWindow ch.val s)

/-- A repair runs on the channel: its window is open, or the channel is benched. -/
def repairRuns (s : State) (ch : Nat) : Bool :=
  ((chanOf s ch).windowOpen || (chanOf s ch).bench != .none) && (stackOf s (ch / 32)).thermal.heat != .scald

/-- Completes the command that asked for a lane repair, with its record; the device's own repair is recorded now. -/
def laneDone (ch fp lane : Nat) (s : State) : State :=
  match (chanOf s ch).repairCmd with
  | some c =>
    let s := { s with flash := { s.flash with store := { s.flash.store with
      laneRecs := s.flash.store.laneRecs ++ [(fp, lane)] } } }
    finish 0x0602 c stOK [] (modChan ch (fun x => { x with repairCmd := none }) s)
  | none => pushJob (.laneRepair ch fp lane) s

/-- Ends the command of a repair with a status. -/
def failRepairCmd (ch op st : Nat) (s : State) : State :=
  match (chanOf s ch).repairCmd with
  | none => s
  | some c => finish op c st [] (modChan ch (fun x => { x with repairCmd := none }) s)

/-- LANE_REPAIR_END: the lane is replaced and the pseudo-channel retrained; the scrub starts. A retraining that still
fails is a channel failure (Table 10.2). -/
def laneEnd (ch : Nat) (ok : Bool) (s : State) : State :=
  match (chanOf s ch).window with
  | .laneRepair fp lane =>
    if !repairRuns s ch then s
    else if ok && laneSpare s fp lane then
      let s := windowRetrained ch (useLane fp lane s)
      let s := modStack (ch / 32) (fun k => { k with laneRepairs := k.laneRepairs + 1 }) s
      let s := if lane < 36 then modPc fp (fun p => { p with scrub := some lane }) s else s
      let s := laneDone ch fp lane s
      (match (chanOf s ch).laneQueue with
        | [] => closeWindow ch s
        | (p, l) :: r => modChan ch (fun c => { c with window := .laneRepair p l, laneQueue := r }) s)
    else
      let s := failRepairCmd ch 0x0602 stRepairExhausted s
      channelFailed ch (modChan ch (fun c => { c with laneQueue := [], window := .none }) s)
  | _ => s

def execLaneRepairEnd (ch : Fin 256) (ok : Bool) (s : State) : Host.Outcome State Fault Refusal :=
  .next (laneEnd ch.val ok s)

/-- REPAIR_SCRUB_DONE (R291). -/
def execRepairScrubDone (pc : Fin 512) (s : State) : Host.Outcome State Fault Refusal :=
  .next (modPc pc.val (fun p => { p with scrub := none }) s)

/-! ## Row repair (R293, R294) -/

/-- The row-repair record is written: the window is due (R287, R309). -/
def rowRecorded (ch : Nat) (r : RowRec) (ok : Bool) (s : State) : State :=
  match (chanOf s ch).repairCmd with
  | none => s
  | some c =>
    if ok then
      let s := { s with flash := { s.flash with store := { s.flash.store with rowRecs := s.flash.store.rowRecs ++ [r] } } }
      modChan ch (fun x => { x with window := .rowRepair r false }) s
    else finish 0x0601 c stFlashFault [] (modChan ch (fun x => { x with repairCmd := none }) s)

/-- The sector moves of a row repair, which count against a simmer limit that does not bind them (R337). -/
def rowMoves (fp : Nat) (s : State) : State := modPc fp (fun p => { p with columnsNow := p.columnsNow + 32 }) s

/-- ROW_REPAIR_WINDOW: the window opens and the row's sectors are copied out (R293 steps 1 and 2). -/
def rowWindow (ch : Nat) (s : State) : State :=
  match (chanOf s ch).window with
  | .rowRepair r _ =>
    if (chanOf s ch).bench != .none then rowMoves r.pc (modChan ch (fun c => { c with repairSteps := 2 }) s)
    else if mayOpen s ch then openWindow ch (rowMoves r.pc (modChan ch (fun c => { c with repairSteps := 2 }) s))
    else s
  | _ => s

def execRowRepairWindow (ch : Fin 256) (s : State) : Host.Outcome State Fault Refusal := .next (rowWindow ch.val s)

/-- One sector of a repaired row: re-encoded under the row's colour, or written as poison when it failed; a row of a free
extent keeps what is stored (R292, R293 step 2). -/
def carrySector (q : Nat) (s : State) : State :=
  let n := secStack q
  match rowBlockOf s.ident.big (stackOf s n).mapped (secPc q) (secBank q) (secRow q) with
  | none => s
  | some blk =>
    let reserved := decide (reservedBlock s.ident.big (mappedCount s n) ≤ blk)
    if !reserved && (extentOwner s n (blk / 256)).isNone then s
    else
      let col := blockColour s n blk
      let r := readSector s q col
      writeSector q col r.1.failed r.2 s

/-- The 32 sectors of a row. -/
def rowSectors (r : RowRec) : List Nat :=
  (List.range 32).map (fun i => sectorNo (r.pc / 64) (r.pc % 64) r.bank r.row (i / 2) (i % 2))

/-- The resource a row repair needs is there: sPPR holds one row of a bank, hPPR four over the life of a qualified stack. -/
def rowResource (s : State) (r : RowRec) (hard : Bool) : Bool :=
  if hard then
    ((stackOf s (r.pc / 64)).hardRows.filter (fun x => x.pc == r.pc && x.bank == r.bank)).length < hardLimit s (r.pc / 64)
  else !((pcOf s r.pc).spprBanks.contains r.bank)

/-- Removes the soft record of a row, once the record that cancels it is written. -/
def cancelSoft (r : RowRec) (s : State) : State :=
  { s with flash := { s.flash with store := { s.flash.store with rowRecs := s.flash.store.rowRecs.filter (· != r) } } }

/-- A row repair succeeds. -/
def rowRepaired (r : RowRec) (hard : Bool) (s : State) : State :=
  let n := r.pc / 64
  if hard then
    let held := (stackOf s n).softRows.contains r
    let s := modStack n (fun k => { k with hardRows := k.hardRows ++ [r], softRows := k.softRows.filter (· != r) }) s
    if held then pushJob (.rowCancel r) (modPc r.pc (fun p => { p with spprBanks := p.spprBanks.filter (· != r.bank) }) s) else s
  else
    let s := modStack n (fun k => { k with softRows := k.softRows ++ [r] }) s
    modPc r.pc (fun p => { p with spprBanks := insertNat p.spprBanks r.bank }) s

/-- ROW_REPAIR_END: the sectors are copied back, into the new row or the original one (R293, R294). -/
def rowEnd (ch : Nat) (ok : Bool) (s : State) : State :=
  match (chanOf s ch).window with
  | .rowRepair r hard =>
    if !repairRuns s ch || (chanOf s ch).repairSteps < 2 then s
    else
      let good := ok && rowResource s r hard
      let s := (rowSectors r).foldl (fun s q => carrySector q s) (rowMoves r.pc s)
      let s := if good then rowRepaired r hard s
        else if hard then s else pushJob (.rowCancel r) s
      let s := closeWindow ch (modChan ch (fun c => { c with repairSteps := 0 }) s)
      failRepairCmd ch 0x0601 (if good then stOK else stRepairExhausted) s
  | _ => s

def execRowRepairEnd (ch : Fin 256) (ok : Bool) (s : State) : Host.Outcome State Fault Refusal :=
  .next (rowEnd ch.val ok s)

/-! ## Commands (Table 10.11) -/

/-- Banks within a stack ID whose sPPR resource is in use. -/
def spprMask (p : Pc) : Nat := maskOf (p.spprBanks.map (· % 16))

def repairStatusWork (c : Cmd) (s : State) : Reply :=
  let n := par c 0 1
  let v := par c 2 2
  if 8 ≤ n || 64 ≤ v then .done s stBadParam []
  else
    let fp := n * 64 + v
    let p := pcOf s fp
    let k := stackOf s n
    let cmdLane := if laneSpare s fp 36 then 1 else 0
    .done s stOK
      (leBytes 1 (spareLeft s fp) ++ leBytes 1 cmdLane ++ leBytes 2 (spprMask p) ++ leBytes 4 k.softRows.length ++
        leBytes 4 k.hardRows.length ++ leBytes 2 k.laneRepairs ++ leBytes 1 (flag p.scrub.isSome 0))

/-- REPAIR_STATUS (R309). -/
def execRepairStatus (c : Cmd) (s : State) : Host.Outcome State Fault Refusal :=
  .next (mailbox 0x0600 c (repairStatusWork c) s)

/-- The stack's state stands against a repair or map-out command: retired or the channel mapped out, or in partial sleep
or doze (Table 10.9). -/
def repairRefused (s : State) (n ch : Nat) : Option Nat :=
  let k := stackOf s n
  if k.retired || k.mapped.contains ch then some stChannelOffline
  else if asleep s n || s.doze == .entering || s.doze == .asleep then some stBusy
  else none

/-- A repair command waits on the channel already, or another window is due on it. -/
def repairTaken (s : State) (ch : Nat) : Bool := (chanOf s ch).repairCmd.isSome || (chanOf s ch).window != .none

def repairRowWork (c : Cmd) (s : State) : Reply :=
  let n := par c 0 1
  let v := par c 2 2
  let bank := par c 4 1
  let row := par c 6 2
  let hard := bitOf (par c 8 1) 0
  let ch := n * 32 + v / 2
  if 8 ≤ n || 64 ≤ v || bankCount s.ident.big ≤ bank || 16384 ≤ row then .done s stBadParam []
  else
    match repairRefused s n (v / 2) with
    | some st => .done s st []
    | none =>
      let r : RowRec := { pc := n * 64 + v, bank := bank, row := row }
      if hard && (chanOf s ch).bench == .none then .done s stNotBenched []
      else if repairTaken s ch then .done s stBusy []
      else if hard then .wait (modChan ch (fun x => { x with repairCmd := some c, window := .rowRepair r true }) s)
      else if !s.flash.answers then .done s stFlashFault []
      else .wait (pushJob (.rowRepair ch r hard) (modChan ch (fun x => { x with repairCmd := some c }) s))

/-- REPAIR_ROW (R293, R294, R309). -/
def execRepairRow (c : Cmd) (s : State) : Host.Outcome State Fault Refusal :=
  .next (mailbox 0x0601 c (repairRowWork c) s)

def repairLaneWork (c : Cmd) (s : State) : Reply :=
  let n := par c 0 1
  let v := par c 2 2
  let lane := par c 4 1
  let ch := n * 32 + v / 2
  if 8 ≤ n || 64 ≤ v || 64 ≤ lane then .done s stBadParam []
  else
    match repairRefused s n (v / 2) with
    | some st => .done s st []
    | none =>
      if repairTaken s ch then .done s stBusy []
      else if !laneSpare s (n * 64 + v) lane then .done s stRepairExhausted []
      else if !s.flash.answers then .done s stFlashFault []
      else
        .wait (pushJob (.laneRepair ch (n * 64 + v) lane) (modChan ch (fun x => { x with repairCmd := some c }) s))

/-- REPAIR_LANE (R288, R291, R309). -/
def execRepairLane (c : Cmd) (s : State) : Host.Outcome State Fault Refusal :=
  .next (mailbox 0x0602 c (repairLaneWork c) s)

def mapoutChannelWork (c : Cmd) (s : State) : Reply :=
  let n := par c 0 1
  let ch := par c 1 1
  let flags := par c 2 1
  if 8 ≤ n || 32 ≤ ch then .done s stBadParam []
  else
    match repairRefused s n ch with
    | some st => .done s st (capacityResult s n)
    | none =>
      let k := stackOf s n
      let m : Mapout := { ch := ch, cmd := some c, forced := bitOf flags 0 && !foldReady s n }
      if k.mapout.isSome || k.retireProc.isSome then .done s stBusy (capacityResult s n)
      else if 4 ≤ k.mapped.length && !bitOf flags 1 then .done s stMapoutLimit (capacityResult s n)
      else if k.mapped.length < 4 && !foldReady s n && !bitOf flags 0 then .done s stFoldNotReady (capacityResult s n)
      else if !s.flash.answers then .done s stFlashFault (capacityResult s n)
      else if 4 ≤ k.mapped.length then .wait (startRetire n { m with forced := false } s)
      else .wait (startMapout n m s)

/-- MAPOUT_CHANNEL (R302, R304, R307, R309). -/
def execMapoutChannel (c : Cmd) (s : State) : Host.Outcome State Fault Refusal :=
  .next (mailbox 0x0603 c (mapoutChannelWork c) s)

/-- Offline extents of stack n. -/
def offlineCount (s : State) (n : Nat) : Nat :=
  sumOf (s.parts.map (fun e => (e.2.offline.filter (fun x => x.1 == n)).length))

def foldStatusResult (s : State) (n : Nat) : List Byte :=
  let k := stackOf s n
  let v := vacateExtents s n
  let r := if v.isEmpty then (0, 0) else vacateRange s.ident.big (mappedCount s n)
  leBytes 1 (mappedCount s n) ++ leBytes 1 (flag (foldReady s n) 0) ++
    (List.range 4).map (fun i => BitVec.ofNat 8 (k.mapped.getD i 0xFF)) ++ leBytes 2 r.1 ++ leBytes 2 r.2 ++
    leBytes 2 (v.filter (fun x => k.prepared.contains x)).length ++
    leBytes 2 (v.filter (fun x => (extentOwner s n x).isSome)).length ++ leBytes 2 (offlineCount s n)

def foldStatusWork (c : Cmd) (s : State) : Reply :=
  let n := par c 0 1
  if 8 ≤ n then .done s stBadParam [] else .done s stOK (foldStatusResult s n)

/-- FOLD_STATUS (R309). -/
def execFoldStatus (c : Cmd) (s : State) : Host.Outcome State Fault Refusal :=
  .next (mailbox 0x0604 c (foldStatusWork c) s)

/-- A fold table as FOLD_TABLE_READ writes it (Table 10.6); a band that does not exist has no valid entry. -/
def foldTableBytes (t : FoldTable) : List Byte :=
  (List.range 1024).flatMap (fun i =>
    match t.getD i none with
    | none => leBytes 2 0
    | some (pc, b) => leBytes 2 (32768 + b * 256 + pc))

def foldTableReadWork (c : Cmd) (s : State) : Reply :=
  let n := par c 0 1
  let band := par c 1 1
  let addr := par c 8 8
  if 8 ≤ n || 4 ≤ band || addr % 64 ≠ 0 then .done s stBadParam []
  else
    let t := (foldTables (stackOf s n).mapped).getD band []
    .done (emit (.hostWrite (cmdFn c) addr (foldTableBytes t)) s) stOK (leBytes 2 (t.filter (·.isSome)).length)

/-- FOLD_TABLE_READ (R299, R309). -/
def execFoldTableRead (c : Cmd) (s : State) : Host.Outcome State Fault Refusal :=
  .next (mailbox 0x0605 c (foldTableReadWork c) s)

end Sys2Proof.Machine
end

