-- ==== Sys2Proof/Machine/Peers.lean ====
section
/-! DEFINITION. Peer ports: links and connections (R408 to R420), received frames and the operations they carry (R423 to
R427), held frames (R157, R341, R52), advisories (R350), and the peer commands (Table 15.11). -/

namespace Sys2Proof.Machine

open Sys2Proof

/-! ## Links and connections -/

/-- PEER_LINK_UP: the link of an enabled port comes up, and its connections open (R408, R415). -/
def linkCameUp (k : Nat) (s : State) : State :=
  if !portOn s k || linkUp s k || !s.power.on.getLsbD (40 + k) then s
  else
    let s := modPort k (fun p => { p with link := 2 }) s
    ((List.range 65).filter (connOn s k)).foldl (fun s c => sendOpen k c s) s

def execPeerLinkUp (k : Fin 4) (s : State) : Host.Outcome State Fault Refusal := .next (linkCameUp k.val s)

/-- PEER_LINK_DOWN: the connections of the port fail (R420). -/
def linkWentDown (k : Nat) (s : State) : State :=
  if !linkUp s k then s
  else
    failPort k (countEvent (portCtr k 15) 1 (modPort k (fun p => { p with link := 1, paused := false, waiting := [] }) s))

def execPeerLinkDown (k : Fin 4) (s : State) : Host.Outcome State Fault Refusal := .next (linkWentDown k.val s)

/-- PEER_OPEN_REPEAT: OPEN again after 1 ms without an answer (R415). -/
def openRepeat (k c : Nat) (s : State) : State :=
  let x := connOf s k c
  if x.phase = 1 && connOn s k c && linkUp s k && due s x.openAt then sendOpen k c s else s

def execPeerOpenRepeat (k : Fin 4) (conn : Fin 65) (s : State) : Host.Outcome State Fault Refusal :=
  .next (openRepeat k.val conn.val s)

/-- Sends again every sent frame from a sequence on (R417). -/
def resendFrom (k c : Nat) (a : BitVec 24) (s : State) : State :=
  ((connOf s k c).kept.filter (fun e => e.sent && seqLe a e.seq)).foldl (fun s e =>
    let s := countEvent (portCtr k 4) 1 (modConn k c (fun x => { x with resent := x.resent + 1 }) s)
    ackSent k c (freeStep (emitFrame k e.type { header s k c e.frame with seq := e.seq } s))) s

/-- PEER_RTO_EXPIRY: resend, or after 16 timeouts without progress fail (R417, R420). -/
def rtoExpired (k c : Nat) (s : State) : State :=
  let x := connOf s k c
  if x.phase ≠ 2 || !due s (x.lastProgress + rto s k c) then s
  else
    match x.kept.find? (·.sent) with
    | none => s
    | some e =>
      let s := modConn k c (fun x => { x with timeouts := x.timeouts + 1, lastProgress := now s }) s
      if 16 ≤ x.timeouts + 1 then reopen k c (failConn k c s) else resendFrom k c e.seq s

def execPeerRtoExpiry (k : Fin 4) (conn : Fin 65) (s : State) : Host.Outcome State Fault Refusal :=
  .next (rtoExpired k.val conn.val s)

/-- PEER_ACK_SEND: an acknowledgement that is owed goes out (R418). -/
def ackSend (k c : Nat) (s : State) : State :=
  if (connOf s k c).ackDue.isSome then sendPlain k c 0x07 blankFrame s else s

def execPeerAckSend (k : Fin 4) (conn : Fin 65) (s : State) : Host.Outcome State Fault Refusal :=
  .next (ackSend k.val conn.val s)

/-! ## Reception -/

/-- A received frame is discarded and counted (R411). -/
def discardFrame (k : Nat) (s : State) : State := countEvent (portCtr k 6) 1 s

/-- BAD_PEER_FRAME (R411, R412, R414). -/
def execBadPeerFrame (k : Fin 4) (why : BadFrame) (s : State) : Host.Outcome State Fault Refusal :=
  .next (match why with
    | _ => if linkUp s k.val then discardFrame k.val s else s)

/-- The connection a frame on a port belongs to: the enabled one with its source address (R414). -/
def connFor (s : State) (k : Nat) (f : Frame) : Option Nat :=
  (List.range 65).find? (fun c => connOn s k c && remoteMac s k c == some f.src)

/-- Counts a received frame. -/
def countRx (k type : Nat) (f : Frame) (s : State) : State :=
  let s := countVolume (portCtr k 1) f.payload.length (countEvent (portCtr k 3) 1 s)
  let s := countEv .peer .user 8 (units64 f.payload.length) s
  if mirrorType type then countVolume (portCtr k 13) f.payload.length s else s

/-- The acknowledgement and window edge of any frame on an open connection (R417). -/
def takeHeader (k c : Nat) (ack window : BitVec 24) (s : State) : State :=
  let x := connOf s k c
  if x.phase ≠ 2 then s
  else
    let s := setConn k c { x with window := if seqLe x.window window then window else x.window } s
    pumpAll k c (ackTo k c ack s)

/-- A sequenced frame is accepted: it is owed an acknowledgement, sent at once for the 16th (R418). -/
def acceptSeq (k c : Nat) (s : State) : State :=
  let x := connOf s k c
  let s := setConn k c
    { x with rxExpect := x.rxExpect + 1, unackedRx := x.unackedRx + 1, nakAt := none,
             ackDue := some (x.ackDue.getD (now s + usTicks 1)) } s
  if 16 ≤ x.unackedRx + 1 then sendPlain k c 0x07 blankFrame s else s

/-- A frame newer than expected: a NAK, at most one per RTO while the gap stands (R418). -/
def sendNak (k c : Nat) (s : State) : State :=
  let x := connOf s k c
  if (match x.nakAt with | some t => decide (now s < t) | none => false) then s
  else
    let s := modConn k c (fun x => { x with nakAt := some (now s + rto s k c) }) (countEvent (portCtr k 5) 1 s)
    ackSent k c (freeStep (emitFrame k 0x08 { header s k c blankFrame with ack := x.rxExpect } s))

/-- Receives a sequenced frame: `f` is its effect once accepted. -/
def rxSequenced (k type : Nat) (f : Frame) (body : Nat → State → State) (s : State) : State :=
  if !linkUp s k || f.dst != portMac s k then (if linkUp s k then discardFrame k s else s)
  else
    match connFor s k f with
    | none => discardFrame k s
    | some c =>
      let s := takeHeader k c f.ack f.window (countRx k type f s)
      let x := connOf s k c
      if x.phase ≠ 2 then s
      else if f.seq = x.rxExpect then body c (acceptSeq k c s)
      else if seqLe f.seq x.rxExpect then sendPlain k c 0x07 blankFrame s
      else sendNak k c s

/-- Receives an unsequenced frame of a connection. -/
def rxPlain (k type : Nat) (f : Frame) (body : Nat → State → State) (s : State) : State :=
  if !linkUp s k || f.dst != portMac s k then (if linkUp s k then discardFrame k s else s)
  else
    match connFor s k f with
    | none => discardFrame k s
    | some c => body c (countRx k type f s)

/-- ACK_FRAME (R417, R418). -/
def execAckFrame (k : Fin 4) (f : Frame) (s : State) : Host.Outcome State Fault Refusal :=
  .next (rxPlain k.val 0x07 f (fun c s => takeHeader k.val c f.ack f.window s) s)

/-- NAK_FRAME: everything before the sequence named is acknowledged, and it is sent again (R417). -/
def execNakFrame (k : Fin 4) (f : Frame) (s : State) : Host.Outcome State Fault Refusal :=
  .next (rxPlain k.val 0x08 f (fun c s =>
    let s := takeHeader k.val c (f.ack - 1) f.window s
    if (connOf s k.val c).phase = 2 then resendFrom k.val c f.ack s else s) s)

/-- The previous incarnation of a connection ends (R415): its outstanding operations, its store, and what was received
and not applied. -/
def endIncarnation (k c : Nat) (s : State) : State :=
  let mac := remoteMac s k c
  let s := if (connOf s k c).phase = 2 then unreachable k c s else s
  let stale := if c = twinConn then cutCopies s else []
  let s := modConn k c (fun x => { x with
    kept := [], rxOps := [], timeouts := 0, ackDue := none, nakAt := none, unackedRx := 0 }) s
  let s := { s with peers := { s.peers with held := s.peers.held.filter (fun h => h.applying || !(h.port == k && mac == some h.frame.src)) } }
  stale.foldl (fun s t => staleCopy t s) s

/-- The connection is open: the other side's first sequence is known. -/
def nowOpen (k c : Nat) (f : Frame) (s : State) : State :=
  pumpAll k c (modConn k c (fun x => { x with phase := 2, rxExpect := f.seq + 1, window := f.window, lastProgress := now s }) s)

/-- OPEN: a new incarnation, answered with OPEN_ACK and this side's first sequence (R415). -/
def openReceived (k c : Nat) (f : Frame) (s : State) : State :=
  let x := connOf s k c
  let s := endIncarnation k c s
  let first := if x.phase = 1 then x.firstTx else BitVec.ofNat 24 (now s)
  let s := modConn k c (fun x => { x with firstTx := first, txNext := first + 1 }) s
  let s := modConn k c (fun x => { x with rxExpect := f.seq + 1 }) s
  nowOpen k c f (sendPlain k c 0x0A { blankFrame with seq := first } s)

/-- OPEN_FRAME (R415). -/
def execOpenFrame (k : Fin 4) (f : Frame) (s : State) : Host.Outcome State Fault Refusal :=
  .next (rxPlain k.val 0x09 f (fun c s => openReceived k.val c f s) s)

/-- OPEN_ACK_FRAME (R415). -/
def execOpenAckFrame (k : Fin 4) (f : Frame) (s : State) : Host.Outcome State Fault Refusal :=
  .next (rxPlain k.val 0x0A f (fun c s =>
    if (connOf s k.val c).phase = 1 then nowOpen k.val c f s else s) s)

/-! ## Operations at the receiver (R423, R424) -/

/-- The receive mask of a connection holds a tenant. -/
def receives (s : State) (k c t : Nat) : Bool := t < 128 && (cfgN s 0x0C02 3 (k * 64 + c)).testBit t

/-- Fields of a reduction or a signal. -/
def opFieldsOk (type : Nat) (f : Frame) : Bool :=
  if type = 0x04 then
    f.operation.toNat ≤ 2 && between 3 5 f.format.toNat && f.addr.toNat % fmtSize f.format.toNat == 0
  else if type = 0x05 then f.operation.toNat ≤ 1 && f.addr.toNat % 8 == 0
  else true

/-- What the first frame of an operation is checked to, in the order of R423, after a gated port that takes no new work
(R92); a closed partition is the caller's. -/
def opStatus (s : State) (k c type : Nat) (f : Frame) : Option Nat :=
  let t := f.dstTenant.toNat
  let len := if type = 0x05 then 8 else f.length.toNat
  if gatedOff s (40 + k) then some stDomainGated
  else if !receives s k c t then some stNotPermitted
  else if (type = 0x04 || type = 0x05) && f.addr.toNat < 2 ^ 39 then some stAtomicUnsupported
  else if !opFieldsOk type f then some stBadParam
  else rangeStatus s t f.addr.toNat len

/-- A reply of an operation, to the source tenant with its tag. -/
def replyFrame (f : Frame) (st : Nat) : Frame :=
  { blankFrame with
    srcTenant := f.dstTenant, dstTenant := f.srcTenant, opTag := f.opTag, status := BitVec.ofNat 16 st, first := true,
    last := true }

/-- Sends a RESPONSE, after the partner of a synchronous partition has what it covers (R436). -/
def respond (k c : Nat) (f : Frame) (st : Nat) (s : State) : State :=
  afterMirror f.dstTenant.toNat (.frame k c 0x06 (replyFrame f st)) s

/-- The receiver's record of an operation. -/
def rxOpOf (s : State) (k c : Nat) (f : Frame) : Option RxOp :=
  (connOf s k c).rxOps.find? (fun o => o.srcTenant == f.srcTenant.toNat && o.opTag == f.opTag)

def setRxOp (k c : Nat) (f : Frame) (o : Option RxOp) (s : State) : State :=
  modConn k c (fun x => { x with
    rxOps := x.rxOps.filter (fun o => !(o.srcTenant == f.srcTenant.toNat && o.opTag == f.opTag)) ++ o.toList }) s

/-- A new record. -/
def newRxOp (type : Nat) (f : Frame) (failed : Option Nat) : RxOp :=
  { srcTenant := f.srcTenant.toNat, opTag := f.opTag, type := type, base := f.addr.toNat, length := f.length.toNat,
    tenant := f.dstTenant.toNat, failed := failed.map (BitVec.ofNat 16),
    coll := if f.collective then some f.collId else none }

/-- An operation ends with a status: its RESPONSE goes out now, and its remaining frames are discarded. -/
def failRx (k c type st : Nat) (f : Frame) (s : State) : State :=
  respond k c f st (setRxOp k c f (if f.last then none else some (newRxOp type f (some st))) s)

/-- Poison bits of a payload, as the failed units of a range that starts at 0. -/
def payloadPoison (f : Frame) : List Bool := (List.range (ceilDiv f.payload.length 32)).map (fun i => f.poison.getLsbD i)

/-- Where a frame's payload lies. -/
def frameTa (base : Nat) (f : Frame) : Nat := base + f.offset.toNat

/-- An access of a received frame, on its port (R424): with the tenant's tokens, and the frame's collective identifier. -/
def frameAsk (h : HeldFrame) (t ta len : Nat) (write : Bool) : Ask :=
  { owner := .frame h.id, tenant := t, port := 1 + h.port, ta := ta, len := len, write := write,
    coll := if h.frame.collective then some h.frame.collId else none }

/-- Writes a frame's payload with its poison (R413). -/
def writePayload (h : HeldFrame) (t ta : Nat) (exempt : Bool) (s : State) : State :=
  let f := h.frame
  ask { frameAsk h t ta f.payload.length true with
    data := f.payload, poison := movedUnits 0 ta f.payload.length (payloadPoison f), exempt := exempt } s

/-- Applies the elements of a REDUCE_PUT frame; a poisoned sector poisons its pot target (R263). -/
def reducePayload (h : HeldFrame) (t ta : Nat) (s : State) : State :=
  let f := h.frame
  let fm := f.format.toNat
  let reduce := fun (i n : Nat) (s : State) =>
    askReduce (.frame h.id) t (1 + h.port) (ta + i) f.operation.toNat fm fm (bytesAt f.payload i n) (frameAsk h t ta 0 true).coll s
  let bad := payloadPoison f
  if !bad.any id then reduce 0 f.payload.length s
  else
    (List.range bad.length).foldl (fun s i =>
      let n := min 32 (f.payload.length - 32 * i)
      if bad.getD i false then
        ask { frameAsk h t (ta + 32 * i) n true with
          bytes := false, poison := (unitStarts (ta + 32 * i) n).map (fun _ => true) } s
      else reduce (32 * i) n s) s

/-- Answers a GET with what was read: data frames with poison bits, the status in the last (Table 15.6). -/
def answerGet (k c : Nat) (f : Frame) (a : Access) (s : State) : State :=
  let r := gathered a
  let base := { replyFrame f 0 with addr := f.addr, collective := f.collective, collId := f.collId }
  let fs := dataFrames s k base r.bytes (sectorPoison f.addr.toNat f.length.toNat r.failed)
  let st := if r.anyFailed then stPoison else stOK
  sendFrames k c 0x03 (fs.map (fun g => if g.last then { g with status := BitVec.ofNat 16 st } else g)) s

/-- The status of a write by its worst outcome (Table 9.5). -/
def writeStatus (worst : Nat) : Nat := if worst = 0 then stOK else if worst = 1 then stCorrected else stWriteOverPoison

/-- The accesses of one frame of an operation whose checks have passed are issued. -/
def issueFrame (h : HeldFrame) (o : RxOp) (s : State) : State :=
  let f := h.frame
  let ta := frameTa o.base f
  match h.type with
  | 0x01 => writePayload h o.tenant ta false s
  | 0x02 => ask (frameAsk h o.tenant f.addr.toNat f.length.toNat false) s
  | 0x04 => reducePayload h o.tenant ta s
  | _ =>
    let v := BitVec.ofNat 64 (leAt f.payload 0 8)
    askAtomic (.frame h.id) o.tenant (1 + h.port) ta 8 (if f.operation.toNat = 0 then .swap v else .fetchAdd v) s

/-- PUT, GET and REDUCE-PUT are job work (R52). -/
def jobType (type : Nat) : Bool := type == 0x01 || type == 0x02 || type == 0x04

/-- The range that one frame touches. -/
def frameRange (type : Nat) (base : Nat) (f : Frame) : Nat × Nat :=
  if type = 0x02 then (base, f.length.toNat) else (frameTa base f, f.payload.length)

/-- What a frame of an operation meets: nothing more to do, a status that ends the operation, a wait, or its effect. -/
inductive Meets where
  | drop
  | fail (st : Nat)
  | hold
  | go (o : RxOp)
  deriving DecidableEq, Repr

/-- Decides on a frame of an operation (R157, R423); `fresh` says that it has just arrived. -/
def meets (k c type : Nat) (f : Frame) (fresh : Bool) (s : State) : Meets :=
  let t := f.dstTenant.toNat
  match (if f.first then none else rxOpOf s k c f) with
  | some o =>
    if o.failed.isSome then .drop
    else
      let r := frameRange type o.base f
      match (if type = 0x05 then none else rangeStatus s o.tenant r.1 r.2) with
      | some st => .fail st
      | none => .go o
  | none =>
    if !f.first then .drop
    else if receives s k c t && holds s t then (if fresh && holdOver s t then .fail stPartitionClosed else .hold)
    else
      match opStatus s k c type f with
      | some st => .fail st
      | none => if s.kettle.jobRelease.isSome && jobType type then .hold else .go (newRxOp type f none)

/-- Two frames are of one stream (R426). -/
def sameStream (a b : HeldFrame) : Bool :=
  a.port == b.port && a.frame.src == b.frame.src && a.frame.srcTenant == b.frame.srcTenant

/-- Frames that were accepted before a held one. -/
def before (s : State) (h : HeldFrame) : List HeldFrame := s.peers.held.takeWhile (fun x => x.id != h.id)

/-- An earlier frame of the same stream holds a frame back: one that waits; for a SIGNAL also one that is not visible yet
(R426). -/
def streamHeld (s : State) (h : HeldFrame) : Bool :=
  (before s h).any (fun x => sameStream x h && (!x.applying || h.type == 0x05))

/-- Takes a held frame out. -/
def dropHeld (id : Nat) (s : State) : State :=
  { s with peers := { s.peers with held := s.peers.held.filter (fun h => h.id != id) } }

/-- A frame is accepted: it has an entry until it is applied. -/
def holdFrame (k type : Nat) (f : Frame) (s : State) : HeldFrame × State :=
  let h : HeldFrame := { id := s.path.nextId, port := k, type := type, frame := f, since := now s }
  (h, takeId { s with peers := { s.peers with held := s.peers.held ++ [h] } })

/-- The frame's requests are under way. -/
def setApplying (id : Nat) (s : State) : State :=
  { s with peers := { s.peers with held := modFirst s.peers.held (fun h => h.id == id) (fun h => { h with applying := true }) } }

/-- The first frame of an operation that passed its checks: a job start may hold it (R52); its collective's sectors become
outstanding (R346). -/
def startRx (k c : Nat) (h : HeldFrame) (o : RxOp) (s : State) : Option State :=
  let f := h.frame
  let go := fun (s : State) =>
    setRxOp k c f (some o) (match o.coll with
      | none => s
      | some id => collRange id o.tenant o.base (if h.type = 0x05 then 8 else o.length) s)
  if !f.first then some s
  else if !jobType h.type then some (go s)
  else
    let j := jobArrive s
    if j.1 then none else some (go j.2)

/-- An accepted frame of an operation goes on as far as it can: it is dropped, ends its operation, waits, or issues its
accesses. -/
def tryOp (c : Nat) (fresh : Bool) (h : HeldFrame) (s : State) : State :=
  let k := h.port
  let f := h.frame
  match meets k c h.type f fresh s with
  | .drop => dropHeld h.id (if f.last then setRxOp k c f none s else s)
  | .fail st =>
    let t := f.dstTenant.toNat
    let s := if st = stPartitionClosed then countHeldEnd t s else accessEvent t f.addr.toNat st s
    dropHeld h.id (failRx k c h.type st f s)
  | .hold => s
  | .go o =>
    match startRx k c h o s with
    | none => if jobType h.type && s.kettle.jobRelease.isNone then (jobArrive s).2 else s
    | some s => issueFrame h o (setApplying h.id s)

/-- A frame of an operation that its connection accepted. -/
def opReceived (k type : Nat) (f : Frame) (c : Nat) (s : State) : State :=
  let x := holdFrame k type f s
  if streamHeld x.2 x.1 then x.2 else tryOp c true x.1 x.2

/-- The accesses of a frame of an operation are complete (R424, R426): it is applied, once every earlier frame of its
operation is; the last one answers. -/
def opDone (c : Nat) (h : HeldFrame) (s : State) : State :=
  let k := h.port
  let f := h.frame
  let own := Owner.frame h.id
  if (before s h).any (fun x => sameStream x h && x.frame.opTag == f.opTag && x.type == h.type) then s
  else
    let st := ownerStatus s own
    let worst := ownerWorst s own
    let a := (accessesOf s own).head?
    let s := dropHeld h.id (dropOwner own s)
    match rxOpOf s k c f with
    | none => s
    | some o =>
      if o.failed.isSome then (if f.last then setRxOp k c f none s else s)
      else
        let o := { o with
          got := f.offset.toNat + f.payload.length, worst := max o.worst worst, poisoned := o.poisoned || worst == 2 }
        match st, a with
        | some st, _ => failRx k c h.type st f s
        | none, some a =>
          if h.type = 0x02 then answerGet k c f a (setRxOp k c f none s)
          else if !f.last then setRxOp k c f (some o) s
          else
            respond k c f (if h.type = 0x01 then writeStatus o.worst else if o.poisoned then stPoison else stOK)
              (setRxOp k c f none s)
        | none, none => setRxOp k c f none s

/-- PUT_FRAME (R424). -/
def execPutFrame (k : Fin 4) (f : Frame) (s : State) : Host.Outcome State Fault Refusal :=
  .next (rxSequenced k.val 0x01 f (opReceived k.val 0x01 f) s)

/-- GET_REQUEST_FRAME (R424). -/
def execGetRequestFrame (k : Fin 4) (f : Frame) (s : State) : Host.Outcome State Fault Refusal :=
  .next (rxSequenced k.val 0x02 f (opReceived k.val 0x02 f) s)

/-- REDUCE_PUT_FRAME (R424, R380). -/
def execReducePutFrame (k : Fin 4) (f : Frame) (s : State) : Host.Outcome State Fault Refusal :=
  .next (rxSequenced k.val 0x04 f (opReceived k.val 0x04 f) s)

/-- SIGNAL_FRAME (R424, R426). -/
def execSignalFrame (k : Fin 4) (f : Frame) (s : State) : Host.Outcome State Fault Refusal :=
  .next (rxSequenced k.val 0x05 f (opReceived k.val 0x05 f) s)

/-! ## Replies at the issuer (R425) -/

/-- The outstanding operation that a reply on connection c of port k names. -/
def opNamed (s : State) (k c : Nat) (f : Frame) : Option PeerOpState :=
  s.peers.ops.find? (fun o => o.tag == f.opTag && o.conn == connKey k c)

/-- Ends an operation whose writes the partner of a synchronous partition may have to acknowledge first (R436). -/
def endOpMirrored (o : PeerOpState) (st : Nat) (s : State) : State :=
  match o.issuer with
  | .command cmd =>
    if mirrorPending s o.tenant then
      let s := { s with peers := { s.peers with ops := s.peers.ops.filter (fun x => x.tag != o.tag) } }
      afterMirror o.tenant (.cmd 0x0C08 cmd (opEnds o st) (opMoved o st)) s
    else endOp o st s
  | .descriptor _ _ => endOp o st s

/-- A GET's data is written as it arrives, as moving work (R263). -/
def tryGetData (c : Nat) (h : HeldFrame) (s : State) : State :=
  let f := h.frame
  match opNamed s h.port c f with
  | none => dropHeld h.id s
  | some o =>
    let ta := o.localTa + f.offset.toNat
    match rangeStatus s o.tenant ta f.payload.length with
    | some st => dropHeld h.id (endOp o st (accessEvent o.tenant ta st s))
    | none => writePayload h o.tenant ta false (setApplying h.id s)

/-- The data of a GET frame is written: the operation completes with its last frame, once the earlier ones are. -/
def getDone (c : Nat) (h : HeldFrame) (s : State) : State :=
  let f := h.frame
  let own := Owner.frame h.id
  if (before s h).any (fun x => sameStream x h && x.frame.opTag == f.opTag && x.type == h.type) then s
  else
    let st := ownerStatus s own
    let s := dropHeld h.id (dropOwner own s)
    match opNamed s h.port c f with
    | none => s
    | some o =>
      match st with
      | some st => endOp o st s
      | none =>
        let o' := { o with got := o.got + f.payload.length }
        let s := { s with peers := { s.peers with ops := modFirst s.peers.ops (fun x => x.tag == o.tag) (fun _ => o') } }
        if f.last then endOpMirrored o' f.status.toNat s else s

/-- GET_DATA of an accepted frame. -/
def getData (k : Nat) (f : Frame) (c : Nat) (s : State) : State :=
  let x := holdFrame k 0x03 f s
  if streamHeld x.2 x.1 then x.2 else tryGetData c x.1 x.2

/-- GET_DATA_FRAME (R425). -/
def execGetDataFrame (k : Fin 4) (f : Frame) (s : State) : Host.Outcome State Fault Refusal :=
  .next (rxSequenced k.val 0x03 f (getData k.val f) s)

/-- RESPONSE_FRAME: the operation ends with the reply's status (R425). -/
def execResponseFrame (k : Fin 4) (f : Frame) (s : State) : Host.Outcome State Fault Refusal :=
  .next (rxSequenced k.val 0x06 f (fun c s =>
    match opNamed s k.val c f with
    | none => s
    | some o => endOpMirrored o f.status.toNat s) s)

/-! ## Held frames -/

/-- Tries the waiting frames in order; a frame behind one of its stream that still waits goes on waiting, and one whose
partition was handed over to the partner meanwhile ends as R157 states (R442). -/
def retryFrom (l : List HeldFrame) (s : State) : State :=
  match l with
  | [] => s
  | h :: rest =>
    match connFor s h.port h.frame with
    | none => retryFrom rest (dropHeld h.id s)
    | some c =>
      if streamHeld s h || (h.type != 0x03 && standby s h.frame.dstTenant.toNat) then retryFrom rest s
      else retryFrom rest (if h.type = 0x03 then tryGetData c h s else tryOp c false h s)

/-- Waiting frames of operations go on where what they waited for is over. Frames of the twin connection have their own
place. -/
def retryHeld (s : State) : State := retryFrom (s.peers.held.filter (fun h => h.type < 0x0D && !h.applying)) s

/-- The accesses of a received frame of an operation are complete. -/
def frameDone (h : HeldFrame) (s : State) : State :=
  match connFor s h.port h.frame with
  | none => dropHeld h.id (dropOwner (.frame h.id) s)
  | some c => if h.type = 0x03 then getDone c h s else opDone c h s

/-- A held frame's operation ends with a status. -/
def failHeld (h : HeldFrame) (st : Nat) (s : State) : State :=
  let s := dropHeld h.id s
  match connFor s h.port h.frame with
  | none => s
  | some c =>
    if h.type = 0x03 then
      match opNamed s h.port c h.frame with
      | none => s
      | some o => endOp o st s
    else failRx h.port c h.type st h.frame s

/-- DRAIN_HOLD_TIMEOUT for a held frame: PARTITION_CLOSED after 2 ms (R157). -/
def heldFrameTimeout (id : Nat) (s : State) : State :=
  match s.peers.held.find? (fun h => h.id == id) with
  | none => s
  | some h =>
    let t := h.frame.dstTenant.toNat
    if !h.applying && h.type ≠ 0x03 && (holds s t || standby s t) && due s (h.since + msTicks 2) then failHeld h stPartitionClosed (countHeldEnd t s) else s

/-- DRAIN_HOLD_TIMEOUT (R157). -/
def execDrainHoldTimeout (id : Nat) (s : State) : Host.Outcome State Fault Refusal :=
  .next (if s.peers.held.any (fun h => h.id == id) then heldFrameTimeout id s else heldTimeout id s)

/-! ## Advisories and pauses -/

/-- ADVISORY_FRAME: an event for the PF, and for the named tenant with counters permission (R350). -/
def advisoryReceived (k : Nat) (f : Frame) (s : State) : State :=
  if !linkUp s k || !(f.dst == portMac s k || f.dst == broadcast) then (if linkUp s k then discardFrame k s else s)
  else
    let t := leAt f.payload 4 2
    let rings := if t < 128 && (t == 0 || bitOf (permWord s t) 0) then [0, t].eraseDups else [0]
    let rcd := padTo 16 f.payload ++ beBytes 6 f.src.toNat ++ leBytes 1 k ++ [0]
    let s := countEvent (portCtr k 11) 1 (countRx k 0x0B f s)
    logRecord 0x0902 t 1 (leAt f.payload 6 1) rcd rings { s with late := { s.late with received := s.late.received + 1 } }

def execAdvisoryFrame (k : Fin 4) (f : Frame) (s : State) : Host.Outcome State Fault Refusal :=
  .next (advisoryReceived k.val f s)

/-- Sends what a pause held back. -/
def endPause (k : Nat) (s : State) : State :=
  let w := (portOf s k).waiting
  w.foldl (fun s e => sendNow k e.1 e.2 s) (modPort k (fun p => { p with paused := false, waiting := [] }) s)

/-- PAUSE_FRAME: a PAUSE, or priority-based flow control for the port's PCP; a quantum is 512 bit times at 800 Gb/s, and
0 ends the pause (R411). -/
def pauseReceived (k quanta : Nat) (classes : Option Byte) (s : State) : State :=
  let pcp := cfgN s 0x0C01 3 k / 8192
  let mine := match classes with | none => true | some m => m.toNat.testBit pcp
  if !linkUp s k || !mine then s
  else if quanta = 0 then endPause k s
  else modPort k (fun p => { p with paused := true, pausedUntil := now s + ceilDiv (quanta * 64) 100 }) s

def execPauseFrame (k : Fin 4) (quanta : Nat) (classes : Option Byte) (s : State) : Host.Outcome State Fault Refusal :=
  .next (pauseReceived k.val quanta classes s)

/-- PAUSE_TIME_EXPIRY (R411). -/
def execPauseTimeExpiry (k : Fin 4) (s : State) : Host.Outcome State Fault Refusal :=
  .next (if (portOf s k.val).paused && due s (portOf s k.val).pausedUntil then endPause k.val s else s)

/-! ## Ports and connections after a switch of configuration (R420, R151) -/

/-- Closes a connection that is no longer enabled. -/
def shutConn (k c : Nat) (s : State) : State := modConn k c (fun x => { x with phase := 0 }) (failConn k c s)

/-- The ports and connections follow the configuration in force: `old` is the state before the switch. A port that is gated
off goes down once its domain has lost its power (R92). -/
def peerAfterSwitch (old s : State) : State :=
  (List.range 4).foldl (fun s k =>
    let s :=
      if (portOf s k).link ≠ 0 && !portOn s k then modPort k (fun p => { p with link := 0, paused := false, waiting := [] }) s
      else if !portOn old k && portOn s k then modPort k (fun p => { p with link := 1 }) s else s
    (List.range 65).foldl (fun s c =>
      if (connOf s k c).phase ≠ 0 && !connOn s k c then shutConn k c s
      else if !connOn old k c && connOn s k c && linkUp s k then sendOpen k c s
      else s) s) s

/-! ## Commands -/

def peerStatusWork (c : Cmd) (s : State) : Reply :=
  let k := par c 0 1
  if 4 ≤ k then .done s stBadParam []
  else
    let st := if gatedOff s (40 + k) then 3 else (portOf s k).link
    let ev := fun (i : Nat) => cget s.tele.events (portCtr k i)
    .done s stOK (leBytes 1 st ++ leBytes 1 (flag (twinPort s == k) 0) ++ [0, 0] ++ leBytes 4 (ev 6) ++ leBytes 4 (ev 7) ++
      leBytes 4 (ev 8))

/-- PEER_STATUS (R443). -/
def execPeerStatus (c : Cmd) (s : State) : Host.Outcome State Fault Refusal :=
  .next (mailbox 0x0C00 c (peerStatusWork c) s)

def peerConnStatusWork (c : Cmd) (s : State) : Reply :=
  let k := par c 0 1
  let n := par c 1 1
  if 4 ≤ k || 64 ≤ n then .done s stBadParam []
  else
    let x := connOf s k n
    .done s stOK (leBytes 1 (if connOn s k n then (if x.phase = 0 then 1 else x.phase) else 0) ++ [0] ++
      leBytes 3 x.txNext.toNat ++ leBytes 3 x.rxExpect.toNat ++ leBytes 2 (x.kept.filter (·.sent)).length ++
      leBytes 2 x.resent ++ leBytes 4 x.unreachable)

/-- PEER_CONN_STATUS (R443). -/
def execPeerConnStatus (c : Cmd) (s : State) : Host.Outcome State Fault Refusal :=
  .next (mailbox 0x0C04 c (peerConnStatusWork c) s)

/-- PEER_OP's own fields (Table 15.11). -/
def peerOpFields (c : Cmd) : Bool :=
  let kind := par c 0 1
  let len := par c 24 4
  kind ≤ 3 && par c 2 2 < 4096 && (kind == 3 || par c 8 8 < 2 ^ 40) &&
    (if kind = 3 then len == 8 && par c 28 1 ≤ 1 else between 32 (2 ^ 30) len && len % 32 == 0) &&
    (kind != 2 || (par c 28 1 ≤ 2 && between 3 5 (par c 29 1)))

/-- The operation that PEER_OP names. -/
def peerOpReq (c : Cmd) : OpReq :=
  { kind := par c 0 1, tenant := cmdTarget c, handle := par c 2 2, off := par c 16 8, localTa := par c 8 8, len := par c 24 4,
    coll := if par c 1 1 % 2 = 1 then some (BitVec.ofNat 32 (par c 4 4)) else none, op := par c 28 1, fmt := par c 29 1,
    issuer := .command c }

/-- PEER_OP: what it sends is read first (R422). A quiesce holds it (R76). -/
def peerOpWork (c : Cmd) (s : State) : Reply :=
  let q := peerOpReq c
  if !peerOpFields c then .done s stBadParam []
  else if rinseIncomplete s q.tenant then .done (accessEvent q.tenant q.localTa stRinseIncomplete s) stRinseIncomplete []
  else if (partOf s q.tenant).closed then .done s stPartitionClosed []
  else
    match issueStatus s q.tenant q.handle q.off q.len with
    | some st => .done s st []
    | none =>
      match (if q.kind = 3 then none else rangeStatus s q.tenant q.localTa q.len) with
      | some st => .done (accessEvent q.tenant q.localTa st s) st []
      | none =>
        if quiesced s then .wait s
        else if q.kind = 3 then .wait (issueOp q (leBytes 8 (par c 32 8)) [] s)
        else if q.kind = 1 then .wait (issueOp q [] [] s)
        else
          let a : Ask := {
            owner := .command 0x0C08 c, tenant := q.tenant, port := 1 + handlePort s q.handle, ta := q.localTa, len := q.len
            write := false, coll := q.coll }
          .wait (ask a s)

/-- What a PEER_OP sends has been read: its frames go out, or it ends (R263, R421). -/
def peerOpRead (c : Cmd) (s : State) : State :=
  let q := peerOpReq c
  let o : Owner := .command 0x0C08 c
  match ownerStatus s o, accessesOf s o with
  | some st, _ => finish 0x0C08 c st (leBytes 4 0) (dropOwner o s)
  | none, a :: _ =>
    let r := gathered a
    let s := dropOwner o s
    if (connOf s (handlePort s q.handle) (handleConn s q.handle)).phase ≠ 2 then
      finish 0x0C08 c stPeerUnreachable (leBytes 4 0) s
    else issueOp q r.bytes (sectorPoison q.localTa q.len r.failed) s
  | none, [] => s

/-- A PEER_OP that a quiesce holds. -/
def peerOpWaits (s : State) (e : Exec) : Bool :=
  e.op == 0x0C08#16 && e.started && e.done.isNone && !(s.peers.ops.any (fun o => o.issuer == .command e.cmd)) &&
    (accessesOf s (.command 0x0C08 e.cmd)).isEmpty &&
    !(s.twin.parts.any (fun p => p.2.heldReplies.any (fun r =>
      match r.2 with
      | .cmd op c _ _ => op == 0x0C08 && c == e.cmd
      | _ => false)))

/-- PEER_OP (R421, R422): it completes with its reply (R425). -/
def execPeerOp (c : Cmd) (s : State) : Host.Outcome State Fault Refusal :=
  .next (mailbox 0x0C08 c (peerOpWork c) s)

end Sys2Proof.Machine
end

