-- ==== Sys2Proof/Machine/Twin.lean ====
section
/-! DEFINITION. The twin pair (R429 to R442): heartbeats, STATE frames and pairing, the standby copy, resync, failover
and switchover, and the twin commands (Table 15.11). -/

namespace Sys2Proof.Machine

open Sys2Proof

/-! ## Configuration and pairing (R433) -/

/-- Home side poured: 0 this device, 1 the partner. -/
def homeSide (s : State) (t : Nat) : Nat := cfgN s 0x0C06 1 t

/-- Tenants whose partition is configured as mirrored. -/
def mirroredTenants (s : State) : List Nat := (List.range 128).filter (fun t => mirrorMode s t != 0)

/-- Automatic takeover is in force. -/
def autoTakeover (s : State) : Bool := bitOf (cfgN s 0x0C05 1 0) 0

/-- The twin port is configured. -/
def twinOn (s : State) : Bool := twinPort s < 4

/-- The window sizes of tenant t in MiB, a short extent as 192. -/
def windowsOf (s : State) (t : Nat) : List Nat :=
  (List.range 8).map (fun n => sumOf ((extentsOf s t n).map (extentMiB s n)))

/-- Regulators and latency targets in force of tenant t. -/
def twinConfigOf (s : State) (t : Nat) : List Nat :=
  (List.range 8).flatMap (fun n => [regFlags s t n, regRate s t n, regDepth s t n]) ++
    (List.range 26).map (fun p => cfgN s 0x0300 0 (t * 32 + p))

/-- This device is the home of tenant t now (Table 15.7). -/
def isHome (s : State) (t : Nat) : Bool := between 1 4 (twinPartOf s t).state

/-- The partner's last STATE claims the home side. -/
def claimsHome (v : TwinView) : Bool := between 1 4 v.state

/-- Both devices have poured what pairing needs (R433). -/
def pairedWith (s : State) (t : Nat) (v : Option TwinView) : Bool :=
  match v with
  | none => false
  | some v => v.mode == mirrorMode s t && v.home + homeSide s t == 1 && v.windows == windowsOf s t

/-- A twin event: kind, tenant, epoch (Table 16.7). -/
def twinEvent (kind t : Nat) (s : State) : State :=
  devEvent 0x0C00 2 (leBytes 1 kind ++ leBytes 2 t ++ leBytes 4 (twinPartOf s t).epoch) s

/-! ## Frames of the pair -/

/-- Stack states, two bits each. -/
def stackStates (s : State) : Nat :=
  sumOf ((List.range 8).map (fun n => heatCode (stackOf s n).thermal.heat * 4 ^ n))

/-- The heartbeat payload (Table 15.8). -/
def heartbeatPayload (s : State) : List Byte :=
  leBytes 1 (twinRole s) ++ leBytes 1 (flag (autoTakeover s) 0 + flag (s.boot.stage == .ready) 1) ++
    leBytes 2 (mirroredTenants s).length ++ leBytes 8 (now s) ++ leBytes 4 (toMw s.kettle.e) ++
    leBytes 2 (stackStates s) ++ List.replicate 14 0

/-- Notes a heartbeat for the debug mux (Table 18.1). -/
def noteBeat (f : MuxPort → MuxPort) (s : State) : State :=
  { s with dbg := { s.dbg with mux0 := f s.dbg.mux0, mux1 := f s.dbg.mux1 } }

/-- Sends a heartbeat to the broadcast address (R429, R431). -/
def sendHeartbeat (s : State) : State :=
  let k := twinPort s
  if linkUp s k then
    noteBeat (fun p => { p with beatSent := true })
      (emitFrame k 0x0C { blankFrame with src := portMac s k, dst := broadcast, payload := heartbeatPayload s } s)
  else s

/-- The record of one mirrored partition in a STATE frame (R432; its bytes are DESIGN CHOICE). -/
def stateRecord (s : State) (t : Nat) : List Byte :=
  let p := twinPartOf s t
  leBytes 2 t ++ leBytes 1 (mirrorMode s t) ++ leBytes 1 (homeSide s t) ++ leBytes 4 p.epoch ++ leBytes 1 p.state ++
    List.replicate 7 0 ++ (windowsOf s t).flatMap (leBytes 4) ++
    (List.range 8).flatMap (fun n => leBytes 1 (regFlags s t n) ++ leBytes 4 (regRate s t n) ++ leBytes 4 (regDepth s t n)) ++
    (List.range 26).flatMap (fun q => leBytes 4 (cfgN s 0x0300 0 (t * 32 + q)))

/-- The head of a STATE frame: E, P_est, CEILING, each stack's state and step, the mirrored tenants. -/
def stateHead (s : State) (n : Nat) : List Byte :=
  leBytes 4 (toMw s.kettle.e) ++ leBytes 4 (toMw s.kettle.pest) ++ leBytes 4 (toMw (ceiling s)) ++
    (List.range 8).flatMap (fun i => leBytes 1 (heatCode (stackOf s i).thermal.heat + 4 * (stackOf s i).thermal.step)) ++
    leBytes 2 n ++ [0, 0] ++ leBytes 16 (maskOf (mirroredTenants s)) ++ List.replicate 24 0

/-- The twin connection is open. -/
def twinOpen (s : State) : Bool := twinOn s && (connOf s (twinPort s) twinConn).phase == 2

/-- Sends the STATE of every mirrored partition, in as many frames as the payload size asks for (R432). -/
def sendState (s : State) : State :=
  if !twinOpen s then s
  else
    let k := twinPort s
    let per := (payloadSize s k - 64) / 224
    let groups := pieces (per - 1) (mirroredTenants s)
    (if groups.isEmpty then [[]] else groups).foldl (fun s g =>
      connSend k twinConn 0x0F { blankFrame with
        first := true, last := true, payload := stateHead s g.length ++ g.flatMap (stateRecord s) } s) s

/-! ## The home copy -/

/-- The frames of the partition that are not acknowledged are forgotten, what waited for them goes on, and the
partition takes a state in which nothing is mirrored. -/
def stopMirror (t st : Nat) (s : State) : State :=
  releaseHeld t none (modTwinPart t (fun p => { p with
    state := st, unacked := [], outbox := [], resyncPos := none, resyncLast := none, lagHold := false }) s)

/-- Opens a home partition that was held closed after a reset (R440). -/
def endBootHold (t : Nat) (s : State) : State :=
  if (twinPartOf s t).bootHold then openPart t (modTwinPart t (fun p => { p with bootHold := false }) s) else s

/-! ## Resync (R437, R438) -/

/-- The extents of tenant t in list order: stack, window index and sectors. -/
def copyExtents (s : State) (t : Nat) : List (Nat × Nat × Nat) :=
  (List.range 8).flatMap (fun n =>
    let xs := extentsOf s t n
    (List.range xs.length).map (fun i => (n, i, extentMiB s n (xs.getD i 0) * 32768)))

/-- Sectors of the partition. -/
def copyTotal (s : State) (t : Nat) : Nat := sumOf ((copyExtents s t).map (fun e => e.2.2))

/-- Where a resync position lies: its tenant address and the sectors left in its extent. -/
def copyPlace (l : List (Nat × Nat × Nat)) (pos : Nat) : Nat × Nat :=
  match l with
  | [] => (0, 0)
  | (n, i, k) :: r => if pos < k then (n * 2 ^ 36 + i * 2 ^ 28 + pos * 32, k - pos) else copyPlace r (pos - k)

/-- A resync starts once the copies are paired, the connection is open, and the partner is ready and stands by
(R437). -/
def startResync (t : Nat) (s : State) : State :=
  let p := twinPartOf s t
  if p.state = 4 && !p.bootHold && pairedWith s t p.view && twinOpen s && s.twin.partnerReady && !s.twin.lost &&
      !s.twin.conflict && p.view.any (fun v => 5 ≤ v.state) then
    setTwinPart t { p with state := 2, resyncPos := some 0, resyncLast := none } s
  else s

/-- Reads what the next COPY frame of a resync carries, on the HKP's port and without tokens (R438); the frame has its place
among the visible writes from now on. -/
def copyNext (t : Nat) (s : State) : State :=
  let p := twinPartOf s t
  match p.resyncPos with
  | none => s
  | some pos =>
    if !twinRoom s then s
    else
      let w := copyPlace (copyExtents s t) pos
      let n := min w.2 (payloadSize s (twinPort s) / 32)
      let fin := decide (copyTotal s t ≤ pos + n)
      let o : MirrorOut := {
        req := none, sectors := (List.range n).map (fun i => (w.1 + 32 * i, none))
        copy := some (s.path.nextId, pos == 0, fin) }
      let a : Ask := {
        owner := .resync t, tenant := t, port := 24, ta := w.1, len := 32 * n, write := false, exempt := true }
      modTwinPart t (fun p => { p with
        resyncPos := if fin then none else some (pos + n), outbox := p.outbox ++ [o] }) (ask a s)

/-- A read of a resync is complete: its COPY frame has its data; a failed sector, or one that cannot be read now, travels as
poison. -/
def copyRead (t : Nat) (a : Access) (s : State) : State :=
  let r := gathered a
  let bad := a.status ≠ 0
  let fill := fun (o : MirrorOut) =>
    if o.copy.any (fun c => c.1 == a.id) then
      { o with sectors := (List.range o.sectors.length).map (fun i =>
          ((o.sectors.getD i (0, none)).1, some (bytesAt r.bytes (32 * i) 32, bad || r.failed.getD i false))) }
    else o
  let s := dropAccess a.id s
  if (twinPartOf s t).outbox.isEmpty then s
  else flushMirror t (modTwinPart t (fun p => { p with outbox := p.outbox.map fill }) s)

/-- The reads of a resync that are complete. -/
def copyDone (t : Nat) (s : State) : State :=
  ((accessesOf s (.resync t)).filter (fun a => a.left == 0)).foldl (fun s a => copyRead t a s) s

/-- Frames a resync may send in the period that starts at a mark: 1/8 of a stack's peak (R438). -/
def copyQuota (s : State) (mark : Nat) : Nat :=
  let size := payloadSize s (twinPort s) / 32 * 10
  (mark + 1) * (8 * peakTenths s) / size - mark * (8 * peakTenths s) / size

/-- The copy reads of one period. -/
def resyncWork (mark : Nat) (s : State) : State :=
  ((twinTenants s).filter (fun t => (twinPartOf s t).resyncPos.isSome)).foldl (fun s t =>
    (List.range (copyQuota s mark)).foldl (fun s _ => copyNext t s) s) s

/-! ## Takeover (R439, R442) -/

/-- An epoch record of tenant t waits for the flash. -/
def epochPending (s : State) (t : Nat) : Bool := s.flash.jobs.any (fun j => j == .epoch t)

/-- Asks for the epoch record of a takeover (R439, R129). -/
def askEpoch (t : Nat) (s : State) : State := if epochPending s t then s else pushJob (.epoch t) s

/-- The TWIN_TAKEOVER that waits on tenant t ends. -/
def endTakeover (t st : Nat) (s : State) : State :=
  match (twinPartOf s t).takeover with
  | none => s
  | some e => finish 0x0C09 e.1 st [] (modTwinPart t (fun p => { p with takeover := none }) s)

/-- The epoch record of tenant t is written, or its write failed. -/
def epochWritten (t : Nat) (ok : Bool) (s : State) : State :=
  let p := twinPartOf s t
  if !ok then
    if p.takeover.isSome then endTakeover t stFlashFault s else pushJob (.epoch t) s
  else
    let e := p.epoch + 1
    let st := s.flash.store
    let s := { s with flash := { s.flash with store := { st with epochs := tput st.epochs t e } } }
    let s := modTwinPart t (fun p => { p with epoch := e }) s
    if p.bootHold then endTakeover t stOK (twinEvent 4 t (endBootHold t s))
    else if p.state = 6 then
      let s := modTwinPart t (fun p => { p with state := 4 }) s
      endTakeover t stOK (twinEvent 4 t { s with twin := { s.twin with failovers := s.twin.failovers + 1 } })
    else endTakeover t stTwinNotReady s

/-- A standby copy that is not in sync is rinsed when the partner is lost (Table 15.9). -/
def rinseStandby (t : Nat) (s : State) : State :=
  startRinse t [] (modPart t (fun p => { p with incomplete := true }) (modTwinPart t (fun p => { p with state := 7 }) s))

/-- The partner is lost (Table 15.9). -/
def partnerLost (s : State) : State :=
  let s := { s with twin := { s.twin with lost := true } }
  (twinTenants s).foldl (fun s t =>
    let st := (twinPartOf s t).state
    if between 1 4 st then twinEvent 3 t (stopMirror t 4 s)
    else if st = 6 then (if autoTakeover s then askEpoch t (twinEvent 3 t s) else twinEvent 3 t s)
    else if st = 5 || st = 7 then twinEvent 3 t (rinseStandby t s)
    else s) s

/-! ## Heartbeats (R430, R431) -/

/-- A miss since the last 64th mark. -/
def heartbeatMiss (s : State) : State :=
  let n := s.twin.misses + 1
  let s := countEvent (portCtr (twinPort s) 14) 1 { s with twin := { s.twin with misses := n } }
  if n = 8 && !s.twin.lost then partnerLost s else s

/-- TWIN_HEARTBEAT_MARK: at a mark that is a multiple of 64 (R431, R432). -/
def heartbeatMark (s : State) : State :=
  if !twinOn s || s.clock.mark % 64 ≠ 0 || s.clock.mark < s.twin.beatMark || s.boot.halt != .none then s
  else
    let s := { s with twin := { s.twin with beatMark := s.clock.mark + 1 } }
    let heard := s.twin.heard
    let s := { s with twin := { s.twin with heard := false } }
    let s := if heard then s else heartbeatMiss s
    sendState (sendHeartbeat s)

def execTwinHeartbeatMark (s : State) : Host.Outcome State Fault Refusal := .next (heartbeatMark s)

/-- Both heartbeats carry the same role: nothing is mirrored (R430). -/
def roleConflict (s : State) : State :=
  if s.twin.conflict then s
  else
    let s := shutConn (twinPort s) twinConn (twinEvent 0 0 s)
    let s := { s with twin := { s.twin with conflict := true } }
    (twinTenants s).foldl (fun s t => if between 2 3 (twinPartOf s t).state then stopMirror t 4 s else s) s

/-- A valid heartbeat (R429 to R431, R437). -/
def heartbeat (k : Nat) (f : Frame) (s : State) : State :=
  let b := f.payload
  let s := noteBeat (fun p => { p with beatHeard := true }) (countRx k 0x0C f s)
  let s := { s with twin := { s.twin with
    heard := true, misses := 0, lost := false, partner := some (s.twin.partner.getD f.src),
    partnerReady := bitOf (leAt b 1 1) 1, partnerE := leAt b 12 4, partnerStacks := leAt b 16 2 } }
  if leAt b 0 1 = twinRole s then roleConflict s
  else
    let s := { s with twin := { s.twin with conflict := false } }
    let x := connOf s k twinConn
    let s := if connOn s k twinConn && (x.phase == 0 || x.phase == 3) then sendOpen k twinConn s else s
    (twinTenants s).foldl (fun s t => startResync t s) s

/-- HEARTBEAT_FRAME: accepted on the twin port, to the broadcast address or the port's own (R411, R431). -/
def heartbeatReceived (k : Nat) (f : Frame) (s : State) : State :=
  if !linkUp s k then s
  else if twinPort s != k || !(f.dst == portMac s k || f.dst == broadcast) || f.payload.length < 32 then discardFrame k s
  else heartbeat k f s

def execHeartbeatFrame (k : Fin 4) (f : Frame) (s : State) : Host.Outcome State Fault Refusal :=
  .next (heartbeatReceived k.val f s)

/-! ## STATE frames (R432, R433, R441) -/

/-- What a STATE record says. -/
def recordView (b : List Byte) : TwinView :=
  { mode := leAt b 2 1, home := leAt b 3 1, epoch := leAt b 4 4, state := leAt b 8 1,
    windows := (List.range 8).map (fun i => leAt b (16 + 4 * i) 4),
    config := (List.range 8).flatMap (fun i => [leAt b (48 + 9 * i) 1, leAt b (49 + 9 * i) 4, leAt b (53 + 9 * i) 4]) ++
      (List.range 26).map (fun i => leAt b (120 + 4 * i) 4) }

/-- Both sides claim the home: the higher epoch stays, the primary on a tie; the other stands by, stale (R441). -/
def settleHome (t : Nat) (fresh : Bool) (v : TwinView) (s : State) : State :=
  if isHome s t && claimsHome v then
    let e := (twinPartOf s t).epoch
    let s := if fresh then twinEvent 2 t s else s
    if e < v.epoch || (e == v.epoch && twinRole s == 2) then endBootHold t (stopMirror t 7 s) else s
  else s

/-- The pairing of tenant t is judged again: `before` says whether it was paired, none at the first time (R433). -/
def judgePairing (t : Nat) (before : Option Bool) (s : State) : State :=
  let p := twinPartOf s t
  if pairedWith s t p.view then
    let s := modTwinPart t (fun p => { p with
      differs := p.view.any (fun v => v.config != twinConfigOf s t),
      state := if p.state = 1 then 4 else p.state,
      epoch := if 5 ≤ p.state then max p.epoch ((p.view.map (·.epoch)).getD 0) else p.epoch }) s
    let v := (p.view.map (·.state)).getD 0
    if (p.state = 3 && v = 7) || (between 5 6 p.state && v = 4) then staleCopy t s else s
  else
    let s := if between 1 4 p.state then stopMirror t 1 s else if between 5 6 p.state then staleCopy t s else s
    if before.getD true then twinEvent 1 t s else s

/-- What the partner says of tenant t, or that it does not mirror it, takes effect. -/
def settleView (t : Nat) (v : Option TwinView) (s : State) : State :=
  let old := (twinPartOf s t).view
  let before := old.map (fun o => pairedWith s t (some o))
  let s := modTwinPart t (fun p => { p with view := v }) s
  let s :=
    match v with
    | none => s
    | some v => settleHome t (!(old.any claimsHome)) v s
  let s := if (twinPartOf s t).state = 0 then s else judgePairing t before s
  startResync t (endBootHold t s)

/-- STATE_FRAME's effect: the records of mirrored partitions, and those that the partner does not mirror. -/
def stateReceived (f : Frame) (s : State) : State :=
  let b := f.payload
  let s := { s with twin := { s.twin with partnerE := leAt b 0 4, bootWaitFrom := none } }
  let recs := (List.range (leAt b 20 2)).map (fun i => (leAt b (64 + 224 * i) 2, bytesAt b (64 + 224 * i) 224))
  let mask := leAt b 24 16
  let s := ((mirroredTenants s).filter (fun t => !mask.testBit t)).foldl (fun s t => settleView t none s) s
  (recs.filter (fun e => e.1 < 128 && mirrorMode s e.1 != 0)).foldl (fun s e => settleView e.1 (some (recordView e.2)) s) s

/-- A sequenced frame that only the twin connection may carry. -/
def twinSequenced (k type : Nat) (f : Frame) (body : State → State) (s : State) : State :=
  rxSequenced k type f (fun c s => if c = twinConn then body s else discardFrame k s) s

/-- STATE_FRAME (R432). -/
def execStateFrame (k : Fin 4) (f : Frame) (s : State) : Host.Outcome State Fault Refusal :=
  .next (twinSequenced k.val 0x0F f (stateReceived f) s)

/-! ## The standby copy (R434, R435, R437) -/

/-- What a mirrored write to a range meets other than that the copy stands by. -/
def mirrorStatus (s : State) (t ta n : Nat) : Option Nat :=
  (lineStarts ta n).findSome? (fun a => if lineStatus s t a = some stTwinStandby then none else lineStatus s t a)

/-- The partition that a mirrored write goes to is closed, so that the write waits. -/
def mirrorWaits (s : State) (f : Frame) : Bool :=
  let t := f.dstTenant.toNat
  t < 128 && standby s t && !f.payload.isEmpty && holds s t

/-- The last COPY frame is applied: the copy is in sync (R438). -/
def copyEnds (type t : Nat) (f : Frame) (s : State) : State :=
  if type = 0x0E && f.last then modTwinPart t (fun p => if p.state = 5 then { p with state := 6 } else p) s else s

/-- A MIRROR or COPY write is issued to the standby copy, without tokens (R435), or makes it stale (R437). -/
def mirrorApply (k type : Nat) (f : Frame) (s : State) : State :=
  let t := f.dstTenant.toNat
  let ta := f.addr.toNat
  if 128 ≤ t || !standby s t then s
  else
    let s := if type = 0x0E && f.first then modTwinPart t (fun p => { p with state := 5 }) s else s
    if f.payload.isEmpty then copyEnds type t f s
    else if (mirrorStatus s t ta f.payload.length).isSome then staleCopy t s
    else
      let x := holdFrame k type f s
      writePayload x.1 t ta true (setApplying x.1.id x.2)

/-- The writes of a MIRROR or COPY frame are visible: it is acknowledged (R434), once every earlier one is; one that was
aborted makes the copy stale (R437). -/
def mirrorDone (h : HeldFrame) (s : State) : State :=
  let own := Owner.frame h.id
  let t := h.frame.dstTenant.toNat
  if (before s h).any (fun x => x.port == h.port && mirrorType x.type) then s
  else
    let failed := (ownerStatus s own).isSome
    let s := dropHeld h.id (dropOwner own s)
    let s := modConn h.port twinConn (fun x => { x with
      ackDue := if x.phase = 2 then some (x.ackDue.getD (now s + usTicks 1)) else x.ackDue }) s
    if !standby s t then s else if failed then staleCopy t s else copyEnds h.type t h.frame s

/-- A frame of the standby copy: one whose partition is closed is not accepted, and its sender sends it again. -/
def mirrorReceived (k type : Nat) (f : Frame) (s : State) : State :=
  if linkUp s k && mirrorWaits s f then s else twinSequenced k type f (mirrorApply k type f) s

/-- MIRROR_FRAME (R434, R435). -/
def execMirrorFrame (k : Fin 4) (f : Frame) (s : State) : Host.Outcome State Fault Refusal :=
  .next (mirrorReceived k.val 0x0D f s)

/-- COPY_FRAME (R434, R438). -/
def execCopyFrame (k : Fin 4) (f : Frame) (s : State) : Host.Outcome State Fault Refusal :=
  .next (mirrorReceived k.val 0x0E f s)

/-- HANDOVER_FRAME: the standby opens as home, in sync (R442). -/
def handoverReceived (f : Frame) (s : State) : State :=
  let t := f.dstTenant.toNat
  if (twinPartOf s t).state = 6 then
    modTwinPart t (fun p => { p with state := 3, view := p.view.map (fun v => { v with state := 6 }) }) s
  else s

def execHandoverFrame (k : Fin 4) (f : Frame) (s : State) : Host.Outcome State Fault Refusal :=
  .next (twinSequenced k.val 0x10 f (handoverReceived f) s)

/-! ## Switchover (R442) -/

/-- A planned switchover of tenant t waits. -/
def planned (s : State) (t : Nat) : Bool :=
  match (twinPartOf s t).takeover with
  | none => false
  | some e => par e.1 0 1 == 1

/-- A drained, acknowledged partition in sync is handed over: HANDOVER goes out and this side stands by, in sync. What
the drain held ends as R157 states. -/
def tryHandover (t : Nat) (s : State) : State :=
  let p := twinPartOf s t
  if planned s t && (partOf s t).drained && p.state == 3 && p.unacked.isEmpty && p.outbox.isEmpty && twinOpen s then
    let tt := BitVec.ofNat 16 t
    let s := connSend (twinPort s) twinConn 0x10
      { blankFrame with first := true, last := true, srcTenant := tt, dstTenant := tt } s
    let s := modTwinPart t (fun p => { p with state := 6, view := p.view.map (fun v => { v with state := 3 }) }) s
    endTakeover t stOK (modPart t (fun q => { q with closed := false, drained := false }) s)
  else s

/-- DRAIN_COMPLETE (R158, R442). -/
def execDrainComplete (t : Fin 128) (s : State) : Host.Outcome State Fault Refusal :=
  .next (tryHandover t.val (drainDone t.val s))

/-- RESYNC_COMPLETE: the last COPY frame is acknowledged (R438). -/
def resyncComplete (t : Nat) (s : State) : State :=
  let p := twinPartOf s t
  match p.resyncLast with
  | none => s
  | some q =>
    if p.state ≠ 2 || (connOf s (twinPort s) twinConn).kept.any (fun e => seqLe e.seq q) then s
    else tryHandover t (modTwinPart t (fun p => { p with state := 3, resyncLast := none }) s)

def execResyncComplete (t : Fin 128) (s : State) : Host.Outcome State Fault Refusal := .next (resyncComplete t.val s)

/-- TWIN_TAKEOVER_TIMEOUT: the command completes with DEFERRED, and the partition opens again as home (R442). -/
def takeoverTimeout (t : Nat) (s : State) : State :=
  match (twinPartOf s t).takeover with
  | none => s
  | some e => if planned s t && due s e.2 then openPart t (endTakeover t stDeferred s) else s

def execTwinTakeoverTimeout (t : Fin 128) (s : State) : Host.Outcome State Fault Refusal := .next (takeoverTimeout t.val s)

/-- A manual takeover is accepted: a standby in sync whose partner is lost (R442), or a home held closed after a reset
whose wait is over (R440). -/
def takeoverOk (s : State) (t : Nat) : Bool :=
  let p := twinPartOf s t
  p.takeover.isNone && ((p.state == 6 && s.twin.lost) || (p.bootHold && s.twin.bootWaitFrom.isNone))

/-- A planned switchover is accepted: on the home while paired. -/
def switchoverOk (s : State) (t : Nat) : Bool :=
  let p := twinPartOf s t
  p.takeover.isNone && !p.bootHold && between 2 4 p.state && pairedWith s t p.view

def twinTakeoverWork (c : Cmd) (s : State) : Reply :=
  let t := cmdTarget c
  let ms := par c 2 2
  let wait := fun (s : State) => modTwinPart t (fun p => { p with takeover := some (c, now s + msTicks ms) }) s
  if 1 < par c 0 1 || ms = 0 then .done s stBadParam []
  else if par c 0 1 = 0 then
    if takeoverOk s t then .wait (askEpoch t (wait s)) else .done s stTwinNotReady []
  else if switchoverOk s t then .wait (wait (closePart t s))
  else .done s stTwinNotReady []

/-- TWIN_TAKEOVER (R442). -/
def execTwinTakeover (c : Cmd) (s : State) : Host.Outcome State Fault Refusal :=
  .next (mailbox 0x0C09 c (twinTakeoverWork c) s)

/-! ## Lag bound and boot (R436, R440) -/

/-- TWIN_LAG_BOUND_EXPIRY: new writes wait until the old one is acknowledged (R436). -/
def lagExpired (t : Nat) (s : State) : State :=
  if mirrored s t && !lagOk s t then modTwinPart t (fun p => { p with lagHold := true }) s else s

def execTwinLagBoundExpiry (t : Fin 128) (s : State) : Host.Outcome State Fault Refusal := .next (lagExpired t.val s)

/-- TWIN_BOOT_WAIT_EXPIRY (R440): under automatic takeover the held partitions open once their raised epochs are
written; under manual takeover they stay closed. -/
def bootWaitExpired (s : State) : State :=
  match s.twin.bootWaitFrom with
  | none => s
  | some t0 =>
    if due s (t0 + msTicks (cfgN s 0x0C05 2 0)) then
      let s := { s with twin := { s.twin with bootWaitFrom := none } }
      if autoTakeover s then
        ((twinTenants s).filter (fun t => (twinPartOf s t).bootHold)).foldl (fun s t => askEpoch t s) s
      else s
    else s

def execTwinBootWaitExpiry (s : State) : Host.Outcome State Fault Refusal := .next (bootWaitExpired s)

/-- The mirrored partitions of a device that has reset: homes are held closed and degraded, copies here are stale
(R429, R440); the epochs are those of the configuration store. -/
def twinAtBoot (s : State) : State :=
  let s := { s with twin := {} }
  let s := (mirroredTenants s).foldl (fun s t =>
    let e := tget 0 s.flash.store.epochs t
    if homeSide s t = 0 then setTwinPart t { state := 4, epoch := e, bootHold := true } (closePart t s)
    else setTwinPart t { state := 7, epoch := e } s) s
  if (twinTenants s).any (fun t => (twinPartOf s t).bootHold) then
    { s with twin := { s.twin with bootWaitFrom := some (now s) } }
  else s

/-! ## A switch of configuration (R433, R437) -/

/-- The state a partition takes when its mirroring is poured. -/
def firstTwinState (s : State) (t : Nat) : Nat :=
  if homeSide s t = 1 then 7 else if twinOpen s then 1 else 4

/-- What R437 counts as a change of the home copy by configuration: extents, colour or hash masks. -/
def copyChanged (old s : State) (t : Nat) : Bool :=
  (List.range 8).any (fun n => extentsOf old t n != extentsOf s t n ||
    (!(extentsOf s t n).isEmpty && cfgList old 0x0203 0 n != cfgList s 0x0203 0 n)) ||
    colourOf old t != colourOf s t

/-- Tenant t after a switch of configuration. -/
def twinTenantSwitch (old : State) (t : Nat) (s : State) : State :=
  let changed := mirrorMode old t != mirrorMode s t || homeSide old t != homeSide s t
  if mirrorMode s t = 0 then
    (if mirrorMode old t = 0 then s
     else
      let s := stopMirror t 0 s
      setTwinPart t { epoch := (twinPartOf s t).epoch } s)
  else if mirrorMode old t = 0 || homeSide old t != homeSide s t then
    modTwinPart t (fun p => { p with state := firstTwinState s t, view := if mirrorMode old t = 0 then none else p.view })
      (stopMirror t 0 s)
  else
    let s := if copyChanged old s t then staleCopy t s else s
    let before := (twinPartOf s t).view.map (fun v => pairedWith old t (some v))
    if changed || (before.isSome && before != some (pairedWith s t (twinPartOf s t).view)) then judgePairing t before s else s

/-- The pair follows the configuration in force; `old` is the state before the switch. A pour that changes a mirrored
partition sends a STATE frame (R432). -/
def twinAfterSwitch (old s : State) : State :=
  let s :=
    if twinPort old = twinPort s then s
    else { s with twin := { s.twin with
      partner := none, heard := false, misses := 0, lost := false, conflict := false, partnerReady := false } }
  let ts := (List.range 128).filter (fun t =>
    (mirrorMode old t != 0 || mirrorMode s t != 0) &&
      (mirrorMode old t != mirrorMode s t || homeSide old t != homeSide s t || copyChanged old s t ||
        twinConfigOf old t != twinConfigOf s t))
  if ts.isEmpty then s else sendState (ts.foldl (fun s t => twinTenantSwitch old t s) s)

/-! ## Status -/

/-- The pair's state code. -/
def pairState (s : State) : Nat :=
  if !twinOn s then 0 else if s.twin.conflict then 2 else if s.twin.lost then 4
  else if !linkUp s (twinPort s) then 1 else if s.twin.partner.isNone then 0 else 3

/-- MiB of a resync that the partner has not acknowledged. -/
def resyncLeft (s : State) (t : Nat) : Nat :=
  let p := twinPartOf s t
  if p.state = 2 then
    let queued := (connOf s (twinPort s) twinConn).kept.filter (fun e => e.type == 0x0E && e.frame.dstTenant.toNat == t)
    let reading := sumOf ((p.outbox.filter (fun o => o.copy.isSome)).map (fun o => 32 * o.sectors.length))
    ((match p.resyncPos with
      | none => 0
      | some pos => 32 * (copyTotal s t - pos)) + reading + sumOf (queued.map (fun e => e.frame.payload.length))) / 1048576
  else 0

/-- Ticks since the oldest unacknowledged mirrored write. -/
def oldestAge (s : State) (p : TwinPart) : Nat := (p.unacked.head?.map (fun e => satTo 32 (now s - e.2))).getD 0

def twinStatusWork (c : Cmd) (s : State) : Reply :=
  let sel := par c 0 1
  let t := cmdTarget c
  let p := twinPartOf s t
  let synced := fun (st : Nat) => st == 3 || st == 6
  let here := mirroredTenants s
  let inSync := (here.filter (fun t => synced (twinPartOf s t).state)).length
  if 1 < sel then .done s stBadParam []
  else if sel = 0 then
    if !(cmdPf c) then .done s stNotPermitted []
    else .done s stOK (leBytes 1 (pairState s) ++ leBytes 1 (twinRole s) ++ leBytes 2 (satTo 16 s.twin.misses) ++
      leBytes 4 s.twin.partnerE ++ leBytes 2 s.twin.partnerStacks ++ leBytes 2 inSync ++
      leBytes 2 (here.length - inSync) ++ leBytes 2 s.twin.failovers)
  else
    .done s stOK (leBytes 1 p.state ++ leBytes 1 (flag p.differs 0) ++ [0, 0] ++ leBytes 4 p.epoch ++
      leBytes 4 (oldestAge s p) ++ leBytes 4 (resyncLeft s t))

/-- TWIN_STATUS (R432, R443). -/
def execTwinStatus (c : Cmd) (s : State) : Host.Outcome State Fault Refusal :=
  .next (mailbox 0x0C07 c (twinStatusWork c) s)

/-! ## The rinse of a mirrored partition (R187, R437) -/

/-- RINSE_COLOUR_ROTATE: the new colour comes into force (R187), which makes a mirrored copy stale (R437). -/
def execRinseColourRotate (t : Fin 128) (s : State) : Host.Outcome State Fault Refusal :=
  .next (if (partOf s t.val).rinse.any (fun r => r.phase == .recording && r.recorded) then staleCopy t.val (rotateColour t.val s) else s)

end Sys2Proof.Machine
end

