-- ==== Sys2Proof/Machine/PathSteps.lean ====
section
/-! DEFINITION. The steps of the sector path (R199 to R206), with what each lets the engines do whose accesses it completes:
the fetch and the descriptors of a brew list (R360 to R363), infusers (R402 to R404), received peer frames (R424), commands
that reach memory, and a resync (R438); and the sectors of collectives that are still outstanding (R346). -/

namespace Sys2Proof.Machine

open Sys2Proof

/-! ## Outstanding sectors of a collective (R346) -/

/-- A collective is counted under its own identifier on stack n. -/
def collTracked (s : State) (n : Nat) (id : BitVec 32) : Bool :=
  s.late.colls.any (fun c => c.stack == n && c.id == id && c.id != poolId)

/-- A collective belongs to an entry: its own, or the pool's. -/
def collOf (s : State) (c : Coll) (id : BitVec 32) : Bool :=
  if c.id == poolId then !collTracked s c.stack id else id == c.id

/-- What a started descriptor has not issued yet: its output, and the rows of a gather. -/
def descRemains (d : InDesc) : List (Nat × Nat) :=
  if d.stage = 2 || dRemote d.bytes then [] else outSegs d.bytes

/-- The sectors of a gather's table that are not issued yet, on stack n. -/
def gatherRemains (n : Nat) (d : InDesc) : Nat :=
  if d.stage = 2 || dOp d.bytes ≠ 3 || bitsOf (u64 d.bytes 16) 36 3 ≠ n then 0
  else (u32 d.bytes 40 - d.rows) * ceilDiv (u32 d.bytes 44) 32

/-- Sectors of a collective entry still outstanding on its stack: of requests that are not issued, of started descriptors,
and of peer operations whose frames are still to come. -/
def collLeft (s : State) (c : Coll) : Nat :=
  let mine := fun (id : Option (BitVec 32)) => id.any (collOf s c)
  sumOf ((s.path.reqs.filter (fun r => r.stack == c.stack && r.kind == .host && mine r.collective)).map reqSectors) +
    sumOf (s.compute.lists.map (fun e => sumOf ((e.2.inflight.filter (fun d => mine (dColl d.bytes) && d.result.isNone)).map
      (fun d => sumOf ((descRemains d).map (fun g => sectorsOn c.stack g.1 g.2)) + gatherRemains c.stack d)))) +
    sumOf (s.peers.conns.map (fun e => sumOf ((e.2.rxOps.filter (fun o => mine o.coll && o.failed.isNone)).map
      (fun o => sectorsOn c.stack (o.base + o.got) (o.length - o.got)))))

/-- Collectives whose outstanding sectors have become fewer. -/
def collSync (s : State) : State :=
  s.late.colls.foldl (fun s c =>
    let left := collLeft s c
    if left < c.sectors then collEnd c.stack c.id (c.sectors - left) s else s) s

/-! ## BENCH_ENTER (R473) -/

/-- A channel that is mapped out or on a stack that is retired or not online. -/
def chanAbsent (s : State) (ch : Nat) : Bool :=
  let k := stackOf s (ch / 32)
  k.retired || !k.online || k.mapped.contains (ch % 32)

/-- A channel that serves is benched by command. -/
def benchChan (ch : Nat) (s : State) : State :=
  (chanPcs ch).foldl (fun s fp => abandonCal fp (now s + 1) s) (modChan ch (fun x => { x with bench := .command }) s)

/-- BENCH_ENTER waits for the descriptor fetches to the channel that have been issued, and benches it. -/
def benchEnterWork (c : Cmd) (s : State) : Reply :=
  let ch := par c 0 2
  let n := ch / 32
  if 256 ≤ ch then .done s stBadParam []
  else if chanAbsent s ch then .done s stChannelOffline []
  else if (stackOf s n).thermal.heat == .scald || asleep s n || s.doze == .entering || s.doze == .asleep ||
      (chanOf s ch).windowOpen then .done s stBusy []
  else if (chanOf s ch).bench != .none then .done s stOK []
  else if fetchUnderWay s ch then .wait s
  else .done (benchChan ch s) stOK []

/-- The commands that wait for fetches look again. -/
def benchTurn (s : State) : State :=
  (benchWaiting s).foldl (fun s e =>
    match benchEnterWork e.cmd s with
    | .done s' st r => finish 0x0E01 e.cmd st r s'
    | _ => s) s

/-! ## The engines' turn -/

/-- A command's accesses are complete. One that a reset has forgotten has nothing to complete. -/
def commandTurn (op : Nat) (c : Cmd) (s : State) : State :=
  if !(s.cmds.any (execMatches op c)) then dropOwner (.command op c) s
  else if op = 0x0505 then injectDone c s
  else if op = 0x0B01 then prepareDone c s
  else if op = 0x0C08 then peerOpRead c s
  else s

/-- The accesses of a received frame are complete. -/
def frameTurn (id : Nat) (s : State) : State :=
  match s.peers.held.find? (fun h => h.id == id && h.applying) with
  | none => dropOwner (.frame id) s
  | some h => if h.type < 0x0D then frameDone h s else mirrorDone h s

/-- What the owner of accesses does when they are complete; descriptors and infusers have their own turn. -/
def ownerTurn (o : Owner) (s : State) : State :=
  if !ownerDone s o then s
  else
    match o with
    | .fetch h => fetchDone h s
    | .command op c => commandTurn op c s
    | .frame id => frameTurn id s
    | _ => s

/-- The engines go on as far as the accesses that are complete let them: owners in the order of their oldest accesses, which
for the frames of a stream is the order in which they were accepted. -/
def engineTurn (s : State) : State :=
  let s := ((s.path.accesses.map (·.owner)).eraseDups).foldl (fun s o => ownerTurn o s) s
  let s := (s.twin.parts.map Prod.fst).foldl (fun s t => copyDone t s) s
  let s := (List.range 8).foldl (fun s n => infuserTurn n s) s
  collSync (retryHeld (descsProgress (benchTurn s)))

/-! ## The steps -/

/-- REGULATOR_ADMIT (R194, R200). -/
def execRegulatorAdmit (id : Nat) (s : State) : Host.Outcome State Fault Refusal := .next (engineTurn (regulatorAdmit id s))

/-- KETTLE_ADMIT (R42, R43, R45). -/
def execKettleAdmit (w : Work) (s : State) : Host.Outcome State Fault Refusal := .next (engineTurn (kettleAdmit w s))

/-- QUEUE_ENTRY (R202, R215, R275). -/
def execQueueEntry (id : Nat) (s : State) : Host.Outcome State Fault Refusal := .next (engineTurn (queueEntry id s))

/-- COMMAND_SLOT (R204, R205, R242 step 3). -/
def execCommandSlot (pc : Fin 512) (ready : List Nat) (exerReady cosyReady : Bool) (s : State) :
    Host.Outcome State Fault Refusal :=
  .next (engineTurn (slotOrRepay pc.val ready exerReady cosyReady s))

/-- READ_DATA_RETURN (R259 to R263). -/
def execReadDataReturn (src : ReadSrc) (flips : List (Nat × Byte)) (s : State) : Host.Outcome State Fault Refusal :=
  .next (engineTurn (readReturn src flips s))

end Sys2Proof.Machine
end

