-- ==== Sys2Proof/Machine/ScaldEnd.lean ====
section
/-! DEFINITION. The end of a scald (R342), and of what has waited 2 ms on a scalded stack (R341). -/

namespace Sys2Proof.Machine

open Sys2Proof

/-- PEER_OPs that a quiesce held go on where it is over (R76). -/
def resumeWaiting (s : State) : State :=
  if quiesced s then s
  else (s.cmds.filter (peerOpWaits s)).foldl (fun s e => mailbox 0x0C08 e.cmd (peerOpWork e.cmd) s) s

/-- A TEST_STACK_ACCESS that waits until it comes again with the stack's data; the scalded stack that it waits on. -/
def testScald (s : State) (e : Exec) : Option Nat :=
  let n := par e.cmd 0 2 / 32
  if e.op == 0x0E09#16 && e.started && e.done.isNone && (stackOf s n).thermal.heat == .scald then some n else none

/-- SCALD_EXIT (R342): E has risen by the background share of the channels that the cut put to sleep; they leave
self-refresh, the stack serves at simmer step 1, and what waited goes on. -/
def scaldExit (n : Nat) (s : State) : State :=
  let h := (stackOf s n).thermal
  if h.heat != .scald || !h.exitWait || !hasRoom s (exitShare s n) then s
  else
    let s := modStack n (fun k => { k with thermal := { k.thermal with exitWait := false, cutChannels := [] } }) s
    let s := setHeat n .simmer 1 s
    let s := (h.cutChannels.filter (fun ch => (chanOf s ch).sr == .asleep)).foldl (fun s ch => chanAwake ch s) s
    let s := wakeReached n (setWarmNext n s)
    retryHeld (makeRoom s)

def execScaldExit (n : Fin 8) (s : State) : Host.Outcome State Fault Refusal := .next (scaldExit n.val s)

/-- A mailbox command that has waited 2 ms on a scalded stack, itself or in its requests: THERMAL_ABORT (R341). -/
def abortCommand (issuer : Issuer) (seq : BitVec 16) (s : State) : State :=
  match s.cmds.find? (fun e => e.cmd.issuer == issuer && e.cmd.seq == seq && e.started && e.done.isNone) with
  | none => s
  | some e =>
    match testScald s e with
    | some n => if waitedOut s n e.since then finish e.op.toNat e.cmd stThermalAbort [] (countAborted n none s) else s
    | none => abortOwner (.command e.op.toNat e.cmd) s

/-- SCALD_ABORT_TIMEOUT (R341). -/
def execScaldAbortTimeout (w : ScaldWait) (s : State) : Host.Outcome State Fault Refusal :=
  .next (engineTurn (match w with
    | .request id => abortRequest id s
    | .descriptor h i =>
      if (listOf s h.val).any (fun l => i < l.inflight.length) then abortDesc h.val i s else abortOwner (.fetch h.val) s
    | .infuser n => abortInfuser n.val s
    | .command issuer seq => abortCommand issuer seq s))

end Sys2Proof.Machine
end

