-- ==== Sys2Proof/Machine/TestAccess.lean ====
section
/-! DEFINITION. Bench mode (R472 to R474) and test access (R480 to R484): BENCH_ENTER, BENCH_EXIT, TEST_NONCE,
TEST_UNLOCK, TEST_STACK_ACCESS. The TAP stands in Machine/Boot.lean, with the resets that it holds. -/

namespace Sys2Proof.Machine

open Sys2Proof

/-! ## Bench mode -/

/-- BENCH_ENTER (R473). -/
def execBenchEnter (c : Cmd) (s : State) : Host.Outcome State Fault Refusal :=
  .next (mailbox 0x0E01 c (benchEnterWork c) s)

/-- Ends a bench exercise on a channel (R474). -/
def endBenchRun (ch : Nat) (s : State) : State :=
  let e := exerOf s (ch / 32)
  if e.running && e.mode != 0 && e.channel == ch then exerEnd (ch / 32) 2 s else s

/-- Test access on a channel ends with the restore of R479 (R482). -/
def endTestAccess (ch : Nat) (s : State) : State :=
  if (chanOf s ch).testAccess then needRestore (ch / 32) (modChan ch (fun x => { x with testAccess := false }) s) else s

def benchExitWork (c : Cmd) (s : State) : Reply :=
  let ch := par c 0 2
  let x := chanOf s ch
  if 256 ≤ ch then .done s stBadParam []
  else if chanAbsent s ch then .done s stChannelOffline []
  else if x.bench == .device then .done s stBenchHeld []
  else if x.bench == .none then .done s stNotPermitted []
  else if x.exitCmd.isSome then .done s stBusy []
  else .wait (modChan ch (fun x => { x with exitCmd := some c, retrainDue := true }) (endTestAccess ch (endBenchRun ch s)))

/-- BENCH_EXIT (R474): it completes when its offline retraining window succeeds or fails. -/
def execBenchExit (c : Cmd) (s : State) : Host.Outcome State Fault Refusal :=
  .next (mailbox 0x0E02 c (benchExitWork c) s)

/-! ## Unlocking (R483, R484) -/

/-- n fresh bytes. -/
def freshBytes (n : Nat) (s : State) : List Byte :=
  (List.range n).map (fun i => BitVec.ofNat 8 (Config.freeValue (s.freeCount + i)))

def testNonceWork (c : Cmd) (s : State) : Reply :=
  let b := freshBytes 32 s
  let s := { s with freeCount := s.freeCount + 32, dbg := { s.dbg with nonce := some b } }
  .done (emit (.hostWrite (cmdFn c) (par c 8 8) b) s) stOK (leBytes 1 s.dbg.level)

/-- TEST_NONCE (R484). -/
def execTestNonce (c : Cmd) (s : State) : Host.Outcome State Fault Refusal :=
  .next (mailbox 0x0E07 c (testNonceWork c) s)

/-- The checks of an unlock token: the level, the serial number, the nonce and the signature. -/
def tokenOk (s : State) (b : List Byte) : Bool :=
  leAt b 0 1 == 1 && leAt b 8 8 == s.ident.serial.toNat && s.dbg.nonce == some (bytesAt b 16 32) &&
    Config.unlockSignatureOk (padTo 144 b)

def testUnlockWork (c : Cmd) (s : State) : Reply :=
  let b := c.hostIn
  if (List.range 128).any (fun t => partState s t != 0) then .done s stNotPermitted []
  else
    let used := fun (level : Nat) => { s with dbg := { s.dbg with nonce := none, level := level } }
    if leAt b 0 1 = 0 then .done (used 0) stOK [0]
    else if tokenOk s b then .done (used 1) stOK [1]
    else .done (used s.dbg.level) stUnlockRejected (leBytes 1 s.dbg.level)

/-- TEST_UNLOCK (R484): relocking needs no token; each attempt uses up the nonce. -/
def execTestUnlock (c : Cmd) (s : State) : Host.Outcome State Fault Refusal :=
  .next (mailbox 0x0E08 c (testUnlockWork c) s)

/-! ## Stack repair access (R482) -/

/-- The repair resources that the foot die reads from the stack after an access: what an IEEE 1500 instruction left
there is a free value. -/
def readResources (fp : Nat) (s : State) : State :=
  let v := freeNat s
  freeStep (modPc fp (fun p => { p with
    spprBanks := (List.range 64).filter (fun i => v.testBit i),
    lanesUsed := (List.range 36).filter (fun i => v.testBit (64 + i)) |>.take 2 }) s)

def testStackAccessWork (c : Cmd) (dataOut : List Byte) (s : State) : Reply :=
  let ch := par c 0 2
  let bits := par c 4 4
  let n := ch / 32
  if 256 ≤ ch || bits = 0 || 65536 < bits then .done s stBadParam []
  else if chanAbsent s ch then .done s stChannelOffline []
  else if (chanOf s ch).bench == .none || stackOwned s n then .done s stNotPermitted []
  else if (stackOf s n).thermal.heat == .scald then
    if s.cmds.any (fun e => execMatches 0x0E09 c e && (testScald s e).isSome) then .over s else .wait s
  else
    let s := modChan ch (fun x => { x with testAccess := true }) s
    let s := (chanPcs ch).foldl (fun s fp => readResources fp s) s
    .done (emit (.hostWrite (cmdFn c) (par c 8 8) (padTo (ceilDiv bits 8) dataOut)) s) stOK []

/-- TEST_STACK_ACCESS (R482): the data that the stack port answers with comes with the command. -/
def execTestStackAccess (c : Cmd) (dataOut : List Byte) (s : State) : Host.Outcome State Fault Refusal :=
  .next (mailbox 0x0E09 c (testStackAccessWork c dataOut) s)

end Sys2Proof.Machine
end

