-- ==== Sys2Proof/Machine/Firmware.lean ====
section
/-! DEFINITION. The external flash after boot (R113 to R116, R124 to R129, R160 to R163): firmware banks and their
commands (Table 4.10), and the end of every flash write and erase. -/

namespace Sys2Proof.Machine

open Sys2Proof

/-! ## Banks (R114 to R116) -/

/-- A bank's image bytes of a length; erased flash reads 0xFF. -/
def imageBytes (b : Bank) (len : Nat) : List Byte :=
  (List.range len).map (fun i => (tfind b.image (4096 + i)).getD 0xFF)

/-- Bytes 0 to 31 of a header page (Table 4.4). -/
def headerFields (h : BankHeader) : List Byte :=
  leBytes 4 0x4B535259 ++ leBytes 2 1 ++ leBytes 2 0 ++ leBytes 4 h.generation ++ leBytes 4 h.length ++ leBytes 4 h.crc.toNat ++
    leBytes 4 h.release.toNat ++ leBytes 8 0

/-- Page 0 of a header sector as an activation programs it: the fields, their CRC and zeros. -/
def headerPage (h : BankHeader) : List Byte :=
  padTo 256 (headerFields h ++ leBytes 4 (crc32 (headerFields h)).toNat)

/-- Fields of a bank's header page. -/
def pageGeneration (b : Bank) : Nat := leAt b.page0 8 4
def pageLength (b : Bank) : Nat := leAt b.page0 12 4
def pageCrc (b : Bank) : Nat := leAt b.page0 16 4
def pageRelease (b : Bank) : Nat := leAt b.page0 20 4

/-- The checks of R115 that a header page carries: magic, format, generation, length and its CRC. An erased page has
none of them. -/
def bankHeaderOk (b : Bank) : Bool :=
  b.page0.length == 256 && leAt b.page0 0 4 == 0x4B535259 && leAt b.page0 4 2 == 1 &&
    between 1 0xFFFFFFFE (pageGeneration b) && between 4096 16773120 (pageLength b) &&
    leAt b.page0 32 4 == (crc32 (bytesAt b.page0 0 32)).toNat

/-- The image that a bank's header names verifies: its CRC and its signature (R115). -/
def imageVerifies (b : Bank) : Bool :=
  let image := imageBytes b (pageLength b)
  (crc32 image).toNat == pageCrc b && Config.imageSignatureOk image

/-- Image bytes from bank offset `off` on have been programmed: where they lie in the image that the header names, its
CRC and signature are other than they were. -/
def recheck (off : Nat) (b : Bank) : Bank :=
  if b.page0 ≠ [] && off < 4096 + pageLength b then { b with imageOk := imageVerifies b } else b

/-- A bank is valid (R115). -/
def bankValid (b : Bank) : Bool := bankHeaderOk b && b.imageOk

/-- A valid bank whose image was started and never confirmed (R115). -/
def failedTrial (b : Bank) : Bool := bankValid b && b.trial && !b.confirm

/-- The generation of a bank; 0 when it is invalid. -/
def bankGeneration (b : Bank) : Nat :=
  if bankValid b then pageGeneration b else 0

/-- The state byte of FW_STATUS. -/
def bankByte (b : Bank) : Nat :=
  if bankValid b then (if b.confirm then 1 else if b.trial then 3 else 2) else if b.erasedOk then 4 else 0

/-- The bank the HKP booted from. -/
def bankActive (s : State) (b : Nat) : Bool := s.boot.stage != .recovery && s.boot.bootedBank == b

/-- The flash can suspend an erase (R113, R125). -/
def canSuspend (s : State) : Bool := s.flash.sfdp.any (·.suspend)

/-- The running bank erase is suspended for a write or a reload (R125). -/
def eraseSuspended (s : State) : Bool :=
  s.flash.erase.isSome && canSuspend s && (!s.flash.jobs.isEmpty || s.boot.hkpReloading)

/-- FW_STATUS's result: an erase that is suspended shows both bits 1 and 2 (DESIGN CHOICE, log entry 62). -/
def fwStatusResult (s : State) : List Byte :=
  let rec_ := s.boot.stage == .recovery
  leBytes 1 (flag (s.boot.bootedBank == 1) 0 + flag s.flash.erase.isSome 1 + flag (eraseSuspended s) 2 +
      flag s.flash.bootNext.isSome 3 + flag rec_ 4) ++
    leBytes 1 (bankByte s.flash.bankA) ++ leBytes 1 (bankByte s.flash.bankB) ++ [0] ++
    leBytes 4 (bankGeneration s.flash.bankA) ++ leBytes 4 (bankGeneration s.flash.bankB) ++ leBytes 4 (runningRelease s)

/-- FW_STATUS (R143). -/
def execFwStatus (c : Cmd) (s : State) : Host.Outcome State Fault Refusal :=
  .next (mailbox 0x0F00 c (fun s => .done s stOK (fwStatusResult s)) s)

/-- What a bank command is refused with before its own checks (R124, R117). -/
def bankRefused (b : Nat) (s : State) : Option Nat :=
  if 1 < b then some stBadParam
  else if bankActive s b then some stBankActive
  else if s.flash.erase.isSome || s.flash.bankBusy then some stBusy
  else none

def fwBankEraseWork (c : Cmd) (s : State) : Reply :=
  let b := par c 0 1
  match bankRefused b s with
  | some st => .done s st []
  | none =>
    if !s.flash.answers then .done s stFlashFault []
    else .wait { s with flash := { s.flash with erase := some { bank := b, cmd := c } } }

/-- FW_BANK_ERASE (R124). -/
def execFwBankErase (c : Cmd) (s : State) : Host.Outcome State Fault Refusal :=
  .next (mailbox 0x0F01 c (fwBankEraseWork c) s)

/-- The 256 B pages of a write. -/
def writePages (off len : Nat) : List Nat := (List.range (len / 256)).map (fun i => off / 256 + i)

def fwBankWriteWork (c : Cmd) (s : State) : Reply :=
  let b := par c 0 1
  let off := par c 4 4
  let len := par c 16 4
  if !between 0x1000 0xFFFF00 off || off % 256 ≠ 0 || !between 256 1048576 len || len % 256 ≠ 0 then .done s stBadParam []
  else
    match bankRefused b s with
    | some st => .done s st []
    | none =>
      let k := bankOf s b
      if !s.flash.answers then .done s stFlashFault []
      else if !k.erasedOk then .done s stNotPermitted []
      else if 2 ^ 24 < off + len || (writePages off len).any (fun p => k.pages.contains p) then .done s stBadParam []
      else
        .wait (pushJob (.bankWrite c b off (padTo len c.hostIn)) { s with flash := { s.flash with bankBusy := true } })

/-- FW_BANK_WRITE (R127). -/
def execFwBankWrite (c : Cmd) (s : State) : Host.Outcome State Fault Refusal :=
  .next (mailbox 0x0F02 c (fwBankWriteWork c) s)

/-- The header that an activation writes (R128). -/
def newHeader (c : Cmd) (s : State) : BankHeader :=
  { generation := max (bankGeneration s.flash.bankA) (bankGeneration s.flash.bankB) + 1, length := par c 4 4,
    crc := BitVec.ofNat 32 (par c 8 4), release := BitVec.ofNat 32 (par c 12 4) }

def fwBankActivateWork (c : Cmd) (s : State) : Reply :=
  let b := par c 0 1
  let len := par c 4 4
  if !between 4096 16773120 len then .done s stBadParam []
  else
    match bankRefused b s with
    | some st => .done s st []
    | none =>
      if !s.flash.answers then .done s stFlashFault []
      else
        let image := imageBytes (bankOf s b) len
        if (crc32 image).toNat ≠ par c 8 4 || !Config.imageSignatureOk image then .done s stImageRejected []
        else
          .wait (pushJob (.bankActivate c b (newHeader c s)) { s with flash := { s.flash with bankBusy := true } })

/-- FW_BANK_ACTIVATE (R128). -/
def execFwBankActivate (c : Cmd) (s : State) : Host.Outcome State Fault Refusal :=
  .next (mailbox 0x0F03 c (fwBankActivateWork c) s)

def fwBootNextWork (c : Cmd) (s : State) : Reply :=
  let v := par c 0 1
  if 2 < v || (v != 0 && !bankValid (bankOf s (v - 1))) then .done s stBadParam []
  else if !s.flash.answers then .done s stFlashFault []
  else .wait (pushJob (.bootNext c (if v = 0 then none else some (v - 1))) s)

/-- FW_BOOT_NEXT (R116, R143). -/
def execFwBootNext (c : Cmd) (s : State) : Host.Outcome State Fault Refusal :=
  .next (mailbox 0x0F04 c (fwBootNextWork c) s)

def flashInfoWork (s : State) : Reply :=
  match s.flash.sfdp with
  | none => .done s stFlashFault []
  | some f =>
    .done s stOK (leBytes 3 f.jedec.toNat ++ [0] ++ leBytes 4 f.sizeMiB ++ leBytes 1 (min 104 f.quadMHz) ++
      leBytes 1 (flag f.suspend 0) ++ [0, 0] ++ leBytes 4 f.blockEraseMs)

/-- FLASH_INFO (R113, R143). -/
def execFlashInfo (c : Cmd) (s : State) : Host.Outcome State Fault Refusal :=
  .next (mailbox 0x0F05 c flashInfoWork s)

/-! ## The end of a flash write (R129) -/

/-- The rinse record is written (R187 step 2). -/
def rinseRecorded (t : Nat) (colour : BitVec 8) (s : State) : State :=
  match (partOf s t).rinse with
  | none => s
  | some r =>
    if r.phase == .recording then
      modPart t (fun p => { p with rinse := some { r with recorded := true } })
        { s with flash := { s.flash with mirror := tput s.flash.mirror t colour } }
    else s

/-- A record joins the configuration store (R161). -/
def storeRecord (n : Nat) (s : State) : State :=
  { s with flash := { s.flash with store := appendRec {} (recordBytes n) s.flash.store } }

/-- Data of an image chunk is programmed (R127). -/
def chunkWritten (c : Cmd) (b off : Nat) (data : List Byte) (s : State) : State :=
  let k := bankOf s b
  let cells := (List.range data.length).foldl (fun t i => tput t (off + i) (data.getD i 0)) k.image
  finish 0x0F02 c stOK [] (setBank b (recheck off { k with image := cells, pages := k.pages ++ writePages off data.length }) s)

/-- A header page is programmed (R128). -/
def headerWritten (c : Cmd) (b : Nat) (h : BankHeader) (s : State) : State :=
  finish 0x0F03 c stOK (leBytes 4 h.generation) (setBank b { bankOf s b with page0 := headerPage h, imageOk := true } s)

/-- A bank write or activation has ended. -/
def bankIdle (s : State) : State := { s with flash := { s.flash with bankBusy := false } }

/-- What the end of a flash write means to who waits for it. -/
def jobDone (j : FlashJob) (ok : Bool) (s : State) : State :=
  let rcd := fun (s : State) => if ok then storeRecord 1 s else s
  match j with
  | .pourRecord =>
    (match s.cfg.pour with
      | none => s
      | some p => if !p.recordPending then s else if ok then recordWritten p s else recordFailed p s)
  | .retirePage c n e => if ok then retireWritten c n e s else finish 0x0503 c stFlashFault [] s
  | .rinseRecord t colour => if ok then rinseRecorded t colour s else rinseRecordFailed t s
  | .rinseProgress t n x =>
    if ok && (tfind s.flash.mirror t).isSome then
      { s with flash := { s.flash with
          mirrorDone := tset [] s.flash.mirrorDone t (tget [] s.flash.mirrorDone t ++ [(n, x)]) } }
    else s
  | .mapout n ch => mapoutRecorded n ch ok (rcd s)
  | .stackRetire n => retireRecorded n ok (rcd s)
  | .laneRepair ch fp lane => laneRecorded ch fp lane ok (rcd s)
  | .rowRepair ch r _ => rowRecorded ch r ok (rcd s)
  | .rowCancel r => if ok then cancelSoft r (rcd s) else s
  | .epoch t => epochWritten t ok (rcd s)
  | .freshStore =>
    if ok then { s with flash := { s.flash with store := { s.flash.store with half := 0, half0 := { ok := true, generation := 1 } } } } else s
  | .bootNext c sel =>
    if ok then finish 0x0F04 c stOK [] { s with flash := { s.flash with bootNext := sel } } else finish 0x0F04 c stFlashFault [] s
  | .bankWrite c b off data => if ok then chunkWritten c b off data (bankIdle s) else finish 0x0F02 c stFlashFault [] (bankIdle s)
  | .bankActivate c b h => if ok then headerWritten c b h (bankIdle s) else finish 0x0F03 c stFlashFault [] (bankIdle s)

/-- The flash is free for a write: no bank erase runs, or it is suspended, or it stands between two of its units (R125). -/
def flashFree (s : State) : Bool :=
  match s.flash.erase with
  | none => true
  | some e => eraseSuspended s || e.between

/-- FLASH_PROGRAM_COMPLETE: the oldest flash write that is waited for is done or has failed (R129). -/
def programComplete (ok : Bool) (s : State) : State :=
  match s.flash.jobs with
  | [] => s
  | j :: r =>
    if flashFree s then resumeErase (jobDone j (ok && s.flash.answers) { s with flash := { s.flash with jobs := r } }) else s
where
  /-- The erase goes on once no write waits. -/
  resumeErase (s : State) : State :=
    match s.flash.erase with
    | none => s
    | some e =>
      if s.flash.jobs.isEmpty then { s with flash := { s.flash with erase := some { e with between := false } } } else s

def execFlashProgramComplete (ok : Bool) (s : State) : Host.Outcome State Fault Refusal := .next (programComplete ok s)

/-! ## The end of an erase (R124, R163) -/

/-- The bank offsets of an erase unit: the header sector, then the rest of each 64 KiB block. -/
def unitRange (u : Nat) : Nat × Nat :=
  if u = 0 then (0, 4096) else if u = 1 then (4096, 65536) else ((u - 1) * 65536, u * 65536)

/-- A bank with one unit erased. -/
def eraseUnit (u : Nat) (b : Bank) : Bank :=
  if u = 0 then { b with page0 := [], trial := false, confirm := false }
  else
    let r := unitRange u
    { b with
      image := b.image.filter (fun e => e.1 < r.1 || r.2 ≤ e.1), pages := b.pages.filter (fun p => 256 * p < r.1 || r.2 ≤ 256 * p) }

/-- A unit of the bank's erase is done: the next one follows, and after the last the command ends. A unit that fails ends it
with FLASH_FAULT. -/
def bankErased (ok : Bool) (s : State) : State :=
  match s.flash.erase with
  | none => s
  | some e =>
    if eraseSuspended s || e.between then s
    else if !ok || !s.flash.answers then finish 0x0F01 e.cmd stFlashFault [] { s with flash := { s.flash with erase := none } }
    else
      let s := setBank e.bank (eraseUnit e.unit (bankOf s e.bank)) s
      if e.unit < 256 then
        { s with flash := { s.flash with
            erase := some { e with unit := e.unit + 1, between := !s.flash.jobs.isEmpty || s.boot.hkpReloading } } }
      else
        finish 0x0F01 e.cmd stOK [] (setBank e.bank { bankOf s e.bank with erasedOk := true, imageOk := false }
          { s with flash := { s.flash with erase := none } })

/-- The store's erase is suspended for a write that waits (R125, R163). -/
def compactionSuspended (s : State) : Bool := canSuspend s && !s.flash.jobs.isEmpty

/-- The half that a compaction writes: the snapshot of all persisted items, under the next generation. -/
def snapshotHalf (st : Store) : StoreHalf := { ok := true, generation := st.generation + 1, snapshot := st.items }

/-- The store has been compacted into its other half (R163): the snapshot takes its place there. -/
def storeErased (ok : Bool) (s : State) : State :=
  let st := s.flash.store
  if !st.compacting || compactionSuspended s then s
  else if ok && s.flash.answers then
    let st := { st with compacting := false, half := 1 - st.half, freeBytes := 0x7F000 - recordBytes st.items.length,
                        half0 := if st.half = 1 then snapshotHalf st else st.half0,
                        half1 := if st.half = 1 then st.half1 else snapshotHalf st }
    { s with flash := { s.flash with store := st } }
  else { s with flash := { s.flash with store := { st with compacting := false } } }

/-- FLASH_ERASE_COMPLETE: of one unit of a bank, or of the store's other half with the snapshot that follows it. -/
def execFlashEraseComplete (store ok : Bool) (s : State) : Host.Outcome State Fault Refusal :=
  .next (if store then storeErased ok s else bankErased ok s)

end Sys2Proof.Machine
end

