-- ==== Sys2Proof/Machine/Telemetry.lean ====
section
/-! DEFINITION. Counters as records show them (R444, R451), snapshots (R447), the spout and its rings (R448 to R453), the
event log's commands (R456, R464), and the MCTP channel (R166, R457, R499). -/

namespace Sys2Proof.Machine

open Sys2Proof

/-! ## Fields (R444, R451) -/

/-- What a counter index counts: bytes as KiB, energy as µJ, events, or nothing. -/
inductive CtrKind where
  | bytes
  | energy
  | event
  deriving DecidableEq, Repr

/-- The kind of counter i (Tables 16.1 to 16.4). -/
def ctrKind (i : Nat) : CtrKind :=
  if 768 ≤ i then .bytes
  else if 704 ≤ i then .event
  else if 640 ≤ i then
    (if i - 640 ≤ 3 || i = 646 then .energy else if i = 651 || i = 652 || i = 656 then .bytes else .event)
  else if 512 ≤ i then
    (if (i - 512) % 32 ≤ 1 || (i - 512) % 32 = 12 || (i - 512) % 32 = 13 then .bytes else .event)
  else if 256 ≤ i then
    (if (i - 256) % 32 ≤ 1 || (i - 256) % 32 = 17 then .bytes else if (i - 256) % 32 = 23 then .energy else .event)
  else .event

/-- A volume in whole units: KiB, or µJ of a sum of window powers of 1.024 µs each; saturating at 64 bits. -/
def volumeField (kind : CtrKind) (v : Nat) : Nat :=
  satTo 64 (if kind == .energy then v * 1024 / (1000 * watt) else v / 1024)

/-- The 8-byte field of counter i now: an event counter's value in bits 47:0 and wrap count in bits 63:48. -/
def counterField (s : State) (i : Nat) : Nat :=
  match ctrKind i with
  | .event => cget s.tele.events i % 2 ^ 64
  | k => volumeField k (cget s.tele.volumes i)

/-- The indices of the counters of a kind, energy or other. -/
def ctrIndices (energy : Bool) : List Nat := (List.range 1024).filter (fun i => (ctrKind i == .energy) == energy)

/-! ## Latching (R447) -/

/-- DUMP_PERIOD in force; 0 is off (R448). -/
def dumpPeriod (s : State) : Nat := cfgN s 0x0D00 0 0

/-- Mark m is a dump mark (R448). -/
def dumpMarkAt (s : State) (m : Nat) : Bool := dumpPeriod s != 0 && m % dumpPeriod s = 0

/-- A ring as a dump mark finds it: a detach or an attach since the last one has taken effect (R453). A ring that is
attached starts with a producer count of 0. -/
def ringTurn (r : DumpRing) : DumpRing :=
  match r.nextAttach with
  | some (b, n) => { base := b, slots := n, state := 1 }
  | none => if r.detachNext then {} else r

/-- The tenant rings at a dump mark. -/
def turnRings (s : State) : State :=
  s.tele.tenantRings.foldl (fun s e =>
    let s := match e.2.nextAttach with
      | some (b, _) => emit (.hostWrite e.1 b (leBytes 8 0)) s
      | none => s
    { s with tele := { s.tele with tenantRings := tset {} s.tele.tenantRings e.1 (ringTurn e.2) } }) s

/-- A ring with one dump mark skipped. -/
def ringSkip (r : DumpRing) : DumpRing := { r with skipped := (r.skipped + 1) % 2 ^ 32 }

/-- Skips the mark for the device ring. -/
def skipDevice (s : State) : State :=
  if s.tele.ring.state = 1 then
    countEvent (devCtr 26) 1 { s with tele := { s.tele with ring := ringSkip s.tele.ring } }
  else s

/-- The records of an earlier dump mark are not fully written: every ring skips this mark (R450 step 2). -/
def skipAll (s : State) : State :=
  let s := skipDevice s
  { s with tele := { s.tele with tenantRings := s.tele.tenantRings.map (fun (e : Nat × DumpRing) =>
      (e.1, if e.2.state = 1 then ringSkip e.2 else e.2)) } }

/-- The counts that every die holds before the tick of mark m, with what a record's header takes from the mark. -/
def latchNow (s : State) (m : Nat) (dump : Bool) : Latch :=
  { tick := 1024 * m,
    fields := ((ctrIndices false).filter (fun i => counterField s i != 0)).map (fun i => (i, counterField s i)),
    serial := s.cfg.lastCompleted,
    debt := maxOf ((List.range 9).map (fun d => (dieOf s d).debt)),
    online := onlineMask s, dump := dump, seq := s.tele.dumpSeq,
    cmds := s.tele.snapshots, reqs := s.tele.mctpCounters }

/-- The latch of mark m: at a dump mark, and for snapshots and requests that wait for one. -/
def latchMark (m : Nat) (s : State) : State :=
  let dump := dumpMarkAt s m
  if !dump && s.tele.snapshots.isEmpty && s.tele.mctpCounters.isEmpty then s
  else
    let s := if dump then turnRings { s with tele := { s.tele with dumpSeq := s.tele.dumpSeq + 1 } } else s
    let late := s.tele.dump.isSome || s.tele.latching.any (fun l => l.dump)
    let s := if dump && late then skipAll s else s
    { s with tele := { s.tele with
        latching := s.tele.latching ++ [latchNow s m (dump && !late)], snapshots := [], mctpCounters := [] } }

/-! ## Records (R451) -/

/-- A field of a latch. -/
def latchField (l : Latch) (i : Nat) : Nat := cget l.fields i

/-- A record before its CRC: tenant 0xFFFF for the device's. -/
def recordBody (s : State) (l : Latch) (tenant : Option Nat) (seq crc : Nat) : List Byte :=
  leBytes 4 0x54554F50 ++ leBytes 2 1 ++ leBytes 2 (if tenant.isSome then 2 else 1024) ++ leBytes 8 seq ++
    leBytes 8 l.tick ++ leBytes 2 (tenant.getD 0xFFFF) ++ leBytes 2 s.boot.warmResets ++ leBytes 4 l.serial.toNat ++
    leBytes 4 l.debt ++ leBytes 1 l.online ++ List.replicate 23 0 ++ leBytes 4 crc ++
    (match tenant with
      | some t => leBytes 8 (latchField l (768 + 2 * t)) ++ leBytes 8 (latchField l (769 + 2 * t)) ++ List.replicate 48 0
      | none => (List.range 1024).flatMap (fun i => leBytes 8 (latchField l i)))

/-- A record. -/
def spoutRecord (s : State) (l : Latch) (tenant : Option Nat) (seq : Nat) : List Byte :=
  recordBody s l tenant seq (crc32 (recordBody s l tenant seq 0)).toNat

/-! ## The governor closes the window of a latch mark -/

/-- Writes a snapshot's record and ends its command. -/
def answerSnapshot (l : Latch) (c : Cmd) (s : State) : State :=
  let tenant := if par c 8 1 = 1 then none else some (cmdTarget c)
  finish 0x0D02 c stOK (leBytes 8 l.tick) (emit (.hostWrite (cmdFn c) (par c 0 8) (spoutRecord s l tenant 0)) s)

/-- The response to an out-of-band request for counters. -/
def answerCounters (l : Latch) (first count : Nat) (s : State) : State :=
  emit (mctpOut 3 (leBytes 2 stOK ++ leBytes 8 l.tick ++
    (List.range count).flatMap (fun i => leBytes 8 (latchField l (first + i))))) s

/-- A latch is complete: its energies are in, and what waits for it is answered. -/
def closeLatch (l : Latch) (s : State) : State :=
  let l := { l with fields := (ctrIndices true).foldl (fun t i => tset 0 t i (counterField s i)) l.fields }
  let s := l.cmds.foldl (fun s c => answerSnapshot l c s) s
  let s := l.reqs.foldl (fun s r => answerCounters l r.1 r.2 s) s
  let l := { l with cmds := [], reqs := [] }
  { s with tele := { s.tele with latch := l, dump := if l.dump then some l else s.tele.dump } }

/-- The hub's governor has closed the window that ends at mark k (R447). -/
def closeLatches (k : Nat) (s : State) : State :=
  let ready := s.tele.latching.filter (fun l => l.tick ≤ 1024 * k)
  let s := ready.foldl (fun s l => closeLatch l s) s
  { s with tele := { s.tele with latching := s.tele.latching.filter (fun l => 1024 * k < l.tick) } }

/-! ## DUMP_MARK (R450) -/

/-- The bytes between slots of a ring. -/
def ringStride (tenant : Option Nat) : Nat := if tenant.isSome then 128 else 8256

/-- The unread records of a ring fill it, against the consumer count the spout reads. -/
def dumpFull (r : DumpRing) (consumer : Nat) : Bool :=
  r.slots ≤ (r.producer + 2 ^ 64 - consumer % 2 ^ 64) % 2 ^ 64

/-- Writes a record and the producer count of a ring (R450 steps 3 and 4). -/
def writeRecord (l : Latch) (tenant : Option Nat) (r : DumpRing) (s : State) : State :=
  let k := tenant.getD 0
  let slot := r.base + 4096 + r.producer % r.slots * ringStride tenant
  let s := emit (.hostWrite k slot (spoutRecord s l tenant l.seq)) s
  emit (.hostWrite k r.base (leBytes 8 (r.producer + 1))) s

/-- A ring with one more record. -/
def ringNext (r : DumpRing) : DumpRing := { r with producer := (r.producer + 1) % 2 ^ 64 }

/-- The device ring at a dump mark. -/
def dumpDevice (l : Latch) (consumer : Nat) (s : State) : State :=
  let r := s.tele.ring
  if r.state ≠ 1 then s
  else if dumpFull r consumer then skipDevice s
  else
    let s := writeRecord l none r s
    countEvent (devCtr 25) 1 { s with tele := { s.tele with ring := ringNext r } }

/-- Tenant t's ring at a dump mark. -/
def dumpTenant (l : Latch) (t consumer : Nat) (s : State) : State :=
  let r := tget {} s.tele.tenantRings t
  if r.state ≠ 1 then s
  else if dumpFull r consumer then
    { s with tele := { s.tele with tenantRings := tset {} s.tele.tenantRings t (ringSkip r) } }
  else
    let s := writeRecord l (some t) r s
    { s with tele := { s.tele with tenantRings := tset {} s.tele.tenantRings t (ringNext r) } }

/-- DUMP_MARK: the spout writes the records of the last dump latch. `consumers` are the consumer counts it reads, by
tenant, the device ring's under 128. -/
def dumpMark (consumers : List (Nat × Nat)) (s : State) : State :=
  match s.tele.dump with
  | none => s
  | some l =>
    let s := dumpDevice l (cget consumers 128) s
    let s := (s.tele.tenantRings.map Prod.fst).foldl (fun s t => dumpTenant l t (cget consumers t) s) s
    { s with tele := { s.tele with dump := none } }

def execDumpMark (consumers : List (Nat × Nat)) (s : State) : Host.Outcome State Fault Refusal :=
  .next (dumpMark consumers s)

/-- SPOUT_RING_FAULT: the spout stops a running ring and logs the fault (R452). `fault` is 1 to 3 (Table 16.8); 0 is
none. -/
def spoutRingFault (ring : Option Nat) (fault : Nat) (s : State) : State :=
  if fault = 0 then s
  else
    match ring with
    | none =>
      if s.tele.ring.state ≠ 1 then s
      else
        devEvent 0x0D00 2 (leBytes 1 0xFF ++ leBytes 1 fault)
          { s with tele := { s.tele with ring := { s.tele.ring with state := 2, fault := fault } } }
    | some t =>
      let r := tget {} s.tele.tenantRings t
      if r.state ≠ 1 then s
      else
        logEvent 0x0D00 t 2 noStack (leBytes 1 t ++ leBytes 1 fault) ([0, t].eraseDups)
          { s with tele := { s.tele with tenantRings := tset {} s.tele.tenantRings t { r with state := 2, fault := fault } } }

def execSpoutRingFault (ring : Option (Fin 128)) (fault : Fin 4) (s : State) : Host.Outcome State Fault Refusal :=
  .next (spoutRingFault (ring.map (·.val)) fault.val s)

/-! ## Commands (Table 16.8) -/

/-- SPOUT_STATUS's result for a ring. A ring that runs shows off while DUMP_PERIOD is 0. -/
def spoutResult (s : State) (r : DumpRing) : List Byte :=
  leBytes 1 (if dumpPeriod s = 0 && r.state ≠ 2 then 0 else r.state) ++ leBytes 1 r.fault ++ [0, 0] ++
    leBytes 8 (s.tele.dumpSeq + 1) ++ leBytes 4 r.skipped

def spoutStatusWork (c : Cmd) (s : State) : Reply :=
  let sel := par c 0 1
  if 1 < sel then .done s stBadParam []
  else if sel = 0 && !cmdPf c then .done s stNotPermitted []
  else .done s stOK (spoutResult s (if sel = 0 then s.tele.ring else tget {} s.tele.tenantRings (cmdTarget c)))

/-- SPOUT_STATUS (R458). -/
def execSpoutStatus (c : Cmd) (s : State) : Host.Outcome State Fault Refusal :=
  .next (mailbox 0x0D01 c (spoutStatusWork c) s)

/-- TELEMETRY_SNAPSHOT waits for the next mark. -/
def telemetrySnapshotWork (c : Cmd) (s : State) : Reply :=
  if par c 0 8 % 64 ≠ 0 || 1 < par c 8 1 then .done s stBadParam []
  else if par c 8 1 = 1 && !cmdPf c then .done s stNotPermitted []
  else .wait { s with tele := { s.tele with snapshots := s.tele.snapshots ++ [c] } }

def execTelemetrySnapshot (c : Cmd) (s : State) : Host.Outcome State Fault Refusal :=
  .next (mailbox 0x0D02 c (telemetrySnapshotWork c) s)

/-- TENANT_DUMP_ATTACH takes effect at the next dump mark (R453). The slot count of a detach is not looked at. -/
def tenantDumpAttachWork (c : Cmd) (s : State) : Reply :=
  let base := par c 0 8
  let slots := par c 8 2
  let t := cmdTarget c
  if base % 4096 ≠ 0 || (base ≠ 0 && (slots < 2 || 4096 < slots)) then .done s stBadParam []
  else
    let r := tget {} s.tele.tenantRings t
    let r := if base = 0 then { r with nextAttach := none, detachNext := true }
      else { r with nextAttach := some (base, slots), detachNext := true }
    .done { s with tele := { s.tele with tenantRings := tset {} s.tele.tenantRings t r } } stOK []

def execTenantDumpAttach (c : Cmd) (s : State) : Host.Outcome State Fault Refusal :=
  .next (mailbox 0x0D03 c (tenantDumpAttachWork c) s)

/-- The 48 bytes of a log entry. -/
def logEntryBytes (e : LogEntry) : List Byte :=
  padTo 32 e.bytes ++ leBytes 8 e.timebase ++ leBytes 4 e.seq.toNat ++ leBytes 1 (flag e.pinned 0 + flag e.dropped 1) ++
    [0, 0, 0]

/-- Log sequence a is older than b (R463, R464). -/
def logOlder (a b : BitVec 32) : Bool := decide (1 ≤ (b - a).toNat) && decide ((b - a).toNat < 2 ^ 31)

/-- The entries a read names: from a sequence, or the oldest surviving entry newer than it; 0xFFFFFFFF is the oldest
(R464). -/
def logSelect (s : State) (first : BitVec 32) (count : Nat) (pinned : Bool) : List LogEntry :=
  let es := if first = 0xFFFFFFFF#32 then s.tele.log else s.tele.log.dropWhile (fun e => logOlder e.seq first)
  (es.filter (fun e => !pinned || e.pinned)).take count

/-- The PF has read the entry that asserted DEV_ALERT_N, or finds it gone from the log (R502). -/
def alertRead (read : List LogEntry) (s : State) : State :=
  let at_ := BitVec.ofNat 32 s.pins.alertSeq
  if read.any (fun e => e.seq == at_) || !s.tele.log.any (fun e => e.seq == at_) then
    { s with pins := { s.pins with devAlert := false } }
  else s

def eventLogReadWork (c : Cmd) (s : State) : Reply :=
  let count := par c 4 2
  let addr := par c 8 8
  if count = 0 || 4096 < count || addr % 16 ≠ 0 then .done s stBadParam []
  else
    let es := logSelect s (BitVec.ofNat 32 (par c 0 4)) count (bitOf (par c 6 1) 0)
    let s := if es.isEmpty then s else emit (.hostWrite (cmdFn c) addr (es.flatMap logEntryBytes)) s
    .done (alertRead es s) stOK
      (leBytes 2 es.length ++ [0, 0] ++ leBytes 4 s.tele.logSeq.toNat ++ leBytes 4 s.tele.overwritten)

/-- EVENT_LOG_READ (R464). -/
def execEventLogRead (c : Cmd) (s : State) : Host.Outcome State Fault Refusal :=
  .next (mailbox 0x0D04 c (eventLogReadWork c) s)

/-- EVENT_LOG_CLEAR (R456). -/
def eventLogClearWork (s : State) : Reply :=
  .done { s with tele := { s.tele with log := [], overwritten := 0 } } stOK (leBytes 2 s.tele.log.length)

def execEventLogClear (c : Cmd) (s : State) : Host.Outcome State Fault Refusal :=
  .next (mailbox 0x0D05 c eventLogClearWork s)

/-! ## MCTP (R166, R457, R499) -/

/-- A telemetry request whose fields are bad. -/
def mctpBad (s : State) : State := emit (mctpOut 3 (leBytes 2 stBadParam)) s

/-- MCTP_TELEMETRY_COUNTERS: from the latest latch mark; with the spout off, or before any, from the next mark. -/
def mctpCounters (first count : Nat) (s : State) : State :=
  if !serving s then s
  else if count = 0 || 32 < count || 1024 < first + count then mctpBad s
  else if dumpPeriod s = 0 || (s.tele.latch.tick = 0 && s.tele.latching.isEmpty) then
    { s with tele := { s.tele with mctpCounters := s.tele.mctpCounters ++ [(first, count)] } }
  else
    match s.tele.latching.getLast? with
    | some l =>
      let l := { l with reqs := l.reqs ++ [(first, count)] }
      { s with tele := { s.tele with latching := s.tele.latching.dropLast ++ [l] } }
    | none => answerCounters s.tele.latch first count s

def execMctpTelemetryCounters (first count : Nat) (s : State) : Host.Outcome State Fault Refusal :=
  .next (mctpCounters first count s)

/-- MCTP_TELEMETRY_LOG. -/
def mctpLog (first : BitVec 32) (count : Nat) (s : State) : State :=
  if !serving s then s
  else if count = 0 || 8 < count then mctpBad s
  else emit (mctpOut 3 (leBytes 2 stOK ++ (logSelect s first count false).flatMap logEntryBytes)) s

def execMctpTelemetryLog (first : Word32) (count : Nat) (s : State) : Host.Outcome State Fault Refusal :=
  .next (mctpLog first count s)

/-- MCTP_TELEMETRY_SPOUT_STATUS. -/
def mctpSpoutStatus (s : State) : State :=
  if !serving s then s else emit (mctpOut 3 (leBytes 2 stOK ++ spoutResult s s.tele.ring)) s

def execMctpTelemetrySpoutStatus (s : State) : Host.Outcome State Fault Refusal := .next (mctpSpoutStatus s)

/-- MCTP_SET_ENDPOINT_ID: the bus owner assigns the endpoint ID. -/
def execMctpSetEndpointId (eid : Byte) (s : State) : Host.Outcome State Fault Refusal :=
  .next { s with pins := { s.pins with eid := eid } }

/-- SMBUS_CLOCK_LOW_TIMEOUT: the device releases the bus. -/
def execSmbusClockLowTimeout (s : State) : Host.Outcome State Fault Refusal := .next (emit .smbusRelease s)

end Sys2Proof.Machine
end

