-- ==== Sys2Proof/Machine/Bar0.lean ====
section
/-! DEFINITION. The BAR0 window (R130, Tables 4.6 and 4.7) and the mailbox transport: rings and doorbells (R131, R132),
fetching, order and completions (R133 to R137), interrupts (R139), ring faults and mailbox reset (R140, R142), and the
out-of-band commands that take execution places (R166). -/

namespace Sys2Proof.Machine

open Sys2Proof

/-! ## Registers -/

/-- DEV_STATUS bit 1 of function k (Table 4.7, R117, R119). -/
def fnReady (s : State) (k : Nat) : Bool :=
  serving s && (s.boot.stage == .ready || k == 0) && !(fnOf s k).resetBusy

/-- The function's writes to MBX_CTRL have an effect (R119). -/
def ctrlOpen (s : State) (k : Nat) : Bool := barOpen s k && serving s && (s.boot.stage == .ready || k == 0)

/-- Sets a mailbox fault, which raises INT_STATUS bit 3 when it becomes non-zero. -/
def mbxFault (k fault : Nat) (stop : Bool) (s : State) : State :=
  let was := (fnOf s k).fault
  let s := modFn k (fun f => { f with fault := BitVec.ofNat 8 fault, stopped := f.stopped || stop }) s
  if was = 0#8 then setInt k 3 s else s

/-- MBX_DOORBELL: a value within 256 of MBX_CMD_HEAD is accepted, and the highest kept (R132). While the mailbox is not
enabled the write is ignored and sets no fault (DESIGN CHOICE, log entry 10). -/
def doorbellWrite (k : Nat) (v : BitVec 32) (s : State) : State :=
  let f := fnOf s k
  let d := v.setWidth 16
  if !barOpen s k || !f.enabled then s
  else if 256 < (d - f.cmdHead).toNat then mbxFault k 4 false s
  else if (f.doorbell - f.cmdHead).toNat < (d - f.cmdHead).toNat then setFn k { f with doorbell := d } s
  else s

def execMbxDoorbellWrite (k : Fin 128) (v : Word32) (s : State) : Host.Outcome State Fault Refusal :=
  .next (doorbellWrite k.val v s)

/-- Enabling clears every pointer and MBX_EXPECT_SEQ (R131); a base of zero is fault 5 (Table 4.7). -/
def mbxEnable (k : Nat) (on : Bool) (s : State) : State :=
  let f := fnOf s k
  if !ctrlOpen s k || f.resetBusy then s
  else if !on then setFn k { f with enabled := false } s
  else if f.enabled then s
  else
    let s := setFn k { f with
      enabled := true, doorbell := 0, cmdHead := 0, cplTail := 0, cplHead := 0, evtTail := 0, evtHead := 0, expect := 0,
      unsignalled := 0, oldestAt := none } s
    if f.cmdBase = 0#64 || f.cplBase = 0#64 || (f.events && f.evtBase = 0#64) then mbxFault k 5 true s else s

def execMbxEnable (k : Fin 128) (on : Bool) (s : State) : Host.Outcome State Fault Refusal :=
  .next (mbxEnable k.val on s)

/-- MBX_CTRL bit 1: the event ring. -/
def mbxEvents (k : Nat) (on : Bool) (s : State) : State :=
  let f := fnOf s k
  if !ctrlOpen s k || f.resetBusy then s
  else
    let s := setFn k { f with events := on } s
    if on && f.enabled && f.evtBase = 0#64 then mbxFault k 5 true s else s

def execMbxEventsEnable (k : Fin 128) (on : Bool) (s : State) : Host.Outcome State Fault Refusal :=
  .next (mbxEvents k.val on s)

/-- The function's commands at a mailbox reset: those that have not started and those that only wait for their
completion go, the others lose their completion (R142). -/
def dropMailbox (k : Nat) (s : State) : State :=
  { s with cmds := (s.cmds.filter (fun e => !ofFn k e || (e.started && e.done.isNone))).map (fun e =>
      if ofFn k e then { e with discard := true } else e) }

/-- The warm reset that a command asked for comes in 100 µs. -/
def askWarmReset (s : State) : State :=
  { s with boot := { s.boot with warmAsked := false, warmResetAt := some (now s + usTicks 100) } }

/-- The mailbox of function k is reset (R142), with its pours that are not accepted (Table 5.4). A warm reset whose completion goes with it still takes place. -/
def mailboxReset (k : Nat) (s : State) : State :=
  let s := if k = 0 && s.boot.warmAsked then askWarmReset s else s
  let s := dropPours (fun c => cmdArea c == k) s
  modFn k (fun f => { f with
    enabled := false, events := false, fault := 0, stopped := false, doorbell := 0, cmdHead := 0, cplTail := 0,
    cplHead := 0, evtTail := 0, evtHead := 0, expect := 0, heldEvents := [], unsignalled := 0, oldestAt := none })
    (dropMailbox k s)

/-- MBX_CTRL bit 2 (R142). -/
def mbxReset (k : Nat) (s : State) : State :=
  if !ctrlOpen s k then s else modFn k (fun f => { f with resetBusy := true }) (mailboxReset k s)

def execMbxReset (k : Fin 128) (s : State) : Host.Outcome State Fault Refusal := .next (mbxReset k.val s)

/-- MBX_RESET_DONE: reset-busy clears. -/
def execMbxResetDone (k : Fin 128) (s : State) : Host.Outcome State Fault Refusal :=
  .next (modFn k.val (fun f => { f with resetBusy := false }) s)

/-- INT_STATUS: writing 1 clears a bit. -/
def intStatusClear (k : Nat) (v : BitVec 32) (s : State) : State :=
  if barOpen s k then modFn k (fun f => { f with intStatus := f.intStatus &&& ~~~ (v.setWidth 6) }) s else s

def execIntStatusClear (k : Fin 128) (v : Word32) (s : State) : Host.Outcome State Fault Refusal :=
  .next (intStatusClear k.val v s)

/-- KETTLE_FLAGS: bit 5 clears by writing 1, for every function (R130). -/
def kettleFlagsClear (k : Nat) (v : BitVec 32) (s : State) : State :=
  if barOpen s k && v.getLsbD 5 then { s with kettle := { s.kettle with slewFlag := false } } else s

def execKettleFlagsClear (k : Fin 128) (v : Word32) (s : State) : Host.Outcome State Fault Refusal :=
  .next (kettleFlagsClear k.val v s)

/-! ## Register reads (R130, Tables 4.6 and 4.7) -/

/-- DEV_STATUS of function k. -/
def devStatus (s : State) (k : Nat) : Nat :=
  stageCode s.boot.stage * 2 ^ 28 + onlineMask s * 2 ^ 16 + retiredMask s * 2 ^ 8 +
    flag (s.parts.any (fun e => e.2.incomplete)) 3 + flag (s.boot.bootedBank == 1) 2 + flag (fnReady s k) 1 +
    flag s.boot.ready 0

/-- SCHED_DEBT: the largest debt of the nine dies (R212). -/
def schedDebt (s : State) : Nat := maxOf ((List.range 9).map (fun i => (dieOf s i).debt))

/-- KETTLE_FLAGS. -/
def kettleFlags (s : State) : Nat :=
  kbMode s + flag (steepRuns s) 2 + flag s.kettle.quiesce.isSome 3 + flag (chainFault s) 4 + flag s.kettle.slewFlag 5

/-- MBX_CTRL and MBX_STATUS of a function. -/
def mbxCtrl (f : Fn) : Nat := flag f.enabled 0 + flag f.events 1
def mbxStatus (f : Fn) : Nat :=
  f.fault.toNat * 2 ^ 24 + flag f.resetBusy 2 + flag f.stopped 1 + flag (f.enabled && !f.stopped) 0

/-- The doubleword of BAR0 of function k at an aligned offset; offsets that are not listed, and write-only registers, read
as zero. TIMEBASE here is the count itself; the latch of its high half is `bar0Read`'s. -/
def bar0Dword (s : State) (k off : Nat) : Nat :=
  let f := fnOf s k
  match off with
  | 0x00 => k * 2 ^ 16 + 1
  | 0x04 => devStatus s k
  | 0x08 => now s % 2 ^ 32
  | 0x0C => now s / 2 ^ 32 % 2 ^ 32
  | 0x10 => schedDebt s % 2 ^ 32
  | 0x14 => f.debtMax.toNat
  | 0x18 => toMw s.kettle.e % 2 ^ 32
  | 0x1C => toMw s.kettle.pest % 2 ^ 32
  | 0x20 => kettleFlags s
  | 0x40 => f.cmdBase.toNat % 2 ^ 32
  | 0x44 => f.cmdBase.toNat / 2 ^ 32
  | 0x48 => f.cplBase.toNat % 2 ^ 32
  | 0x4C => f.cplBase.toNat / 2 ^ 32
  | 0x50 => f.evtBase.toNat % 2 ^ 32
  | 0x54 => f.evtBase.toNat / 2 ^ 32
  | 0x58 => mbxCtrl f
  | 0x5C => mbxStatus f
  | 0x64 => f.cmdHead.toNat
  | 0x68 => f.cplTail.toNat
  | 0x6C => f.cplHead.toNat
  | 0x70 => f.evtTail.toNat
  | 0x74 => f.evtHead.toNat
  | 0x78 => f.expect.toNat
  | 0x7C => s.cmds.length * 2 ^ 16 + (s.cmds.filter (ofFn k)).length
  | 0x80 => f.intStatus.toNat
  | 0x84 => f.intEnable.toNat
  | 0x88 => f.coalesceUs.toNat * 2 ^ 16 + f.coalesceCount.toNat
  | 0x8C => f.evtLost.toNat
  | _ =>
    if 0x8000 ≤ off && off < 0x8080 then (msixDword f ((off - 0x8000) / 4)).toNat
    else if off = 0x9000 then f.msixPending.toNat
    else 0

/-- The offsets that one aligned 64-bit access reaches: the 64-bit registers, and the MSI-X structures, as PCIe has it. -/
def wideReg (off : Nat) : Bool :=
  off % 8 = 0 && (off = 0x08 || (0x40 ≤ off && off < 0x58) || (0x8000 ≤ off && off < 0x8080) || off = 0x9000)

/-- What a read of function k's BAR0 returns: an aligned 32-bit read of any register, or an aligned 64-bit read of a 64-bit
register; any other reads as zero. A 32-bit read of the high half of TIMEBASE takes what the function's last read of the low
half latched. -/
def bar0Value (s : State) (k off width : Nat) : Nat :=
  if width = 64 && wideReg off then bar0Dword s k off + bar0Dword s k (off + 4) * 2 ^ 32
  else if width = 32 && off = 0x0C then ((fnOf s k).tbLatch.map (fun (v : BitVec 32) => v.toNat)).getD (bar0Dword s k off)
  else if width = 32 && off % 4 = 0 then bar0Dword s k off
  else 0

/-- A 32-bit read of TIMEBASE's low half latches its high half for the function's next read of that. -/
def timebaseLatch (k off width : Nat) (s : State) : State :=
  if width = 32 && off = 0x08 then
    modFn k (fun f => { f with tbLatch := some (BitVec.ofNat 32 (now s / 2 ^ 32)) }) s
  else if width = 32 && off = 0x0C then modFn k (fun f => { f with tbLatch := none }) s
  else s

/-- TIMEBASE_READ, which stands for every read of BAR0 (the table has no other row for one): `width` in bits. -/
def bar0Read (k off width : Nat) (s : State) : State :=
  if !barOpen s k then s
  else emit (.regRead k (BitVec.ofNat 64 (bar0Value s k off width))) (timebaseLatch k off width s)

def execTimebaseRead (k : Fin 128) (r : RegRead) (s : State) : Host.Outcome State Fault Refusal :=
  .next (bar0Read k.val r.off.toNat r.width s)

/-- A 64-bit base register with one half written; bits 11:0 stay 0. -/
def baseHalf (old : BitVec 64) (high : Bool) (v : BitVec 32) : BitVec 64 :=
  if high then v ++ old.setWidth 32 else old.extractLsb' 32 32 ++ (v &&& 0xFFFFF000#32)

/-- Doubleword i of the MSI-X table; a vector that is unmasked sends a message that is pending (R139). -/
def msixWrite (k i : Nat) (v : BitVec 32) (s : State) : State :=
  let s := modFn k (fun f => { f with msix := tput f.msix i v }) s
  if i % 4 = 3 && !v.getLsbD 0 && (fnOf s k).msixPending.getLsbD (i / 4) then
    emit (.msix k (i / 4)) (modFn k (fun f => { f with
      msixPending := f.msixPending &&& ~~~ BitVec.ofNat 8 (2 ^ (i / 4)) }) s)
  else s

/-- One aligned 32-bit write of a register that has no row of its own; others are ignored (R130). -/
def regWrite32 (k off : Nat) (v : BitVec 32) (s : State) : State :=
  match off with
  | 0x14 => modFn k (fun f => { f with debtMax := v }) s
  | 0x40 => modFn k (fun f => { f with cmdBase := baseHalf f.cmdBase false v }) s
  | 0x44 => modFn k (fun f => { f with cmdBase := baseHalf f.cmdBase true v }) s
  | 0x48 => modFn k (fun f => { f with cplBase := baseHalf f.cplBase false v }) s
  | 0x4C => modFn k (fun f => { f with cplBase := baseHalf f.cplBase true v }) s
  | 0x50 => modFn k (fun f => { f with evtBase := baseHalf f.evtBase false v }) s
  | 0x54 => modFn k (fun f => { f with evtBase := baseHalf f.evtBase true v }) s
  | 0x6C => modFn k (fun f => { f with cplHead := v.setWidth 16 }) s
  | 0x74 => modFn k (fun f => { f with evtHead := v.setWidth 16 }) s
  | 0x84 => modFn k (fun f => { f with intEnable := v.setWidth 6 }) s
  | 0x88 => modFn k (fun f => { f with coalesceUs := v.extractLsb' 16 16, coalesceCount := v.setWidth 8 }) s
  | _ => if 0x8000 ≤ off && off < 0x8080 then msixWrite k ((off - 0x8000) / 4) v s else s

/-- BAR0_REGISTER_WRITE (R130): `width` in bits. -/
def registerWrite (k off width : Nat) (v : BitVec 64) (s : State) : State :=
  if !barOpen s k then s
  else if width = 32 && off % 4 = 0 then regWrite32 k off (v.setWidth 32) s
  else if width = 64 && wideReg off then
    regWrite32 k (off + 4) (v.extractLsb' 32 32) (regWrite32 k off (v.setWidth 32) s)
  else s

def execBar0RegisterWrite (k : Fin 128) (off : BitVec 16) (width : Nat) (v : Word64) (s : State) :
    Host.Outcome State Fault Refusal := .next (registerWrite k.val off.toNat width v s)

/-! ## Fetching and order (R132, R136, R137) -/

/-- The command is ordered (Table 4.8). -/
def orderedFlag (c : Cmd) : Bool := c.flags.getLsbD 1

/-- Whether a command may start beside the earlier commands of its issuer (R137). -/
def orderMet (earlier : List Exec) (c : Cmd) : Bool :=
  let live := earlier.filter (fun e => !e.discard)
  if orderedFlag c then live.isEmpty else !live.any (fun e => orderedFlag e.cmd)

/-- A command that starts: the row of its opcode carries out its work; an undefined opcode ends at once (R19, Table
0.3). -/
def startedExec (s : State) (op : BitVec 16) (c : Cmd) : Exec :=
  { op := op, cmd := c, started := true, since := now s,
    done := if (ofOpcode op.toNat c).isNone then some (BitVec.ofNat 16 stBadOpcode, List.replicate 16 0) else none }

/-- Takes an execution place for a command. -/
def takePlace (op : BitVec 16) (c : Cmd) (s : State) : State :=
  let earlier := s.cmds.filter (fun e => e.cmd.issuer == c.issuer)
  let e : Exec := if orderMet earlier c then startedExec s op c else { op := op, cmd := c, started := false, since := now s }
  { s with cmds := s.cmds ++ [e] }

/-- A command whose sequence is not the expected one completes with STALE_SEQUENCE (R136). -/
def staleExec (s : State) (expect : BitVec 16) (op : BitVec 16) (c : Cmd) : Exec :=
  let d := (c.seq - expect).toNat
  { op := op, cmd := c, since := now s,
    done := some (BitVec.ofNat 16 stStaleSequence,
      padTo 16 ([if d < 2 ^ 15 then 1 else 0, 0] ++ leBytes 2 expect.toNat)) }

/-- Function k has a command to fetch and a place for it (R132, R137). -/
def canFetch (s : State) (k : Nat) : Bool :=
  let f := fnOf s k
  fnReady s k && barOpen s k && f.enabled && !f.stopped && f.doorbell != f.cmdHead && placeFree s (k == 0)

/-- Fetching goes round robin over the functions that have a command to fetch (R137): the next after the one served last. -/
def fetchTurn (s : State) : Option Nat :=
  ((List.range 128).map (fun i => (s.boot.lastFetch + 1 + i) % 128)).find? (canFetch s)

/-- A command of function k is taken from its ring: it takes a place, or completes with STALE_SEQUENCE (R136). -/
def fetched (k : Nat) (op : BitVec 16) (c : Cmd) (s : State) : State :=
  let f := fnOf s k
  if c.seq = f.expect then
    takePlace op c (setFn k { f with cmdHead := f.cmdHead + 1, expect := f.expect + 1 } s)
  else
    let s := setFn k { f with cmdHead := f.cmdHead + 1 } s
    { s with cmds := s.cmds ++ [staleExec s f.expect op c] }

/-- COMMAND_FETCH: slot MBX_CMD_HEAD of function k's ring holds these 64 bytes (Table 4.8), and `hostIn` is what the
command will read of host memory. -/
def commandFetch (k : Fin 128) (slot hostIn : List Byte) (s : State) : State :=
  if fetchTurn s = some k.val then
    fetched k.val (slotOp slot) (slotCmd (.fn k) slot hostIn) { s with boot := { s.boot with lastFetch := k.val } }
  else s

def execCommandFetch (k : Fin 128) (slot hostIn : List Byte) (s : State) : Host.Outcome State Fault Refusal :=
  .next (commandFetch k slot hostIn s)

/-- An entry that waits for its turn. -/
def waitsTurn (issuer : Issuer) (seq : BitVec 16) (e : Exec) : Bool :=
  e.cmd.issuer == issuer && e.cmd.seq == seq && !e.started && e.done.isNone

/-- ORDERED_COMMAND_START: a fetched command starts once what it waits for has completed (R137). -/
def orderedStart (issuer : Issuer) (seq : BitVec 16) (s : State) : State :=
  match s.cmds.find? (waitsTurn issuer seq) with
  | none => s
  | some e =>
    let earlier := (s.cmds.takeWhile (fun x => !waitsTurn issuer seq x)).filter (fun x => x.cmd.issuer == issuer)
    if orderMet earlier e.cmd then
      { s with cmds := modFirst s.cmds (waitsTurn issuer seq) (fun x => startedExec s x.op x.cmd) }
    else s

def execOrderedCommandStart (issuer : Issuer) (seq : BitVec 16) (s : State) : Host.Outcome State Fault Refusal :=
  .next (orderedStart issuer seq s)

/-! ## Completions and interrupts (R133, R135, R139) -/

/-- The 32 bytes of a completion, its phase bit 0. -/
def completionBytes (e : Exec) : List Byte :=
  let d := e.done.getD (0, [])
  leBytes 2 d.1.toNat ++ leBytes 2 e.cmd.seq.toNat ++ leBytes 2 e.op.toNat ++ [0, 0] ++ leBytes 8 e.cmd.tag.toNat ++
    padTo 16 d.2

/-- Vector 0 is raised once enough completions are unsignalled (R139). -/
def signalCompletions (k : Nat) (s : State) : State :=
  let f := fnOf s k
  if f.intEnable.getLsbD 0 && decide (max 1 f.coalesceCount.toNat ≤ f.unsignalled) then
    raiseVector k 0 (setFn k { f with unsignalled := 0, oldestAt := none } s)
  else s

/-- A completion with its interrupt flag set is written. -/
def noteCompletion (k : Nat) (s : State) : State :=
  signalCompletions k (modFn k (fun f => { f with
    intStatus := f.intStatus ||| 1#6, unsignalled := f.unsignalled + 1,
    oldestAt := some (f.oldestAt.getD (now s)) }) s)

/-- The idx-th entry of an issuer that waits for its completion to be written. -/
def finishedEntry (s : State) (issuer : Issuer) (idx : Nat) : Option Exec :=
  (s.cmds.filter (fun e => e.cmd.issuer == issuer && e.done.isSome))[idx]?

/-- The completion of a WARM_RESET that is to take effect is written: the reset follows 100 µs later (R143). -/
def warmAfter (e : Exec) (s : State) : State :=
  if e.op = 0x0040#16 && s.boot.warmAsked && (e.done.map Prod.fst) == some 0#16 then askWarmReset s else s

/-- Writes function k's completion into the next slot the host has consumed. -/
def writeCompletion (k : Nat) (e : Exec) (s : State) : State :=
  let f := fnOf s k
  if !f.enabled || f.stopped || 256 ≤ (f.cplTail - f.cplHead).toNat then s
  else
    let c := f.cplTail.toNat
    let s := warmAfter e { s with cmds := s.cmds.erase e }
    let s := emit (.ringWrite k (f.cplBase.toNat + 32 * (c % 256)) (withPhase c 256 (completionBytes e))) s
    let s := countEvent (devCtr 13) 1 (setFn k { f with cplTail := f.cplTail + 1 } s)
    if e.cmd.flags.getLsbD 0 then noteCompletion k s else s

/-- COMPLETION_WRITE: one finished command's completion is written, to its ring or as an MCTP message (R133, R166). -/
def completionWrite (issuer : Issuer) (idx : Nat) (s : State) : State :=
  match finishedEntry s issuer idx with
  | none => s
  | some e =>
    match issuer with
    | .fn k => writeCompletion k.val e s
    | .oob => emit (mctpOut 2 (completionBytes e)) (warmAfter e { s with cmds := s.cmds.erase e })

def execCompletionWrite (issuer : Issuer) (idx : Nat) (s : State) : Host.Outcome State Fault Refusal :=
  .next (completionWrite issuer idx s)

/-- INT_COALESCE_TIMEOUT: the oldest unsignalled completion has waited for the delay (R139). -/
def coalesceTimeout (k : Nat) (s : State) : State :=
  let f := fnOf s k
  match f.oldestAt with
  | none => s
  | some t =>
    if f.coalesceUs ≠ 0#16 && f.intEnable.getLsbD 0 && due s (t + 1000 * f.coalesceUs.toNat) then
      raiseVector k 0 (setFn k { f with unsignalled := 0, oldestAt := none } s)
    else s

def execIntCoalesceTimeout (k : Fin 128) (s : State) : Host.Outcome State Fault Refusal :=
  .next (coalesceTimeout k.val s)

/-- The fault code of a failed ring access (Table 4.7). -/
def ringFaultCode (which : RingAccess) : Nat :=
  match which with
  | .fetch => 1
  | .completion => 2
  | .event => 3
  | .enable => 5

/-- RING_ACCESS_FAULT: the mailbox stops (R140). An event whose own write failed stays counted as written and is not sent
again (DESIGN CHOICE, log entry 10). -/
def ringFault (k : Nat) (which : RingAccess) (s : State) : State :=
  let f := fnOf s k
  if f.stopped || (!f.enabled && !(f.events && which == .event)) then s else mbxFault k (ringFaultCode which) true s

def execRingAccessFault (k : Fin 128) (which : RingAccess) (s : State) : Host.Outcome State Fault Refusal :=
  .next (ringFault k.val which s)

/-! ## The out-of-band channel (R166) -/

/-- MCTP_COMMAND_MESSAGE: a 64 B command takes one of the PF's places, of which the channel uses at most 4; its sequence
field is not looked at. -/
def mctpCommand (message hostIn : List Byte) (s : State) : State :=
  let op := slotOp message
  if !servesCmd op.toNat .oob s || !placeFor s .oob then s else takePlace op (slotCmd .oob message hostIn) s

def execMctpCommandMessage (message hostIn : List Byte) (s : State) : Host.Outcome State Fault Refusal :=
  .next (mctpCommand message hostIn s)

end Sys2Proof.Machine
end

