-- ==== Sys2Proof/Machine/Calib.lean ====
section
/-! DEFINITION. Calibration, retraining and parity (R269 to R273, R310 to R331): due and forced calibrations, their end
and plausibility (Table 11.3), the reference measurement, offline retraining windows, parity alerts, and the commands of
Table 11.5. -/

namespace Sys2Proof.Machine

open Sys2Proof

/-! ## Due and forced (R317, R319, R326, R328) -/

/-- No periodic calibration is due on a pseudo-channel: mapped out, benched or on a retired stack (R328). -/
def noneDue (s : State) (fp : Nat) : Bool := !inService s fp

/-- The stack's temperature has moved by 8 °C since the last timing retraining (R326). -/
def tempMoved (s : State) (fp : Nat) : Bool :=
  match (pcOf s fp).cal.tempAt, (stackOf s (fp / 64)).thermal.temp with
  | some a, some b => 32 ≤ (a - b).natAbs
  | _, _ => false

/-- The kind of a calibration that falls due at a due instant, and whether a timing retraining is put off by one cycle
(R317, R326). -/
def dueKind (s : State) (fp d : Nat) : Bool × Bool :=
  let c := (pcOf s fp).cal
  let wants := dueTiming fp d || tempMoved s fp || c.owedTiming
  if wants && c.prevTiming then (false, true) else (wants, false)

/-- A calibration falls due at its instant d: now, or, when d fell in self-refresh, at a slot boundary after exit. -/
def fallDue (fp d : Nat) (s : State) : State :=
  let p := pcOf s fp
  let k := dueKind s fp d
  let cal := { p.cal with seen := some d }
  match p.cal.due with
  | some (since, timing) =>
    setPc fp { p with cal := { cal with due := some (since, timing || k.1), owedTiming := cal.owedTiming || k.2 } } s
  | none =>
    setPc fp { p with cal := { cal with
      due := some (now s, k.1), forcedAt := freeSlot s fp (now s + calSlack), owedTiming := k.2 } } s

/-- CALIBRATION_DUE (R317, R328). -/
def calibrationDue (fp : Nat) (s : State) : State :=
  match lastDue fp (now s) with
  | none => s
  | some d =>
    let p := pcOf s fp
    if p.cal.seen == some d || now s % calSlot ≠ 0 then s
    else if noneDue s fp then setPc fp { p with cal := { p.cal with seen := some d } } s
    else if (chanOf s (fp / 2)).sr != .awake && (stackOf s (fp / 64)).thermal.heat != .scald then s
    else if now s ≠ d && forcedTaken s fp (now s) then s
    else fallDue fp d s

def execCalibrationDue (pc : Fin 512) (s : State) : Host.Outcome State Fault Refusal := .next (calibrationDue pc.val s)

/-- CALIBRATION_FORCED: the forced instant has come and the calibration starts, whatever the traffic (R319). -/
def calibrationForced (fp : Nat) (s : State) : State :=
  if forcedDue s fp && !slotClosed s fp then startCal fp true s else s

def execCalibrationForced (pc : Fin 512) (s : State) : Host.Outcome State Fault Refusal :=
  .next (calibrationForced pc.val s)

/-! ## Plausibility (Table 11.3) -/

/-- a lies within n of b. -/
def within (n : Nat) (a b : Int) : Bool := (a - b).natAbs ≤ n

/-- Each of the 36 values of a lies within n of its partner. -/
def allWithin (n : Nat) (a b : List Int) : Bool :=
  (List.range 36).all (fun i => within n (a.getD i 0) (b.getD i 0))

/-- The absolute windows, centred on the boot codes. -/
def inWindows (r b : CalResult) : Bool :=
  within 8 r.driver b.driver && within 8 r.termination b.termination && r.stackOk &&
    allWithin 512 r.readDelay b.readDelay && allWithin 512 r.writeDelay b.writeDelay &&
    (List.range 36).all (fun i => 300 ≤ r.eye.getD i 0) && within 6 r.vrefRead b.vrefRead && within 6 r.vrefWrite b.vrefWrite

/-- The impedance values pass. -/
def impedanceOk (r b c : CalResult) : Bool :=
  within 8 r.driver b.driver && within 8 r.termination b.termination && within 2 r.driver c.driver &&
    within 2 r.termination c.termination && r.stackOk

/-- The timing values pass: delays in 1/1024 UI, eyes in 1/1000 UI, VREF in steps. -/
def timingOk (r b c : CalResult) : Bool :=
  allWithin 512 r.readDelay b.readDelay && allWithin 512 r.writeDelay b.writeDelay &&
    allWithin 128 r.readDelay c.readDelay && allWithin 128 r.writeDelay c.writeDelay &&
    (List.range 36).all (fun i => 300 ≤ r.eye.getD i 0) &&
    within 6 r.vrefRead b.vrefRead && within 6 r.vrefWrite b.vrefWrite && within 2 r.vrefRead c.vrefRead &&
    within 2 r.vrefWrite c.vrefWrite

/-- A periodic result passes its checks; codes that no training has given pass none. -/
def plausible (cal : Cal) (timing : Bool) (r : CalResult) : Bool :=
  match cal.boot, cal.codes with
  | some b, some c => if timing then timingOk r b c else impedanceOk r b c
  | _, _ => false

/-- The codes after an applied calibration of one kind (R323). -/
def applyCodes (timing : Bool) (r c : CalResult) : CalResult :=
  if timing then
    { c with readDelay := r.readDelay, writeDelay := r.writeDelay, eye := r.eye, vrefRead := r.vrefRead,
             vrefWrite := r.vrefWrite }
  else { c with driver := r.driver, termination := r.termination, stackOk := r.stackOk }

/-- The calibration record after a calibration of one kind, passed or failed (R324, R325, R326). -/
def calRecord (s : State) (fp : Nat) (timing ok : Bool) (r : CalResult) (c : Cal) : Cal :=
  let temp := (stackOf s (fp / 64)).thermal.temp
  let c := { c with due := none, running := none, startedForced := false, prevTiming := timing,
                    tempAt := if timing then temp else c.tempAt }
  if ok then
    let c := { c with codes := c.codes.map (applyCodes timing r) }
    if timing then { c with lastTim := now s, appliedTim := c.appliedTim + 1, rowTim := 0 }
    else { c with lastImp := now s, appliedImp := c.appliedImp + 1, rowImp := 0 }
  else if timing then { c with failTim := c.failTim + 1, rowTim := c.rowTim + 1 }
  else { c with failImp := c.failImp + 1, rowImp := c.rowImp + 1 }

/-- CALIBRATION_END: the result is applied in one step, or discarded and counted (R323 to R325). -/
def calibrationEnd (fp : Nat) (r : CalResult) (s : State) : State :=
  let p := pcOf s fp
  match p.cal.running with
  | none => s
  | some timing =>
    let ok := plausible p.cal timing r
    let c := calRecord s fp timing ok r p.cal
    let s := setPc fp { p with cal := c } s
    let s := modStack (fp / 64) (fun k => { k with calRunning := none }) s
    let s := countEvent (stackCtr (fp / 64) (if ok then 10 else 11)) 1 s
    if !ok && (if timing then c.rowTim == 3 else c.rowImp == 3) then askRetrain (fp / 2) s else s

def execCalibrationEnd (pc : Fin 512) (r : CalResult) (s : State) : Host.Outcome State Fault Refusal :=
  .next (calibrationEnd pc.val r s)

/-! ## The reference (R310, R311) -/

/-- A measurement is accepted or rejected. -/
def rrefMeasured (code : Nat) (s : State) : State :=
  let r := s.refcode
  let r := { r with last := code, at_ := now s }
  if 15840 ≤ code && code ≤ 16160 && code ≤ r.inForce + 16 && r.inForce ≤ code + 16 then
    { s with refcode := { r with inForce := code, rowRejected := 0 } }
  else
    let r := { r with rejected := r.rejected + 1, rowRejected := r.rowRejected + 1 }
    if r.rowRejected = 3 then
      alertEvent 0x0002 2 (leBytes 2 code) [0] { s with refcode := { r with threeRejects := true } }
    else { s with refcode := r }

/-- RREF_MEASUREMENT: a periodic measurement, 2^30 ticks after the one before (R310, R311). -/
def rrefPeriodic (code : Nat) (s : State) : State :=
  if s.boot.halt != .none || s.refcode.inForce = 0 || now s < s.refcode.at_ + 2 ^ 30 then s else rrefMeasured code s

def execRrefMeasurement (code : Nat) (s : State) : Host.Outcome State Fault Refusal := .next (rrefPeriodic code s)

/-! ## Offline retraining (R329) -/

/-- OFFLINE_RETRAIN_WINDOW: a window that is due opens. -/
def retrainWindow (ch : Nat) (s : State) : State :=
  let c := chanOf s ch
  if c.retrainDue && c.window == .none && !c.windowOpen && mayOpen s ch && (c.bench != .device) then
    let s := countWindowCal ch (modChan ch (fun c => { c with window := .retrain, retrainDue := false, retrainings := c.retrainings + 1 }) s)
    openWindow ch s
  else s

def execOfflineRetrainWindow (ch : Fin 256) (s : State) : Host.Outcome State Fault Refusal :=
  .next (retrainWindow ch.val s)

/-- The lanes a window failed on can all be repaired: up to two lanes of a pseudo-channel, or one command lane, with a
spare left for each (Table 10.2). -/
def lanesRepairable (s : State) (ch : Nat) (lanes : List (Nat × Nat)) : Bool :=
  let cmd := (lanes.filter (fun l => 36 ≤ l.2)).length
  let on := fun (v : Nat) => (lanes.filter (fun l => l.1 % 2 == v && l.2 < 36)).length
  !lanes.isEmpty && cmd ≤ (if laneSpare s (2 * ch) 36 then 1 else 0) &&
    on 0 ≤ spareLeft s (2 * ch) && on 1 ≤ spareLeft s (2 * ch + 1)

/-- Ends a BENCH_EXIT whose window failed: the channel is benched by the device, or going out of service. -/
def benchExitFailed (ch : Nat) (s : State) : State :=
  match (chanOf s ch).exitCmd with
  | none => s
  | some c =>
    finish 0x0E02 c (if (chanOf s ch).bench == .device then stBenchHeld else stChannelOffline) []
      (modChan ch (fun x => { x with exitCmd := none }) s)

/-- The window has failed and no lane can be repaired: the channel is failed (R289). -/
def retrainFailed (ch : Nat) (s : State) : State :=
  benchExitFailed ch (channelFailed ch (modChan ch (fun c => { c with window := .none, bench := .none }) s))

/-- The window has succeeded: its codes apply, and a channel that leaves its bench serves again (R328, R474). -/
def retrained (ch : Nat) (r0 r1 : CalResult) (s : State) : State :=
  let s := modPc (2 * ch) (fun p => { p with cal := { p.cal with codes := some r0 } }) s
  let s := modPc (2 * ch + 1) (fun p => { p with cal := { p.cal with codes := some r1 } }) s
  let s := windowRetrained ch s
  let s := closeWindow ch s
  match (chanOf s ch).exitCmd with
  | none => s
  | some c => finish 0x0E02 c stOK [] (modChan ch (fun x => { x with exitCmd := none, bench := .none }) s)

/-- Values of a window lie within the absolute windows alone (R329). -/
def windowOk (s : State) (fp : Nat) (r : CalResult) : Bool :=
  match (pcOf s fp).cal.boot with
  | none => true
  | some b => inWindows r b

/-- OFFLINE_RETRAIN_END: success, lane repair, or channel failure. -/
def retrainEnd (ch : Nat) (fail : List (Nat × Nat)) (r0 r1 : CalResult) (s : State) : State :=
  let c := chanOf s ch
  if !c.windowOpen || c.window != .retrain || (stackOf s (ch / 32)).thermal.heat == .scald then s
  else if fail.isEmpty then
    if windowOk s (2 * ch) r0 && windowOk s (2 * ch + 1) r1 then retrained ch r0 r1 s else retrainFailed ch s
  else if lanesRepairable s ch fail then
    match fail.map (fun l => (2 * ch + l.1 % 2, l.2)) with
    | [] => s
    | l :: r => modChan ch (fun c => { c with window := .laneRepair l.1 l.2, laneQueue := r }) s
  else retrainFailed ch s

def execOfflineRetrainEnd (ch : Fin 256) (failLanes : List (Nat × Nat)) (r0 r1 : CalResult) (s : State) :
    Host.Outcome State Fault Refusal :=
  .next (retrainEnd ch.val failLanes r0 r1 s)

/-! ## Parity (R269 to R273) -/

/-- The origin a replayed command keeps. -/
def replayOrigin (o : Nat) : Origin := if o = 0 then .mandatory else if o = 1 then .cosy else .user

/-- One command of the retry buffer is issued again: its energy counts, and an activate in the strainer. The bytes a
write stores are those the sector holds (R272). -/
def replayOne (c : RetryCmd) (s : State) : State :=
  let n := c.pc / 64
  let o := replayOrigin c.origin
  match c.kind with
  | 0 =>
    let s := countEvent (c.pc / 2) 1 (countEv .activate o n 1 s)
    if strainerMode s c.pc then modPc c.pc (strain (cfgN s 0x0402 0 c.pc) c.bank c.row) s else s
  | 2 => countEv .sectorRead o n 1 s
  | 3 => countEv .sectorWrite o n 1 s
  | 4 => countEv .refresh .mandatory n 1 s
  | 5 => countEv .activate .mandatory n 4 s
  | _ => s

/-- Step 4 of a replay: the rows that were open before the oldest held command are activated again. -/
def reopenRows (ch : Nat) (s : State) : State :=
  (chanOf s ch).retryRows.foldl (fun s e =>
    replayOne { pc := e.1 / 256, bank := e.1 % 256, row := e.2.1, kind := 0, origin := e.2.2 } s) s

/-- PARITY_ALERT: the replay of Table 9.6, its counts, and retraining at the third alert within 1 ms (R271 to R273). The
replayed sequence leaves each bank's row as it stands; a refresh instant that falls in it is served by its owner. -/
def parityAlert (ch : Nat) (s : State) : State :=
  let n := ch / 32
  let k := stackOf s n
  if !k.online || k.retired || k.thermal.heat == .scald || (chanOf s ch).sr != .awake || k.mapped.contains (ch % 32) then s
  else
    let s := (chanPcs ch).foldl (fun s fp => abandonCal fp (now s + replayTicks) s) s
    let recent := ((chanOf s ch).alerts.filter (fun t => now s < t + msTicks 1)) ++ [now s]
    let third := 3 ≤ recent.length
    let s := modChan ch (fun c => { c with alerts := if third then [] else recent, alertCount := c.alertCount + 1 }) s
    let s := countEvent (stackCtr n 9) 1 s
    let s := (chanPcs ch).foldl (fun s fp => modPc fp (fun p => { p with
      integ := { p.integ with
        alertsRead := p.integ.alertsRead + 1, retrainRead := p.integ.retrainRead + (if third then 1 else 0) } }) s) s
    let s := (chanOf s ch).retry.foldl (fun s c => replayOne c s) (reopenRows ch s)
    let s := modChan ch (fun c => { c with replayUntil := now s + replayTicks }) s
    if third then askRetrain ch s else s

def execParityAlert (ch : Fin 256) (s : State) : Host.Outcome State Fault Refusal := .next (parityAlert ch.val s)

/-! ## Commands (Table 11.5) -/

/-- The state of a pseudo-channel's calibration. -/
def calState (s : State) (fp : Nat) : Nat :=
  let c := (pcOf s fp).cal
  let ch := chanOf s (fp / 2)
  if ch.windowOpen && ch.window == .retrain then 5
  else if c.running == some true then 3
  else if c.running == some false then 2
  else if noneDue s fp then 4
  else if c.due.isSome then 1
  else 0

/-- The record of Table 11.6. -/
def calRecordBytes (s : State) (fp : Nat) : List Byte :=
  let c := (pcOf s fp).cal
  leBytes 8 c.lastImp ++ leBytes 8 c.lastTim ++ leBytes 4 c.appliedImp ++ leBytes 4 c.appliedTim ++
    leBytes 4 c.failImp ++ leBytes 4 c.failTim ++ leBytes 4 c.forced ++ leBytes 4 (satTo 32 c.maxDefer) ++
    leBytes 4 (chanOf s (fp / 2)).retrainings ++ leBytes 1 c.rowImp ++ leBytes 1 c.rowTim ++ leBytes 1 (calState s fp) ++
    [0] ++ leBytes 8 (if noneDue s fp then 0 else nextDue fp (now s + 1)) ++ List.replicate 8 0

def calStatusWork (c : Cmd) (s : State) : Reply :=
  let v := par c 0 2
  let addr := par c 8 8
  if 512 ≤ v || addr % 64 ≠ 0 then .done s stBadParam []
  else
    let k := (pcOf s v).cal
    let r := leBytes 8 (max k.lastImp k.lastTim) ++ leBytes 4 (k.appliedImp + k.appliedTim) ++
      leBytes 1 (calState s v) ++ leBytes 1 (if addr = 0 then 0 else 1)
    .done (if addr = 0 then s else emit (.hostWrite (cmdFn c) addr (calRecordBytes s v)) s) stOK r

/-- CAL_STATUS (R331). -/
def execCalStatus (c : Cmd) (s : State) : Host.Outcome State Fault Refusal :=
  .next (mailbox 0x0700 c (calStatusWork c) s)

def calRefResult (s : State) : List Byte :=
  let r := s.refcode
  leBytes 2 r.inForce ++ leBytes 2 r.last ++ leBytes 8 r.at_ ++ leBytes 2 r.rejected ++
    leBytes 1 (flag r.bootFault 0 + flag r.threeRejects 1)

/-- CAL_REF_STATUS (R311, R331). -/
def execCalRefStatus (c : Cmd) (s : State) : Host.Outcome State Fault Refusal :=
  .next (mailbox 0x0701 c (fun s => .done s stOK (calRefResult s)) s)

def calSummaryResult (s : State) (n : Nat) : List Byte :=
  let sum := fun (f : Cal → Nat) => sumOf ((stackPcs n).map (fun p => f (pcOf s p).cal))
  leBytes 4 (sum (·.appliedImp) + sum (·.appliedTim)) ++ leBytes 4 (sum (·.failImp) + sum (·.failTim)) ++
    leBytes 4 (sum (·.forced)) ++ leBytes 4 (sumOf ((stackChans n).map (fun ch => (chanOf s ch).retrainings)))

def calStackSummaryWork (c : Cmd) (s : State) : Reply :=
  let n := par c 0 1
  if 8 ≤ n then .done s stBadParam [] else .done s stOK (calSummaryResult s n)

/-- CAL_STACK_SUMMARY (R331). -/
def execCalStackSummary (c : Cmd) (s : State) : Host.Outcome State Fault Refusal :=
  .next (mailbox 0x0702 c (calStackSummaryWork c) s)

end Sys2Proof.Machine
end

