-- ==== Sys2Proof/Machine/SchedStatus.lean ====
section
/-! DEFINITION. The reports of channel scheduling (Table 7.6): LATENCY_GET_TARGETS, QOS_STATUS, PC_STATUS, SCHED_STATUS. -/

namespace Sys2Proof.Machine

open Sys2Proof

/-- The staged value of a tenant's target, or the value in force where none is staged. -/
def stagedTarget (s : State) (c : Cmd) (t port : Nat) : Nat := (stagedOr s c 0x0300 0 (t * 32 + port)).headD 0

def latencyGetTargetsWork (c : Cmd) (s : State) : Reply :=
  let port := par c 0 1
  let sel := par c 1 1
  let t := cmdTarget c
  if 26 ≤ port || 1 < sel then .done s stBadParam []
  else .done s stOK (leBytes 4 (if sel = 0 then cfgN s 0x0300 0 (t * 32 + port) else stagedTarget s c t port))

/-- LATENCY_GET_TARGETS (R208, R221). -/
def execLatencyGetTargets (c : Cmd) (s : State) : Host.Outcome State Fault Refusal :=
  .next (mailbox 0x0301 c (latencyGetTargetsWork c) s)

/-- Keys of the QoS counts that a port and a stack field name. -/
def qosKeys (t port stack : Nat) : List Nat :=
  let ports := if port = 0xFF then List.range 26 else [port]
  let ns := if stack = 0xFF then List.range 8 else [stack]
  ports.flatMap (fun p => ns.map (fun n => (t * 32 + p) * 8 + n))

def qosResult (s : State) (keys : List Nat) : List Byte :=
  let q := keys.map (fun k => tget {} s.qos k)
  leBytes 8 (sumOf (q.map (·.completed))) ++ leBytes 4 (sumOf (q.map (·.late))) ++
    leBytes 4 (satTo 32 (maxOf (q.map (·.maxE))))

def qosStatusWork (c : Cmd) (s : State) : Reply :=
  let port := par c 0 1
  let stack := par c 1 1
  if (26 ≤ port && port != 0xFF) || (8 ≤ stack && stack != 0xFF) then .done s stBadParam []
  else
    let keys := qosKeys (cmdTarget c) port stack
    let r := qosResult s keys
    let s := if bitOf (par c 2 1) 0 then { s with qos := keys.foldl (fun t k => tset {} t k {}) s.qos } else s
    .done s stOK r

/-- QOS_STATUS (R210, R221). -/
def execQosStatus (c : Cmd) (s : State) : Host.Outcome State Fault Refusal :=
  .next (mailbox 0x0302 c (qosStatusWork c) s)

/-- The state of a pseudo-channel (Table 7.6); where several hold, the one that ranks first in R28 and R207. -/
def pcState (s : State) (fp : Nat) : Nat :=
  let k := stackOf s (fp / 64)
  let ch := chanOf s (fp / 2)
  if k.retired then 8
  else if k.mapped.contains (fp % 64 / 2) then 5
  else if k.thermal.heat == .scald then 7
  else if ch.windowOpen then 3
  else if ch.bench != .none then 4
  else if ch.sr != .awake then 6
  else if calibrating s fp then 2
  else if now s < (pcOf s fp).refreshUntil then 1
  else 0

/-- Refreshes postponed and pulled in, from the balance (R228). -/
def owed (s : State) (fp : Nat) : Nat := (pcOf s fp).balance.toNat
def pulledIn (s : State) (fp : Nat) : Nat := (-(pcOf s fp).balance).toNat

def pcStatusResult (s : State) (fp : Nat) : List Byte :=
  let q := queueOf s fp
  let p := pcOf s fp
  let waits := s.path.reqs.filter (fun r => reqPc r == fp && r.kind != .pot &&
    (r.place == .regulator || r.place == .kettle || r.place == .gate))
  leBytes 1 (pcState s fp) ++ leBytes 1 q.length ++ leBytes 1 (q.filter (·.write)).length ++
    leBytes 1 (q.filter (fun r => 2 ≤ reqLevel s r)).length ++ leBytes 2 (satTo 16 waits.length) ++
    leBytes 1 (q.filter (·.spare)).length ++
    leBytes 1 (flag p.batchWrite 0 + owed s fp * 2 + pulledIn s fp * 16 +
      flag (p.cal.due.isSome && p.cal.running.isNone) 7) ++
    leBytes 4 p.sectorsLast ++ (List.range 4).flatMap (fun f => leBytes 1 (cfgN s 0x0303 f fp))

def pcStatusWork (c : Cmd) (s : State) : Reply :=
  let v := par c 0 2
  if 512 ≤ v then .done s stBadParam [] else .done s stOK (pcStatusResult s v)

/-- PC_STATUS (R221). -/
def execPcStatus (c : Cmd) (s : State) : Host.Outcome State Fault Refusal :=
  .next (mailbox 0x0304 c (pcStatusWork c) s)

/-- A die's schedule debt, in the order of the command's die field: the hub, then the foot dies. The hub is die 8. -/
def dieField (v : Nat) : Nat := if v = 0 then 8 else v - 1

def schedStatusWork (c : Cmd) (s : State) : Reply :=
  let v := par c 0 1
  if 8 < v then .done s stBadParam []
  else
    let d := dieOf s (dieField v)
    .done s stOK (leBytes 4 d.debt ++ leBytes 4 d.maxDebt ++ leBytes 4 d.shortened ++ leBytes 4 d.heavyMarks)

/-- SCHED_STATUS (R212, R221). -/
def execSchedStatus (c : Cmd) (s : State) : Host.Outcome State Fault Refusal :=
  .next (mailbox 0x0305 c (schedStatusWork c) s)

end Sys2Proof.Machine
end

