-- ==== Sys2Proof/Machine/DebugMux.lean ====
section
/-! DEFINITION. The debug-mux ports (R470, R471): the groups of Table 18.1, and the words at the balls, which start at every
tick that is a multiple of P. -/

namespace Sys2Proof.Machine

open Sys2Proof

/-! ## Groups (Table 18.1) -/

/-- A quarter-degree temperature from 0 °C, 0 below it, in w bits. -/
def degrees (w : Nat) (t : Int) : Nat := min t.toNat (2 ^ w - 1)

/-- The highest urgency queued at a pseudo-channel. -/
def queuedUrgency (s : State) (fp : Nat) : Nat := maxOf ((queueOf s fp).map (fun r => reqLevel s r))

/-- The pseudo-channel in test of a run: the first with work left in the pass (R476). -/
def inTest (s : State) (n : Nat) : Nat :=
  let e := exerOf s n
  ((exerPcs e).find? (fun v => exerStep s n e v != .idle)).getD ((exerPcs e).headD 0)

/-- Twin frames that are not acknowledged. -/
def twinUnacked (s : State) : Nat := sumOf (s.twin.parts.map (fun e => e.2.unacked.length))

/-- A mark has fallen since tick t. -/
def markSince (s : State) (t : Nat) : Bool := now s / 1024 != t / 1024

/-- Groups 3, 4, 9 and 11, which have no instance. The levels of KB_IN and KB_OUT within a frame are free. -/
def hubWord (s : State) (p : MuxPort) : Nat :=
  match p.group with
  | 3 =>
    min (toMw s.kettle.e / 1000) 2047 + flag s.kettle.userWaits 11 + s.kb.lastType % 4 * 2 ^ 12 + flag s.kb.askGranted 14 +
      flag s.kb.overdrawSeen 15
  | 4 => freeNat s % 4 + (s.kb.lastEpoch.map (·.toNat)).getD 0 * 4
  | 9 =>
    flag p.beatSent 0 + flag p.beatHeard 1 + min s.twin.misses 7 * 4 + min (twinUnacked s) 255 * 256
  | 11 => degrees 12 s.hub.tj + s.hub.share * 2 ^ 12
  | _ => 0

/-- Groups 6, 7, 8 and 10, of a stack or its foot die. The packets of the stem link in a time shorter than a step are
free. -/
def stackWord (s : State) (p : MuxPort) : Nat :=
  let n := p.inst
  let h := (stackOf s n).thermal
  let e := exerOf s n
  match p.group with
  | 6 =>
    degrees 10 (h.temp.getD 0) + heatCode h.heat * 2 ^ 10 + (if h.heat == .simmer then h.step else 0) * 2 ^ 12
  | 7 =>
    ((List.range 64).filter (fun v => (pcOf s (n * 64 + v)).allBank && now s < (pcOf s (n * 64 + v)).refreshUntil)).length +
      flag ((List.range 64).any (fun v => calibrating s (n * 64 + v))) 7
  | 8 => freeNat s % 2 ^ 16
  | 10 => min e.errors 255 + inTest s n * 2 ^ 8 + flag (e.errors ≠ 0) 14 + flag e.running 15
  | _ => 0

/-- Group 5, of a pseudo-channel. -/
def pcWord (s : State) (fp : Nat) : Nat :=
  (queueOf s fp).length + pcState s fp * 2 ^ 7 + flag (pcOf s fp).batchWrite 11 + min (queuedUrgency s fp) 3 * 2 ^ 12 +
    flag (now s < (pcOf s fp).refreshUntil) 14 + flag (calibrating s fp) 15

/-- The word of a port's group, sampled now. -/
def muxWord (s : State) (p : MuxPort) : Nat :=
  match p.group with
  | 0 => 0
  | 1 => now s % 2 ^ 16
  | 2 => min (dieOf s (dieField p.inst)).debt 2047 + flag (markSince s p.since) 15
  | 5 => pcWord s p.inst
  | 6 | 7 | 8 | 10 => stackWord s p
  | _ => hubWord s p

/-! ## Words (R471) -/

/-- Port i. -/
def muxPort (s : State) (i : Nat) : MuxPort := if i = 0 then s.dbg.mux0 else s.dbg.mux1
def setMuxPort (i : Nat) (p : MuxPort) (s : State) : State :=
  { s with dbg := if i = 0 then { s.dbg with mux0 := p } else { s.dbg with mux1 := p } }

/-- A port with the fields in force. -/
def takeFields (s : State) (i : Nat) (p : MuxPort) : MuxPort :=
  { p with group := cfgN s 0x0E00 0 i, inst := cfgN s 0x0E00 1 i, log2P := cfgN s 0x0E00 2 i }

/-- A word boundary of port i at tick t: the port takes the fields in force, and its word is sampled. -/
def muxBoundary (i t : Nat) (s : State) : State :=
  let p := takeFields s i (muxPort s i)
  let at_ := { s with clock := { s.clock with timebase := t } }
  let s := setMuxPort i { p with word := BitVec.ofNat 16 (muxWord at_ p), since := t, beatSent := false, beatHeard := false } s
  if p.group = 4 || p.group = 8 then freeStep s else s

/-- The first and the last word boundary of port i after tick `old` and before tick `new`, and the one at `new`: those
between the first and the last change nothing that lasts. -/
def muxPassed (i old new : Nat) (s : State) : State :=
  let first := (old / 2 ^ (muxPort s i).log2P + 1) * 2 ^ (muxPort s i).log2P
  let s := if first < new then muxBoundary i first s else s
  let last := (new - 1) / 2 ^ (muxPort s i).log2P * 2 ^ (muxPort s i).log2P
  let s := if first < last then muxBoundary i last s else s
  if new % 2 ^ (muxPort s i).log2P = 0 then muxBoundary i new s else s

/-- The words of both ports as the timebase goes from `old` to now; the ports drive from VAUX. -/
def muxWords (old : Nat) (s : State) : State :=
  if s.pins.vaux then muxPassed 1 old (now s) (muxPassed 0 old (now s) s) else s

/-- DBGk_STB: high in the second half of a word; held low in group 0 (Tables 18.1, 18.2). -/
def strobe (s : State) (i : Nat) : Bool :=
  let p := muxPort s i
  p.group ≠ 0 && 2 ^ p.log2P ≤ 2 * (now s % 2 ^ p.log2P)

end Sys2Proof.Machine
end

