-- ==== Sys2Proof/Machine/Rinse.lean ====
section
/-! DEFINITION. The writes of a rinse, a join or a fold preparation in a foot die's period work (R187 step 5, R188, R189,
R296): their rate, their admission as user work, and the activates they make. -/

namespace Sys2Proof.Machine

open Sys2Proof

/-- The sectors that stack n's rinse writes may take in one period: an eighth of the peak, throttled with the stack in
simmer (R188). -/
def rinseLimit (s : State) (n : Nat) : Nat :=
  let h := (stackOf s n).thermal
  if h.heat == .simmer then 64 * peakTenths s * h.step / 640 else 64 * peakTenths s / 80

/-- The debit of k sectors of rinse writes: R42's, at one activate for the 32 sectors of a row. -/
def rinseDebit (s : State) (n k : Nat) : Nat :=
  evPower s .sectorWrite n k + evPower s .movedFoot n k + evPower s .movedHub 8 k + evPower s .activate n (ceilDiv k 32)

/-- How many sectors of rinse writes go in this period: what the pseudo-channels spare, which no rule gives (a free value
up to the limit), as far as the allowance covers it (R42, R188). -/
def rinseTaken (s : State) (n : Nat) : Nat :=
  let k := freeNat s % (rinseLimit s n + 1)
  if quiesced s then 0
  else if rinseDebit s n k ≤ allowanceOf s n then k
  else 32 * (allowanceOf s n / max 1 (rinseDebit s n 32))

/-- The rows of an extent: one for each KiB, by pseudo-channel, bank and row (R173, R175). -/
def extentRows (s : State) (n x : Nat) : List Place :=
  (List.range (extentMiB s n x * 1024)).map (fun i => placeAt s n (x * 2 ^ 28 + i * 1024))

/-- The activates of an extent's writes, by the HKP for the tenant, counted as the extent completes (DESIGN CHOICE, log
entry 76). -/
def extentActivates (t n x : Nat) (s : State) : State :=
  (extentRows s n x).foldl (fun s' p => countActivate (n * 64 + p.pc) p.bank p.row (requesterOf t 24) .user s') s

/-- Foot die n has written the last sector of an extent of a rinse: its contents, its activates, and the mirror's update. -/
def extentRinsed (t n x : Nat) (s : State) : State :=
  let s := extentActivates t n x (fillExtent n x (colourOf s t) s)
  pushJob (.rinseProgress t n x) (modPart t (fun p => { p with rinsed := p.rinsed ++ [(n, x)], cursor := terase p.cursor n }) s)

/-- Tenant t's next k sectors on stack n, over at most `extents` extents, and how many are left over. -/
def writeOn (t n : Nat) (extents k : Nat) (s : State) : Nat × State :=
  match extents with
  | 0 => (k, s)
  | e + 1 =>
    match writesAt s t n with
    | none => (k, s)
    | some x =>
      let need := extentSectors s n x - cursorOf s t n x
      let move := fun c => modPart t (fun p => { p with cursor := tput p.cursor n (x, c) }) s
      if k < need then (0, move (cursorOf s t n x + k))
      else if rinseRunning s t then writeOn t n e (k - need) (extentRinsed t n x s)
      else (k - need, if need = 0 then s else extentActivates t n x (move (extentSectors s n x)))

/-- Tenants whose rinse or join foot die n may write now. -/
def rinseTenants (s : State) (n : Nat) : List Nat :=
  if !writesRun s || rinseWaits s n then []
  else (List.range 128).filter (fun t => !rinseSuspended s t && (writesAt s t n).isSome)

/-- k sectors of rinse writes of stack n are made, for one tenant after the other; answers what is left over. -/
def rinseMoves (n k : Nat) (l : List Nat) (s : State) : Nat × State :=
  l.foldl (fun (x : Nat × State) t => writeOn t n 256 x.1 x.2) (k, s)

/-- The extent that foot die n prepares, and the sectors of it that it has written: the one under way, or the first that is
left. -/
def prepNext (s : State) (n : Nat) : Option (Nat × Nat) :=
  if !writesRun s || rinseWaits s n then none
  else
    match (stackOf s n).prep with
    | some e => if (prepareLeft s n).contains e.1 then some e else none
    | none => (prepareLeft s n).head?.map (fun x => (x, 0))

/-- The activates of a prepared extent's writes, one for each row: the device's own, of no tenant. -/
def prepActivates (n x : Nat) (s : State) : State :=
  ((extentRows s n x).take (prepareMiB s n x * 1024)).foldl
    (fun s' p => countActivate (n * 64 + p.pc) p.bank p.row (requesterOf 128 24) .user s') s

/-- Up to k sectors of the extent that is prepared are written (R296). -/
def prepMove (n k : Nat) (s : State) : State :=
  match prepNext s n with
  | none => s
  | some (x, c) =>
    let need := prepareSectors s n x
    let s := modStack n (fun m => { m with prep := some (x, min need (c + k)) }) s
    if c < need && need ≤ c + k then prepActivates n x s else s

/-- Foot die n's rinse, join and preparation writes of one period, under one limit (R188, R296). -/
def rinsePeriod (n : Nat) (s : State) : State :=
  let l := rinseTenants s n
  if l.isEmpty && (prepNext s n).isNone then s
  else
    let k := rinseTaken s n
    let s := (allow n (rinseDebit s n k) (freeStep s)).getD s
    let r := rinseMoves n k l (countMoved .user n k (countEv .sectorWrite .user n k s))
    prepMove n r.1 r.2

end Sys2Proof.Machine
end

