-- ==== Sys2Proof/Machine/Period.lean ====
section
/-! DEFINITION. The brew period: what happens at the tick of a mark on every die (R24, R26, R334, R336, R447), and each
die's period work with its schedule debt (R25, R212, R213). -/

namespace Sys2Proof.Machine

open Sys2Proof

/-! ## The tick of a mark -/

/-- A pseudo-channel's counts of the period that ended close; under simmer the fraction of a column that is left
carries over (R336). -/
def pcMark (s : State) (fp : Nat) (p : Pc) : Pc :=
  let h := (stackOf s (fp / 64)).thermal
  { p with
    acts := [], bankActs := [], sectorsLast := p.sectorsNow, sectorsNow := 0, columnsNow := 0, usedNow := false, exerNow := 0, cosyNow := 0, scrubNow := 0,
    carry := ((if h.heat == .simmer then h.step else 8) * peakTenths s + p.carry) % 80 }

/-- The listed pseudo-channels at a mark. A channel that a request has entered, or that holds one, was busy until now (R242). -/
def channelsMark (m : Nat) (s : State) : State :=
  let busy := (s.pcs.filter (fun e => e.2.usedNow)).map (fun e => e.1 / 2) ++
    (List.range 256).filter (fun ch => chanBusy s ch)
  let s := (s.pcs.map Prod.fst).foldl (fun s fp => modPc fp (pcMark s fp) s) s
  let s := busy.eraseDups.foldl (fun s ch => modChan ch (fun c => { c with busyMark := m }) s) s
  (s.chans.map Prod.fst).foldl (fun s ch => modChan ch (fun c => { c with cosyLogged := false }) s) s

/-- Stack counters of the period that ended: requests that waited for tokens, simmer and scald; the refresh interval of
the coming period (R224); rows are logged anew (R260). -/
def stackMark (n : Nat) (s : State) : State :=
  let h := (stackOf s n).thermal.heat
  let s := if s.buckets.any (fun e => e.1 % 8 = n && e.2.waited) then countEvent (stackCtr n 24) 1 s else s
  let s := if h == .simmer then countEvent (stackCtr n 25) 1 s
    else if h == .scald then countEvent (stackCtr n 26) 1 s else s
  modStack n (fun k => { k with warmNow := k.warmNext, loggedRows := [] }) s

/-- Period counts of tiles, regulators and partitions (R353, R194, R183). -/
def unitsMark (s : State) : State :=
  let s := ((s.compute.tiles.filter (fun e => e.2.running)).map Prod.fst).foldl (fun s t => countEvent (704 + 4 * t + 3) 1 s) s
  let s := (s.buckets.map Prod.fst).foldl (fun s i =>
    { s with buckets := tmod {} s.buckets i (fun b => { b with waited := false }) }) s
  (s.parts.map Prod.fst).foldl (fun s t => modPart t (fun p => { p with loggedKinds := [] }) s) s

/-- The dummy blocks that the tiles have run: those given, as far as E had room beside user work (R41, R46, R47). -/
def dummiesRan (s : State) : Nat :=
  let d := cosyRoom.dummyBlock s
  if d = 0 || !(s.compute.tiles.any (fun e => e.2.dummy)) then 0
  else min s.kettle.dummyBlocks ((s.kettle.e - committed s) / d)

/-- The governor's window closes at the mark, and admission waits for the next allowance (R24, R41, R68). -/
def windowMark (s : State) : State :=
  if s.kettle.running then
    let s := countEv .int8 .cosy 8 (dummiesRan s) s
    let c : Closed :=
      { counts := s.kettle.counts, up := s.kb.grantUp, upAcc := s.kb.usedUp, down := s.kb.grantDown,
        downAcc := s.kb.usedDown }
    { s with kettle := { s.kettle with
      closed := s.kettle.closed ++ [c], counts := [],
      allowance := 0, altAllowance := 0, dummyBlocks := 0 } }
  else { s with kettle := { s.kettle with counts := [] } }

/-- The next mark: a tick that is a multiple of 1024. -/
def nextMark (s : State) : Nat := now s / 1024 + 1

/-- PERIOD_MARK: the timebase reaches the next mark. `sensors` are the hub's readings in thousandths of a degree, of the
sensors that answer (R334). -/
def periodMark (sensors : List Int) (s : State) : State :=
  if !s.pins.refclk || !s.pins.vaux then s
  else
    let m := nextMark s
    let old := now s
    let s := { s with clock := { timebase := 1024 * m % 2 ^ 64, mark := m } }
    let s := latchMark m s
    let s := windowMark s
    let s := kbMarkSend { s with kb := kbMark s.kb }
    let s := (List.range 8).foldl (fun s n => stackMark n s) s
    let s := unitsMark (channelsMark m s)
    muxWords old (hubSample sensors s)

def execPeriodMark (sensors : List Int) (s : State) : Host.Outcome State Fault Refusal := .next (periodMark sensors s)

/-! ## Period work -/

/-- Refills the regulators of foot die n that are enabled (R24 item 2, R194). -/
def refillDie (n : Nat) (s : State) : State :=
  ((List.range 128).filter (fun t => regOn s t n)).foldl (fun s t =>
    let b := bucketOf s t n
    setBucket t n { b with tokens := min (regDepth s t n) (b.tokens + regRate s t n) } s) s

/-- Tiles drop the dummy blocks of the last period; the governor gives new ones. -/
def dropDummies (s : State) : State :=
  (s.compute.tiles.map Prod.fst).foldl (fun s t => modTile t (fun x => { x with dummy := false }) s) s

/-- The governor's part, on the oldest window that is closed. -/
def governorTurn (k : Nat) (missing : List Nat) (s : State) : State :=
  match s.kettle.closed with
  | [] => closeLatches k s
  | c :: r => closeLatches k (governorWork c missing (dropDummies { s with kettle := { s.kettle with closed := r } }))

/-- Units of die d (a foot die, or the tiles of the hub) follow the poured limits in a period: at most `units` of them,
all of them once the window of 64 periods is over (R39). -/
def followLimits (d units : Nat) (s : State) : State :=
  let mine := s.kettle.follow.filter (fun u => (if u < 8 then u else 8) == d)
  let go := if s.kettle.followBy ≤ s.clock.mark then mine else mine.take units
  { s with kettle := { s.kettle with follow := s.kettle.follow.filter (fun u => !go.contains u) } }

/-- The hub's work for mark k: its share of a pour, ports and twins that follow it, what waits to be retried, and the
governor. -/
def hubWork (k units : Nat) (missing : List Nat) (s : State) : State :=
  let s' := pourWork 8 k units (followLimits 8 units s)
  governorTurn k missing (engineTurn (resumeWaiting (resyncWork k (twinAfterSwitch s (peerAfterSwitch s s')))))

/-- A die's work for mark k. -/
def dieWork (d k units : Nat) (missing : List Nat) (s : State) : State :=
  if d = 8 then hubWork k units missing s else rinsePeriod d (refillDie d (pourWork d k units (followLimits d units s)))

/-- Die d's last heavy mark. -/
def heavyOf (s : State) (d : Nat) : Option Nat := tfind s.cfg.heavy d

/-- The bound on the work of mark k (R213): `old` is the state before it. -/
def workBound (old s : State) (d k : Nat) : Nat :=
  if heavyOf s d = some k || heavyOf s d ≠ heavyOf old d then 2816 else 700

/-- The start of a die's work for mark k (R212). -/
def workStart (x : Die) (k : Nat) : Nat := max (max x.finish (1024 * k)) (x.start + 768)

/-- SCHED_DEBT_MAX of every function follows the largest debt of the dies. -/
def noteDebt (s : State) : State :=
  let d := maxOf ((List.range 9).map (fun i => (dieOf s i).debt))
  (List.range 128).foldl (fun s k => if (fnOf s k).debtMax.toNat < d then
    modFn k (fun f => { f with debtMax := BitVec.ofNat 32 d }) s else s) s

/-- PERIOD_WORK: a die carries out the work of its next mark, no sooner than its start, which debt delays (R26, R212); it
takes `dur` ticks, at most its bound; at most `units` further units of a pour switch in it (R151), and the counts of the
blocks `missing` have not come (R27). -/
def periodWork (d dur units : Nat) (missing : List Nat) (s : State) : State :=
  let x := dieOf s d
  if !s.kettle.running || s.boot.halt != .none || s.clock.mark ≤ x.workMark || now s < workStart x (x.workMark + 1) then s
  else
    let k := x.workMark + 1
    let start := workStart x k
    let short := decide (start < x.start + 1024) && decide (0 < x.start)
    let s' := dieWork d k units missing s
    let s' := if short then countEvent (devCtr 9) 1 s' else s'
    noteDebt (modDie d (fun y => { y with
      workMark := k, start := start, finish := start + min dur (workBound s s' d k), debt := start - 1024 * k,
      maxDebt := max y.maxDebt (start - 1024 * k), shortened := y.shortened + (if short then 1 else 0) }) s')

def execPeriodWork (die : Fin 9) (dur : Nat) (w : PeriodIn) (s : State) : Host.Outcome State Fault Refusal :=
  .next (periodWork die.val dur w.units w.missing s)

end Sys2Proof.Machine
end

