-- ==== Sys2Proof/Machine/Power.lean ====
section
/-! DEFINITION. Core rails and power domains (R86 to R93, Table 3.9), the clearing of the pot (R91), and doze (R251,
R252). -/

namespace Sys2Proof.Machine

open Sys2Proof

/-! ## Core rails -/

/-- VCORE_STEP: at a mark that is a multiple of 4, a rail moves one 5 mV step toward its target; a step up only when E
has room for the rise it causes (R87). -/
def vcoreStep (r : Nat) (s : State) : State :=
  let mv := railMv s r
  let t := railTarget s r
  if s.clock.mark % 4 ≠ 0 || tget 0 s.power.railMark r = s.clock.mark + 1 || !s.kettle.running || !railMoves s r || mv = t then s
  else
    let go := fun (v : Nat) (s : State) =>
      avsWrite r v { s with power := { s.power with
        rails := s.power.rails.set r v, railMark := tset 0 s.power.railMark r (s.clock.mark + 1),
        stepHeld := s.power.stepHeld.filter (· != r) } }
    if t < mv then go (mv - 5) s
    else if hasRoom s (stepRise s r) then makeRoom (go (mv + 5) s)
    else { s with power := { s.power with stepHeld := insertNat s.power.stepHeld r } }

def execVcoreStep (rail : Fin 5) (s : State) : Host.Outcome State Fault Refusal := .next (vcoreStep rail.val s)

/-- The device reads every core regulator back over the bus, unless it is absent (R86, R88). -/
def readRegulators (s : State) : State :=
  if s.power.avsAbsent then s else (List.range 5).foldl (fun s r => avsRead r s) s

/-- VCORE_STATUS: setpoints, targets in force or staged, or the regulators' own reading, which the spec gives no value
for (a free value). -/
def vcoreStatusWork (c : Cmd) (s : State) : Reply :=
  let sel := par c 0 1
  if 3 < sel then .done s stBadParam []
  else
    let v := fun r =>
      match sel with
      | 0 => railMv s r
      | 1 => cfgN s 0x080C r 0
      | 2 => (stagedOr s c 0x080C r 0).headD 0
      | _ => Config.freeValue (s.freeCount + r)
    let stepping := (List.range 5).any (fun r => railMv s r != railTarget s r && railMoves s r)
    let held := s.power.stepHeld.any (fun r => decide (railMv s r < railTarget s r) && railMoves s r)
    let r := (List.range 5).flatMap (fun r => leBytes 2 (v r)) ++ leBytes 1 (flag stepping 0 + flag held 1)
    .done (if sel = 3 then readRegulators { s with freeCount := s.freeCount + 5 } else s) stOK r

/-- VCORE_STATUS (R105). -/
def execVcoreStatus (c : Cmd) (s : State) : Host.Outcome State Fault Refusal :=
  .next (mailbox 0x080B c (vcoreStatusWork c) s)

/-! ## Domains -/

/-- PD_STATUS: domain map, straps and supply bits. -/
def pdStatusWork (c : Cmd) (s : State) : Reply :=
  let sel := par c 0 1
  if 2 < sel then .done s stBadParam []
  else
    let gated := if sel = 1 then cfgN s 0x080A 0 0 else (stagedOr s c 0x080A 0 0).headD 0
    let map := if sel = 0 then s.power.on.toNat else 2 ^ 96 - 1 - gated % 2 ^ 96
    let b := flag s.pins.pgCore 0 + flag s.pins.enCore 1 + flag s.pins.refclkFault 2 + flag s.pins.rrefFault 3 +
      flag s.power.avsAbsent 4 + flag s.power.regFault 5
    .done s stOK (leBytes 12 map ++ leBytes 1 s.pins.straps.toNat ++ leBytes 1 b)

/-- PD_STATUS (R105). -/
def execPdStatus (c : Cmd) (s : State) : Host.Outcome State Fault Refusal :=
  .next (mailbox 0x0809 c (pdStatusWork c) s)

/-- s with domain d on or off. -/
def switchDomain (d : Nat) (on : Bool) (s : State) : State :=
  let m := BitVec.ofNat 96 (2 ^ d)
  { s with power := { s.power with on := if on then s.power.on ||| m else s.power.on &&& ~~~ m } }

/-- A peer port's logic is back: its link trains while the port is enabled. -/
def portTrains (k : Nat) (s : State) : State :=
  modPort k (fun p => { p with link := if portOn s k then 1 else 0, dozed := false }) s

/-- DOMAIN_POWER_ON: a domain that is gated on goes on once E has room for its static share (R92). -/
def domainPowerOn (d : Nat) (s : State) : State :=
  if wantsOn s d && hasRoom s (domainShare s d) then
    let s := makeRoom (switchDomain d true s)
    if 40 ≤ d && d < 44 then portTrains (d - 40) s else s
  else s

def execDomainPowerOn (d : Fin 96) (s : State) : Host.Outcome State Fault Refusal := .next (domainPowerOn d.val s)

/-- What a domain loses when it goes off (Table 3.5). A tile that is gated loses its counts with its other state, and an
infuser keeps the counts that its status reports: neither table says (DESIGN CHOICE, log entry 73). -/
def domainLoses (d : Nat) (s : State) : State :=
  if d < 32 then (if d % 2 = 1 then setTile (d / 2) {} s else s)
  else if d < 40 then s
  else if d < 44 then setPort (d - 40) {} (failPort (d - 40) s)
  else s

/-- DOMAIN_POWER_OFF: a gated domain goes off once it holds no work; in doze, once E has fallen by its share (R58,
R92). -/
def domainPowerOff (d : Nat) (s : State) : State :=
  if wantsOff s d && (s.doze != .entering || hasFallen s (domainShare s d)) then
    dozeReached (switchDomain d false (domainLoses d s))
  else s

def execDomainPowerOff (d : Fin 96) (s : State) : Host.Outcome State Fault Refusal := .next (domainPowerOff d.val s)

/-- POT_CLEAR_DONE: a slice pair has been cleared and admits accesses (R91). -/
def potClearDone (q : Nat) (s : State) : State :=
  { s with pot := { s.pot with clearing := s.pot.clearing.filter (· != q) } }

def execPotClearDone (q : Fin 8) (s : State) : Host.Outcome State Fault Refusal := .next (potClearDone q.val s)

/-! ## Doze -/

/-- Work or a state that DOZE_ENTER answers BUSY to (R251). -/
def dozeBusy (s : State) : Bool :=
  !s.compute.lists.isEmpty || s.infusers.any (fun e => e.2.running.isSome) || !s.peers.ops.isEmpty ||
    (List.range 8).any (fun n => asleep s n || (stackOf s n).thermal.heat == .scald ||
      (stackChans n).any (fun ch => (chanOf s ch).windowOpen))

/-- The twin link is up. -/
def twinLinkUp (s : State) : Bool := twinPort s < 4 && linkUp s (twinPort s)

/-- The peer ports' links go down for doze. -/
def portsDoze (s : State) : State :=
  (List.range 4).foldl (fun s k => modPort k (fun p => { p with link := 0, dozed := true }) (failPort k s)) s

/-- DOZE_ENTER (R251). -/
def dozeEnterWork (c : Cmd) (s : State) : Reply :=
  let ms := par c 0 2
  if ms = 0 || 60000 < ms then .done s stBadParam []
  else if dozeBusy s then .done s stBusy []
  else if twinLinkUp s then .done s stNotPermitted []
  else .done { portsDoze s with doze := .pending (now s + msTicks ms) } stOK []

def execDozeEnter (c : Cmd) (s : State) : Host.Outcome State Fault Refusal :=
  .next (mailbox 0x0406 c (dozeEnterWork c) s)

/-- HOST_LINK_L2: the host link is in L2, and doze entry begins (R252). -/
def hostLinkL2 (s : State) : State :=
  match s.doze with
  | .pending _ => dozeReached { s with doze := .entering, pins := { s.pins with hostLink := .l2 } }
  | _ => s

def execHostLinkL2 (s : State) : Host.Outcome State Fault Refusal := .next (hostLinkL2 s)

/-- DOZE_L2_TIMEOUT: doze is abandoned, and the peer ports come back up (R251). -/
def dozeL2Timeout (s : State) : State :=
  match s.doze with
  | .pending d =>
    if due s d then
      let s := { s with doze := .none }
      devEvent 0x0008 1 [] ((List.range 4).foldl (fun s k => portTrains k s) s)
    else s
  | _ => s

def execDozeL2Timeout (s : State) : Host.Outcome State Fault Refusal := .next (dozeL2Timeout s)

end Sys2Proof.Machine
end

