-- ==== Sys2Proof/Machine/Reset.lean ====
section
/-! DEFINITION. The reset kinds (R106 to R112, R155): power-on, warm, HKP restart, FLR and partition reset, with what
Table 4.2 keeps. -/

namespace Sys2Proof.Machine

open Sys2Proof

/-! ## Warm reset (R108, Table 4.2) -/

/-- The always-on domains PD46, PD47 and PD48 + 6n (Table 3.5). -/
def alwaysOn : BitVec 96 := BitVec.ofNat 96 (maskOf ([46, 47] ++ (List.range 8).map (fun n => 48 + 6 * n)))

/-- The stack supply switches, and every domain of the foot dies. -/
def supplySwitches : BitVec 96 := BitVec.ofNat 96 (maskOf ((List.range 8).map (fun n => 53 + 6 * n)))
def footDomains : BitVec 96 := BitVec.ofNat 96 (maskOf ((List.range 48).map (fun i => 48 + i)))

/-- A boundary-scan instruction is in effect (R481). -/
def tapHolds (s : State) : Bool :=
  !s.pins.perstN &&
    (match s.dbg.tap with
      | .extest | .extestPulse | .extestTrain | .clamp | .highz => true
      | _ => false)

/-- The boot ROM starts once the core supply is up and no boundary-scan instruction holds it (R118, R481). -/
def startRom (s : State) : State :=
  if s.pins.pgCore && !tapHolds s then { s with boot := { s.boot with stage := .romCheck, romStart := now s, enRise := none } }
  else { s with boot := { s.boot with stage := .warm } }

/-- The configuration across a warm reset: an accepted pour has switched everywhere (Table 5.4), what was staged is lost,
and no pour is reported since the reset (Table 5.7). -/
def endPours (c : Cfg) : Cfg :=
  { c with
    pour := none, lastState := 0, lastCompleted := (c.pour.map (·.serial)).getD c.lastCompleted,
    waiting := [], areas := [], areaPersist := [], undo := [], undoPersist := [], fnSerial := [] }

/-- The sleep of a stack across a warm reset (R248): a partial sleep whose segments are lost ends with a wake. -/
def warmSleep (k : Sleep) : Sleep :=
  if k.kind == .partialSleep || k.kind == .waking || (k.kind == .entering && k.lost) then
    { kind := .partialSleep, keep := k.keep, lost := true }
  else {}

/-- A stack across a warm reset. -/
def warmStack (k : Stack) : Stack :=
  { k with
    online := false, thermal := { k.thermal with exitWait := false, simmerEntries := 0, aborts := 0 },
    sleep := warmSleep k.sleep, mapout := none, mapQueue := [], retireProc := none, cause2 := [],
    loggedRows := [], calRunning := none, calForced := 0 }

/-- A channel across a warm reset: its device bench and a row repair in its window stay (R289, R293). -/
def warmChan (c : Chan) : Chan :=
  let repair := match c.window with
    | .rowRepair _ _ => c.windowOpen
    | _ => false
  { ({} : Chan) with
    bench := if c.bench == .device then .device else .none, window := if repair then c.window else .none,
    windowOpen := repair, repairSteps := if repair then c.repairSteps else 0, sr := c.sr, keepAll := true,
    awayFrom := c.awayFrom }

/-- A pseudo-channel across a warm reset: codes, repairs and what counts since power-on. -/
def warmPc (p : Pc) : Pc :=
  { ({} : Pc) with
    cal := { p.cal with
      running := none, startedForced := false, appliedImp := 0, appliedTim := 0, failImp := 0, failTim := 0,
      forced := 0 },
    lanesUsed := p.lanesUsed, spprBanks := p.spprBanks, scrub := p.scrub, cosyPos := p.cosyPos }

/-- A partition across a warm reset. -/
def warmPart (p : Part) : Part := { p with heldEnded := 0, addrEvents := 0, loggedKinds := [], integ := {} }

/-- A table with every value mapped, in canonical form. -/
def mapTable {α : Type} [DecidableEq α] (d : α) (t : List (Nat × α)) (f : α → α) : List (Nat × α) :=
  t.foldl (fun t e => tset d t e.1 (f e.2)) []

/-- A bank across a reset: its header sector is gone where the reset met its erase (R126), and it may not be written
(R127). -/
def bankReset (erase : Option BankErase) (i : Nat) (b : Bank) : Bank :=
  if erase.any (fun e => e.bank == i) then { b with page0 := [], trial := false, confirm := false, erasedOk := false }
  else { b with erasedOk := false }

/-- A flash write that appends a record to the configuration store. -/
def isRecord : FlashJob → Bool
  | .pourRecord | .mapout _ _ | .stackRetire _ | .laneRepair _ _ _ | .rowRepair _ _ _ | .rowCancel _ | .epoch _ => true
  | _ => false

/-- The store across any reset: a compaction is abandoned with its half erased (R163), and a record under way is cut
short (R162). -/
def storeReset (jobs : List FlashJob) (st : Store) : Store :=
  let st :=
    if !st.compacting then st
    else if st.half = 0 then { st with compacting := false, half1 := {} } else { st with compacting := false, half0 := {} }
  if (jobs.take 1).any isRecord then appendRec { ok := false } 256 st else st

/-- The retired-page store across any reset: an entry under way is cut short, and keeps its slot (R282). -/
def retiredReset (f : Flash) : Table (List RetEntry) :=
  match f.jobs with
  | .retirePage _ n e :: _ => tput f.retired n ((tget [] f.retired n) ++ [{ e with crcOk := false }])
  | _ => f.retired

/-- The flash across any reset: erases and writes under way are lost (R126, R128). -/
def flashReset (f : Flash) : Flash :=
  { f with
    retired := retiredReset f,
    erase := none, bankBusy := false, jobs := [], bankA := bankReset f.erase 0 f.bankA,
    bankB := bankReset f.erase 1 f.bankB, store := storeReset f.jobs f.store }

/-- The bus port across a warm reset: it goes on forwarding, and a master on sending (R61, R72); the device follows no
grants until it acquires the chain again (R70, R74). R74 ends a fleet cap at `a reset`: it ends here and at a power-on reset,
and stays over an HKP restart, an FLR and a partition reset (DESIGN CHOICE, log entry 72). -/
def warmKb (b : Kb) : Kb :=
  { ({} : Kb) with
    lastEpoch := b.lastEpoch, position := b.position, sinceValid := b.sinceValid, goodRun := b.goodRun, badRun := b.badRun,
    epochRun := b.epochRun, frameSeen := b.frameSeen, started := b.started, epoch := b.epoch, slot := b.slot,
    unreturned := b.unreturned, chainOpen := b.chainOpen, lastCount := b.lastCount, lastCredit := b.lastCredit,
    lastOverdraw := b.lastOverdraw }

/-- Counters and the spout across a warm reset: the log and the device ring stay (R445, R449, R453, R456). -/
def warmTele (t : Tele) : Tele :=
  { ({} : Tele) with
    ring := { t.ring with skipped := 0 }, log := t.log, logSeq := t.logSeq, overwritten := t.overwritten }

/-- Runs that leave a restore behind: whole-channel exercises and stack test access (R479, R482). -/
def owedRestores (s : State) : State :=
  (List.range 8).foldl (fun s n =>
    let e := exerOf s n
    if (e.running && e.mode = 2) || (stackChans n).any (fun ch => (chanOf s ch).testAccess) then needRestore n s else s) s

/-- The device is past the point where the configuration store is restored. -/
def wasConfigured (s : State) : Bool :=
  s.boot.warmKind || s.boot.stage == .steepDelay || s.boot.stage == .training || s.boot.stage == .ready || s.boot.stage == .stopped

/-- What stands after a warm reset. `kept` says that the core supply stayed up. -/
def warmState (last : Nat) (kept : Bool) (s : State) : State :=
  { s with
    pins := { s.pins with
      devAlert := false, thermTrip := false, refclkFault := false, enCore := true,
      hostLink := if s.pins.perstN then .up else .down },
    boot := { ({} : Boot) with
      stage := .warm, warmKind := wasConfigured s, lastReset := last, hkpRestarts := s.boot.hkpRestarts,
      warmResets := s.boot.warmResets + 1, grade := s.boot.grade,
      afterTrip := s.boot.afterTrip || s.boot.halt == .tripped,
      enRise := if s.pins.pgCore then none else some (now s) },
    flash := flashReset s.flash,
    fns := [], cmds := [], cfg := endPours s.cfg, parts := mapTable {} s.parts warmPart, pot := {},
    buckets := [], qos := [], stk := mapTable {} s.stk warmStack, chans := mapTable {} s.chans warmChan,
    pcs := mapTable {} s.pcs warmPc, kettle := {}, kb := warmKb s.kb,
    power := { s.power with
      on := if kept then s.power.on &&& (alwaysOn ||| footDomains) else s.power.on &&& (alwaysOn ||| supplySwitches),
      rails := if kept then s.power.rails else [750, 750, 750, 750, 750], stepHeld := [], railMark := [], clearing := [] },
    hub := { s.hub with entries := 0, marks := 0 },
    dies := mapTable {} s.dies (fun d => { ({} : Die) with maxDebt := d.maxDebt }),
    compute := {}, infusers := [], twin := {}, tele := warmTele s.tele, late := {}, exers := [], doze := .none,
    dbg := { s.dbg with mux0 := {}, mux1 := {} },
    refcode := { s.refcode with rejected := 0 } }

/-- A warm reset (R108); `last` is what BOOT_STATUS reports of it. -/
def warmReset (last : Nat) (s : State) : State :=
  let kept := s.pins.enCore && s.boot.halt != .coreLost
  let s := owedRestores (pourFlush s)
  startRom (warmState last kept (endWork (allToSelfRefresh s)))

/-! ## Power-on reset (R98, R106) -/

/-- What a power-on reset leaves of a stack: the rows that were repaired for good (Table 10.1), and the foot die's record of
the segments that a partial sleep did not keep (R249). -/
def powerStack (k : Stack) : Stack := { ({} : Stack) with hardRows := k.hardRows, sleep := warmSleep k.sleep }

/-- POR_N_RISE: the device starts from nothing but its fuses, its flash and the pins. -/
def powerOn (straps : BitVec 6) (s : State) : State :=
  { ({} : State) with
    pending := s.pending, ident := s.ident, out := s.out, freeCount := s.freeCount,
    pins := { straps := straps, perstN := s.pins.perstN, refclk := s.pins.refclk, vaux := s.pins.vaux },
    boot := { enRise := some 0 },
    flash := { flashReset s.flash with sfdp := none },
    stk := mapTable {} s.stk powerStack }

def execPorNRise (straps : BitVec 6) (s : State) : Host.Outcome State Fault Refusal := .next (powerOn straps s)

/-! ## Triggers of a warm reset (Table 4.1) -/

/-- PERST_N_LOW: a warm reset on the falling edge. -/
def perstLow (s : State) : State :=
  if !s.pins.perstN || !s.pins.vaux then s
  else
    let s := { s with pins := { s.pins with perstN := false } }
    warmReset 1 s

def execPerstNLow (s : State) : Host.Outcome State Fault Refusal := .next (perstLow s)

/-- HOST_HOT_RESET: a hot reset or link disable while the host link is up. -/
def hotReset (s : State) : State := if s.pins.hostLink == .up then warmReset 1 s else s

def execHostHotReset (s : State) : Host.Outcome State Fault Refusal := .next (hotReset s)

/-- A KETTLE_QUIESCE with the ignore-floor flag is in effect. -/
def quiescedFully (s : State) : Bool := s.kettle.quiesce.any (·.ignoreFloor)

/-- The completion of this command was discarded by a reset of its mailbox (R142). -/
def completionGone (op : Nat) (c : Cmd) (s : State) : Bool := s.cmds.any (fun e => execMatches op c e && e.discard)

/-- The warm reset follows 100 µs after the completion is written, or after the command where there is none to write. -/
def warmResetWork (c : Cmd) (s : State) : Reply :=
  if !quiescedFully s && !bitOf (par c 0 1) 0 then .done s stNotPermitted []
  else if completionGone 0x0040 c s then .done (askWarmReset s) stOK []
  else .done { s with boot := { s.boot with warmAsked := true } } stOK []

/-- WARM_RESET (R143). -/
def execWarmReset (c : Cmd) (s : State) : Host.Outcome State Fault Refusal :=
  .next (mailbox 0x0040 c (warmResetWork c) s)

/-- WARM_RESET_DELAY_EXPIRY: 100 µs after WARM_RESET's completion. -/
def warmResetDue (s : State) : State :=
  match s.boot.warmResetAt with
  | none => s
  | some t => if due s t then warmReset 2 s else s

def execWarmResetDelayExpiry (s : State) : Host.Outcome State Fault Refusal := .next (warmResetDue s)

/-! ## HKP restart (R123) -/

/-- Every mailbox is reset, the out-of-band channel's commands among them. -/
def resetMailboxes (s : State) : State :=
  let s := { s with cmds := (s.cmds.filter (fun (e : Exec) => e.started && e.done.isNone)).map (fun (e : Exec) => { e with discard := true }) }
  (s.fns.map Prod.fst).foldl (fun s k => mailboxReset k s) s

/-- Staged configuration and pours that were not accepted are dropped (R123, Table 5.4). -/
def dropStaged (s : State) : State :=
  let s := dropPours (fun _ => true) s
  { s with cfg := { s.cfg with areas := [], areaPersist := [] } }

/-- Yaresk runs: from the steep delay of boot on, but for the stages that have no image running (R118, R123). -/
def hkpRuns (s : State) : Bool := s.boot.stage == .steepDelay || s.boot.stage == .training || s.boot.stage == .ready

/-- No bank may be written until it is erased again (R127). -/
def lockBanks (s : State) : State :=
  { s with flash := { s.flash with
      bankA := { s.flash.bankA with erasedOk := false }, bankB := { s.flash.bankB with erasedOk := false } } }

/-- HKP_WATCHDOG_EXPIRY: the HKP reloads its image. -/
def watchdogExpired (s : State) : State :=
  if !hkpRuns s || s.boot.halt != .none || s.boot.hkpReloading then s
  else
    let s := dropStaged (resetMailboxes s)
    let s := lockBanks { s with
      boot := { s.boot with hkpReloading := true, hkpRestarts := (s.boot.hkpRestarts + 1) % 65536, lastReset := 3 } }
    setIntAll 5 (devEvent 0x0007 2 (leBytes 1 s.boot.bootedBank) s)

def execHkpWatchdogExpiry (s : State) : Host.Outcome State Fault Refusal := .next (watchdogExpired s)

/-- HKP_RELOAD_DONE: mailboxes are served again, or the device is in the stopped stage. -/
def reloadDone (ok : Bool) (s : State) : State :=
  if !s.boot.hkpReloading then s
  else
    { s with
      boot := { s.boot with hkpReloading := false, stage := if ok then s.boot.stage else .stopped },
      flash := { s.flash with erase := s.flash.erase.map (fun e => { e with between := !s.flash.jobs.isEmpty }) } }

def execHkpReloadDone (ok : Bool) (s : State) : Host.Outcome State Fault Refusal := .next (reloadDone ok s)

/-! ## Partition reset and FLR (R110, R111) -/

/-- Descriptors of a tenant that were fetched and not started. -/
def droppedDescriptors (s : State) (t : Nat) : Nat :=
  sumOf ((s.compute.lists.filter (fun e => e.2.tenant == t)).map (fun e => e.2.fetched.length))

/-- A compute or infuser command of tenant t that was fetched and has not started (R111): it waits for its order. -/
def waitingWork (t : Nat) (e : Exec) : Bool :=
  !e.started && e.done.isNone && (e.op.toNat / 256 == 0x0A || e.op.toNat / 256 == 0x0B) && cmdTarget e.cmd == t

/-- Compute and infuser commands of a tenant that have not started: queued at an infuser, or waiting for their order. -/
def unstartedOps (s : State) (t : Nat) : Nat :=
  sumOf (s.infusers.map (fun e => (e.2.queue.filter (fun o => o.tenant == t)).length)) + (s.cmds.filter (waitingWork t)).length

/-- The tenant's commands that wait for their order complete with PARTITION_STOPPED. -/
def stopWaiting (t : Nat) (s : State) : State :=
  { s with cmds := s.cmds.map (fun e =>
      if waitingWork t e then
        { e with started := true, done := some (BitVec.ofNat 16 stPartitionStopped, List.replicate 16 0) }
      else e) }

/-- The tenant's compute and infuser work stops (R111). -/
def stopTenant (t : Nat) (s : State) : State := stopWaiting t (endQueued t stPartitionStopped (stopTenantLists t s))

def partitionResetWork (c : Cmd) (s : State) : Reply :=
  let t := cmdTarget c
  let r := leBytes 4 (droppedDescriptors s t) ++ leBytes 4 (unstartedOps s t)
  let s := lockBanks (stopTenant t s)
  .done (if bitOf (par c 0 1) 0 && !rinseIncomplete s t then startRinse t [] s else s) stOK r

/-- PARTITION_RESET (R111, R143). -/
def execPartitionReset (c : Cmd) (s : State) : Host.Outcome State Fault Refusal :=
  .next (mailbox 0x0041 c (partitionResetWork c) s)

/-- A tenant ring detaches at the next dump mark (R453). -/
def detachRing (t : Nat) (s : State) : State :=
  let r := tget {} s.tele.tenantRings t
  if r = {} then s
  else { s with tele := { s.tele with
      tenantRings := tset {} s.tele.tenantRings t { r with detachNext := true, nextAttach := none } } }

/-- One function and its tenant's work are reset (R110); the size of its BAR4 is configuration space and stays. -/
def resetFunction (k : Nat) (s : State) : State :=
  let s := mailboxReset k s
  let s := setFn k { bar4Log2 := (fnOf s k).bar4Log2 } s
  let s := { s with cfg := { s.cfg with
      areas := tset [] s.cfg.areas k [], areaPersist := tset false s.cfg.areaPersist k false } }
  detachRing k (stopTenant k s)

/-- FUNCTION_LEVEL_RESET: of the PF, every function's, with VF Enable. -/
def functionReset (k : Nat) (s : State) : State :=
  if !barOpen s k then s
  else
    let s := lockBanks s
    if k = 0 then
      (List.range 128).foldl (fun s j => resetFunction j s) { s with boot := { s.boot with vfEnable := false } }
    else resetFunction k s

def execFunctionLevelReset (k : Fin 128) (s : State) : Host.Outcome State Fault Refusal := .next (functionReset k.val s)

end Sys2Proof.Machine
end

