-- ==== Sys2Proof/Machine/Boot.lean ====
section
/-! DEFINITION. Supplies and clocks (R88, R96, R97, R102, R103), the boot sequence (R116 to R122, R310, R313 to R315), the
PCIe configuration space (R119, R182), and the TAP (R480 to R482). -/

namespace Sys2Proof.Machine

open Sys2Proof

/-! ## Core supply (R96) -/

/-- PG_CORE_RISE: the core rails are in range while EN_CORE is high, and the boot ROM starts where it waits (R118). -/
def pgCoreRise (s : State) : State :=
  if s.pins.pgCore || !s.pins.enCore || s.boot.halt != .none then s
  else
    let s := { s with pins := { s.pins with pgCore := true } }
    if s.boot.stage == .romCheck || s.boot.stage == .warm then startRom s else s

def execPgCoreRise (s : State) : Host.Outcome State Fault Refusal := .next (pgCoreRise s)

/-- The number that names PG_CORE in event 0x0006. -/
def pgCoreName : Nat := 25

/-- PG_CORE_FALL: with EN_CORE high the core supply is lost; with EN_CORE low it is what follows. -/
def pgCoreFall (s : State) : State :=
  if !s.pins.pgCore then s
  else
    let s := { s with pins := { s.pins with pgCore := false } }
    if !s.pins.enCore then s
    else
      let s := collapse .coreLost (recordLost s)
      alertEvent 0x0006 3 (leBytes 1 pgCoreName) [0] { s with pins := { s.pins with enCore := false } }

def execPgCoreFall (s : State) : Host.Outcome State Fault Refusal := .next (pgCoreFall s)

/-- PG_CORE_TIMEOUT: PG_CORE is not high 20 ms after EN_CORE rose; the device stays in doze. -/
def pgCoreTimeout (s : State) : State :=
  match s.boot.enRise with
  | none => s
  | some t =>
    if s.pins.pgCore || !due s (t + msTicks 20) then s
    else
      alertEvent 0x0006 2 (leBytes 1 pgCoreName) [0] { s with
        boot := { s.boot with enRise := none, stage := .warm }, doze := .asleep,
        pins := { s.pins with enCore := false } }

def execPgCoreTimeout (s : State) : Host.Outcome State Fault Refusal := .next (pgCoreTimeout s)

/-! ## Clock, standby supply and stack rails -/

/-- REFCLK_LOSS: absent for more than 10 µs (R103). -/
def refclkLoss (s : State) : State :=
  if !s.pins.refclk || !s.pins.vaux then s
  else
    let s := { s with pins := { s.pins with refclk := false, refclkFault := true } }
    let s := if s.boot.halt == .none then collapse .refclkLost s else s
    alertEvent 0x0001 3 [] [0] s

def execRefclkLoss (s : State) : Host.Outcome State Fault Refusal := .next (refclkLoss s)

/-- REFCLK_RETURN: the timebase goes on from its count; the device still waits for a reset. -/
def execRefclkReturn (s : State) : Host.Outcome State Fault Refusal :=
  .next { s with pins := { s.pins with refclk := true } }

/-- VAUX_LOSS: the kettle-bus port stops (R72); the device does not detect the fault, and the board drives POR_N. -/
def vauxLoss (s : State) : State :=
  { s with pins := { s.pins with vaux := false }, kb := { s.kb with started := false, acquired := false, lost := false } }

def execVauxLoss (s : State) : Host.Outcome State Fault Refusal := .next (vauxLoss s)

/-- VAUX_RETURN. -/
def execVauxReturn (s : State) : Host.Outcome State Fault Refusal :=
  .next { s with pins := { s.pins with vaux := true } }

/-- STACK_RAIL_OUT_OF_RANGE: the contents of every stack are recorded as lost (R97). -/
def railLost (s : State) : State :=
  (List.range 8).foldl (fun s n => modStack n (fun k => { k with contentsLost := !k.retired }) s) { s with hbm := {} }

def execStackRailOutOfRange (s : State) : Host.Outcome State Fault Refusal := .next (railLost s)

/-- AVSBUS_REGULATOR_FAULT: a regulator that answered before fails: its setpoint is held (R88). -/
def regulatorFault (r : Nat) (s : State) : State :=
  if s.power.avsAbsent || s.power.heldRails.contains r then s
  else
    alertEvent 0x0006 2 (leBytes 1 r) [0] { s with power := { s.power with heldRails := insertNat s.power.heldRails r, regFault := true } }

def execAvsbusRegulatorFault (rail : Fin 5) (s : State) : Host.Outcome State Fault Refusal :=
  .next (regulatorFault rail.val s)

/-! ## Host link and configuration space (R119) -/

/-- PERST_N_RISE: the host link trains, and answers configuration requests. -/
def perstRise (s : State) : State :=
  if s.pins.perstN || !s.pins.vaux then s
  else
    let held := tapHolds s
    let s := { s with
      pins := { s.pins with perstN := true, hostLink := if s.boot.halt == .none then .up else s.pins.hostLink },
      dbg := if held then { s.dbg with tap := .bypass } else s.dbg }
    if held && s.boot.stage == .warm then startRom s else s

def execPerstNRise (s : State) : Host.Outcome State Fault Refusal := .next (perstRise s)

/-- CONFIG_SPACE_LOADED: the boot ROM has loaded the configuration space. -/
def cfgSpaceLoaded (s : State) : State :=
  if s.pins.pgCore && s.boot.stage != .warm && s.boot.halt == .none then { s with boot := { s.boot with cfgLoaded := true } } else s

def execConfigSpaceLoaded (s : State) : Host.Outcome State Fault Refusal := .next (cfgSpaceLoaded s)

/-- TotalVFs of the PF's SR-IOV capability: 0 in the recovery-only stage (R117). -/
def totalVfs (s : State) : Nat := if s.boot.stage == .recovery then 0 else s.ident.vfs

/-- CONFIG_REQUEST: Request Retry Status until the configuration space is loaded; then a read, whose data the PCIe
specification gives, TotalVFs, a BAR4 size of 8 to 512 GiB, or VF Enable, which the PF holds (R110, R119, R182). A VF that
is not enabled is no function. -/
def configRequest (k tag : Nat) (req : CfgReq) (s : State) : State :=
  if s.pins.hostLink != .up then s
  else if !s.boot.cfgLoaded then emit (.tlp k tag .retry false []) s
  else if !fnPresent s k then emit (.tlp k tag .unsupported false []) s
  else
    match req with
    | .read => freeStep (emit (.tlp k tag .success false (leBytes 4 (freeNat s))) s)
    | .totalVfs => emit (.tlp k tag .success false (leBytes 2 (totalVfs s))) s
    | .vfEnable on =>
      emit (.tlp k tag .success false []) (if k = 0 then { s with boot := { s.boot with vfEnable := on && totalVfs s ≠ 0 } } else s)
    | .setBar4 g =>
      let s := if between 3 9 g then modFn k (fun f => { f with bar4Log2 := some (30 + g) }) s else s
      emit (.tlp k tag .success false []) s

def execConfigRequest (k : Fin 128) (tag : Nat) (req : CfgReq) (s : State) : Host.Outcome State Fault Refusal :=
  .next (configRequest k.val tag req s)

/-! ## ROM stages (R113 to R118, R310) -/

/-- The BOOT_BANK strap. -/
def bootBankStrap (s : State) : Nat := if s.pins.straps.getLsbD 5 then 1 else 0

/-- Banks of a set in falling order of generation, the strapped bank first on a tie. -/
def rankBanks (s : State) (ok : Bank → Bool) : List Nat :=
  let a := bootBankStrap s
  let b := 1 - a
  let order := if (bankGeneration (bankOf s a)) < bankGeneration (bankOf s b) then [b, a] else [a, b]
  order.filter (fun i => ok (bankOf s i))

/-- The order in which the ROM tries the banks (R116). -/
def bankOrder (s : State) : List Nat :=
  (s.flash.bootNext.toList ++ rankBanks s (fun b => bankValid b && !failedTrial b) ++ rankBanks s failedTrial).eraseDups

/-- The recovery-only stage (R117). -/
def recover (s : State) : State := { s with boot := { s.boot with stage := .recovery, bootedBank := 0 } }

/-- The ROM goes on to the next bank of the order, or to the recovery-only stage. -/
def nextBank (s : State) : State :=
  match (bankOrder s).filter (fun b => !s.boot.triedBanks.contains b) with
  | [] => recover s
  | b :: _ =>
    { s with
      boot := { s.boot with stage := .romLoad, bootedBank := b, byNext := s.flash.bootNext == some b },
      flash := { s.flash with bootNext := none } }

/-- RREF as the ROM measures it (R101, R310): outside 1.980 to 2.020 kΩ no stack is trained; the first measurement since
power-on is the code in force, later ones are judged as periodic. -/
def romRref (code : Nat) (s : State) : State :=
  if between 15840 16160 code then
    let s := { s with pins := { s.pins with rrefFault := false } }
    if s.refcode.inForce = 0 then
      { s with refcode := { s.refcode with inForce := code, last := code, at_ := now s } }
    else rrefMeasured code s
  else
    alertEvent 0x0002 3 (leBytes 2 code) [0] { s with
      refcode := { s.refcode with last := code, at_ := now s, bootFault := true },
      pins := { s.pins with rrefFault := true }, boot := { s.boot with noStacks := true } }

/-- BOOT_ROM_CHECK_DONE: RREF, the SFDP tables (none: the flash does not answer) and the choice of a bank. After a trip
the stage lasts until Tj is below 95 °C (R345). -/
def romCheckDone (code : Nat) (sfdp : Option Sfdp) (s : State) : State :=
  if s.boot.stage != .romCheck || !s.pins.pgCore || !s.pins.refclk || tapHolds s || s.boot.halt != .none ||
      (s.boot.afterTrip && 380 ≤ s.hub.tj) then s
  else
    let s := romRref code { s with
      flash := { s.flash with sfdp := sfdp, answers := sfdp.isSome }, boot := { s.boot with afterTrip := false } }
    if sfdp.isNone then recover s else nextBank s

def execBootRomCheckDone (code : Nat) (sfdp : Option Sfdp) (s : State) : Host.Outcome State Fault Refusal :=
  .next (romCheckDone code sfdp s)

/-- BOOT_IMAGE_LOADED: the image verifies and starts, its trial word programmed; or the next bank is tried. -/
def imageLoaded (ok : Bool) (s : State) : State :=
  let b := s.boot.bootedBank
  if s.boot.stage != .romLoad || s.boot.halt != .none then s
  else if ok && bankValid (bankOf s b) then
    let s := setBank b { bankOf s b with trial := true } s
    { s with boot := { s.boot with
        stage := .yaresk, romUs := (now s - s.boot.romStart) / 1000, steepUntil := some (now s) } }
  else
    let s := setBank b { bankOf s b with imageOk := false } s
    nextBank { s with boot := { s.boot with triedBanks := s.boot.triedBanks ++ [b] } }

def execBootImageLoaded (ok : Bool) (s : State) : Host.Outcome State Fault Refusal := .next (imageLoaded ok s)

/-! ## Yaresk start (R122, R160, R162, R88) -/

/-- Tenants that own an extent. -/
def ownerTenants (s : State) : List Nat := (List.range 128).filter (fun t => !(tenantStacks s t).isEmpty)

/-- A partition becomes RINSE_INCOMPLETE under the colour in force; its rinse writes from the first extent (R97, R122). -/
def markIncomplete (t : Nat) (s : State) : State :=
  modPart t (fun p => { rinseFromStart p with
    incomplete := true, closed := true, joining := [], rinse := some { phase := .running, recorded := true } }) s

/-- The configuration of a power-on: persisted items, colours of the mirror, mapped-out and retired stacks (R122,
R162, Table 6.8). -/
def restoreConfig (s : State) : State :=
  let st := bestHalf s.flash.store
  if !st.valid then devEvent 0x0005 3 [] s
  else
    let st := { st with items := replayed st }
    let s := { s with cfg := { s.cfg with inForce := st.items }, flash := { s.flash with store := st } }
    let s := s.flash.mirror.foldl (fun s e => setColour e.1 e.2 s) s
    let s := (List.range 8).foldl (fun s n => modStack n (fun k => { k with mapped := tget [] st.mapped n }) s) s
    let s := st.retiredStacks.foldl (fun s n => removeExtents n (modStack n (fun k => { k with retired := true }) s)) s
    (ownerTenants s).foldl (fun s t => markIncomplete t s) s

/-- Stacks whose retirement was recorded before a warm reset are retired (R307). -/
def recordedRetired (s : State) : State :=
  (s.flash.store.retiredStacks.filter (fun n => !(stackOf s n).retired)).foldl (fun s n => retireStack n s) s

/-- The hub's domains that are on: all but those the PF gates. -/
def hubOn (s : State) : BitVec 96 := BitVec.ofNat 96 (maskOf ((List.range 48).filter (fun d => !gatedOff s d)))

/-- The kettle governor starts (R53): the envelope begins at the fixed terms (DESIGN CHOICE). -/
def startGovernor (s : State) : State :=
  let s := { s with kettle := { s.kettle with running := true, e := kFix s } }
  (List.range 9).foldl (fun s d => modDie d (fun x => { x with workMark := s.clock.mark }) s) s

/-- The core regulators at boot (R88): the device reads the status of each. Where none answers the bus is absent; a rail
that an earlier boot moved off 750 mV had a regulator that answered, whose setpoint is then held, logged and alerted
(DESIGN CHOICE, log entry 73). -/
def regulatorsAtBoot (avs : Bool) (s : State) : State :=
  let s := (List.range 5).foldl (fun s r => avsStatus r s) s
  let s := { s with power := { s.power with avsAbsent := !avs, regFault := false, heldRails := [] } }
  if avs then s
  else
    ((List.range 5).filter (fun r => railMv s r ≠ 750)).foldl (fun s r =>
      alertEvent 0x0006 2 (leBytes 1 r) [0] { s with
        power := { s.power with heldRails := insertNat s.power.heldRails r, regFault := true } }) s

/-- YARESK_START_DONE: hub domains up, the configuration restored after a power-on, the governor running. `avs` says that
the core regulators answer on AVSBus. -/
def yareskDone (avs : Bool) (s : State) : State :=
  if s.boot.stage != .yaresk || s.boot.halt != .none then s
  else
    let s := if s.boot.warmKind then recordedRetired s else restoreConfig s
    let s := { s with
      power := { s.power with on := s.power.on ||| hubOn s }, pot := { s.pot with clearing := List.range 8 } }
    let s := startGovernor (regulatorsAtBoot avs s)
    { s with boot := { s.boot with
        stage := .steepDelay, steepUntil := some (s.boot.steepUntil.getD (now s) + steepDelay s * 1000) } }

def execYareskStartDone (avs : Bool) (s : State) : Host.Outcome State Fault Refusal := .next (yareskDone avs s)

/-! ## Stacks (R120, R121, R305, R313 to R315) -/

/-- The next stack to train from n on; 8 when none is left. -/
def nextToTrain (s : State) (n : Nat) : Nat :=
  if s.boot.noStacks then 8
  else (((List.range 8).filter (fun i => n ≤ i)).find? (fun i => !(stackOf s i).retired)).getD 8

/-- BOOT_STEEP_DELAY_EXPIRY: the stacks may train (R53). A device whose fuses allow no grade trains none (R313). -/
def steepOver (s : State) : State :=
  match s.boot.steepUntil with
  | none => s
  | some t =>
    if s.boot.stage != .steepDelay || s.boot.halt != .none || !due s t then s
    else
      let s := if s.ident.fuseGrades.isEmpty && !s.boot.noStacks then
          alertEvent 0x0002 3 (leBytes 2 s.refcode.last) [0] { s with boot := { s.boot with noStacks := true } }
        else s
      { s with boot := { s.boot with stage := .training, steepUntil := none, nextStack := nextToTrain s 0 } }

def execBootSteepDelayExpiry (s : State) : Host.Outcome State Fault Refusal := .next (steepOver s)

/-- The highest grade of a list. -/
def bestGrade (l : List Grade) : Option Grade :=
  if l.contains .g96 then some .g96 else if l.contains .g80 then some .g80 else if l.contains .g64 then some .g64 else none

/-- The grades that the fuses and every stack identified so far allow, with one more identification. -/
def commonGrades (s : State) (i : StackIdent) : List Grade :=
  let idents := i :: (List.range 8).filterMap (fun n => if (stackOf s n).retired then none else (stackOf s n).ident)
  s.ident.fuseGrades.filter (fun g => idents.all (fun x => x.grades.contains g))

/-- The identification is that of a qualified stack of the variant (R121, R313). -/
def qualified (s : State) (i : StackIdent) : Bool :=
  i.height == stackHeight s.ident.big && i.gib == stackGib s.ident.big && decide (32 ≤ i.metadataBits) &&
    (match s.boot.warmKind, s.boot.grade with
      | true, some g => i.grades.contains g
      | _, _ => (bestGrade (commonGrades s i)).isSome)

/-- A stack is retired at boot, which the store records (R121). -/
def retireAtBoot (n : Nat) (s : State) : State :=
  let st := s.flash.store
  let s := { s with flash := { s.flash with store := { st with retiredStacks := insertNat st.retiredStacks n } } }
  logEvent 0x0600 noTenant 2 n (leBytes 2 (n * 32) ++ leBytes 1 (mappedCount s n)) [0] (retireStack n s)

/-- A channel that fails training at power-on is mapped out at once (R305). -/
def mapoutAtBoot (n ch : Nat) (s : State) : State :=
  let s := takeOffline n s
  let st := s.flash.store
  let s := { s with flash := { s.flash with store := { st with mapped := tset [] st.mapped n (tget [] st.mapped n ++ [ch]) } } }
  let s := modStack n (fun k => { k with mapped := k.mapped ++ [ch], prepared := [] }) s
  logEvent 0x0600 noTenant 1 n (leBytes 2 (n * 32 + ch) ++ leBytes 1 (mappedCount s n)) [0] s

/-- Lane and soft row repairs of the store are applied again, and the lanes repaired now are recorded (R287, R288). -/
def bootRepairs (n : Nat) (r : TrainResult) (s : State) : State :=
  let mine := s.flash.store.laneRecs.filter (fun e => e.1 / 64 = n)
  let s := mine.foldl (fun s e => useLane e.1 e.2 s) s
  let new := (r.repaired.map (fun e => (n * 64 + e.1 % 64, e.2))).filter (fun e => !mine.contains e && laneSpare s e.1 e.2)
  let s := new.foldl (fun s e => useLane e.1 e.2 s) s
  let s := { s with flash := { s.flash with store := { s.flash.store with laneRecs := s.flash.store.laneRecs ++ new } } }
  (s.flash.store.rowRecs.filter (fun x => x.pc / 64 = n)).foldl (fun s x => rowRepaired x false s) s

/-- The codes that training found become a pseudo-channel's boot codes. -/
def bootCodes (n : Nat) (r : TrainResult) (s : State) : State :=
  r.codes.foldl (fun s e =>
    modPc (n * 64 + e.1 % 64) (fun p => { p with cal := { p.cal with boot := some e.2, codes := some e.2 } }) s) s

/-- Free extents of the vacate range are prepared in training step 6 (R297). -/
def prepareAtBoot (n : Nat) (s : State) : State :=
  ((vacateExtents s n).filter (fun x => extentFree s n x)).foldl (fun s x =>
    modStack n (fun k => { k with prepared := insertNat k.prepared x }) (prepareExtent n x s)) s

/-- The stack is online (R120 step 7). -/
def goOnline (n : Nat) (i : StackIdent) (s : State) : State :=
  modStack n (fun k => { k with online := true, ident := some i }) s

/-- A stack that a reset met in partial sleep is awake: the extents of the segments that were not kept join (R248, R249). -/
def wakeLost (n : Nat) (s : State) : State :=
  let k := (stackOf s n).sleep
  let s := if k.kind == .partialSleep then joinLost n k.keep s else s
  modStack n (fun k => { k with sleep := {} }) s

/-- Training of a stack after a power-on (R120). -/
def trainedCold (n : Nat) (r : TrainResult) (s : State) : State :=
  let failed := (r.failed.map (·.val)).filter (fun ch => !(stackOf s n).mapped.contains ch)
  if !qualified s r.ident || 4 < failed.length || 4 < mappedCount s n + failed.length then retireAtBoot n s
  else
    let s := { s with boot := { s.boot with grade := bestGrade (commonGrades s r.ident) } }
    let s := failed.foldl (fun s ch => mapoutAtBoot n ch s) s
    let s := bootCodes n r (bootRepairs n r s)
    wakeLost n (goOnline n r.ident (prepareAtBoot n (writeReserved n s)))

/-- A channel leaves the self-refresh of a warm reset, unless its stack is cut (R109, R340). -/
def warmChannel (n ch : Nat) (s : State) : State := if (stackOf s n).thermal.heat == .scald then s else chanAwake ch s

/-- A row repair that a warm reset met in its window is carried to its end (R293). -/
def resumeRepair (ch : Nat) (s : State) : State :=
  match (chanOf s ch).window with
  | .rowRepair r hard =>
    let s := (rowSectors r).foldl (fun s q => carrySector q s) s
    let s := if rowResource s r hard then rowRepaired r hard s else if hard then s else pushJob (.rowCancel r) s
    modChan ch (fun c => { c with window := .none, windowOpen := false, repairSteps := 0 }) s
  | _ => s

/-- The timing retraining of a pseudo-channel after a warm reset passes its plausibility check (R315). -/
def warmPasses (s : State) (n : Nat) (r : TrainResult) (e : Nat × CalResult) : Bool :=
  !(r.implausible.map (·.val)).contains e.1 && plausible (pcOf s (n * 64 + e.1 % 64)).cal true e.2

/-- Retraining of a stack after a warm reset (R109, R315): restored codes, but those of channels that retrain well; a
recorded map-out is applied first (Table 10.9). -/
def trainedWarm (n : Nat) (r : TrainResult) (s : State) : State :=
  let todo := (tget [] s.flash.store.mapped n).filter (fun ch => !(stackOf s n).mapped.contains ch)
  let s := todo.foldl (fun s ch => mapoutSwitch n (n * 32 + ch) s) s
  let s := (stackChans n).foldl (fun s ch => resumeRepair ch s) s
  let s := goOnline n r.ident (wakeLost n s)
  let s := ((stackChans n).filter (chanServes s)).foldl (fun s ch => warmChannel n ch s) s
  let good := r.codes.filter (warmPasses s n r)
  let bad := r.implausible.map (·.val) ++ (r.codes.filter (fun e => !warmPasses s n r e)).map (fun e => e.1 % 64)
  let s := good.foldl (fun s e => modPc (n * 64 + e.1 % 64) (fun p =>
    { p with cal := { p.cal with codes := p.cal.codes.map (applyCodes true e.2) } }) s) s
  let s := bad.foldl (fun s v => modChan (n * 32 + v / 2) (fun c => { c with retrainDue := true }) s) s
  let s := if (stackOf s n).contentsLost then writeReserved n s else s
  r.failed.foldl (fun s ch => channelFailed (n * 32 + ch.val) s) s

/-- STACK_TRAINING_DONE for the stack whose turn it is, once E had room for its supply switch, controller and PHY (R53,
R120), and for every channel that leaves self-refresh (R245). -/
def trainingDone (n : Nat) (r : TrainResult) (s : State) : State :=
  if s.boot.stage != .training || s.boot.nextStack ≠ n || s.boot.halt != .none || s.boot.hkpReloading || !bootPowered s n ||
      (stackChans n).any (bootWakes s) then s
  else
    let s := if (stackOf s n).ident.isSome then trainedWarm n r s else trainedCold n r s
    { s with boot := { s.boot with nextStack := nextToTrain s (n + 1) } }

def execStackTrainingDone (n : Fin 8) (r : TrainResult) (s : State) : Host.Outcome State Fault Refusal :=
  .next (trainingDone n.val r s)

/-! ## Ready (R97, R116, R119, R122, R162) -/

/-- The colour that the mirror holds for a tenant, if any, comes into force (Table 6.8). -/
def mirrorColour (t : Nat) (s : State) : State :=
  match tfind s.flash.mirror t with
  | none => s
  | some col => setColour t col s

/-- Contents recorded as lost: a fatal entry, and a rinse of every partition with an extent there (R97). -/
def lostContents (s : State) : State :=
  let lost := (List.range 8).filter (fun n => (stackOf s n).contentsLost)
  if lost.isEmpty then s
  else
    let s := devEvent 0x0004 3 (leBytes 1 (maskOf lost)) s
    let hit := (List.range 128).filter (fun t => lost.any (fun n => !(extentsOf s t n).isEmpty))
    let s := hit.foldl (fun s t => markIncomplete t (clearGrains t (mirrorColour t s))) s
    lost.foldl (fun s n => modStack n (fun k => { k with contentsLost := false }) s) s

/-- Every enabled bucket is full (Table 4.2). -/
def fillBuckets (s : State) : State :=
  (List.range 128).foldl (fun s t => (List.range 8).foldl (fun s n =>
    if regOn s t n then setBucket t n { tokens := regDepth s t n } s else s) s) s

/-- BOOT_READY: the device serves. Yaresk confirms its image, ports train, rinses and twins start. -/
def bootReady (s : State) : State :=
  if s.boot.stage != .training || s.boot.nextStack < 8 || s.boot.halt != .none || s.boot.hkpReloading then s
  else
    let b := s.boot.bootedBank
    let s := if s.flash.answers then setBank b { bankOf s b with confirm := true } s else s
    let s := fillBuckets s
    let s := { s with
      boot := { s.boot with stage := .ready, ready := true, bootUs := (now s - s.boot.romStart) / 1000 },
      kettle := { s.kettle with active := true } }
    let s := lostContents s
    let s := (List.range 4).foldl (fun s k => portTrains k s) s
    let s := twinAtBoot s
    let s := if s.flash.store.valid then s else pushJob .freshStore s
    setIntAll 4 s

def execBootReady (s : State) : Host.Outcome State Fault Refusal := .next (bootReady s)

/-- BOOT_STATUS's result (Table 4.10). -/
def bootStatusResult (s : State) : List Byte :=
  leBytes 1 s.boot.lastReset ++ leBytes 1 (flag (s.boot.bootedBank == 1) 0 + flag s.boot.byNext 1) ++
    leBytes 1 (onlineMask s) ++ leBytes 1 (retiredMask s) ++ leBytes 4 s.boot.romUs ++ leBytes 4 s.boot.bootUs ++
    leBytes 2 (s.parts.filter (fun e => e.2.incomplete)).length ++ leBytes 2 s.boot.hkpRestarts

/-- BOOT_STATUS (R143). -/
def execBootStatus (c : Cmd) (s : State) : Host.Outcome State Fault Refusal :=
  .next (mailbox 0x0042 c (fun s => .done s stOK (bootStatusResult s)) s)

/-! ## TAP (R480 to R482) -/

/-- The instruction that takes effect (R481, R482). -/
def tapEffect (s : State) (i : TapInstr) : TapInstr :=
  match i with
  | .extest | .extestPulse | .extestTrain | .clamp | .highz => if s.pins.perstN then .bypass else i
  | .privateInstr _ => if s.dbg.level = 0 then .bypass else i
  | _ => i

/-- TAP_INSTRUCTION_UPDATE: a boundary-scan instruction keeps the device in warm reset; another lets it boot. -/
def tapUpdate (i : TapInstr) (s : State) : State :=
  let was := tapHolds s
  let s := { s with dbg := { s.dbg with tap := tapEffect s i } }
  if tapHolds s then
    if was then s
    else if s.boot.stage == .warm || s.boot.stage == .romCheck then { s with boot := { s.boot with stage := .warm } }
    else warmReset s.boot.lastReset s
  else if was && s.boot.stage == .warm then startRom s
  else s

def execTapInstructionUpdate (i : TapInstr) (s : State) : Host.Outcome State Fault Refusal := .next (tapUpdate i s)

/-- TAP_TEST_LOGIC_RESET: IDCODE is selected, and the boot that was held starts. -/
def execTapTestLogicReset (s : State) : Host.Outcome State Fault Refusal := .next (tapUpdate .idcode s)

end Sys2Proof.Machine
end

