-- ==== Sys2Proof/Machine/Steep.lean ====
section
/-! DEFINITION. The steep commands (R144 to R146): each checks every field against its own range and stages one entry
per field named. Nothing in force changes. -/

namespace Sys2Proof.Machine

open Sys2Proof

/-- One staged field. -/
def entry (op fld inst v : Nat) : Nat × List Nat := (cfgKey op fld inst, [v])

/-- The staged fields of one instance, from a list of field index and value. -/
def entries (op inst : Nat) (l : List (Nat × Nat)) : List (Nat × List Nat) := l.map (fun e => entry op e.1 inst e.2)

/-- KETTLE_STEEP_LIMITS: whether field i's value is in its range (Table 2.3). -/
def limitOk (i v : Nat) : Bool :=
  match i with
  | 0 | 1 => 100 ≤ v && v ≤ 100000
  | 2 => 700000 ≤ v && v ≤ 1600000
  | 3 => v ≤ 1600000
  | 4 => v ≤ 65535
  | _ => 64 ≤ v && v ≤ 65535

def kettleSteepLimitsWork (c : Cmd) (s : State) : Reply :=
  let vals := [par c 0 4, par c 4 4, par c 8 4, par c 12 4, par c 16 2, par c 18 2]
  let sel := (List.range 6).filter (fun i => bitOf (par c 20 1) i)
  if sel.all (fun i => limitOk i (vals.getD i 0)) then
    steep c (entries 0x0801 0 (sel.map (fun i => (i, vals.getD i 0)))) s
  else .done s stBadParam []

/-- KETTLE_STEEP_LIMITS (R38, R75). -/
def execKettleSteepLimits (c : Cmd) (s : State) : Host.Outcome State Fault Refusal :=
  .next (mailbox 0x0801 c (kettleSteepLimitsWork c) s)

def kettleSteepTrimWork (c : Cmd) (s : State) : Reply :=
  let vals := (List.range 8).map (fun i => par c (2 * i) 2)
  if vals.all (fun v => 2048 ≤ v && v ≤ 8192) then steep c [(cfgKey 0x0803 0 0, vals)] s else .done s stBadParam []

/-- KETTLE_STEEP_TRIM (R37, R75): the trims stand in one row of its layout, one value field (R145). -/
def execKettleSteepTrim (c : Cmd) (s : State) : Host.Outcome State Fault Refusal :=
  .next (mailbox 0x0803 c (kettleSteepTrimWork c) s)

def kbSteepMasterWork (c : Cmd) (s : State) : Reply :=
  let pat := par c 8 2
  if par c 0 4 ≤ 1048575 && par c 4 4 ≤ 1048575 && (List.range 8).all (fun i => bitsOf pat (2 * i) 2 != 3) then
    steep c (entries 0x0806 0 [(0, par c 0 4), (1, par c 4 4), (2, pat)]) s
  else .done s stBadParam []

/-- KB_STEEP_MASTER (R72, R75). -/
def execKbSteepMaster (c : Cmd) (s : State) : Host.Outcome State Fault Refusal :=
  .next (mailbox 0x0806 c (kbSteepMasterWork c) s)

/-- The domains that the PF may gate (Table 3.5). -/
def mayGate (d : Nat) : Bool :=
  d < 32 || (40 ≤ d && d < 44) || (48 ≤ d && ((d - 48) % 6 == 3 || (d - 48) % 6 == 4))

/-- The two domains of every tile have one state. -/
def tilePairsAgree (map : Nat) : Bool := (List.range 16).all (fun t => map.testBit (2 * t) == map.testBit (2 * t + 1))

def pdSteepGateWork (c : Cmd) (s : State) : Reply :=
  let map := par c 0 12
  if (List.range 96).all (fun d => !map.testBit d || mayGate d) && tilePairsAgree map then
    steep c [entry 0x080A 0 0 map] s
  else .done s stBadParam []

/-- PD_STEEP_GATE (R92, R105). -/
def execPdSteepGate (c : Cmd) (s : State) : Host.Outcome State Fault Refusal :=
  .next (mailbox 0x080A c (pdSteepGateWork c) s)

/-- A core-rail target: 600 to 850 mV in 5 mV steps (R87). -/
def targetOk (v : Nat) : Bool := 600 ≤ v && v ≤ 850 && v % 5 == 0

def vcoreSteepTargetWork (c : Cmd) (s : State) : Reply :=
  let sel := (List.range 5).filter (fun i => bitOf (par c 10 1) i)
  if s.power.avsAbsent then .done s stNotPermitted []
  else if sel.all (fun i => targetOk (par c (2 * i) 2)) then
    steep c (entries 0x080C 0 (sel.map (fun i => (i, par c (2 * i) 2)))) s
  else .done s stBadParam []

/-- VCORE_STEEP_TARGET (R87, R88, R105). -/
def execVcoreSteepTarget (c : Cmd) (s : State) : Host.Outcome State Fault Refusal :=
  .next (mailbox 0x080C c (vcoreSteepTargetWork c) s)

def partitionSteepExtentsWork (c : Cmd) (s : State) : Reply :=
  let t := cmdTarget c
  let n := par c 0 1
  let k := par c 2 2
  if 8 ≤ n || 256 < k then .done s stBadParam []
  else if rinseIncomplete s t then .done s stRinseIncomplete []
  else steep c [(cfgKey 0x0200 0 (t * 8 + n), (List.range k).map (fun i => hostAt c (2 * i) 2))] s

/-- PARTITION_STEEP_EXTENTS (R180, R181, R197). -/
def execPartitionSteepExtents (c : Cmd) (s : State) : Host.Outcome State Fault Refusal :=
  .next (mailbox 0x0200 c (partitionSteepExtentsWork c) s)

def partitionSteepColourWork (c : Cmd) (s : State) : Reply :=
  let t := cmdTarget c
  if par c 0 1 = 0 then .done s stBadParam []
  else if rinseIncomplete s t then .done s stRinseIncomplete []
  else steep c [entry 0x0201 0 t (par c 0 1)] s

/-- PARTITION_STEEP_COLOUR (R185, R197). -/
def execPartitionSteepColour (c : Cmd) (s : State) : Host.Outcome State Fault Refusal :=
  .next (mailbox 0x0201 c (partitionSteepColourWork c) s)

def partitionSteepPotWork (c : Cmd) (s : State) : Reply :=
  let t := cmdTarget c
  let k := par c 0 2
  let grains := (List.range k).map (fun i => hostAt c i 1)
  if 128 < k || !grains.all (fun g => g < 128) then .done s stBadParam []
  else if rinseIncomplete s t then .done s stRinseIncomplete []
  else steep c [(cfgKey 0x0202 0 t, grains)] s

/-- PARTITION_STEEP_POT (R179, R197). -/
def execPartitionSteepPot (c : Cmd) (s : State) : Host.Outcome State Fault Refusal :=
  .next (mailbox 0x0202 c (partitionSteepPotWork c) s)

def hashSteepMasksWork (c : Cmd) (s : State) : Reply :=
  let n := par c 0 1
  if 8 ≤ n then .done s stBadParam []
  else steep c [(cfgKey 0x0203 0 n, (List.range 10).map (fun i => par c (4 + 4 * i) 4 % 2 ^ 26 * 1024))] s

/-- HASH_STEEP_MASKS (R174, R197): one value field, the ten masks (R145). -/
def execHashSteepMasks (c : Cmd) (s : State) : Host.Outcome State Fault Refusal :=
  .next (mailbox 0x0203 c (hashSteepMasksWork c) s)

/-- The stacks a stack field names: one, or all eight for 0xFF. -/
def stackField (n : Nat) : List Nat := if n = 0xFF then List.range 8 else [n]

def regulatorSteepWork (c : Cmd) (s : State) : Reply :=
  let n := par c 0 1
  let rate := par c 4 4
  let depth := par c 8 4
  if (8 ≤ n && n != 0xFF) || rate = 0 || 131072 < rate || depth < 64 || 16777216 < depth then .done s stBadParam []
  else
    steep c ((stackField n).flatMap (fun n =>
      entries 0x0204 (cmdTarget c * 8 + n) [(0, par c 1 1 % 4), (1, rate), (2, depth)])) s

/-- REGULATOR_STEEP (R196, R197). -/
def execRegulatorSteep (c : Cmd) (s : State) : Host.Outcome State Fault Refusal :=
  .next (mailbox 0x0204 c (regulatorSteepWork c) s)

/-- A latency target: 0, or 128 to 16,777,215 ns (R208). -/
def latencyOk (v : Nat) : Bool := v == 0 || (128 ≤ v && v ≤ 16777215)

/-- The ports a port field names: one of 0 to 25, or every port for 0xFF (R221). -/
def portField (p : Nat) : List Nat := if p = 0xFF then List.range 26 else [p]

def latencySteepTargetsWork (c : Cmd) (s : State) : Reply :=
  let p := par c 0 1
  let v := par c 4 4
  if (26 ≤ p && p != 0xFF) || !latencyOk v then .done s stBadParam []
  else steep c ((portField p).map (fun q => entry 0x0300 0 (cmdTarget c * 32 + q) v)) s

/-- LATENCY_STEEP_TARGETS (R208, R221). -/
def execLatencySteepTargets (c : Cmd) (s : State) : Host.Outcome State Fault Refusal :=
  .next (mailbox 0x0300 c (latencySteepTargetsWork c) s)

/-- A field names one of n units, or every unit as 0xFFFF (R221, R253). -/
def unitField (n v : Nat) : Bool := v < n || v == bcast

def schedSteepPolicyWork (c : Cmd) (s : State) : Reply :=
  let hi := par c 2 1
  let lo := par c 3 1
  let mb := par c 4 1
  let sc := par c 5 1
  if unitField 512 (par c 0 2) && (2 ≤ hi && hi ≤ 56) && lo ≤ 54 && (1 ≤ mb && mb ≤ 32) && (1 ≤ sc && sc ≤ 64) then
    steep c (entries 0x0303 (par c 0 2) [(0, hi), (1, lo), (2, mb), (3, sc)]) s
  else .done s stBadParam []

/-- SCHED_STEEP_POLICY (R206, R221, R222). -/
def execSchedSteepPolicy (c : Cmd) (s : State) : Host.Outcome State Fault Refusal :=
  .next (mailbox 0x0303 c (schedSteepPolicyWork c) s)

def disturbSteepModeWork (c : Cmd) (s : State) : Reply :=
  if unitField 256 (par c 0 2) && par c 2 1 ≤ 1 then steep c [entry 0x0401 0 (par c 0 2) (par c 2 1)] s
  else .done s stBadParam []

/-- DISTURB_STEEP_MODE (R232, R253). -/
def execDisturbSteepMode (c : Cmd) (s : State) : Host.Outcome State Fault Refusal :=
  .next (mailbox 0x0401 c (disturbSteepModeWork c) s)

/-- DISTURB_STEEP_LIMITS: whether field i's value is in its range (R235, R237). -/
def disturbOk (i v : Nat) : Bool := if i = 0 then 28672 ≤ v && v ≤ 1048575 else 1 ≤ v && v ≤ 32

def disturbSteepLimitsWork (c : Cmd) (s : State) : Reply :=
  let vals := [par c 4 4, par c 8 1, par c 9 1]
  let sel := (List.range 3).filter (fun i => bitOf (par c 10 1) i)
  if unitField 512 (par c 0 2) && sel.all (fun i => disturbOk i (vals.getD i 0)) then
    steep c (entries 0x0402 (par c 0 2) (sel.map (fun i => (i, vals.getD i 0)))) s
  else .done s stBadParam []

/-- DISTURB_STEEP_LIMITS (R235, R237, R253). -/
def execDisturbSteepLimits (c : Cmd) (s : State) : Host.Outcome State Fault Refusal :=
  .next (mailbox 0x0402 c (disturbSteepLimitsWork c) s)

def integritySteepPolicyWork (c : Cmd) (s : State) : Reply :=
  let n := par c 0 1
  if (8 ≤ n && n != 0xFF) || 2 < par c 1 1 then .done s stBadParam []
  else steep c ((stackField n).map (fun n => entry 0x0501 0 n (par c 1 1))) s

/-- INTEGRITY_STEEP_POLICY (R258, R285). -/
def execIntegritySteepPolicy (c : Cmd) (s : State) : Host.Outcome State Fault Refusal :=
  .next (mailbox 0x0501 c (integritySteepPolicyWork c) s)

def thermalSteepAdvisoryWork (c : Cmd) (s : State) : Reply :=
  let th := par c 1 1
  if th < 5 || 100 < th then .done s stBadParam []
  else steep c (entries 0x0903 0 [(0, par c 0 1 % 32), (1, th)]) s

/-- THERMAL_STEEP_ADVISORY (R351). -/
def execThermalSteepAdvisory (c : Cmd) (s : State) : Host.Outcome State Fault Refusal :=
  .next (mailbox 0x0903 c (thermalSteepAdvisoryWork c) s)

def tileSteepPolicyWork (c : Cmd) (s : State) : Reply :=
  if par c 0 2 = 0 || 3 < par c 2 1 || par c 4 2 = 0 then .done s stBadParam []
  else steep c (entries 0x0A04 (cmdTarget c) [(0, par c 0 2), (1, par c 2 1), (2, par c 4 2)]) s

/-- TILE_STEEP_POLICY (R368, R383). -/
def execTileSteepPolicy (c : Cmd) (s : State) : Host.Outcome State Fault Refusal :=
  .next (mailbox 0x0A04 c (tileSteepPolicyWork c) s)

def peerSteepPortWork (c : Cmd) (s : State) : Reply :=
  let k := par c 0 1
  let b := par c 1 1
  if 4 ≤ k || bitsOf b 4 2 = 3 || par c 8 2 < 0x0600 then .done s stBadParam []
  else
    steep c (entries 0x0C01 k
      [(0, b % 64), (1, beAt c.params 2 6), (2, par c 8 2), (3, par c 10 2), (4, par c 12 1), (5, beAt c.params 14 6)]) s

/-- PEER_STEEP_PORT (R443). MAC addresses stand in the order they are sent. -/
def execPeerSteepPort (c : Cmd) (s : State) : Host.Outcome State Fault Refusal :=
  .next (mailbox 0x0C01 c (peerSteepPortWork c) s)

def peerSteepConnWork (c : Cmd) (s : State) : Reply :=
  let k := par c 0 1
  let n := par c 1 1
  if 4 ≤ k || 64 ≤ n || par c 10 2 < 2 then .done s stBadParam []
  else
    steep c (entries 0x0C02 (k * 64 + n)
      [(0, beAt c.params 2 6), (1, par c 8 1 % 2), (2, par c 10 2), (3, par c 16 16)]) s

/-- PEER_STEEP_CONN (R414, R443). -/
def execPeerSteepConn (c : Cmd) (s : State) : Host.Outcome State Fault Refusal :=
  .next (mailbox 0x0C02 c (peerSteepConnWork c) s)

def peerSteepHandleWork (c : Cmd) (s : State) : Reply :=
  let h := par c 0 2
  if 4096 ≤ h || 128 ≤ par c 4 2 || 128 ≤ par c 6 2 || 2 ^ 40 ≤ par c 8 8 || par c 16 8 % 32 ≠ 0 then
    .done s stBadParam []
  else
    steep c (entries 0x0C03 h
      [(0, par c 2 1 % 2), (1, par c 3 1), (2, par c 4 2), (3, par c 6 2), (4, par c 8 8), (5, par c 16 8)]) s

/-- PEER_STEEP_HANDLE (R421, R443). -/
def execPeerSteepHandle (c : Cmd) (s : State) : Host.Outcome State Fault Refusal :=
  .next (mailbox 0x0C03 c (peerSteepHandleWork c) s)

def twinSteepWork (c : Cmd) (s : State) : Reply :=
  let p := par c 0 1
  let w := par c 2 2
  if (4 ≤ p && p != 0xFF) || w = 0 || 60000 < w then .done s stBadParam []
  else steep c (entries 0x0C05 0 [(0, p), (1, par c 1 1 % 2), (2, w)]) s

/-- TWIN_STEEP (R429, R443). -/
def execTwinSteep (c : Cmd) (s : State) : Host.Outcome State Fault Refusal :=
  .next (mailbox 0x0C05 c (twinSteepWork c) s)

def twinSteepPartitionWork (c : Cmd) (s : State) : Reply :=
  let lag := par c 2 2
  if 2 < par c 0 1 || 1 < par c 1 1 || lag < 16 then .done s stBadParam []
  else steep c (entries 0x0C06 (cmdTarget c) [(0, par c 0 1), (1, par c 1 1), (2, lag)]) s

/-- TWIN_STEEP_PARTITION (R433, R443). -/
def execTwinSteepPartition (c : Cmd) (s : State) : Host.Outcome State Fault Refusal :=
  .next (mailbox 0x0C06 c (twinSteepPartitionWork c) s)

/-- DUMP_PERIOD: 0, or a multiple of 64 from 64 to 1,048,576 periods (R448). -/
def dumpPeriodOk (v : Nat) : Bool := v % 64 == 0 && v ≤ 1048576

def spoutSteepWork (c : Cmd) (s : State) : Reply :=
  let slots := par c 4 2
  if !dumpPeriodOk (par c 0 4) || slots < 2 || 4096 < slots || par c 8 8 % 4096 ≠ 0 then .done s stBadParam []
  else steep c (entries 0x0D00 0 [(0, par c 0 4), (1, slots), (2, par c 8 8)]) s

/-- SPOUT_STEEP (R448, R458). -/
def execSpoutSteep (c : Cmd) (s : State) : Host.Outcome State Fault Refusal :=
  .next (mailbox 0x0D00 c (spoutSteepWork c) s)

def debugSteepMuxWork (c : Cmd) (s : State) : Reply :=
  let g := par c 1 1
  let i := par c 2 2
  let p := par c 4 1
  if 1 < par c 0 1 || 11 < g || p < 3 || 10 < p then .done s stBadParam []
  else steep c (entries 0x0E00 (par c 0 1) [(0, g), (1, i), (2, p)]) s

/-- DEBUG_STEEP_MUX (R470, R485). Whether the group has the instance is one field against another, which the pour checks
(R146). -/
def execDebugSteepMux (c : Cmd) (s : State) : Host.Outcome State Fault Refusal :=
  .next (mailbox 0x0E00 c (debugSteepMuxWork c) s)

end Sys2Proof.Machine
end

