-- ==== Sys2Proof/Machine/HostFault.lean ====
section
/-! DEFINITION. HOST_ACCESS_FAULT (R507): a mailbox command one of whose own reads or writes of host memory fails. The
row stands in place of the command's ordinary row. -/

namespace Sys2Proof.Machine

open Sys2Proof

/-- A host range whose write was refused is undefined; anything else stands as it was sent. -/
def failedOut : Out → Out
  | .hostWrite k addr bytes => .hostUndefined k addr bytes.length
  | o => o

/-- s' with what it has sent since s marked as refused. -/
def failOutputs (s s' : State) : State :=
  let n := s'.out.length - s.out.length
  { s' with out := (s'.out.take n).map failedOut ++ s'.out.drop n }

/-- A command whose write of host memory is refused keeps every other effect and ends with HOST_WRITE_FAILED. -/
def failWrite (s : State) : Reply → Reply
  | .done s' st r => if st = stOK then .done (failOutputs s s') stHostWriteFailed [] else .done s' st r
  | r => r

/-- The work of the commands that write host memory as they execute; none for any other opcode. -/
def writingWork (op : Nat) (c : Cmd) : Option (State → Reply) :=
  match op with
  | 0x0002 => some (capabilitiesWork c)
  | 0x0205 => some (partitionInfoWork c)
  | 0x0209 => some (remapReadWork c)
  | 0x0502 => some (retirePendingWork c)
  | 0x0504 => some (retireListWork c)
  | 0x0605 => some (foldTableReadWork c)
  | 0x0700 => some (calStatusWork c)
  | 0x0902 => some (latenessStatusWork c)
  | 0x0D04 => some (eventLogReadWork c)
  | 0x0E06 => some (exerCaptureReadWork c)
  | 0x0E07 => some (testNonceWork c)
  | 0x0E09 => some (testStackAccessWork c c.hostIn)
  | _ => none

/-- A snapshot that waits for its mark no longer waits. -/
def dropSnapshot (c : Cmd) (t : Tele) : Tele :=
  { t with snapshots := t.snapshots.filter (· != c),
           latching := t.latching.map (fun (l : Latch) => { l with cmds := l.cmds.filter (· != c) }) }

/-- The record of a waiting TELEMETRY_SNAPSHOT cannot be written (R458). -/
def snapshotFault (c : Cmd) (s : State) : State :=
  if s.tele.snapshots.contains c || s.tele.latching.any (fun l => l.cmds.contains c) then
    let len := if par c 8 1 = 1 then 8256 else 128
    let s := { s with tele := dropSnapshot c s.tele }
    finish 0x0D02 c stHostWriteFailed [] (emit (.hostUndefined (cmdFn c) (par c 0 8) len) s)
  else s

/-- A write of host memory fails. -/
def writeFault (op : Nat) (c : Cmd) (s : State) : State :=
  if op = 0x0D02 then snapshotFault c s
  else
    match writingWork op c with
    | some w => mailbox op c (fun s => failWrite s (w s)) s
    | none => s

/-- Nothing is taken from data that was not read: a work that would have used it leaves the state as it is. -/
def failRead (s : State) (result : List Byte) : Reply → Reply
  | .done s' st r => if st = stOK || st = stSteepFull then .done s stHostWriteFailed result else .done s' st r
  | .wait _ => .done s stHostWriteFailed result
  | r => r

/-- The pages of an image chunk that were programmed before the read failed. -/
def pagesWritten (c : Cmd) (pages : Nat) (s : State) : State :=
  let b := par c 0 1
  let off := par c 4 4
  let data := padTo (256 * min pages (par c 16 4 / 256)) c.hostIn
  let k := bankOf s b
  let cells := (List.range data.length).foldl (fun t i => tput t (off + i) (data.getD i 0)) k.image
  setBank b (recheck off { k with image := cells, pages := k.pages ++ writePages off data.length }) s

/-- A write of an image chunk by this command. -/
def isBankWrite (c : Cmd) : FlashJob → Bool
  | .bankWrite c' _ _ _ => c' == c
  | _ => false

/-- FW_BANK_WRITE ends; pages that it has programmed stay programmed. -/
def bankWriteFault (c : Cmd) (pages : Nat) (s : State) : State :=
  if s.flash.jobs.any (isBankWrite c) then
    let s := bankIdle { s with flash := { s.flash with jobs := s.flash.jobs.filter (fun j => !isBankWrite c j) } }
    finish 0x0F02 c stHostWriteFailed [] (pagesWritten c pages s)
  else
    mailbox 0x0F02 c (fun s =>
      match fwBankWriteWork c s with
      | .wait _ => .done (pagesWritten c pages s) stHostWriteFailed []
      | r => r) s

/-- TEST_UNLOCK without its token uses up the nonce. -/
def unlockFault (c : Cmd) (s : State) : Reply :=
  match testUnlockWork c s with
  | .done s' st r =>
    if st = stNotPermitted then .done s' st r
    else .done { s with dbg := { s.dbg with nonce := none } } stHostWriteFailed (leBytes 1 s.dbg.level)
  | r => r

/-- INFUSER_PREPARE without its records: the checks that need no record come first. -/
def prepareFault (c : Cmd) (s : State) : Reply :=
  let n := par c 0 1
  if 8 ≤ n then .done s stBadParam prepareFailed
  else
    match (if infGated s n then some stDomainGated else infCheck1 0x0B01 c n s) with
    | some st => .done s st prepareFailed
    | none => .done s (if prepareFields c then stHostWriteFailed else stBadParam) prepareFailed

/-- A read of host memory fails: what the command would have read decides nothing. -/
def readFault (op : Nat) (c : Cmd) (pages : Nat) (s : State) : State :=
  match op with
  | 0x0200 => mailbox op c (fun s => failRead s [] (partitionSteepExtentsWork { c with hostIn := [] } s)) s
  | 0x0202 => mailbox op c (fun s => failRead s [] (partitionSteepPotWork { c with hostIn := [] } s)) s
  | 0x0B01 => mailbox op c (prepareFault c) s
  | 0x0E08 => mailbox op c (unlockFault c) s
  | 0x0E09 => mailbox op c (fun s => failRead s [] (testStackAccessWork c c.hostIn s)) s
  | 0x0F02 => bankWriteFault c pages s
  | _ => s

/-- HOST_ACCESS_FAULT: the command's write or read of host memory fails (R507, R458). -/
def execHostAccessFault (op : BitVec 16) (c : Cmd) (write : Bool) (pagesDone : Nat) (s : State) :
    Host.Outcome State Fault Refusal :=
  .next (if write then writeFault op.toNat c s else readFault op.toNat c pagesDone s)

end Sys2Proof.Machine
end

