-- ==== Sys2Proof/Machine/Dispatch.lean ====
section
/-! DEFINITION. Which meaning each command of the block has: one arm per constructor of `Instr`. -/

namespace Sys2Proof.Machine

open Sys2Proof

/-- The effect of a command on everything but the queue. -/
def exec (i : Instr) (s : State) : Host.Outcome State Fault Refusal :=
  match i with
  | .identify c => Sys2Proof.Machine.execIdentify c s
  | .capabilities c => Sys2Proof.Machine.execCapabilities c s
  | .fwVersion c => Sys2Proof.Machine.execFwVersion c s
  | .functionSteepPerm c => Sys2Proof.Machine.execFunctionSteepPerm c s
  | .functionGetPerm c => Sys2Proof.Machine.execFunctionGetPerm c s
  | .warmReset c => Sys2Proof.Machine.execWarmReset c s
  | .partitionReset c => Sys2Proof.Machine.execPartitionReset c s
  | .bootStatus c => Sys2Proof.Machine.execBootStatus c s
  | .configPour c => Sys2Proof.Machine.execConfigPour c s
  | .configDiscard c => Sys2Proof.Machine.execConfigDiscard c s
  | .configStatus c => Sys2Proof.Machine.execConfigStatus c s
  | .configUndo c => Sys2Proof.Machine.execConfigUndo c s
  | .configDrain c => Sys2Proof.Machine.execConfigDrain c s
  | .configOpen c => Sys2Proof.Machine.execConfigOpen c s
  | .configStoreInfo c => Sys2Proof.Machine.execConfigStoreInfo c s
  | .partitionSteepExtents c => Sys2Proof.Machine.execPartitionSteepExtents c s
  | .partitionSteepColour c => Sys2Proof.Machine.execPartitionSteepColour c s
  | .partitionSteepPot c => Sys2Proof.Machine.execPartitionSteepPot c s
  | .hashSteepMasks c => Sys2Proof.Machine.execHashSteepMasks c s
  | .regulatorSteep c => Sys2Proof.Machine.execRegulatorSteep c s
  | .partitionInfo c => Sys2Proof.Machine.execPartitionInfo c s
  | .partitionRinse c => Sys2Proof.Machine.execPartitionRinse c s
  | .rinseControl c => Sys2Proof.Machine.execRinseControl c s
  | .addressTranslate c => Sys2Proof.Machine.execAddressTranslate c s
  | .remapRead c => Sys2Proof.Machine.execRemapRead c s
  | .regulatorStatus c => Sys2Proof.Machine.execRegulatorStatus c s
  | .latencySteepTargets c => Sys2Proof.Machine.execLatencySteepTargets c s
  | .latencyGetTargets c => Sys2Proof.Machine.execLatencyGetTargets c s
  | .qosStatus c => Sys2Proof.Machine.execQosStatus c s
  | .schedSteepPolicy c => Sys2Proof.Machine.execSchedSteepPolicy c s
  | .pcStatus c => Sys2Proof.Machine.execPcStatus c s
  | .schedStatus c => Sys2Proof.Machine.execSchedStatus c s
  | .refreshStatus c => Sys2Proof.Machine.execRefreshStatus c s
  | .disturbSteepMode c => Sys2Proof.Machine.execDisturbSteepMode c s
  | .disturbSteepLimits c => Sys2Proof.Machine.execDisturbSteepLimits c s
  | .disturbStatus c => Sys2Proof.Machine.execDisturbStatus c s
  | .stackSleep c => Sys2Proof.Machine.execStackSleep c s
  | .stackWake c => Sys2Proof.Machine.execStackWake c s
  | .dozeEnter c => Sys2Proof.Machine.execDozeEnter c s
  | .lowpowerStatus c => Sys2Proof.Machine.execLowpowerStatus c s
  | .integrityStatus c => Sys2Proof.Machine.execIntegrityStatus c s
  | .integritySteepPolicy c => Sys2Proof.Machine.execIntegritySteepPolicy c s
  | .retirePending c => Sys2Proof.Machine.execRetirePending c s
  | .retirePage c => Sys2Proof.Machine.execRetirePage c s
  | .retireList c => Sys2Proof.Machine.execRetireList c s
  | .poisonInject c => Sys2Proof.Machine.execPoisonInject c s
  | .repairStatus c => Sys2Proof.Machine.execRepairStatus c s
  | .repairRow c => Sys2Proof.Machine.execRepairRow c s
  | .repairLane c => Sys2Proof.Machine.execRepairLane c s
  | .mapoutChannel c => Sys2Proof.Machine.execMapoutChannel c s
  | .foldStatus c => Sys2Proof.Machine.execFoldStatus c s
  | .foldTableRead c => Sys2Proof.Machine.execFoldTableRead c s
  | .calStatus c => Sys2Proof.Machine.execCalStatus c s
  | .calRefStatus c => Sys2Proof.Machine.execCalRefStatus c s
  | .calStackSummary c => Sys2Proof.Machine.execCalStackSummary c s
  | .kettleStatus c => Sys2Proof.Machine.execKettleStatus c s
  | .kettleSteepLimits c => Sys2Proof.Machine.execKettleSteepLimits c s
  | .kettleGetLimits c => Sys2Proof.Machine.execKettleGetLimits c s
  | .kettleSteepTrim c => Sys2Proof.Machine.execKettleSteepTrim c s
  | .kettleQuiesce c => Sys2Proof.Machine.execKettleQuiesce c s
  | .kettleJobTiming c => Sys2Proof.Machine.execKettleJobTiming c s
  | .kbSteepMaster c => Sys2Proof.Machine.execKbSteepMaster c s
  | .kbSendAdmin c => Sys2Proof.Machine.execKbSendAdmin c s
  | .kbChainInfo c => Sys2Proof.Machine.execKbChainInfo c s
  | .pdStatus c => Sys2Proof.Machine.execPdStatus c s
  | .pdSteepGate c => Sys2Proof.Machine.execPdSteepGate c s
  | .vcoreStatus c => Sys2Proof.Machine.execVcoreStatus c s
  | .vcoreSteepTarget c => Sys2Proof.Machine.execVcoreSteepTarget c s
  | .thermalStatus c => Sys2Proof.Machine.execThermalStatus c s
  | .hubThermalStatus c => Sys2Proof.Machine.execHubThermalStatus c s
  | .latenessStatus c => Sys2Proof.Machine.execLatenessStatus c s
  | .thermalSteepAdvisory c => Sys2Proof.Machine.execThermalSteepAdvisory c s
  | .brewStart c => Sys2Proof.Machine.execBrewStart c s
  | .brewStatus c => Sys2Proof.Machine.execBrewStatus c s
  | .brewStop c => Sys2Proof.Machine.execBrewStop c s
  | .tileStatus c => Sys2Proof.Machine.execTileStatus c s
  | .tileSteepPolicy c => Sys2Proof.Machine.execTileSteepPolicy c s
  | .potStatus c => Sys2Proof.Machine.execPotStatus c s
  | .infuserStatus c => Sys2Proof.Machine.execInfuserStatus c s
  | .infuserPrepare c => Sys2Proof.Machine.execInfuserPrepare c s
  | .infuseNtt c => Sys2Proof.Machine.execInfuseNtt c s
  | .infuseIntt c => Sys2Proof.Machine.execInfuseIntt c s
  | .infusePointwise c => Sys2Proof.Machine.execInfusePointwise c s
  | .infuseAutomorph c => Sys2Proof.Machine.execInfuseAutomorph c s
  | .infuseRescale c => Sys2Proof.Machine.execInfuseRescale c s
  | .infuseBaseconv c => Sys2Proof.Machine.execInfuseBaseconv c s
  | .infuseKeyswitch c => Sys2Proof.Machine.execInfuseKeyswitch c s
  | .peerStatus c => Sys2Proof.Machine.execPeerStatus c s
  | .peerSteepPort c => Sys2Proof.Machine.execPeerSteepPort c s
  | .peerSteepConn c => Sys2Proof.Machine.execPeerSteepConn c s
  | .peerSteepHandle c => Sys2Proof.Machine.execPeerSteepHandle c s
  | .peerConnStatus c => Sys2Proof.Machine.execPeerConnStatus c s
  | .twinSteep c => Sys2Proof.Machine.execTwinSteep c s
  | .twinSteepPartition c => Sys2Proof.Machine.execTwinSteepPartition c s
  | .twinStatus c => Sys2Proof.Machine.execTwinStatus c s
  | .peerOp c => Sys2Proof.Machine.execPeerOp c s
  | .twinTakeover c => Sys2Proof.Machine.execTwinTakeover c s
  | .spoutSteep c => Sys2Proof.Machine.execSpoutSteep c s
  | .spoutStatus c => Sys2Proof.Machine.execSpoutStatus c s
  | .telemetrySnapshot c => Sys2Proof.Machine.execTelemetrySnapshot c s
  | .tenantDumpAttach c => Sys2Proof.Machine.execTenantDumpAttach c s
  | .eventLogRead c => Sys2Proof.Machine.execEventLogRead c s
  | .eventLogClear c => Sys2Proof.Machine.execEventLogClear c s
  | .debugSteepMux c => Sys2Proof.Machine.execDebugSteepMux c s
  | .benchEnter c => Sys2Proof.Machine.execBenchEnter c s
  | .benchExit c => Sys2Proof.Machine.execBenchExit c s
  | .exerStart c => Sys2Proof.Machine.execExerStart c s
  | .exerStop c => Sys2Proof.Machine.execExerStop c s
  | .exerStatus c => Sys2Proof.Machine.execExerStatus c s
  | .exerCaptureRead c => Sys2Proof.Machine.execExerCaptureRead c s
  | .testNonce c => Sys2Proof.Machine.execTestNonce c s
  | .testUnlock c => Sys2Proof.Machine.execTestUnlock c s
  | .testStackAccess c dataOut => Sys2Proof.Machine.execTestStackAccess c dataOut s
  | .fwStatus c => Sys2Proof.Machine.execFwStatus c s
  | .fwBankErase c => Sys2Proof.Machine.execFwBankErase c s
  | .fwBankWrite c => Sys2Proof.Machine.execFwBankWrite c s
  | .fwBankActivate c => Sys2Proof.Machine.execFwBankActivate c s
  | .fwBootNext c => Sys2Proof.Machine.execFwBootNext c s
  | .flashInfo c => Sys2Proof.Machine.execFlashInfo c s
  | .mbxDoorbellWrite k v => Sys2Proof.Machine.execMbxDoorbellWrite k v s
  | .mbxEnable k on => Sys2Proof.Machine.execMbxEnable k on s
  | .mbxEventsEnable k on => Sys2Proof.Machine.execMbxEventsEnable k on s
  | .mbxReset k => Sys2Proof.Machine.execMbxReset k s
  | .intStatusClear k v => Sys2Proof.Machine.execIntStatusClear k v s
  | .kettleFlagsClear k v => Sys2Proof.Machine.execKettleFlagsClear k v s
  | .timebaseRead k r => Sys2Proof.Machine.execTimebaseRead k r s
  | .bar0RegisterWrite k off width v => Sys2Proof.Machine.execBar0RegisterWrite k off width v s
  | .commandFetch k slot hostIn => Sys2Proof.Machine.execCommandFetch k slot hostIn s
  | .orderedCommandStart issuer seq => Sys2Proof.Machine.execOrderedCommandStart issuer seq s
  | .completionWrite issuer idx => Sys2Proof.Machine.execCompletionWrite issuer idx s
  | .intCoalesceTimeout k => Sys2Proof.Machine.execIntCoalesceTimeout k s
  | .mbxResetDone k => Sys2Proof.Machine.execMbxResetDone k s
  | .ringAccessFault k which => Sys2Proof.Machine.execRingAccessFault k which s
  | .hostAccessFault op c write pagesDone => Sys2Proof.Machine.execHostAccessFault op c write pagesDone s
  | .porNRise straps => Sys2Proof.Machine.execPorNRise straps s
  | .pgCoreRise  => Sys2Proof.Machine.execPgCoreRise  s
  | .perstNLow  => Sys2Proof.Machine.execPerstNLow  s
  | .hostHotReset  => Sys2Proof.Machine.execHostHotReset  s
  | .warmResetDelayExpiry  => Sys2Proof.Machine.execWarmResetDelayExpiry  s
  | .functionLevelReset k => Sys2Proof.Machine.execFunctionLevelReset k s
  | .pgCoreFall  => Sys2Proof.Machine.execPgCoreFall  s
  | .pgCoreTimeout  => Sys2Proof.Machine.execPgCoreTimeout  s
  | .refclkLoss  => Sys2Proof.Machine.execRefclkLoss  s
  | .vauxLoss  => Sys2Proof.Machine.execVauxLoss  s
  | .stackRailOutOfRange  => Sys2Proof.Machine.execStackRailOutOfRange  s
  | .avsbusRegulatorFault rail => Sys2Proof.Machine.execAvsbusRegulatorFault rail s
  | .hkpWatchdogExpiry  => Sys2Proof.Machine.execHkpWatchdogExpiry  s
  | .hkpReloadDone ok => Sys2Proof.Machine.execHkpReloadDone ok s
  | .configRequest k tag req => Sys2Proof.Machine.execConfigRequest k tag req s
  | .bootRomCheckDone code sfdp => Sys2Proof.Machine.execBootRomCheckDone code sfdp s
  | .bootImageLoaded ok => Sys2Proof.Machine.execBootImageLoaded ok s
  | .yareskStartDone avs => Sys2Proof.Machine.execYareskStartDone avs s
  | .bootSteepDelayExpiry  => Sys2Proof.Machine.execBootSteepDelayExpiry  s
  | .stackTrainingDone n r => Sys2Proof.Machine.execStackTrainingDone n r s
  | .bootReady  => Sys2Proof.Machine.execBootReady  s
  | .periodMark sensors => Sys2Proof.Machine.execPeriodMark sensors s
  | .periodWork die dur w => Sys2Proof.Machine.execPeriodWork die dur w s
  | .kbFrameReceived bits => Sys2Proof.Machine.execKbFrameReceived bits s
  | .kbFrameReturn bits => Sys2Proof.Machine.execKbFrameReturn bits s
  | .kbChainAcquire  => Sys2Proof.Machine.execKbChainAcquire  s
  | .kbMasterLoss  => Sys2Proof.Machine.execKbMasterLoss  s
  | .kbChainRejoin  => Sys2Proof.Machine.execKbChainRejoin  s
  | .kbChainOpen  => Sys2Proof.Machine.execKbChainOpen  s
  | .kbAdminHoldEnd  => Sys2Proof.Machine.execKbAdminHoldEnd  s
  | .jobStartRelease  => Sys2Proof.Machine.execJobStartRelease  s
  | .vcoreStep rail => Sys2Proof.Machine.execVcoreStep rail s
  | .domainPowerOn d => Sys2Proof.Machine.execDomainPowerOn d s
  | .domainPowerOff d => Sys2Proof.Machine.execDomainPowerOff d s
  | .potClearDone q => Sys2Proof.Machine.execPotClearDone q s
  | .kettleQuiesceTimeout  => Sys2Proof.Machine.execKettleQuiesceTimeout  s
  | .kbSendAdminTimeout  => Sys2Proof.Machine.execKbSendAdminTimeout  s
  | .bar4Read k tag off len => Sys2Proof.Machine.execBar4Read k tag off len s
  | .bar4Write k off data ep => Sys2Proof.Machine.execBar4Write k off data ep s
  | .bar4Atomic k tag => Sys2Proof.Machine.execBar4Atomic k tag s
  | .bar2Read k tag off len => Sys2Proof.Machine.execBar2Read k tag off len s
  | .bar2Write k off data ep => Sys2Proof.Machine.execBar2Write k off data ep s
  | .bar2Atomic k tag off width op => Sys2Proof.Machine.execBar2Atomic k tag off width op s
  | .regulatorAdmit id => Sys2Proof.Machine.execRegulatorAdmit id s
  | .kettleAdmit w => Sys2Proof.Machine.execKettleAdmit w s
  | .queueEntry id => Sys2Proof.Machine.execQueueEntry id s
  | .commandSlot pc ready exerReady cosyReady => Sys2Proof.Machine.execCommandSlot pc ready exerReady cosyReady s
  | .readDataReturn src flips => Sys2Proof.Machine.execReadDataReturn src flips s
  | .refreshInstant pc ready => Sys2Proof.Machine.execRefreshInstant pc ready s
  | .parityAlert ch => Sys2Proof.Machine.execParityAlert ch s
  | .calibrationDue pc => Sys2Proof.Machine.execCalibrationDue pc s
  | .calibrationForced pc => Sys2Proof.Machine.execCalibrationForced pc s
  | .calibrationEnd pc r => Sys2Proof.Machine.execCalibrationEnd pc r s
  | .rrefMeasurement code => Sys2Proof.Machine.execRrefMeasurement code s
  | .offlineRetrainWindow ch => Sys2Proof.Machine.execOfflineRetrainWindow ch s
  | .offlineRetrainEnd ch failLanes r0 r1 => Sys2Proof.Machine.execOfflineRetrainEnd ch failLanes r0 r1 s
  | .laneRepairWindow ch => Sys2Proof.Machine.execLaneRepairWindow ch s
  | .laneRepairEnd ch ok => Sys2Proof.Machine.execLaneRepairEnd ch ok s
  | .repairScrubDone pc => Sys2Proof.Machine.execRepairScrubDone pc s
  | .rowRepairWindow ch => Sys2Proof.Machine.execRowRepairWindow ch s
  | .rowRepairEnd ch ok => Sys2Proof.Machine.execRowRepairEnd ch ok s
  | .mapoutWindowOpen n => Sys2Proof.Machine.execMapoutWindowOpen n s
  | .mapoutReadTimeout id => Sys2Proof.Machine.execMapoutReadTimeout id s
  | .mapoutWindowClose n => Sys2Proof.Machine.execMapoutWindowClose n s
  | .stackRetireWindow n => Sys2Proof.Machine.execStackRetireWindow n s
  | .foldPrepDone n extent => Sys2Proof.Machine.execFoldPrepDone n extent s
  | .flashProgramComplete ok => Sys2Proof.Machine.execFlashProgramComplete ok s
  | .flashEraseComplete store ok => Sys2Proof.Machine.execFlashEraseComplete store ok s
  | .pourAccept  => Sys2Proof.Machine.execPourAccept  s
  | .pourComplete  => Sys2Proof.Machine.execPourComplete  s
  | .storeCompaction  => Sys2Proof.Machine.execStoreCompaction  s
  | .drainComplete t => Sys2Proof.Machine.execDrainComplete t s
  | .drainHoldTimeout id => Sys2Proof.Machine.execDrainHoldTimeout id s
  | .configDrainTimeout t => Sys2Proof.Machine.execConfigDrainTimeout t s
  | .partitionRinseTimeout t => Sys2Proof.Machine.execPartitionRinseTimeout t s
  | .rinseRecordRetry t => Sys2Proof.Machine.execRinseRecordRetry t s
  | .rinseColourRotate t => Sys2Proof.Machine.execRinseColourRotate t s
  | .rinseComplete t => Sys2Proof.Machine.execRinseComplete t s
  | .extentJoinDone t n extent => Sys2Proof.Machine.execExtentJoinDone t n extent s
  | .stackThermalSample n readings => Sys2Proof.Machine.execStackThermalSample n readings s
  | .scaldAbortTimeout w => Sys2Proof.Machine.execScaldAbortTimeout w s
  | .scaldExit n => Sys2Proof.Machine.execScaldExit n s
  | .hubThrottleStep  => Sys2Proof.Machine.execHubThrottleStep  s
  | .hubThrottleRecoveryStep  => Sys2Proof.Machine.execHubThrottleRecoveryStep  s
  | .latenessAdvisory n coll => Sys2Proof.Machine.execLatenessAdvisory n coll s
  | .selfRefreshEntry ch => Sys2Proof.Machine.execSelfRefreshEntry ch s
  | .selfRefreshExit ch => Sys2Proof.Machine.execSelfRefreshExit ch s
  | .selfRefreshExitDone ch => Sys2Proof.Machine.execSelfRefreshExitDone ch s
  | .hostLinkL2  => Sys2Proof.Machine.execHostLinkL2  s
  | .dozeL2Timeout  => Sys2Proof.Machine.execDozeL2Timeout  s
  | .descriptorFetch h => Sys2Proof.Machine.execDescriptorFetch h s
  | .descriptorStart h => Sys2Proof.Machine.execDescriptorStart h s
  | .descriptorComplete h id => Sys2Proof.Machine.execDescriptorComplete h id s
  | .waitSatisfied h => Sys2Proof.Machine.execWaitSatisfied h s
  | .waitTimeoutExpiry h => Sys2Proof.Machine.execWaitTimeoutExpiry h s
  | .infuserOpStart n => Sys2Proof.Machine.execInfuserOpStart n s
  | .infuserOpComplete n how => Sys2Proof.Machine.execInfuserOpComplete n how s
  | .peerLinkUp k => Sys2Proof.Machine.execPeerLinkUp k s
  | .peerLinkDown k => Sys2Proof.Machine.execPeerLinkDown k s
  | .peerOpenRepeat k conn => Sys2Proof.Machine.execPeerOpenRepeat k conn s
  | .peerRtoExpiry k conn => Sys2Proof.Machine.execPeerRtoExpiry k conn s
  | .peerAckSend k conn => Sys2Proof.Machine.execPeerAckSend k conn s
  | .putFrame k f => Sys2Proof.Machine.execPutFrame k f s
  | .getRequestFrame k f => Sys2Proof.Machine.execGetRequestFrame k f s
  | .getDataFrame k f => Sys2Proof.Machine.execGetDataFrame k f s
  | .reducePutFrame k f => Sys2Proof.Machine.execReducePutFrame k f s
  | .signalFrame k f => Sys2Proof.Machine.execSignalFrame k f s
  | .responseFrame k f => Sys2Proof.Machine.execResponseFrame k f s
  | .ackFrame k f => Sys2Proof.Machine.execAckFrame k f s
  | .nakFrame k f => Sys2Proof.Machine.execNakFrame k f s
  | .openFrame k f => Sys2Proof.Machine.execOpenFrame k f s
  | .openAckFrame k f => Sys2Proof.Machine.execOpenAckFrame k f s
  | .advisoryFrame k f => Sys2Proof.Machine.execAdvisoryFrame k f s
  | .heartbeatFrame k f => Sys2Proof.Machine.execHeartbeatFrame k f s
  | .mirrorFrame k f => Sys2Proof.Machine.execMirrorFrame k f s
  | .copyFrame k f => Sys2Proof.Machine.execCopyFrame k f s
  | .stateFrame k f => Sys2Proof.Machine.execStateFrame k f s
  | .handoverFrame k f => Sys2Proof.Machine.execHandoverFrame k f s
  | .pauseFrame k quanta classes => Sys2Proof.Machine.execPauseFrame k quanta classes s
  | .twinHeartbeatMark  => Sys2Proof.Machine.execTwinHeartbeatMark  s
  | .twinLagBoundExpiry t => Sys2Proof.Machine.execTwinLagBoundExpiry t s
  | .twinBootWaitExpiry  => Sys2Proof.Machine.execTwinBootWaitExpiry  s
  | .twinTakeoverTimeout t => Sys2Proof.Machine.execTwinTakeoverTimeout t s
  | .resyncComplete t => Sys2Proof.Machine.execResyncComplete t s
  | .dumpMark consumers => Sys2Proof.Machine.execDumpMark consumers s
  | .spoutRingFault ring fault => Sys2Proof.Machine.execSpoutRingFault ring fault s
  | .mctpCommandMessage message hostIn => Sys2Proof.Machine.execMctpCommandMessage message hostIn s
  | .mctpTelemetryCounters first count => Sys2Proof.Machine.execMctpTelemetryCounters first count s
  | .mctpTelemetryLog first count => Sys2Proof.Machine.execMctpTelemetryLog first count s
  | .mctpTelemetrySpoutStatus  => Sys2Proof.Machine.execMctpTelemetrySpoutStatus  s
  | .exerRunDone n => Sys2Proof.Machine.execExerRunDone n s
  | .exerRestoreDone n => Sys2Proof.Machine.execExerRestoreDone n s
  | .refclkReturn  => Sys2Proof.Machine.execRefclkReturn  s
  | .vauxReturn  => Sys2Proof.Machine.execVauxReturn  s
  | .perstNRise  => Sys2Proof.Machine.execPerstNRise  s
  | .configSpaceLoaded  => Sys2Proof.Machine.execConfigSpaceLoaded  s
  | .tapInstructionUpdate op => Sys2Proof.Machine.execTapInstructionUpdate op s
  | .tapTestLogicReset  => Sys2Proof.Machine.execTapTestLogicReset  s
  | .mctpSetEndpointId eid => Sys2Proof.Machine.execMctpSetEndpointId eid s
  | .smbusClockLowTimeout  => Sys2Proof.Machine.execSmbusClockLowTimeout  s
  | .badPeerFrame k why => Sys2Proof.Machine.execBadPeerFrame k why s
  | .pauseTimeExpiry k => Sys2Proof.Machine.execPauseTimeExpiry k s

end Sys2Proof.Machine
end

