-- ==== Sys2Proof/Machine/Idle.lean ====
section
/-! DEFINITION. What a step does on an empty queue: the timebase counts one tick while REFCLK is present (R9, R103), and
a tick that reaches a multiple of 1024 carries its mark out (R24), with the hub's temperature as it was last read.
DESIGN CHOICE: the table of commands has no row for a tick. -/

namespace Sys2Proof.Machine

/-- The hub's reading when nothing new is read: the last one, or none while its sensors fail. -/
def lastSensors (s : State) : List Int := if s.hub.sensorsFailed then [] else [s.hub.tj * 250]

/-- One tick of the timebase; the last tick of a period is its next mark. -/
def tick (s : State) : State :=
  if !s.pins.refclk then s
  else if (now s + 1) % 1024 = 0 && s.pins.vaux then periodMark (lastSensors s) s
  else muxWords (now s) { s with clock := { s.clock with timebase := (s.clock.timebase + 1) % 2 ^ 64 } }

end Sys2Proof.Machine
end

