-- ==== Sys2Proof/Safety.lean ====
section
/-! DEFINITION. The terms that statements about the block use: when a mailbox command is taken, what a steep stages, the
canonical form of stored contents, and which parts of the state a command leaves as they are. -/

namespace Sys2Proof.Machine

open Sys2Proof

/-- The device takes a mailbox command: it serves mailboxes, the command's turn has come and it has a place (R119, R137),
and Table 20.2 lets its issuer send it for its target (R19, R117, R134, R165, R167). -/
abbrev Accepted (op : Nat) (c : Cmd) (s : State) : Prop := taken op c s = true ∧ gate op c s = none

/-- The issuer's staging area with entries added (R145). -/
def stagedWith (c : Cmd) (es : List (Nat × List Nat)) (s : State) : Table (List Nat) :=
  es.foldl (fun t e => tput t e.1 e.2) (staged s (cmdArea c))

/-- The area has room for the entries (R145). -/
abbrev Room (c : Cmd) (es : List (Nat × List Nat)) (s : State) : Prop := (stagedWith c es s).length ≤ areaSize (cmdArea c)

/-- s with entries staged in the issuer's area. -/
def afterSteep (c : Cmd) (es : List (Nat × List Nat)) (s : State) : State :=
  { s with cfg := { s.cfg with areas := tset [] s.cfg.areas (cmdArea c) (stagedWith c es s) } }

/-- Every stored content is in canonical form. -/
abbrev State.wf (s : State) : Prop := Memory.wf s.ident.big s.hbm ∧ Pot.wf s.pot

/-- A byte of a stored HBM sector, 0 to 35, as the state holds it. -/
def stored (s : State) (q i : Nat) : Byte := storedByte s.ident.big s.hbm q i

/-- Every stored byte of HBM and of the pot is what it was. -/
abbrev SameContents (s t : State) : Prop :=
  (∀ q i, stored t q i = stored s q i) ∧ (∀ o, potByte t o = potByte s o) ∧ t.pot.flagged = s.pot.flagged

/-- The configuration in force is what it was. -/
abbrev SameConfig (s t : State) : Prop := t.cfg.inForce = s.cfg.inForce ∧ t.flash.store = s.flash.store

/-- The condition under which a port takes a frame for connection c: its link is up, the frame is addressed to it, and c
is the enabled connection with the frame's source address (R411, R414). -/
abbrev RxFor (k : Fin 4) (f : Frame) (c : Nat) (s : State) : Prop :=
  linkUp s k.val = true ∧ f.dst = portMac s k.val ∧ connFor s k.val f = some c

/-- The condition under which a sequenced frame is the next one of connection c; s1 is the state with the frame counted
and its acknowledgement taken (R416, R417). -/
abbrev RxNext (k : Fin 4) (type : Nat) (f : Frame) (c : Nat) (s s1 : State) : Prop :=
  RxFor k f c s ∧ s1 = takeHeader k.val c f.ack f.window (countRx k.val type f s) ∧ (connOf s1 k.val c).phase = 2 ∧
    f.seq = (connOf s1 k.val c).rxExpect

/-- Nothing waits for the engines' turn: every access is the host's, no list, infuser operation, received frame, mirrored
write or collective is under way, and no BENCH_ENTER waits. -/
abbrev EnginesIdle (s : State) : Prop :=
  (∀ a ∈ s.path.accesses, a.owner = .host) ∧ s.compute.lists = [] ∧ s.infusers = [] ∧ s.peers.held = [] ∧
    s.twin.parts = [] ∧ s.late.colls = [] ∧ benchWaiting s = []

/-! ## Which commands may change which part of the state -/

/-- The commands that may change what HBM or the pot holds, or the state of the pot: the gates and the events of the
channels, at which accesses take effect, and what clears, loses or moves contents. -/
def mayStore : Instr → Bool
  | .porNRise _ | .perstNLow | .hostHotReset | .warmResetDelayExpiry | .stackRailOutOfRange | .stackTrainingDone _ _
  | .yareskStartDone _ | .bootReady | .periodWork _ _ _ | .potClearDone _ | .bar2Read _ _ _ _ | .bar2Write _ _ _ _
  | .bar2Atomic _ _ _ _ _ | .regulatorAdmit _ | .kettleAdmit _ | .queueEntry _ | .commandSlot _ _ _ _
  | .readDataReturn _ _ | .rowRepairEnd _ _ | .mapoutWindowClose _ | .foldPrepDone _ _ | .rinseColourRotate _
  | .extentJoinDone _ _ _ | .scaldAbortTimeout _ | .infuserOpComplete _ _ | .exerRestoreDone _ | .tapInstructionUpdate _
  | .tapTestLogicReset => true
  | _ => false

/-- The commands that may change the configuration in force: what a pour switches at the foot dies' period work, what
boot restores, a stack's retirement and a rinse's new colour. -/
def mayConfigure : Instr → Bool
  | .porNRise _ | .perstNLow | .hostHotReset | .warmResetDelayExpiry | .yareskStartDone _ | .stackTrainingDone _ _
  | .bootReady | .periodWork _ _ _ | .stackRetireWindow _ | .rinseColourRotate _ | .tapInstructionUpdate _
  | .tapTestLogicReset => true
  | _ => false

/-- The commands that may change the timebase or the period number. -/
def mayMoveTime : Instr → Bool
  | .porNRise _ | .periodMark _ => true
  | _ => false

/-- The commands that may change the debug level, the nonce, the TAP's instruction or what the debug mux has noted of the
marks and heartbeats. -/
def mayChangeDebug : Instr → Bool
  | .porNRise _ | .testNonce _ | .testUnlock _ | .hostAccessFault _ _ _ _ | .perstNRise | .perstNLow | .hostHotReset
  | .warmResetDelayExpiry | .periodMark _ | .heartbeatFrame _ _ | .twinHeartbeatMark | .tapInstructionUpdate _
  | .tapTestLogicReset => true
  | _ => false

/-- The symbol at position p of the 37 that a reader under a colour forms of a sector's stored bytes (R255, R256). -/
def symbolAt (colour : Byte) (stored : List Byte) (p : Nat) : Byte := (colour :: padTo 36 stored).getD (36 - p) 0

/-- A sector's stored bytes with v added to stored byte i. -/
def hitByte (stored : List Byte) (i : Nat) (v : Byte) : List Byte := stored.set i (stored.getD i 0 ^^^ v)

end Sys2Proof.Machine
end

