-- ==== Sys2Proof/Certificates/Slice0/Obligations.lean ====
section
/-! DEFINITION. The statements about the block, for the provers. Each statement of what a command does has as its
conclusion the next state that `exec` answers, from conditions on the state and the operands alone. -/

open Sys2Proof
open Sys2Proof.Machine

/-! ## The queue and reset -/

/-- One step runs the command at the front of the queue with the queue's rest, and on an empty queue one tick passes
(model's choice: log entry 3, since the table has no row for a tick): the timebase counts, and nothing else changes but the
words of the debug-mux ports; a tick to a multiple of 1024 is the next period mark (R24). No command has a word, so no word
puts a command into the queue (the opcode table gives no row bits). -/
def Obligations.StepRunsFrontCommand : Prop :=
  (∀ (c : Instr) (s : State) (rest : List Instr),
    step { s with pending := c :: rest } = exec c { s with pending := rest }) ∧
  (∀ s : State, step { s with pending := [] } = .next (tick { s with pending := [] })) ∧
  (∀ s : State, s.pins.refclk = true → (s.pins.vaux = false ∨ (s.clock.timebase + 1) % 1024 ≠ 0) →
    tick s = { s with
      clock := { s.clock with timebase := (s.clock.timebase + 1) % 2 ^ 64 },
      dbg := { s.dbg with mux0 := (tick s).dbg.mux0, mux1 := (tick s).dbg.mux1 },
      freeCount := (tick s).freeCount }) ∧
  (∀ s : State, s.pins.refclk = true → s.pins.vaux = true → (s.clock.timebase + 1) % 1024 = 0 →
    tick s = periodMark (lastSensors s) s ∧ (tick s).clock.timebase = (s.clock.timebase + 1) % 2 ^ 64 ∧
    (tick s).clock.mark = (s.clock.timebase + 1) / 1024) ∧
  (∀ s : State, s.pins.refclk = false → tick s = s) ∧
  (∀ (nbits w : Nat) (s : State), decodeTableWord nbits w = none ∧ s.withFetchWord nbits w = s)

/-! ## General, admin and configuration commands (Tables 5.4, 5.7, 5.8) -/

/-- IDENTIFY, CAPABILITIES, FW_VERSION, FUNCTION_GET_PERM, CONFIG_STATUS, CONFIG_STORE_INFO, BOOT_STATUS and FLASH_INFO
complete with OK and the result that Tables 4.10, 5.7 and 5.8 lay out. -/
def Obligations.AdminReads : Prop :=
  (∀ c s, Accepted 0x0001 c s → exec (.identify c) s =
    .next (finish 0x0001 c stOK ([if s.ident.big then 2 else 1, 0x21, 0x12, 0x00] ++ leBytes 4 (runningRelease s) ++
      leBytes 8 s.ident.serial.toNat) s)) ∧
  (∀ c s, Accepted 0x0002 c s → par c 0 8 % 64 = 0 → 1 ≤ par c 8 2 → par c 8 2 ≤ 256 →
    exec (.capabilities c) s =
      .next (finish 0x0002 c stOK (leBytes 2 (par c 8 2))
        (emit (.hostWrite (cmdFn c) (par c 0 8) ((capabilityBytes s).take (par c 8 2))) s))) ∧
  (∀ c s, Accepted 0x0003 c s → exec (.fwVersion c) s =
    .next (finish 0x0003 c stOK (leBytes 4 (runningRelease s) ++ leBytes 4 s.ident.romVersion.toNat ++
      leBytes 4 (runningCrc s) ++ leBytes 2 1 ++ leBytes 2 1) s)) ∧
  (∀ c s, Accepted 0x0005 c s → cmdPf c = true → 1 ≤ par c 0 2 → par c 0 2 ≤ 0x80 → par c 2 1 = 0 →
    exec (.functionGetPerm c) s = .next (finish 0x0005 c stOK (leBytes 4 (permWord s (par c 0 2))) s)) ∧
  (∀ c s, Accepted 0x0102 c s → exec (.configStatus c) s =
    .next (finish 0x0102 c stOK (leBytes 4 s.cfg.serial.toNat ++ leBytes 1 s.cfg.lastState ++ [0] ++
      leBytes 2 (staged s (cmdArea c)).length ++ leBytes 4 (tget 0 s.cfg.fnSerial (cmdArea c)).toNat ++
      leBytes 2 (closedTenants s).length ++ leBytes 2 (drainedTenants s).length) s)) ∧
  (∀ c s, Accepted 0x0106 c s → exec (.configStoreInfo c) s =
    .next (finish 0x0106 c stOK (leBytes 1 s.flash.store.half ++
      leBytes 1 (flag s.flash.store.valid 0 + flag s.flash.store.compacting 1) ++ [0, 0] ++
      leBytes 4 s.flash.store.generation ++ leBytes 4 s.flash.store.freeBytes ++ leBytes 4 s.flash.store.records) s)) ∧
  (∀ c s, Accepted 0x0042 c s → exec (.bootStatus c) s =
    .next (finish 0x0042 c stOK (leBytes 1 s.boot.lastReset ++
      leBytes 1 (flag (s.boot.bootedBank == 1) 0 + flag s.boot.byNext 1) ++ leBytes 1 (onlineMask s) ++
      leBytes 1 (retiredMask s) ++ leBytes 4 s.boot.romUs ++ leBytes 4 s.boot.bootUs ++
      leBytes 2 (s.parts.filter (fun e => e.2.incomplete)).length ++ leBytes 2 s.boot.hkpRestarts) s)) ∧
  (∀ c s f, Accepted 0x0F05 c s → s.flash.sfdp = some f → exec (.flashInfo c) s =
    .next (finish 0x0F05 c stOK (leBytes 3 f.jedec.toNat ++ [0] ++ leBytes 4 f.sizeMiB ++ leBytes 1 (min 104 f.quadMHz) ++
      leBytes 1 (flag f.suspend 0) ++ [0, 0] ++ leBytes 4 f.blockEraseMs) s))

/-- CONFIG_DISCARD empties the issuer's staging area and answers how many entries it held; CONFIG_UNDO stages what the
items held before the issuer's last completed pour; CONFIG_POUR joins the pours that wait for their turn. -/
def Obligations.StagingCommands : Prop :=
  (∀ c s, Accepted 0x0101 c s → exec (.configDiscard c) s =
    .next (finish 0x0101 c stOK (leBytes 2 (staged s (cmdArea c)).length)
      { s with cfg := { s.cfg with areas := terase s.cfg.areas (cmdArea c),
                                   areaPersist := terase s.cfg.areaPersist (cmdArea c) } })) ∧
  (∀ c s, Accepted 0x0103 c s → staged s (cmdArea c) = [] → tget [] s.cfg.undo (cmdArea c) ≠ [] →
    exec (.configUndo c) s =
      .next (finish 0x0103 c stOK (leBytes 2 (tget [] s.cfg.undo (cmdArea c)).length)
        { s with cfg := { s.cfg with
            areas := tput s.cfg.areas (cmdArea c) (tget [] s.cfg.undo (cmdArea c)),
            areaPersist := tset false s.cfg.areaPersist (cmdArea c) (tget false s.cfg.undoPersist (cmdArea c)) } })) ∧
  (∀ c s, Accepted 0x0100 c s → exec (.configPour c) s =
    .next (hold 0x0100 c { s with cfg := { s.cfg with
      waiting := s.cfg.waiting ++ [{ cmd := c, persist := bitOf (par c 0 1) 0, reopen := bitOf (par c 0 1) 1 }] } }))

/-- CONFIG_DRAIN and CONFIG_OPEN close and open the target's partition; PARTITION_RINSE closes it and starts to drain;
RINSE_CONTROL changes no more than the rinse's suspension, and reports. Each answers the next state that it names by the
shared operations, and what that state holds of the partition is said beside it. -/
def Obligations.PartitionProcedures : Prop :=
  (∀ c s k d, Accepted 0x0104 c s → par c 0 2 ≠ 0 → k = cmdTarget c →
    d = (partOf s k).drainCmds ++ [(c, s.clock.timebase + msTicks (par c 0 2))] →
    exec (.configDrain c) s =
      .next (hold 0x0104 c (modPart k (fun p => { p with drainCmds := d }) (closePart k s))) ∧
    (partOf (modPart k (fun p => { p with drainCmds := d }) (closePart k s)) k).closed = true ∧
    (partOf (modPart k (fun p => { p with drainCmds := d }) (closePart k s)) k).drainCmds = d ∧
    ∀ u ≠ k, partOf (closePart k s) u = partOf s u) ∧
  (∀ c s, Accepted 0x0105 c s →
    exec (.configOpen c) s =
      .next (finish 0x0105 c stOK (leBytes 4 (heldCount s (cmdTarget c))) (openPart (cmdTarget c) s)) ∧
    (partOf (openPart (cmdTarget c) s) (cmdTarget c)).closed = false ∧
    (∀ r ∈ (openPart (cmdTarget c) s).path.reqs, r.tenant = cmdTarget c → r.place ≠ .held) ∧
    ∀ u ≠ cmdTarget c, partOf (openPart (cmdTarget c) s) u = partOf s u) ∧
  (∀ c s t, Accepted 0x0206 c s → par c 0 2 ≠ 0 → rinseIncomplete s (cmdTarget c) = false →
    t = startRinse (cmdTarget c) [(c, s.clock.timebase + msTicks (par c 0 2))] s →
    exec (.partitionRinse c) s = .next (hold 0x0206 c t) ∧ (partOf t (cmdTarget c)).closed = true ∧
    ∃ r, (partOf t (cmdTarget c)).rinse = some r ∧ (c, s.clock.timebase + msTicks (par c 0 2)) ∈ r.cmds) ∧
  (∀ c s t, Accepted 0x0207 c s → par c 0 1 ≤ 2 →
    t = modPart (cmdTarget c) (fun p => { p with
      suspended := if par c 0 1 = 1 then true else if par c 0 1 = 2 then false else p.suspended }) s →
    exec (.rinseControl c) s = .next (finish 0x0207 c stOK (rinseControlResult t (cmdTarget c)) t) ∧
    (partOf t (cmdTarget c)).suspended =
      (par c 0 1 = 1 ∨ (par c 0 1 = 0 ∧ (partOf s (cmdTarget c)).suspended = true) : Bool) ∧
    (partOf t (cmdTarget c)).rinse = (partOf s (cmdTarget c)).rinse)

/-- PARTITION_INFO, ADDRESS_TRANSLATE, REMAP_READ and REGULATOR_STATUS report the partition, the place of a tenant
address, the remap table and a regulator (Tables 6.9, 6.10). -/
def Obligations.PartitionReports : Prop :=
  (∀ c s, Accepted 0x0205 c s → par c 0 8 % 64 = 0 → exec (.partitionInfo c) s =
    .next (finish 0x0205 c stOK
      (leBytes 1 (partState s (cmdTarget c)) ++ [colourOf s (cmdTarget c)] ++
        leBytes 2 (partitionRecord s (cmdTarget c)).length)
      (emit (.hostWrite (cmdFn c) (par c 0 8) (partitionRecord s (cmdTarget c))) s))) ∧
  (∀ c s g, Accepted 0x0208 c s → 2 ^ 39 ≤ par c 0 5 → bitsOf (par c 0 5) 27 12 = 0 →
    (grainsOf s (cmdTarget c))[bitsOf (par c 0 5) 20 7]? = some g →
    exec (.addressTranslate c) s =
      .next (finish 0x0208 c stOK (leBytes 5 (2 ^ 39 + g * 1048576 + par c 0 5 % 1048576)) s)) ∧
  (∀ c s n x o, Accepted 0x0208 c s → par c 0 5 < 2 ^ 39 → translateExtent s (cmdTarget c) (par c 0 5) = .inl (n, x, o) →
    exec (.addressTranslate c) s = .next (finish 0x0208 c stOK (translateResult s (cmdTarget c) n x o) s)) ∧
  (∀ c s, Accepted 0x0209 c s → par c 0 1 < 8 → exec (.remapRead c) s =
    .next (finish 0x0209 c stOK []
      (emit (.hostWrite (cmdFn c) (par c 8 8)
        ((List.range 64).map (fun i =>
          BitVec.ofNat 8 (i + (if (stackOf s (par c 0 1)).mapped.contains (i / 2) then 128 else 0))))) s))) ∧
  (∀ c s i b, Accepted 0x020A c s → par c 0 1 < 8 → par c 1 1 ≤ 1 → i = regKey (cmdTarget c) (par c 0 1) →
    b = bucketOf s (cmdTarget c) (par c 0 1) →
    exec (.regulatorStatus c) s =
      .next (finish 0x020A c stOK
        ((if par c 1 1 = 0 then leBytes 4 b.tokens ++ leBytes 4 (cfgN s 0x0204 1 i) ++ leBytes 4 (cfgN s 0x0204 2 i) ++
            leBytes 1 (cfgN s 0x0204 0 i)
          else leBytes 4 0 ++ leBytes 4 (((tfind (staged s (cmdArea c)) (cfgKey 0x0204 1 i)).getD
              (cfgList s 0x0204 1 i)).headD 0) ++
            leBytes 4 (((tfind (staged s (cmdArea c)) (cfgKey 0x0204 2 i)).getD (cfgList s 0x0204 2 i)).headD 0) ++
            leBytes 1 (((tfind (staged s (cmdArea c)) (cfgKey 0x0204 0 i)).getD (cfgList s 0x0204 0 i)).headD 0)) ++
          leBytes 1 (if tget 0 (fnOf s (cmdFn c)).tokenSeen i < b.waits then 1 else 0))
        (modFn (cmdFn c) (fun f => { f with tokenSeen := tset 0 f.tokenSeen i b.waits }) s)))

/-! ## Steep commands (R144 to R146, Table 5.12): each stages one entry per field it names -/

/-- The kettle and power steeps stage their fields when each is in its range (R37, R38, R72, R87, R92). The partition
steeps stage a partition's extents, colour and grains, hash masks and a regulator (R165, R174, R179 to R185, R194,
R196). -/
def Obligations.PowerAndPartitionSteeps : Prop :=
  (∀ c s es, Accepted 0x0801 c s →
    (bitOf (par c 20 1) 0 = true → 100 ≤ par c 0 4 ∧ par c 0 4 ≤ 100000) →
    (bitOf (par c 20 1) 1 = true → 100 ≤ par c 4 4 ∧ par c 4 4 ≤ 100000) →
    (bitOf (par c 20 1) 2 = true → 700000 ≤ par c 8 4 ∧ par c 8 4 ≤ 1600000) →
    (bitOf (par c 20 1) 3 = true → par c 12 4 ≤ 1600000) →
    (bitOf (par c 20 1) 4 = true → par c 16 2 ≤ 65535) →
    (bitOf (par c 20 1) 5 = true → 64 ≤ par c 18 2 ∧ par c 18 2 ≤ 65535) →
    es = ((List.range 6).filter (fun i => bitOf (par c 20 1) i)).map (fun i =>
      (cfgKey 0x0801 i 0, [[par c 0 4, par c 4 4, par c 8 4, par c 12 4, par c 16 2, par c 18 2].getD i 0])) →
    Room c es s → exec (.kettleSteepLimits c) s = .next (finish 0x0801 c stOK [] (afterSteep c es s))) ∧
  (∀ c s es, Accepted 0x0803 c s → (∀ i < 8, 2048 ≤ par c (2 * i) 2 ∧ par c (2 * i) 2 ≤ 8192) →
    es = [(cfgKey 0x0803 0 0, (List.range 8).map (fun i => par c (2 * i) 2))] → Room c es s →
    exec (.kettleSteepTrim c) s = .next (finish 0x0803 c stOK [] (afterSteep c es s))) ∧
  (∀ c s es, Accepted 0x0806 c s → par c 0 4 ≤ 1048575 → par c 4 4 ≤ 1048575 →
    (∀ i < 8, bitsOf (par c 8 2) (2 * i) 2 ≠ 3) →
    es = [(cfgKey 0x0806 0 0, [par c 0 4]), (cfgKey 0x0806 1 0, [par c 4 4]), (cfgKey 0x0806 2 0, [par c 8 2])] →
    Room c es s → exec (.kbSteepMaster c) s = .next (finish 0x0806 c stOK [] (afterSteep c es s))) ∧
  (∀ c s es, Accepted 0x080A c s → (∀ d < 96, (par c 0 12).testBit d = true → mayGate d = true) →
    (∀ t < 16, (par c 0 12).testBit (2 * t) = (par c 0 12).testBit (2 * t + 1)) →
    es = [(cfgKey 0x080A 0 0, [par c 0 12])] → Room c es s →
    exec (.pdSteepGate c) s = .next (finish 0x080A c stOK [] (afterSteep c es s))) ∧
  (∀ c s es, Accepted 0x080C c s → s.power.avsAbsent = false →
    (∀ i < 5, bitOf (par c 10 1) i = true → 600 ≤ par c (2 * i) 2 ∧ par c (2 * i) 2 ≤ 850 ∧ par c (2 * i) 2 % 5 = 0) →
    es = ((List.range 5).filter (fun i => bitOf (par c 10 1) i)).map (fun i => (cfgKey 0x080C i 0, [par c (2 * i) 2])) →
    Room c es s → exec (.vcoreSteepTarget c) s = .next (finish 0x080C c stOK [] (afterSteep c es s))) ∧
  (∀ c s es, Accepted 0x0004 c s → 1 ≤ par c 0 2 → par c 0 2 ≤ 0x80 → par c 4 4 < 2 ^ 19 →
    es = [(cfgKey 0x0004 0 (par c 0 2), [par c 4 4])] → Room c es s →
    exec (.functionSteepPerm c) s = .next (finish 0x0004 c stOK [] (afterSteep c es s))) ∧
  (∀ c s es, Accepted 0x0200 c s → par c 0 1 < 8 → par c 2 2 ≤ 256 → rinseIncomplete s (cmdTarget c) = false →
    es = [(cfgKey 0x0200 0 (cmdTarget c * 8 + par c 0 1), (List.range (par c 2 2)).map (fun i => hostAt c (2 * i) 2))] →
    Room c es s → exec (.partitionSteepExtents c) s = .next (finish 0x0200 c stOK [] (afterSteep c es s))) ∧
  (∀ c s es, Accepted 0x0201 c s → par c 0 1 ≠ 0 → rinseIncomplete s (cmdTarget c) = false →
    es = [(cfgKey 0x0201 0 (cmdTarget c), [par c 0 1])] → Room c es s →
    exec (.partitionSteepColour c) s = .next (finish 0x0201 c stOK [] (afterSteep c es s))) ∧
  (∀ c s es, Accepted 0x0202 c s → par c 0 2 ≤ 128 → (∀ i < par c 0 2, hostAt c i 1 < 128) →
    rinseIncomplete s (cmdTarget c) = false →
    es = [(cfgKey 0x0202 0 (cmdTarget c), (List.range (par c 0 2)).map (fun i => hostAt c i 1))] → Room c es s →
    exec (.partitionSteepPot c) s = .next (finish 0x0202 c stOK [] (afterSteep c es s))) ∧
  (∀ c s es, Accepted 0x0203 c s → par c 0 1 < 8 →
    es = [(cfgKey 0x0203 0 (par c 0 1), (List.range 10).map (fun i => par c (4 + 4 * i) 4 % 2 ^ 26 * 1024))] →
    Room c es s → exec (.hashSteepMasks c) s = .next (finish 0x0203 c stOK [] (afterSteep c es s))) ∧
  (∀ c s es, Accepted 0x0204 c s → (par c 0 1 < 8 ∨ par c 0 1 = 0xFF) → 1 ≤ par c 4 4 → par c 4 4 ≤ 131072 →
    64 ≤ par c 8 4 → par c 8 4 ≤ 16777216 →
    es = (if par c 0 1 = 0xFF then List.range 8 else [par c 0 1]).flatMap (fun n =>
      [(cfgKey 0x0204 0 (cmdTarget c * 8 + n), [par c 1 1 % 4]), (cfgKey 0x0204 1 (cmdTarget c * 8 + n), [par c 4 4]),
       (cfgKey 0x0204 2 (cmdTarget c * 8 + n), [par c 8 4])]) →
    Room c es s → exec (.regulatorSteep c) s = .next (finish 0x0204 c stOK [] (afterSteep c es s)))

/-- The scheduling, disturbance, integrity, thermal, tile, spout and debug steeps (R206, R208, R232, R235, R237,
R258, R351, R368, R448, R470). The peer and twin steeps (R414, R421, R429, R433, R443). -/
def Obligations.PolicySteeps : Prop :=
  (∀ c s es, Accepted 0x0300 c s → (par c 0 1 < 26 ∨ par c 0 1 = 0xFF) →
    (par c 4 4 = 0 ∨ (128 ≤ par c 4 4 ∧ par c 4 4 ≤ 16777215)) →
    es = (if par c 0 1 = 0xFF then List.range 26 else [par c 0 1]).map (fun q =>
      (cfgKey 0x0300 0 (cmdTarget c * 32 + q), [par c 4 4])) →
    Room c es s → exec (.latencySteepTargets c) s = .next (finish 0x0300 c stOK [] (afterSteep c es s))) ∧
  (∀ c s es, Accepted 0x0303 c s → (par c 0 2 < 512 ∨ par c 0 2 = 0xFFFF) → 2 ≤ par c 2 1 → par c 2 1 ≤ 56 →
    par c 3 1 ≤ 54 → 1 ≤ par c 4 1 → par c 4 1 ≤ 32 → 1 ≤ par c 5 1 → par c 5 1 ≤ 64 →
    es = [(cfgKey 0x0303 0 (par c 0 2), [par c 2 1]), (cfgKey 0x0303 1 (par c 0 2), [par c 3 1]),
          (cfgKey 0x0303 2 (par c 0 2), [par c 4 1]), (cfgKey 0x0303 3 (par c 0 2), [par c 5 1])] →
    Room c es s → exec (.schedSteepPolicy c) s = .next (finish 0x0303 c stOK [] (afterSteep c es s))) ∧
  (∀ c s es, Accepted 0x0401 c s → (par c 0 2 < 256 ∨ par c 0 2 = 0xFFFF) → par c 2 1 ≤ 1 →
    es = [(cfgKey 0x0401 0 (par c 0 2), [par c 2 1])] → Room c es s →
    exec (.disturbSteepMode c) s = .next (finish 0x0401 c stOK [] (afterSteep c es s))) ∧
  (∀ c s es, Accepted 0x0402 c s → (par c 0 2 < 512 ∨ par c 0 2 = 0xFFFF) →
    (bitOf (par c 10 1) 0 = true → 28672 ≤ par c 4 4 ∧ par c 4 4 ≤ 1048575) →
    (bitOf (par c 10 1) 1 = true → 1 ≤ par c 8 1 ∧ par c 8 1 ≤ 32) →
    (bitOf (par c 10 1) 2 = true → 1 ≤ par c 9 1 ∧ par c 9 1 ≤ 32) →
    es = ((List.range 3).filter (fun i => bitOf (par c 10 1) i)).map (fun i =>
      (cfgKey 0x0402 i (par c 0 2), [[par c 4 4, par c 8 1, par c 9 1].getD i 0])) →
    Room c es s → exec (.disturbSteepLimits c) s = .next (finish 0x0402 c stOK [] (afterSteep c es s))) ∧
  (∀ c s es, Accepted 0x0501 c s → (par c 0 1 < 8 ∨ par c 0 1 = 0xFF) → par c 1 1 ≤ 2 →
    es = (if par c 0 1 = 0xFF then List.range 8 else [par c 0 1]).map (fun n => (cfgKey 0x0501 0 n, [par c 1 1])) →
    Room c es s → exec (.integritySteepPolicy c) s = .next (finish 0x0501 c stOK [] (afterSteep c es s))) ∧
  (∀ c s es, Accepted 0x0903 c s → 5 ≤ par c 1 1 → par c 1 1 ≤ 100 →
    es = [(cfgKey 0x0903 0 0, [par c 0 1 % 32]), (cfgKey 0x0903 1 0, [par c 1 1])] → Room c es s →
    exec (.thermalSteepAdvisory c) s = .next (finish 0x0903 c stOK [] (afterSteep c es s))) ∧
  (∀ c s es, Accepted 0x0A04 c s → par c 0 2 ≠ 0 → par c 2 1 ≤ 3 → par c 4 2 ≠ 0 →
    es = [(cfgKey 0x0A04 0 (cmdTarget c), [par c 0 2]), (cfgKey 0x0A04 1 (cmdTarget c), [par c 2 1]),
          (cfgKey 0x0A04 2 (cmdTarget c), [par c 4 2])] →
    Room c es s → exec (.tileSteepPolicy c) s = .next (finish 0x0A04 c stOK [] (afterSteep c es s))) ∧
  (∀ c s es, Accepted 0x0D00 c s → par c 0 4 % 64 = 0 → par c 0 4 ≤ 1048576 → 2 ≤ par c 4 2 → par c 4 2 ≤ 4096 →
    par c 8 8 % 4096 = 0 →
    es = [(cfgKey 0x0D00 0 0, [par c 0 4]), (cfgKey 0x0D00 1 0, [par c 4 2]), (cfgKey 0x0D00 2 0, [par c 8 8])] →
    Room c es s → exec (.spoutSteep c) s = .next (finish 0x0D00 c stOK [] (afterSteep c es s))) ∧
  (∀ c s es, Accepted 0x0E00 c s → par c 0 1 ≤ 1 → par c 1 1 ≤ 11 →
    3 ≤ par c 4 1 → par c 4 1 ≤ 10 →
    es = [(cfgKey 0x0E00 0 (par c 0 1), [par c 1 1]), (cfgKey 0x0E00 1 (par c 0 1), [par c 2 2]),
          (cfgKey 0x0E00 2 (par c 0 1), [par c 4 1])] →
    Room c es s → exec (.debugSteepMux c) s = .next (finish 0x0E00 c stOK [] (afterSteep c es s))) ∧
  (∀ c s es, Accepted 0x0C01 c s → par c 0 1 < 4 → bitsOf (par c 1 1) 4 2 ≠ 3 → 0x0600 ≤ par c 8 2 →
    es = [(cfgKey 0x0C01 0 (par c 0 1), [par c 1 1 % 64]), (cfgKey 0x0C01 1 (par c 0 1), [beAt c.params 2 6]),
          (cfgKey 0x0C01 2 (par c 0 1), [par c 8 2]), (cfgKey 0x0C01 3 (par c 0 1), [par c 10 2]),
          (cfgKey 0x0C01 4 (par c 0 1), [par c 12 1]), (cfgKey 0x0C01 5 (par c 0 1), [beAt c.params 14 6])] →
    Room c es s → exec (.peerSteepPort c) s = .next (finish 0x0C01 c stOK [] (afterSteep c es s))) ∧
  (∀ c s es, Accepted 0x0C02 c s → par c 0 1 < 4 → par c 1 1 < 64 → 2 ≤ par c 10 2 →
    es = [(cfgKey 0x0C02 0 (par c 0 1 * 64 + par c 1 1), [beAt c.params 2 6]),
          (cfgKey 0x0C02 1 (par c 0 1 * 64 + par c 1 1), [par c 8 1 % 2]),
          (cfgKey 0x0C02 2 (par c 0 1 * 64 + par c 1 1), [par c 10 2]),
          (cfgKey 0x0C02 3 (par c 0 1 * 64 + par c 1 1), [par c 16 16])] →
    Room c es s → exec (.peerSteepConn c) s = .next (finish 0x0C02 c stOK [] (afterSteep c es s))) ∧
  (∀ c s es, Accepted 0x0C03 c s → par c 0 2 < 4096 → par c 4 2 < 128 → par c 6 2 < 128 → par c 8 8 < 2 ^ 40 →
    par c 16 8 % 32 = 0 →
    es = [(cfgKey 0x0C03 0 (par c 0 2), [par c 2 1 % 2]), (cfgKey 0x0C03 1 (par c 0 2), [par c 3 1]),
          (cfgKey 0x0C03 2 (par c 0 2), [par c 4 2]), (cfgKey 0x0C03 3 (par c 0 2), [par c 6 2]),
          (cfgKey 0x0C03 4 (par c 0 2), [par c 8 8]), (cfgKey 0x0C03 5 (par c 0 2), [par c 16 8])] →
    Room c es s → exec (.peerSteepHandle c) s = .next (finish 0x0C03 c stOK [] (afterSteep c es s))) ∧
  (∀ c s es, Accepted 0x0C05 c s → (par c 0 1 < 4 ∨ par c 0 1 = 0xFF) → 1 ≤ par c 2 2 → par c 2 2 ≤ 60000 →
    es = [(cfgKey 0x0C05 0 0, [par c 0 1]), (cfgKey 0x0C05 1 0, [par c 1 1 % 2]), (cfgKey 0x0C05 2 0, [par c 2 2])] →
    Room c es s → exec (.twinSteep c) s = .next (finish 0x0C05 c stOK [] (afterSteep c es s))) ∧
  (∀ c s es, Accepted 0x0C06 c s → par c 0 1 ≤ 2 → par c 1 1 ≤ 1 → 16 ≤ par c 2 2 →
    es = [(cfgKey 0x0C06 0 (cmdTarget c), [par c 0 1]), (cfgKey 0x0C06 1 (cmdTarget c), [par c 1 1]),
          (cfgKey 0x0C06 2 (cmdTarget c), [par c 2 2])] →
    Room c es s → exec (.twinSteepPartition c) s = .next (finish 0x0C06 c stOK [] (afterSteep c es s)))

/-! ## Pours, the store and the flash (R147 to R164, R124 to R129) -/

/-- POUR_ACCEPT takes the pour whose turn it is, the oldest by its fetch, once every check of Table 5.1 holds: the serial goes
up by one, the area is emptied, and nothing is in force yet. POUR_COMPLETE ends it once every unit has switched.
STORE_COMPACTION starts when less than 64 KiB is free. -/
def Obligations.PourEvents : Prop :=
  (∀ s r set, frontPour s = some r → s.cfg.pour = none → earlierSteep s r.cmd = false →
    set = expandSet s (staged s (cmdArea r.cmd)) → classDReady s set = true → pourFailure s r.cmd set = none →
    undrained s set = [] →
    (needsRecord r set (tget false s.cfg.areaPersist (cmdArea r.cmd)) = true → s.flash.answers = true ∧ storeHeld s = false) →
    ∃ t p, exec .pourAccept s = .next t ∧ t.cfg.serial = s.cfg.serial + 1 ∧ t.cfg.waiting = s.cfg.waiting.erase r ∧
      staged t (cmdArea r.cmd) = [] ∧ t.cfg.pour = some p ∧ p.entries = set ∧ p.set = staged s (cmdArea r.cmd) ∧
      p.serial = s.cfg.serial + 1 ∧
      p.recordPending = needsRecord r set (tget false s.cfg.areaPersist (cmdArea r.cmd)) ∧
      t.cfg.inForce = s.cfg.inForce ∧ SameContents s t) ∧
  (∀ s p, s.cfg.pour = some p → p.recordPending = false → p.classDDone = true → p.hubDone = true → p.unitsLeft = [] →
    p.req.reopen = false → exec .pourComplete s =
      .next (finish 0x0100 p.req.cmd stOK
        (leBytes 4 p.serial.toNat ++ leBytes 2 p.switched ++ leBytes 1 (flag (needsRecord p.req p.entries false) 0))
        { s with cfg := { s.cfg with
            pour := none, lastState := 2, lastCompleted := p.serial,
            undo := tset [] s.cfg.undo (cmdArea p.req.cmd) (undoSet p),
            undoPersist := tset false s.cfg.undoPersist (cmdArea p.req.cmd) p.req.persist } })) ∧
  (∀ s, s.flash.store.valid = true → s.flash.store.compacting = false → s.flash.store.freeBytes < 65536 →
    s.flash.answers = true → exec .storeCompaction s =
      .next { s with flash := { s.flash with store := { s.flash.store with compacting := true } } })

/-- FLASH_PROGRAM_COMPLETE ends the oldest flash write that is waited for: the record of a pour starts its switching, and
one that fails gives its entries back; a boot-next selection is in force. FLASH_ERASE_COMPLETE ends one unit of a bank erase,
with the last one the command, and the compaction of the store. The firmware commands (R116, R124, R127, R128): FW_STATUS reports; an erase, a chunk, an
activation and a boot-next selection go to the flash and keep executing until it ends. An activation's image must
match its CRC and verify. -/
def Obligations.FlashAndFirmware : Prop :=
  (∀ s rest p, s.flash.jobs = .pourRecord :: rest → flashFree s = true → s.flash.answers = true → s.cfg.pour = some p →
    p.recordPending = true → ∃ t, exec (.flashProgramComplete true) s = .next t ∧ t.flash.jobs = rest ∧
      t.flash.store.records = s.flash.store.records + 1 ∧
      t.flash.store.items = p.entries.foldl (fun x e => tput x e.1 e.2) s.flash.store.items ∧
      t.cfg.pour = some { p with recordPending := false, acceptMark := s.clock.mark } ∧ t.cfg.inForce = s.cfg.inForce) ∧
  (∀ s rest p, s.flash.jobs = .pourRecord :: rest → flashFree s = true → s.cfg.pour = some p → p.recordPending = true →
    ∃ t, exec (.flashProgramComplete false) s = .next t ∧ t.cfg.pour = none ∧ t.cfg.serial = s.cfg.serial - 1 ∧
      t.cfg.inForce = s.cfg.inForce ∧ t.flash.store = s.flash.store ∧
      ∀ e ∈ staged s (cmdArea p.req.cmd), ∃ e' ∈ staged t (cmdArea p.req.cmd), e'.1 = e.1) ∧
  (∀ s rest c sel ok, s.flash.jobs = .bootNext c sel :: rest → flashFree s = true →
    ∃ er, exec (.flashProgramComplete ok) s =
      .next (if ok && s.flash.answers then
          finish 0x0F04 c stOK [] { s with flash := { s.flash with jobs := rest, bootNext := sel, erase := er } }
        else finish 0x0F04 c stFlashFault [] { s with flash := { s.flash with jobs := rest, erase := er } }) ∧
      er.map (fun e => (e.bank, e.unit)) = s.flash.erase.map (fun e => (e.bank, e.unit))) ∧
  (∀ s e, s.flash.erase = some e → eraseSuspended s = false → e.between = false → s.flash.answers = true → e.unit < 256 →
    exec (.flashEraseComplete false true) s =
      .next (setBank e.bank (eraseUnit e.unit (bankOf s e.bank)) { s with flash := { s.flash with
        erase := some { e with unit := e.unit + 1, between := !s.flash.jobs.isEmpty || s.boot.hkpReloading } } })) ∧
  (∀ s e, s.flash.erase = some e → eraseSuspended s = false → e.between = false → s.flash.answers = true → 256 ≤ e.unit →
    exec (.flashEraseComplete false true) s =
      .next (finish 0x0F01 e.cmd stOK []
        (setBank e.bank { eraseUnit e.unit (bankOf s e.bank) with erasedOk := true, imageOk := false }
          { s with flash := { s.flash with erase := none } }))) ∧
  (∀ s e, s.flash.erase = some e → eraseSuspended s = false → e.between = false →
    exec (.flashEraseComplete false false) s =
      .next (finish 0x0F01 e.cmd stFlashFault [] { s with flash := { s.flash with erase := none } })) ∧
  (∀ s, s.flash.store.compacting = true → compactionSuspended s = false → s.flash.answers = true → s.flash.store.half ≤ 1 →
    ∃ t, exec (.flashEraseComplete true true) s = .next t ∧ t = { s with flash := { s.flash with store := t.flash.store } } ∧
      t.flash.store.compacting = false ∧ t.flash.store.half = 1 - s.flash.store.half ∧ t.flash.store.valid = true ∧
      t.flash.store.generation = s.flash.store.generation + 1 ∧ t.flash.store.records = 0 ∧
      t.flash.store.active.snapshot = s.flash.store.items ∧ t.flash.store.items = s.flash.store.items ∧
      t.flash.store.freeBytes = 0x7F000 - recordBytes s.flash.store.items.length) ∧
  (∀ c s, Accepted 0x0F00 c s → exec (.fwStatus c) s = .next (finish 0x0F00 c stOK (fwStatusResult s) s)) ∧
  (∀ c s, Accepted 0x0F01 c s → bankRefused (par c 0 1) s = none → s.flash.answers = true →
    exec (.fwBankErase c) s =
      .next (hold 0x0F01 c { s with flash := { s.flash with erase := some { bank := par c 0 1, cmd := c } } })) ∧
  (∀ c s, Accepted 0x0F02 c s → bankRefused (par c 0 1) s = none → s.flash.answers = true →
    0x1000 ≤ par c 4 4 → par c 4 4 ≤ 0xFFFF00 → par c 4 4 % 256 = 0 → 256 ≤ par c 16 4 → par c 16 4 ≤ 1048576 →
    par c 16 4 % 256 = 0 → par c 4 4 + par c 16 4 ≤ 2 ^ 24 → (bankOf s (par c 0 1)).erasedOk = true →
    (∀ p ∈ writePages (par c 4 4) (par c 16 4), p ∉ (bankOf s (par c 0 1)).pages) →
    ∃ d, d.length = par c 16 4 ∧ exec (.fwBankWrite c) s =
      .next (hold 0x0F02 c { s with flash := { s.flash with
        bankBusy := true, jobs := s.flash.jobs ++ [.bankWrite c (par c 0 1) (par c 4 4) d] } })) ∧
  (∀ c s, Accepted 0x0F03 c s → bankRefused (par c 0 1) s = none → s.flash.answers = true →
    4096 ≤ par c 4 4 → par c 4 4 ≤ 16773120 →
    exec (.fwBankActivate c) s =
      if (crc32 (imageBytes (bankOf s (par c 0 1)) (par c 4 4))).toNat = par c 8 4 ∧
          Config.imageSignatureOk (imageBytes (bankOf s (par c 0 1)) (par c 4 4)) = true then
        .next (hold 0x0F03 c { s with flash := { s.flash with
          bankBusy := true, jobs := s.flash.jobs ++ [.bankActivate c (par c 0 1)
            { generation := max (bankGeneration s.flash.bankA) (bankGeneration s.flash.bankB) + 1, length := par c 4 4,
              crc := BitVec.ofNat 32 (par c 8 4), release := BitVec.ofNat 32 (par c 12 4) }] } })
      else .next (finish 0x0F03 c stImageRejected [] s)) ∧
  (∀ c s, Accepted 0x0F04 c s → s.flash.answers = true → par c 0 1 ≤ 2 →
    (par c 0 1 = 0 ∨ bankValid (bankOf s (par c 0 1 - 1)) = true) →
    exec (.fwBootNext c) s =
      .next (hold 0x0F04 c { s with flash := { s.flash with jobs := s.flash.jobs ++
        [.bootNext c (if par c 0 1 = 0 then none else some (par c 0 1 - 1))] } }))

/-! ## Drains, rinses and joins (R156 to R159, R187 to R190) -/

/-- The events of a drain: it completes and its commands with it, or a timeout ends the commands that it has come for with
DEFERRED and leaves the partition closed; what a closed partition has held for 2 ms ends. The events of a rinse and of a
join: the drain's timeout, the record asked for again at a later mark, the new colour, the end once every foot die has
written its extents, and the end of a joining extent's writes. -/
def Obligations.DrainAndRinseEvents : Prop :=
  (∀ s (t : Fin 128), (partOf s t.val).closed = true → drainedNow s t.val = true → (partOf s t.val).rinse = none →
    (twinPartOf s t.val).takeover = none → exec (.drainComplete t) s =
      .next (setPart t.val { partOf s t.val with drained := true, drainCmds := [] }
        (finishAll 0x0104 (partOf s t.val).drainCmds stOK (leBytes 4 (heldCount s t.val)) s))) ∧
  (∀ s (t : Fin 128) r, (partOf s t.val).closed = true → drainedNow s t.val = true → (partOf s t.val).rinse = some r →
    r.phase = .draining → (twinPartOf s t.val).takeover = none → ∃ u, exec (.drainComplete t) s = .next u ∧
      (partOf u t.val).drained = true ∧ (partOf u t.val).drainCmds = [] ∧
      (partOf u t.val).rinse = some { r with phase := .recording } ∧
      u.flash.jobs = s.flash.jobs ++ [.rinseRecord t.val (nextColour s t.val)]) ∧
  (∀ s (t : Fin 128), exec (.configDrainTimeout t) s =
    .next (setPart t.val { partOf s t.val with
        drainCmds := (partOf s t.val).drainCmds.filter (fun e => s.clock.timebase < e.2) }
      (((partOf s t.val).drainCmds.filter (fun e => e.2 ≤ s.clock.timebase)).foldl
        (fun u e => finish 0x0104 e.1 stDeferred (leBytes 4 (heldCount s t.val)) u) s))) ∧
  (∀ s id r, s.peers.held.any (fun h => h.id == id) = false →
    s.path.reqs.find? (fun r => r.access == id && r.place == .held) = some r →
    r.arrived + msTicks 2 ≤ s.clock.timebase →
    exec (.drainHoldTimeout id) s = .next (endAccess id stPartitionClosed (countHeldEnd r.tenant s))) ∧
  (∀ s id h, s.peers.held.find? (fun h => h.id == id) = some h → h.applying = false → h.type ≠ 0x03 →
    holds s h.frame.dstTenant.toNat = true → h.since + msTicks 2 ≤ s.clock.timebase →
    exec (.drainHoldTimeout id) s = .next (failHeld h stPartitionClosed (countHeldEnd h.frame.dstTenant.toNat s))) ∧
  (∀ s (t : Fin 128) r, (partOf s t.val).rinse = some r → r.phase = .draining →
    exec (.partitionRinseTimeout t) s =
      .next (setPart t.val { partOf s t.val with
          rinse := some { r with cmds := r.cmds.filter (fun e => s.clock.timebase < e.2) } }
        ((r.cmds.filter (fun e => e.2 ≤ s.clock.timebase)).foldl (fun u e => finish 0x0206 e.1 stDeferred [0] u) s))) ∧
  (∀ s (t : Fin 128) r, (partOf s t.val).rinse = some r → r.phase = .recording → r.recorded = false →
    (∀ m, r.failedMark = some m → m < s.clock.mark) →
    s.flash.jobs.any (fun j => match j with | .rinseRecord u _ => u == t.val | _ => false) = false →
    exec (.rinseRecordRetry t) s =
      .next { s with flash := { s.flash with jobs := s.flash.jobs ++ [.rinseRecord t.val (nextColour s t.val)] } }) ∧
  (∀ s (t : Fin 128) r, (partOf s t.val).rinse = some r → r.phase = .recording → r.recorded = true →
    ∃ u, exec (.rinseColourRotate t) s = .next u ∧ (partOf u t.val).incomplete = true ∧
      (partOf u t.val).rinse = some { r with phase := .running, cmds := [] } ∧ (partOf u t.val).rinsed = [] ∧
      (partOf u t.val).cursor = [] ∧ colourOf u t.val = tget 0 s.flash.mirror t.val ∧ u.hbm = s.hbm) ∧
  (∀ s (t : Fin 128), writesRun s = true → rinseRunning s t.val = true → rinseWritten s t.val = true →
    ∃ u, exec (.rinseComplete t) s = .next u ∧ (partOf u t.val).incomplete = false ∧
      (partOf u t.val).rinse = none ∧ (partOf u t.val).closed = false ∧ (partOf u t.val).joining = [] ∧
      u.hbm = s.hbm ∧ tfind u.flash.mirror t.val = none) ∧
  (∀ s (t : Fin 128) (n : Fin 8) x, writesRun s = true → rinseRunning s t.val = false → (joinLeft s t.val n.val).head? = some x →
    extentSectors s n.val x ≤ cursorOf s t.val n.val x →
    ∃ u, exec (.extentJoinDone t n x) s = .next u ∧
      (partOf u t.val).joining = (partOf s t.val).joining.filter (· != (n.val, x)) ∧
      u.hbm = (fillExtent n.val x (colourOf s t.val) s).hbm)

/-! ## Reports of the foot dies (Tables 7.6, 8.10, 9.11, 10.10, 11.5, 12.7) -/

/-- LATENCY_GET_TARGETS, QOS_STATUS, PC_STATUS and SCHED_STATUS; QOS_STATUS with bit 0 of byte 2 set clears what it
counted. KETTLE_STATUS, KETTLE_GET_LIMITS, KETTLE_JOB_TIMING, KB_CHAIN_INFO, PD_STATUS and VCORE_STATUS. What
KETTLE_STATUS changes is only what its reader has seen of the slew events. -/
def Obligations.SchedulingAndKettleReports : Prop :=
  (∀ c s, Accepted 0x0301 c s → par c 0 1 < 26 → par c 1 1 ≤ 1 → exec (.latencyGetTargets c) s =
    .next (finish 0x0301 c stOK (leBytes 4 (if par c 1 1 = 0 then cfgN s 0x0300 0 (cmdTarget c * 32 + par c 0 1)
      else (stagedOr s c 0x0300 0 (cmdTarget c * 32 + par c 0 1)).headD 0)) s)) ∧
  (∀ c s ks q, Accepted 0x0302 c s → (par c 0 1 < 26 ∨ par c 0 1 = 0xFF) → (par c 1 1 < 8 ∨ par c 1 1 = 0xFF) →
    ks = qosKeys (cmdTarget c) (par c 0 1) (par c 1 1) → q = ks.map (fun k => tget {} s.qos k) →
    exec (.qosStatus c) s = .next (finish 0x0302 c stOK
      (leBytes 8 (sumOf (q.map (fun x => x.completed))) ++ leBytes 4 (sumOf (q.map (fun x => x.late))) ++
        leBytes 4 (satTo 32 (maxOf (q.map (fun x => x.maxE)))))
      (if bitOf (par c 2 1) 0 = true then { s with qos := ks.foldl (fun t k => tset {} t k {}) s.qos } else s))) ∧
  (∀ c s, Accepted 0x0304 c s → par c 0 2 < 512 → exec (.pcStatus c) s =
    .next (finish 0x0304 c stOK (pcStatusResult s (par c 0 2)) s)) ∧
  (∀ c s d, Accepted 0x0305 c s → par c 0 1 ≤ 8 → d = dieOf s (dieField (par c 0 1)) → exec (.schedStatus c) s =
    .next (finish 0x0305 c stOK (leBytes 4 d.debt ++ leBytes 4 d.maxDebt ++ leBytes 4 d.shortened ++
      leBytes 4 d.heavyMarks) s)) ∧
  (∀ c s, Accepted 0x0800 c s → ∃ t b, exec (.kettleStatus c) s = .next (finish 0x0800 c stOK
      (leBytes 4 (toMw s.kettle.e) ++ leBytes 4 (toMw s.kettle.pest) ++ leBytes 4 (toMw s.kettle.cosyLast) ++
        leBytes 1 (kbMode s) ++ leBytes 1 b ++ leBytes 2 (chainPosition s)) t) ∧ t = { s with fns := t.fns } ∧
      (bitOf b 0 = steepRuns s) ∧ (bitOf b 1 = s.kettle.quiesce.isSome) ∧ (bitOf b 2 = chainFault s) ∧
      ∀ k, c.issuer = .fn k → bitOf b 3 = decide ((fnOf s k.val).slewSeen < s.kettle.shortfalls + s.kettle.excesses)) ∧
  (∀ c s, Accepted 0x0802 c s → par c 0 1 = 0 → exec (.kettleGetLimits c) s =
    .next (finish 0x0802 c stOK (leBytes 4 (cfgN s 0x0801 0 0) ++ leBytes 4 (cfgN s 0x0801 1 0) ++
      leBytes 4 (cfgN s 0x0801 2 0) ++ leBytes 4 (cfgN s 0x0801 3 0)) s)) ∧
  (∀ c s, Accepted 0x0802 c s → par c 0 1 = 1 → exec (.kettleGetLimits c) s =
    .next (finish 0x0802 c stOK
      ((List.range 4).flatMap (fun i => leBytes 4 ((stagedOr s c 0x0801 i 0).headD 0))) s)) ∧
  (∀ c s, Accepted 0x0805 c s → exec (.kettleJobTiming c) s =
    .next (finish 0x0805 c stOK (leBytes 4 (steepDelay s) ++ leBytes 2 (cfgN s 0x0801 4 0) ++
      leBytes 2 (cfgN s 0x0801 5 0) ++ leBytes 4 s.kettle.idlePeriods) s)) ∧
  (∀ c s, Accepted 0x0808 c s → exec (.kbChainInfo c) s = .next (finish 0x0808 c stOK (kbChainInfoResult s) s)) ∧
  (∀ c s, Accepted 0x0809 c s → par c 0 1 ≤ 2 → exec (.pdStatus c) s =
    .next (finish 0x0809 c stOK (leBytes 12 (if par c 0 1 = 0 then s.power.on.toNat
        else 2 ^ 96 - 1 - (if par c 0 1 = 1 then cfgN s 0x080A 0 0 else (stagedOr s c 0x080A 0 0).headD 0) % 2 ^ 96) ++
      leBytes 1 s.pins.straps.toNat ++
      leBytes 1 (flag s.pins.pgCore 0 + flag s.pins.enCore 1 + flag s.pins.refclkFault 2 + flag s.pins.rrefFault 3 +
        flag s.power.avsAbsent 4 + flag s.power.regFault 5)) s)) ∧
  (∀ c s, Accepted 0x080B c s → par c 0 1 ≤ 2 → ∃ b, exec (.vcoreStatus c) s =
    .next (finish 0x080B c stOK ((List.range 5).flatMap (fun r => leBytes 2 (if par c 0 1 = 0 then railMv s r
      else if par c 0 1 = 1 then cfgN s 0x080C r 0 else (stagedOr s c 0x080C r 0).headD 0)) ++ leBytes 1 b) s) ∧
    bitOf b 1 = s.power.stepHeld.any (fun r => decide (railMv s r < railTarget s r) && railMoves s r)) ∧
  (∀ c s, Accepted 0x080B c s → par c 0 1 = 3 → ∃ b, exec (.vcoreStatus c) s =
    .next (finish 0x080B c stOK b (readRegulators { s with freeCount := s.freeCount + 5 })) ∧ b.length = 11)

/-- REFRESH_STATUS, DISTURB_STATUS, LOWPOWER_STATUS and INTEGRITY_STATUS; the second and the last clear their counts
on request. RETIRE_PENDING and RETIRE_LIST write their records to host memory; REPAIR_STATUS, FOLD_STATUS and
FOLD_TABLE_READ report a stack's repairs and fold tables. -/
def Obligations.FootDieReports : Prop :=
  (∀ c s, Accepted 0x0400 c s → par c 0 2 < 512 → exec (.refreshStatus c) s =
    .next (finish 0x0400 c stOK (refreshStatusResult s (par c 0 2)) s)) ∧
  (∀ c s p, Accepted 0x0403 c s → par c 0 2 < 512 → p = pcOf s (par c 0 2) → exec (.disturbStatus c) s =
    .next (finish 0x0403 c stOK
      (leBytes 1 (if strainerMode s (par c 0 2) then 0 else 1) ++ leBytes 1 p.nbrDue.length ++
        leBytes 2 p.strain.length ++ leBytes 4 p.spill ++ leBytes 4 p.nbrCount ++ leBytes 4 p.offences)
      (if bitOf (par c 2 1) 0 = true then setPc (par c 0 2) { p with nbrCount := 0, offences := 0 } s else s))) ∧
  (∀ c s, Accepted 0x0407 c s → par c 0 1 < 8 → exec (.lowpowerStatus c) s =
    .next (finish 0x0407 c stOK (lowpowerStatusResult s (par c 0 1)) s)) ∧
  (∀ c s, Accepted 0x0500 c s → par c 0 2 < 512 → exec (.integrityStatus c) s =
    .next (finish 0x0500 c stOK (integrityResult s [par c 0 2])
      (if bitOf (par c 2 1) 0 = true then setPc (par c 0 2) { pcOf s (par c 0 2) with integ := {} } s else s))) ∧
  (∀ c s, Accepted 0x0500 c s → par c 0 2 = 0xFFFF → ∃ t, exec (.integrityStatus c) s =
      .next (finish 0x0500 c stOK (integrityResult s (List.range 512)) t) ∧ t = { s with pcs := t.pcs } ∧
    (bitOf (par c 2 1) 0 = true → ∀ p < 512, (pcOf t p).integ = {}) ∧ (bitOf (par c 2 1) 0 = false → t = s)) ∧
  (∀ c s, Accepted 0x0502 c s → par c 0 1 < 8 → par c 8 8 % 16 = 0 → exec (.retirePending c) s =
    .next (finish 0x0502 c stOK
      (leBytes 1 (stackOf s (par c 0 1)).pending.length ++ [0, 0, 0] ++ leBytes 4 (stackOf s (par c 0 1)).dropped)
      (emit (.hostWrite (cmdFn c) (par c 8 8) ((stackOf s (par c 0 1)).pending.flatMap (fun a =>
        retBytes a.pc a.bank a.cause a.row a.timebase ++ [0, 0]))) s))) ∧
  (∀ c s es, Accepted 0x0504 c s → par c 0 1 < 8 → par c 2 2 < 8192 → 1 ≤ par c 4 2 → par c 4 2 ≤ 8192 →
    par c 8 8 % 32 = 0 →
    es = (((retiredEntries s (par c 0 1)).filter (fun e => e.crcOk)).drop (par c 2 2)).take (par c 4 2) →
    exec (.retireList c) s = .next (finish 0x0504 c stOK (leBytes 2 es.length)
      (emit (.hostWrite (cmdFn c) (par c 8 8) (es.flatMap (fun e =>
        entryBytes e ++ leBytes 8 (rowPage s e.pc e.bank e.row) ++ leBytes 8 0))) s))) ∧
  (∀ c s p, Accepted 0x0600 c s → par c 0 1 < 8 → par c 2 2 < 64 → p = par c 0 1 * 64 + par c 2 2 →
    exec (.repairStatus c) s = .next (finish 0x0600 c stOK
      (leBytes 1 (spareLeft s p) ++ leBytes 1 (if laneSpare s p 36 then 1 else 0) ++
        leBytes 2 (spprMask (pcOf s p)) ++ leBytes 4 (stackOf s (par c 0 1)).softRows.length ++
        leBytes 4 (stackOf s (par c 0 1)).hardRows.length ++ leBytes 2 (stackOf s (par c 0 1)).laneRepairs ++
        leBytes 1 (flag (pcOf s p).scrub.isSome 0)) s)) ∧
  (∀ c s, Accepted 0x0604 c s → par c 0 1 < 8 → exec (.foldStatus c) s =
    .next (finish 0x0604 c stOK (foldStatusResult s (par c 0 1)) s)) ∧
  (∀ c s t, Accepted 0x0605 c s → par c 0 1 < 8 → par c 1 1 < 4 → par c 8 8 % 64 = 0 →
    t = (foldTables (stackOf s (par c 0 1)).mapped).getD (par c 1 1) [] →
    exec (.foldTableRead c) s = .next (finish 0x0605 c stOK (leBytes 2 (t.filter (fun x => x.isSome)).length)
      (emit (.hostWrite (cmdFn c) (par c 8 8) (foldTableBytes t)) s)))

/-- CAL_STATUS, CAL_REF_STATUS, CAL_STACK_SUMMARY, THERMAL_STATUS, HUB_THERMAL_STATUS and LATENESS_STATUS. -/
def Obligations.CalibrationAndThermalReports : Prop :=
  (∀ c s k, Accepted 0x0700 c s → par c 0 2 < 512 → par c 8 8 % 64 = 0 → k = (pcOf s (par c 0 2)).cal →
    exec (.calStatus c) s = .next (finish 0x0700 c stOK (leBytes 8 (max k.lastImp k.lastTim) ++
      leBytes 4 (k.appliedImp + k.appliedTim) ++ leBytes 1 (calState s (par c 0 2)) ++
      leBytes 1 (if par c 8 8 = 0 then 0 else 1))
      (if par c 8 8 = 0 then s else
        emit (.hostWrite (cmdFn c) (par c 8 8) (calRecordBytes s (par c 0 2))) s))) ∧
  (∀ c s, Accepted 0x0701 c s → exec (.calRefStatus c) s =
    .next (finish 0x0701 c stOK (leBytes 2 s.refcode.inForce ++ leBytes 2 s.refcode.last ++ leBytes 8 s.refcode.at_ ++
      leBytes 2 s.refcode.rejected ++ leBytes 1 (flag s.refcode.bootFault 0 + flag s.refcode.threeRejects 1)) s)) ∧
  (∀ c s, Accepted 0x0702 c s → par c 0 1 < 8 → exec (.calStackSummary c) s =
    .next (finish 0x0702 c stOK (calSummaryResult s (par c 0 1)) s)) ∧
  (∀ c s k, Accepted 0x0900 c s → par c 0 1 < 8 → k = stackOf s (par c 0 1) → exec (.thermalStatus c) s =
    .next (finish 0x0900 c stOK (thermalStatusResult s (par c 0 1))
      (if bitOf (par c 1 1) 0 = true then
        setStack (par c 0 1) { k with thermal := { k.thermal with peak := none } } s else s))) ∧
  (∀ c s, Accepted 0x0901 c s → exec (.hubThermalStatus c) s =
    .next (finish 0x0901 c stOK (leBytes 2 (sbits 16 s.hub.tj) ++ leBytes 1 s.hub.state ++ leBytes 1 s.hub.share ++
      leBytes 2 (s.hub.ceiling.getD 0) ++ leBytes 2 (sbits 16 s.hub.maxTj) ++ leBytes 4 s.hub.entries ++
      leBytes 4 s.hub.marks) s)) ∧
  (∀ c s, Accepted 0x0902 c s → (par c 0 1 < 8 ∨ par c 0 1 = 0xFF) → par c 8 8 % 32 = 0 →
    exec (.latenessStatus c) s = .next (finish 0x0902 c stOK
      (leBytes 2 (latenessRecords s c (par c 0 1)).length ++ [0, 0] ++ leBytes 4 s.late.issued ++ leBytes 4 s.late.received)
      (if latenessRecords s c (par c 0 1) = [] then s else
        emit (.hostWrite (cmdFn c) (par c 8 8) (latenessRecords s c (par c 0 1)).flatten) s)))

/-! ## Reports of the kettle, the rails and the domains (Tables 2.10, 3.8) -/

/-! ## Tiles, infusers, peers and twins: the commands -/

/-- BREW_START gives a list a free handle, chosen freely, and counts it; BREW_STOP stops it; BREW_STATUS, TILE_STATUS and
POT_STATUS report (R359, R375, R383). -/
def Obligations.BrewCommands : Prop :=
  (∀ c s, Accepted 0x0A00 c s → brewRefused c s = none → freeHandles s ≠ [] → ∃ h ∈ freeHandles s, ∃ t l held,
    exec (.brewStart c) s = .next (finish 0x0A00 c stOK (leBytes 1 h ++ [0] ++ leBytes 2 (maskOf (maskTiles s l))) t) ∧
    l = { tenant := cmdTarget c, prio := par c 10 1, cmdMask := BitVec.ofNat 16 (par c 8 2), held := held,
          nextTa := par c 0 8 } ∧ listOf t h = some l ∧
    (∀ g, g ≠ h → listOf t g = listOf s g) ∧ cget t.tele.events 659 = (cget s.tele.events 659 + 1) % 2 ^ 64) ∧
  (∀ c s l, Accepted 0x0A02 c s → listOf s (par c 0 1) = some l → l.tenant = cmdTarget c → exec (.brewStop c) s =
    .next (stopList (par c 0 1) 0 2 stListStopped l.lastTa
      (setList (par c 0 1) { l with stopCmds := l.stopCmds ++ [c] } (hold 0x0A02 c s)))) ∧
  (∀ c s, Accepted 0x0A01 c s → par c 0 1 < 64 → listOf s (par c 0 1) = none → exec (.brewStatus c) s =
    .next (finish 0x0A01 c stOK [0] s)) ∧
  (∀ c s l, Accepted 0x0A01 c s → par c 0 1 < 64 → listOf s (par c 0 1) = some l → l.tenant = cmdTarget c →
    exec (.brewStatus c) s = .next (finish 0x0A01 c stOK (leBytes 1 (brewState s (par c 0 1) l) ++
      leBytes 1 (heldTiles s (par c 0 1)) ++ leBytes 2 l.fail ++ leBytes 4 l.done ++ leBytes 8 (oldestTa l)) s)) ∧
  (∀ c s, Accepted 0x0A03 c s → par c 0 1 < 16 → exec (.tileStatus c) s =
    .next (finish 0x0A03 c stOK (leBytes 1 (tileState s (par c 0 1)) ++
      leBytes 1 ((tileOf s (par c 0 1)).holder.getD 0xFF) ++ leBytes 2 (tileOf s (par c 0 1)).lastTenant ++ leBytes 4 0 ++
      leBytes 8 (tileOf s (par c 0 1)).blocks) s)) ∧
  (∀ c s, Accepted 0x0A05 c s → par c 0 1 < 16 → exec (.potStatus c) s =
    .next (finish 0x0A05 c stOK (leBytes 4 (cget s.pot.corrected (par c 0 1)) ++
      leBytes 4 (cget s.pot.flagsSet (par c 0 1)) ++ leBytes 4 (cget s.pot.atomics (par c 0 1))) s))

/-- INFUSER_STATUS reports; an INFUSER_PREPARE whose fields, records and range pass asks to write the new context, and goes on
executing until it is written (R389, R390, R407). The
infuser that takes an operation command has it at the end of its queue, and the command goes on executing (R386,
R52). -/
def Obligations.InfuserCommands : Prop :=
  (∀ c s i, Accepted 0x0B00 c s → par c 0 1 < 8 → i = infuserOf s (par c 0 1) → ∃ st, exec (.infuserStatus c) s =
    .next (finish 0x0B00 c stOK (leBytes 1 st ++ leBytes 1 i.queue.length ++
      leBytes 2 ((i.running.map (fun o => o.tenant)).getD 0xFFFF) ++ leBytes 4 i.completed ++ leBytes 2 i.compareFaults ++
      leBytes 2 i.keyMismatches ++ leBytes 4 (i.multiplies / 2 ^ 20)) s) ∧
    (st = 4 ↔ (stackOf s (par c 0 1)).retired = true)) ∧
  (∀ c s, Accepted 0x0B01 c s → par c 0 1 < 8 → infGated s (par c 0 1) = false →
    infCheck1 0x0B01 c (par c 0 1) s = none → prepareFields c = true →
    recordsFault (par c 2 1) (par c 24 8) 0 [] (prepareRecords c) = none →
    infRanges s (cmdTarget c) (par c 0 1) [(pageTa c 8, ctxBytes)] = none →
    exec (.infuserPrepare c) s =
      .next (hold 0x0B01 c (ask
        { owner := .command 0x0B01 c, tenant := cmdTarget c, port := 21, ta := pageTa c 8, len := 8192, write := true,
          data := newContext (par c 2 1) (par c 3 1) (par c 4 1) (par c 5 1) (par c 24 8) (prepareRecords c) } s))) ∧
  (∀ (op : Nat) (i : Cmd → Instr),
    (op, i) ∈ [(0x0B02, Instr.infuseNtt), (0x0B03, .infuseIntt), (0x0B04, .infusePointwise), (0x0B05, .infuseAutomorph),
      (0x0B06, .infuseRescale), (0x0B07, .infuseBaseconv), (0x0B08, .infuseKeyswitch)] →
    ∀ c s, Accepted op c s → rinseIncomplete s (cmdTarget c) = false → (partOf s (cmdTarget c)).closed = false →
      opStack c < 8 → infGated s (opStack c) = false → (infuserOf s (opStack c)).faulted = false → (infuserOf s (opStack c)).queue.length < 64 →
      ∃ t held, exec (i c) s = .next (hold op c t) ∧
        (infuserOf t (opStack c)).queue = (infuserOf s (opStack c)).queue ++
          [{ op := BitVec.ofNat 16 op, cmd := c, tenant := cmdTarget c, held := held, since := s.clock.timebase }] ∧
        t = { s with infusers := t.infusers, kettle := t.kettle })

/-- PEER_STATUS and PEER_CONN_STATUS report (R443); a PEER_OP that sends no local data is issued under a new tag, one that does
reads it first, and both go on executing until the reply (R421, R422, R425). An issued peer operation takes the next tag, which the operation after it does not have
(R421). TWIN_STATUS reports a partition; a TWIN_TAKEOVER that is accepted waits, with the epoch record asked for
where it is manual and the partition closed where it is planned (R442, R443). -/
def Obligations.PeerAndTwinCommands : Prop :=
  (∀ c s, Accepted 0x0C00 c s → par c 0 1 < 4 → exec (.peerStatus c) s =
    .next (finish 0x0C00 c stOK
      (leBytes 1 (if gatedOff s (40 + par c 0 1) = true then 3 else (portOf s (par c 0 1)).link) ++
        leBytes 1 (if twinPort s = par c 0 1 then 1 else 0) ++ [0, 0] ++
        leBytes 4 (cget s.tele.events (portCtr (par c 0 1) 6)) ++ leBytes 4 (cget s.tele.events (portCtr (par c 0 1) 7)) ++
        leBytes 4 (cget s.tele.events (portCtr (par c 0 1) 8))) s)) ∧
  (∀ c s x, Accepted 0x0C04 c s → par c 0 1 < 4 → par c 1 1 < 64 → x = connOf s (par c 0 1) (par c 1 1) →
    exec (.peerConnStatus c) s = .next (finish 0x0C04 c stOK
      (leBytes 1 (if connOn s (par c 0 1) (par c 1 1) = true then (if x.phase = 0 then 1 else x.phase) else 0) ++ [0] ++
        leBytes 3 x.txNext.toNat ++ leBytes 3 x.rxExpect.toNat ++ leBytes 2 (x.kept.filter (fun k => k.sent)).length ++
        leBytes 2 x.resent ++ leBytes 4 x.unreachable) s)) ∧
  (∀ c s q, Accepted 0x0C08 c s → q = peerOpReq c → peerOpFields c = true → rinseIncomplete s q.tenant = false →
    (partOf s q.tenant).closed = false → issueStatus s q.tenant q.handle q.off q.len = none → q.kind = 3 →
    quiesced s = false →
    exec (.peerOp c) s = .next (hold 0x0C08 c (issueOp q (leBytes 8 (par c 32 8)) [] s))) ∧
  (∀ c s q, Accepted 0x0C08 c s → q = peerOpReq c → peerOpFields c = true → rinseIncomplete s q.tenant = false →
    (partOf s q.tenant).closed = false → issueStatus s q.tenant q.handle q.off q.len = none → q.kind = 1 →
    rangeStatus s q.tenant q.localTa q.len = none → quiesced s = false →
    exec (.peerOp c) s = .next (hold 0x0C08 c (issueOp q [] [] s))) ∧
  (∀ c s q, Accepted 0x0C08 c s → q = peerOpReq c → peerOpFields c = true → rinseIncomplete s q.tenant = false →
    (partOf s q.tenant).closed = false → issueStatus s q.tenant q.handle q.off q.len = none → (q.kind = 0 ∨ q.kind = 2) →
    rangeStatus s q.tenant q.localTa q.len = none → quiesced s = false →
    exec (.peerOp c) s =
      .next (hold 0x0C08 c (ask
        { owner := .command 0x0C08 c, tenant := q.tenant, port := 1 + handlePort s q.handle, ta := q.localTa, len := q.len,
          write := false, coll := q.coll } s))) ∧
  (∀ q bytes poison s, ∃ o, (issueOp q bytes poison s).peers.ops = s.peers.ops ++ [o] ∧ o.tag = s.peers.nextTag ∧
    o.issuer = q.issuer ∧ o.tenant = q.tenant ∧ o.length = q.len ∧ (issueOp q bytes poison s).peers.nextTag = s.peers.nextTag + 1) ∧
  (∀ c s p, Accepted 0x0C07 c s → par c 0 1 = 1 → p = twinPartOf s (cmdTarget c) → exec (.twinStatus c) s =
    .next (finish 0x0C07 c stOK (leBytes 1 p.state ++ leBytes 1 (flag p.differs 0) ++ [0, 0] ++ leBytes 4 p.epoch ++
      leBytes 4 (oldestAge s p) ++ leBytes 4 (resyncLeft s (cmdTarget c))) s)) ∧
  (∀ c s, Accepted 0x0C07 c s → par c 0 1 = 0 → cmdPf c = true → ∃ inSync out, exec (.twinStatus c) s =
    .next (finish 0x0C07 c stOK (leBytes 1 (pairState s) ++ leBytes 1 (twinRole s) ++ leBytes 2 (satTo 16 s.twin.misses) ++
      leBytes 4 s.twin.partnerE ++ leBytes 2 s.twin.partnerStacks ++ leBytes 2 inSync ++ leBytes 2 out ++
      leBytes 2 s.twin.failovers) s) ∧ inSync + out = (mirroredTenants s).length) ∧
  (∀ c s, Accepted 0x0C09 c s → par c 0 1 = 0 → par c 2 2 ≠ 0 → takeoverOk s (cmdTarget c) = true → s.flash.jobs = [] →
    ∃ t, exec (.twinTakeover c) s = .next (hold 0x0C09 c t) ∧ t.flash.jobs = [.epoch (cmdTarget c)] ∧
      (twinPartOf t (cmdTarget c)).takeover = some (c, s.clock.timebase + msTicks (par c 2 2))) ∧
  (∀ c s, Accepted 0x0C09 c s → par c 0 1 = 1 → par c 2 2 ≠ 0 → switchoverOk s (cmdTarget c) = true →
    ∃ t, exec (.twinTakeover c) s = .next (hold 0x0C09 c t) ∧ (partOf t (cmdTarget c)).closed = true ∧
      (twinPartOf t (cmdTarget c)).takeover = some (c, s.clock.timebase + msTicks (par c 2 2)))

/-! ## Telemetry, the log, out of band (R447 to R458, R463, R464, R499 to R502) -/

/-- The telemetry commands: SPOUT_STATUS reports a ring; a snapshot waits for the next mark; an attach is kept for
the next dump mark; the log is read from a sequence on, and cleared. A dump mark writes one record to each ring that
runs and has a free slot, and then the ring's producer count; a ring fault stops its ring and is logged (R450, R452). -/
def Obligations.TelemetryCommandsAndSpout : Prop :=
  (∀ c s, Accepted 0x0D01 c s → par c 0 1 = 1 ∨ (par c 0 1 = 0 ∧ cmdPf c = true) → exec (.spoutStatus c) s =
    .next (finish 0x0D01 c stOK
      (spoutResult s (if par c 0 1 = 0 then s.tele.ring else tget {} s.tele.tenantRings (cmdTarget c))) s)) ∧
  (∀ c s, Accepted 0x0D02 c s → par c 0 8 % 64 = 0 → (par c 8 1 = 0 ∨ (par c 8 1 = 1 ∧ cmdPf c = true)) →
    exec (.telemetrySnapshot c) s =
      .next (hold 0x0D02 c { s with tele := { s.tele with snapshots := s.tele.snapshots ++ [c] } })) ∧
  (∀ c s, Accepted 0x0D03 c s → par c 0 8 % 4096 = 0 → par c 0 8 ≠ 0 → 2 ≤ par c 8 2 → par c 8 2 ≤ 4096 →
    ∃ t r, exec (.tenantDumpAttach c) s = .next (finish 0x0D03 c stOK [] t) ∧ r = tget {} t.tele.tenantRings (cmdTarget c) ∧
      r.nextAttach = some (par c 0 8, par c 8 2) ∧
      t = { s with tele := { s.tele with tenantRings := t.tele.tenantRings } }) ∧
  (∀ c s, Accepted 0x0D03 c s → par c 0 8 = 0 → ∃ t, exec (.tenantDumpAttach c) s = .next (finish 0x0D03 c stOK [] t) ∧
    (tget {} t.tele.tenantRings (cmdTarget c)).nextAttach = none ∧
    (tget {} t.tele.tenantRings (cmdTarget c)).detachNext = true ∧
    t = { s with tele := { s.tele with tenantRings := t.tele.tenantRings } }) ∧
  (∀ c s es, Accepted 0x0D04 c s → 1 ≤ par c 4 2 → par c 4 2 ≤ 4096 → par c 8 8 % 16 = 0 →
    es = logSelect s (BitVec.ofNat 32 (par c 0 4)) (par c 4 2) (bitOf (par c 6 1) 0) →
    exec (.eventLogRead c) s = .next (finish 0x0D04 c stOK
      (leBytes 2 es.length ++ [0, 0] ++ leBytes 4 s.tele.logSeq.toNat ++ leBytes 4 s.tele.overwritten)
      (alertRead es (if es = [] then s else
        emit (.hostWrite (cmdFn c) (par c 8 8) (es.flatMap logEntryBytes)) s)))) ∧
  (∀ c s, Accepted 0x0D05 c s → exec (.eventLogClear c) s =
    .next (finish 0x0D05 c stOK (leBytes 2 s.tele.log.length)
      { s with tele := { s.tele with log := [], overwritten := 0 } })) ∧
  (∀ s l base slots producer consumers, s.tele.dump = some l → s.tele.tenantRings = [] → slots ≠ 0 →
    s.tele.ring = { base := base, slots := slots, producer := producer, state := 1 } → cget consumers 128 ≤ producer →
    producer - cget consumers 128 < slots → producer < 2 ^ 64 - 1 →
    ∃ t rest, exec (.dumpMark consumers) s = .next t ∧ t.tele.dump = none ∧
      t.out = .hostWrite 0 base (leBytes 8 (producer + 1)) ::
        .hostWrite 0 (base + 4096 + producer % slots * 8256) (spoutRecord s l none l.seq) :: rest ∧ rest = s.out ∧
      t.tele.ring = { base := base, slots := slots, producer := producer + 1, state := 1 }) ∧
  (∀ s (f : Fin 4), f.val ≠ 0 → s.tele.ring.state = 1 → ∃ t, exec (.spoutRingFault none f) s = .next t ∧
    t.tele.ring = { s.tele.ring with state := 2, fault := f.val } ∧ t.tele.logSeq = s.tele.logSeq + 1) ∧
  (∀ s (f : Fin 4) (k : Fin 128), f.val ≠ 0 → (tget {} s.tele.tenantRings k.val).state = 1 →
    ∃ t, exec (.spoutRingFault (some k) f) s = .next t ∧ (tget {} t.tele.tenantRings k.val).state = 2 ∧
      (tget {} t.tele.tenantRings k.val).fault = f.val ∧ t.tele.logSeq = s.tele.logSeq + 1)

/-- The out-of-band telemetry requests answer in their message kind; the bus owner's endpoint ID is kept; a clock held low
too long frees the bus (R457, R499). -/
def Obligations.OutOfBandRequests : Prop :=
  (∀ s first count l ls, serving s = true → 1 ≤ count → count ≤ 32 → first + count ≤ 1024 → dumpPeriod s ≠ 0 →
    s.tele.latching = ls ++ [l] → exec (.mctpTelemetryCounters first count) s =
      .next { s with tele := { s.tele with latching := ls ++ [{ l with reqs := l.reqs ++ [(first, count)] }] } }) ∧
  (∀ s first count, serving s = true → 1 ≤ count → count ≤ 32 → first + count ≤ 1024 → dumpPeriod s ≠ 0 →
    s.tele.latching = [] → s.tele.latch.tick ≠ 0 → exec (.mctpTelemetryCounters first count) s =
      .next (emit (mctpOut 3 (leBytes 2 stOK ++ leBytes 8 s.tele.latch.tick ++
        (List.range count).flatMap (fun i => leBytes 8 (latchField s.tele.latch (first + i))))) s)) ∧
  (∀ s first count, serving s = true → 1 ≤ count → count ≤ 8 → exec (.mctpTelemetryLog first count) s =
    .next (emit (mctpOut 3 (leBytes 2 stOK ++ (logSelect s first count false).flatMap logEntryBytes)) s)) ∧
  (∀ s, serving s = true → exec .mctpTelemetrySpoutStatus s =
    .next (emit (mctpOut 3 (leBytes 2 stOK ++ spoutResult s s.tele.ring)) s)) ∧
  (∀ s b, exec (.mctpSetEndpointId b) s = .next { s with pins := { s.pins with eid := b } }) ∧
  (∀ s, exec .smbusClockLowTimeout s = .next (emit .smbusRelease s))

/-! ## Test access (R470 to R485) -/

/-- The exerciser commands: a run starts as asked, is ended, is reported, and its captures are read (R475 to R479).
BENCH_ENTER benches a channel that serves, once its descriptor fetches are over; BENCH_EXIT asks for the retraining that ends it; TEST_NONCE gives a fresh
nonce; TEST_UNLOCK uses it up, and unlocks for a token that names the device and the nonce and verifies; relocking
needs none; a TEST_STACK_ACCESS moves the port's data to host memory (R473, R474, R482 to R484). -/
def Obligations.TestAccessCommands : Prop :=
  (∀ c s, Accepted 0x0E03 c s → par c 0 1 < 8 → (exerOf s (par c 0 1)).running = false →
    (par c 1 1 = 0 ∧ par c 2 1 ≤ 5 ∧ 1 ≤ par c 3 1 ∧ par c 3 1 ≤ peakTenths s / 80 ∧ par c 8 8 ≠ 0 ∧
        (∀ v < 64, (par c 8 8).testBit v = true → inService s (par c 0 1 * 64 + v) = true)) ∨
      (par c 1 1 = 1 ∧ par c 2 1 ≤ 5 ∧ par c 4 2 / 32 = par c 0 1 ∧ (chanOf s (par c 4 2)).bench ≠ .none) ∨
      (par c 1 1 = 2 ∧ par c 2 1 ≤ 6 ∧ par c 4 2 / 32 = par c 0 1 ∧ (chanOf s (par c 4 2)).bench ≠ .none ∧
        stackOwned s (par c 0 1) = false) →
    exec (.exerStart c) s =
      .next (finish 0x0E03 c stOK [] (setExer (par c 0 1)
        { running := true, mode := par c 1 1, pattern := par c 2 1, capPerPeriod := par c 3 1, channel := par c 4 2,
          passes := par c 6 2, mask := par c 8 8, seed := BitVec.ofNat 32 (par c 16 4), outcome := 0 } s))) ∧
  (∀ c s, Accepted 0x0E04 c s → par c 0 1 < 8 →
    exec (.exerStop c) s = .next (finish 0x0E04 c stOK [] (exerEnd (par c 0 1) 2 s))) ∧
  (∀ c s, Accepted 0x0E05 c s → par c 0 1 < 8 →
    exec (.exerStatus c) s = .next (finish 0x0E05 c stOK (exerStatusResult s (par c 0 1)) s)) ∧
  (∀ c s, Accepted 0x0E06 c s → par c 0 1 < 8 → par c 8 8 % 64 = 0 → exec (.exerCaptureRead c) s =
    .next (finish 0x0E06 c stOK []
      (emit (.hostWrite (cmdFn c) (par c 8 8) (captureBytes (exerOf s (par c 0 1)))) s))) ∧
  (∀ s (n : Fin 8), (exerOf s n.val).running = true → (exerOf s n.val).passes ≠ 0 →
    (exerOf s n.val).passes ≤ passesDone s (exerOf s n.val) → exec (.exerRunDone n) s = .next (exerEnd n.val 1 s)) ∧
  (∀ s (n : Fin 8), (stackOf s n.val).restore = true → (stackOf s n.val).online = true → rinseWaits s n.val = false →
    ∃ t, exec (.exerRestoreDone n) s = .next t ∧ (stackOf t n.val).restore = false ∧
      t.hbm = (writeReserved n.val s).hbm) ∧
  (∀ c s, Accepted 0x0E01 c s → par c 0 2 < 256 → chanAbsent s (par c 0 2) = false →
    (stackOf s (par c 0 2 / 32)).thermal.heat ≠ .scald → asleep s (par c 0 2 / 32) = false → s.doze = .none →
    (chanOf s (par c 0 2)).windowOpen = false → (chanOf s (par c 0 2)).bench = .none → fetchUnderWay s (par c 0 2) = false →
    exec (.benchEnter c) s = .next (finish 0x0E01 c stOK [] (benchChan (par c 0 2) s)) ∧
    (chanOf (benchChan (par c 0 2) s) (par c 0 2)).bench = .command) ∧
  (∀ c s, Accepted 0x0E01 c s → par c 0 2 < 256 → chanAbsent s (par c 0 2) = false →
    (stackOf s (par c 0 2 / 32)).thermal.heat ≠ .scald → asleep s (par c 0 2 / 32) = false → s.doze = .none →
    (chanOf s (par c 0 2)).windowOpen = false → (chanOf s (par c 0 2)).bench = .none → fetchUnderWay s (par c 0 2) = true →
    exec (.benchEnter c) s = .next (hold 0x0E01 c s)) ∧
  (∀ c s, Accepted 0x0E02 c s → par c 0 2 < 256 → chanAbsent s (par c 0 2) = false →
    (chanOf s (par c 0 2)).bench = .command → (chanOf s (par c 0 2)).exitCmd = none →
    ∃ t, exec (.benchExit c) s = .next (hold 0x0E02 c t) ∧ (chanOf t (par c 0 2)).exitCmd = some c ∧
      (chanOf t (par c 0 2)).retrainDue = true ∧ (chanOf t (par c 0 2)).testAccess = false) ∧
  (∀ c s, Accepted 0x0E07 c s → ∃ b t, b.length = 32 ∧ t.dbg = { s.dbg with nonce := some b } ∧
    t = { s with dbg := t.dbg, freeCount := s.freeCount + 32 } ∧ exec (.testNonce c) s =
      .next (finish 0x0E07 c stOK (leBytes 1 s.dbg.level) (emit (.hostWrite (cmdFn c) (par c 8 8) b) t))) ∧
  (∀ c s, Accepted 0x0E08 c s → (∀ t < 128, partState s t = 0) → leAt c.hostIn 0 1 = 0 → exec (.testUnlock c) s =
    .next (finish 0x0E08 c stOK [0] { s with dbg := { s.dbg with nonce := none, level := 0 } })) ∧
  (∀ c s, Accepted 0x0E08 c s → (∀ t < 128, partState s t = 0) → leAt c.hostIn 0 1 ≠ 0 → exec (.testUnlock c) s =
    if leAt c.hostIn 0 1 = 1 ∧ leAt c.hostIn 8 8 = s.ident.serial.toNat ∧ s.dbg.nonce = some (bytesAt c.hostIn 16 32) ∧
        Config.unlockSignatureOk (padTo 144 c.hostIn) = true then
      .next (finish 0x0E08 c stOK [1] { s with dbg := { s.dbg with nonce := none, level := 1 } })
    else
      .next (finish 0x0E08 c stUnlockRejected (leBytes 1 s.dbg.level) { s with dbg := { s.dbg with nonce := none } })) ∧
  (∀ c d s, Accepted 0x0E09 c s → par c 0 2 < 256 → 1 ≤ par c 4 4 → par c 4 4 ≤ 65536 →
    chanAbsent s (par c 0 2) = false → (chanOf s (par c 0 2)).bench ≠ .none → stackOwned s (par c 0 2 / 32) = false →
    (stackOf s (par c 0 2 / 32)).thermal.heat ≠ .scald →
    ∃ t, exec (.testStackAccess c d) s = .next (finish 0x0E09 c stOK []
        (emit (.hostWrite (cmdFn c) (par c 8 8) (padTo (ceilDiv (par c 4 4) 8) d)) t)) ∧
      (chanOf t (par c 0 2)).testAccess = true ∧ t = { s with chans := t.chans, pcs := t.pcs, freeCount := t.freeCount })

/-! ## Procedures that commands start -/

/-- KETTLE_QUIESCE holds or releases admission, DOZE_ENTER arms doze, KB_SEND_ADMIN queues a frame for the chain, and
WARM_RESET has the reset follow 100 µs after its completion is written, or after the command where a mailbox reset has
discarded that completion (R72, R76, R142, R143, R251). STACK_SLEEP takes an online stack to light or partial
sleep, and STACK_WAKE brings it back (R247 to R250). -/
def Obligations.PowerAndSleepProcedures : Prop :=
  (∀ c s, Accepted 0x0804 c s → par c 2 2 ≠ 0 → s.kettle.quiesce = none → bitOf (par c 0 1) 0 = false →
    exec (.kettleQuiesce c) s = .next (hold 0x0804 c { s with kettle := { s.kettle with
      quiesce := some { ignoreFloor := bitOf (par c 0 1) 1, deadline := s.clock.timebase + msTicks (par c 2 2),
                        cmd := some c } } })) ∧
  (∀ c s q d, Accepted 0x0804 c s → par c 2 2 ≠ 0 → s.kettle.quiesce = some q → q.cmd = some d →
    bitOf (par c 0 1) 0 = false → ∃ u, u = finish 0x0804 d stDeferred [] s ∧
    exec (.kettleQuiesce c) s = .next (hold 0x0804 c { u with kettle := { s.kettle with
      quiesce := some { ignoreFloor := bitOf (par c 0 1) 1, deadline := s.clock.timebase + msTicks (par c 2 2),
                        cmd := some c } } })) ∧
  (∀ c s q, Accepted 0x0804 c s → par c 2 2 ≠ 0 → s.kettle.quiesce = some q → q.cmd = none → bitOf (par c 0 1) 0 = true →
    exec (.kettleQuiesce c) s = .next (finish 0x0804 c stOK [] { s with kettle := { s.kettle with quiesce := none } })) ∧
  (∀ c s, Accepted 0x0406 c s → 1 ≤ par c 0 2 → par c 0 2 ≤ 60000 → dozeBusy s = false → twinLinkUp s = false →
    ∃ t, exec (.dozeEnter c) s = .next (finish 0x0406 c stOK [] t) ∧
      t.doze = .pending ((portsDoze s).clock.timebase + msTicks (par c 0 2))) ∧
  (∀ c s, Accepted 0x0807 c s → par c 0 1 ≤ 3 → exec (.kbSendAdmin c) s =
    .next (hold 0x0807 c { s with kb := { s.kb with admins := s.kb.admins ++ [(c, par c 0 1, par c 2 2)] } })) ∧
  (∀ c s, Accepted 0x0040 c s → (quiescedFully s = true ∨ bitOf (par c 0 1) 0 = true) → completionGone 0x0040 c s = false →
    exec (.warmReset c) s = .next (finish 0x0040 c stOK [] { s with boot := { s.boot with warmAsked := true } })) ∧
  (∀ c s, Accepted 0x0040 c s → (quiescedFully s = true ∨ bitOf (par c 0 1) 0 = true) → completionGone 0x0040 c s = true →
    exec (.warmReset c) s = .next (finish 0x0040 c stOK [] { s with boot := { s.boot with
      warmAsked := false, warmResetAt := some (s.clock.timebase + usTicks 100) } })) ∧
  (∀ c s, Accepted 0x0404 c s → par c 0 1 < 8 → keepOk s (par c 0 1) (par c 2 2) = true →
    (stackOf s (par c 0 1)).retired = false → (stackOf s (par c 0 1)).online = true → holdsMirrored s (par c 0 1) = false →
    stackUnsettled s (par c 0 1) = false → (stackOf s (par c 0 1)).thermal.heat ≠ .simmer →
    (stackOf s (par c 0 1)).thermal.heat ≠ .scald →
    (stackOf s (par c 0 1)).sleep.kind = .awake ∨ (stackOf s (par c 0 1)).sleep.kind = .light →
    keepsAll s (par c 2 2) = true →
    ∃ t, exec (.stackSleep c) s =
        .next (finish 0x0404 c stOK (leBytes 2 (unkeptExtents s (par c 0 1) (par c 2 2)).length) t) ∧
      (stackOf t (par c 0 1)).sleep.kind = .light ∧ t = { s with stk := t.stk }) ∧
  (∀ c s, Accepted 0x0404 c s → par c 0 1 < 8 → keepOk s (par c 0 1) (par c 2 2) = true →
    (stackOf s (par c 0 1)).retired = false → (stackOf s (par c 0 1)).online = true → holdsMirrored s (par c 0 1) = false →
    stackUnsettled s (par c 0 1) = false → (stackOf s (par c 0 1)).thermal.heat ≠ .simmer →
    (stackOf s (par c 0 1)).thermal.heat ≠ .scald →
    (stackOf s (par c 0 1)).sleep.kind = .awake ∨ (stackOf s (par c 0 1)).sleep.kind = .light →
    keepsAll s (par c 2 2) = false →
    ∃ t, exec (.stackSleep c) s = .next (hold 0x0404 c t) ∧ (stackOf t (par c 0 1)).sleep.kind = .entering ∧
      (stackOf t (par c 0 1)).sleep.keep = par c 2 2 ∧ t = { s with stk := t.stk }) ∧
  (∀ c s, Accepted 0x0405 c s → par c 0 1 < 8 → (stackOf s (par c 0 1)).retired = false → (stackOf s (par c 0 1)).online = true →
    (stackOf s (par c 0 1)).sleep.kind = .awake →
    exec (.stackWake c) s = .next (finish 0x0405 c stOK (leBytes 2 0) s)) ∧
  (∀ c s, Accepted 0x0405 c s → par c 0 1 < 8 → (stackOf s (par c 0 1)).retired = false → (stackOf s (par c 0 1)).online = true →
    (stackOf s (par c 0 1)).sleep.kind = .partialSleep →
    (∃ ch ∈ stackChans (par c 0 1), chanServes s ch = true ∧ (chanOf s ch).sr ≠ .awake) →
    ∃ t, exec (.stackWake c) s = .next (hold 0x0405 c t) ∧ (stackOf t (par c 0 1)).sleep.kind = .waking ∧
      (stackOf t (par c 0 1)).sleep.wakers = (stackOf s (par c 0 1)).sleep.wakers ++ [c] ∧ t = { s with stk := t.stk }) ∧
  (∀ c s, Accepted 0x0405 c s → par c 0 1 < 8 → (stackOf s (par c 0 1)).retired = false → (stackOf s (par c 0 1)).online = true →
    (stackOf s (par c 0 1)).sleep.kind = .waking ∨ (stackOf s (par c 0 1)).sleep.kind = .wakingLight →
    ∃ t, exec (.stackWake c) s = .next (hold 0x0405 c t) ∧
      (stackOf t (par c 0 1)).sleep.wakers = (stackOf s (par c 0 1)).sleep.wakers ++ [c] ∧ t = { s with stk := t.stk })

/-- REPAIR_ROW, REPAIR_LANE and MAPOUT_CHANNEL start a procedure on a channel that serves; RETIRE_PAGE has its store entry
written before any other effect (R282, R288, R293, R302). -/
def Obligations.RepairCommands : Prop :=
  (∀ c s, Accepted 0x0601 c s → par c 0 1 < 8 → par c 2 2 < 64 → par c 4 1 < bankCount s.ident.big → par c 6 2 < 16384 →
    repairRefused s (par c 0 1) (par c 2 2 / 2) = none → bitOf (par c 8 1) 0 = false →
    repairTaken s (par c 0 1 * 32 + par c 2 2 / 2) = false → s.flash.answers = true →
    ∃ t, exec (.repairRow c) s = .next (hold 0x0601 c t) ∧
      (chanOf t (par c 0 1 * 32 + par c 2 2 / 2)).repairCmd = some c ∧
      t.flash.jobs = s.flash.jobs ++ [.rowRepair (par c 0 1 * 32 + par c 2 2 / 2)
        { pc := par c 0 1 * 64 + par c 2 2, bank := par c 4 1, row := par c 6 2 } false] ∧
      t = { s with chans := t.chans, flash := t.flash }) ∧
  (∀ c s, Accepted 0x0602 c s → par c 0 1 < 8 → par c 2 2 < 64 → par c 4 1 < 64 →
    repairRefused s (par c 0 1) (par c 2 2 / 2) = none → repairTaken s (par c 0 1 * 32 + par c 2 2 / 2) = false →
    laneSpare s (par c 0 1 * 64 + par c 2 2) (par c 4 1) = true → s.flash.answers = true →
    ∃ t, exec (.repairLane c) s = .next (hold 0x0602 c t) ∧
      (chanOf t (par c 0 1 * 32 + par c 2 2 / 2)).repairCmd = some c ∧
      t.flash.jobs = s.flash.jobs ++
        [.laneRepair (par c 0 1 * 32 + par c 2 2 / 2) (par c 0 1 * 64 + par c 2 2) (par c 4 1)] ∧
      t = { s with chans := t.chans, flash := t.flash }) ∧
  (∀ c s, Accepted 0x0603 c s → par c 0 1 < 8 → par c 1 1 < 32 → repairRefused s (par c 0 1) (par c 1 1) = none →
    (stackOf s (par c 0 1)).mapout = none → (stackOf s (par c 0 1)).retireProc = none →
    (stackOf s (par c 0 1)).mapped.length < 4 → foldReady s (par c 0 1) = true → s.flash.answers = true →
    exec (.mapoutChannel c) s =
      .next (hold 0x0603 c (startMapout (par c 0 1) { ch := par c 1 1, cmd := some c, forced := false } s))) ∧
  (∀ c s, Accepted 0x0503 c s → par c 0 1 < 8 → par c 2 2 / 64 = par c 0 1 → par c 4 1 < bankCount s.ident.big →
    par c 6 2 < 16384 → rowStored s (par c 0 1) (par c 2 2 % 64) (par c 4 1) (par c 6 2) = false →
    (retiredEntries s (par c 0 1)).length < 8192 → s.flash.answers = true →
    ∃ e, e.pc = par c 2 2 ∧ e.bank = par c 4 1 ∧ e.row = par c 6 2 ∧ exec (.retirePage c) s =
      .next (hold 0x0503 c { s with flash := { s.flash with jobs := s.flash.jobs ++ [.retirePage c (par c 0 1) e] } }))

/-- POISON_INJECT whose range passes asks for its sectors to be poisoned, through the sector path of its stacks, and goes on
executing until they are (R199, R285). PARTITION_RESET stops what the tenant runs, and starts a rinse where bit 0 asks for
one (R111). -/
def Obligations.TenantProcedures : Prop :=
  (∀ c s, Accepted 0x0505 c s → par c 0 5 % 32 = 0 → 1 ≤ par c 6 2 → par c 6 2 ≤ 64 → par c 0 5 < 2 ^ 39 →
    (partOf s (cmdTarget c)).closed = false → rangeStatus s (cmdTarget c) (par c 0 5) (32 * par c 6 2) = none →
    exec (.poisonInject c) s =
      .next (hold 0x0505 c (ask
        { owner := .command 0x0505 c, tenant := cmdTarget c, port := 24, ta := par c 0 5, len := 32 * par c 6 2,
          write := true, bytes := false, poison := List.replicate (par c 6 2) true } s))) ∧
  (∀ c s, Accepted 0x0041 c s → bitOf (par c 0 1) 0 = false → exec (.partitionReset c) s =
    .next (finish 0x0041 c stOK (leBytes 4 (droppedDescriptors s (cmdTarget c)) ++ leBytes 4 (unstartedOps s (cmdTarget c)))
      (lockBanks (stopTenant (cmdTarget c) s)))) ∧
  (∀ c s t, Accepted 0x0041 c s → bitOf (par c 0 1) 0 = true → t = lockBanks (stopTenant (cmdTarget c) s) →
    rinseIncomplete t (cmdTarget c) = false → exec (.partitionReset c) s =
      .next (finish 0x0041 c stOK (leBytes 4 (droppedDescriptors s (cmdTarget c)) ++ leBytes 4 (unstartedOps s (cmdTarget c)))
        (startRinse (cmdTarget c) [] t)))

/-! ## BAR0 and the mailbox transport (R130 to R142, R507) -/

/-- Doorbell, enables and reset of a mailbox: a doorbell within 256 of the head is taken where it is ahead of the one
kept, and one outside is fault 4; enabling clears every pointer; disabling keeps them; a reset drops what has not
started and raises reset-busy until it is done (R131, R132, R142). The other BAR0 registers: INT_STATUS and
KETTLE_FLAGS bits clear by writing 1, a 32-bit read of TIMEBASE latches the high half, and a base register is written
in halves with bits 11:0 kept 0 (R130). A read of any register answers what Tables 4.6 and 4.7 give it, 0 where they list
none. -/
def Obligations.MailboxRegisters : Prop :=
  (∀ s (k : Fin 128) v f, f = fnOf s k.val → barOpen s k.val = true → f.enabled = true →
    (v.setWidth 16 - f.cmdHead).toNat ≤ 256 → (f.doorbell - f.cmdHead).toNat < (v.setWidth 16 - f.cmdHead).toNat →
    exec (.mbxDoorbellWrite k v) s = .next (setFn k.val { f with doorbell := v.setWidth 16 } s)) ∧
  (∀ s (k : Fin 128) v f, f = fnOf s k.val → barOpen s k.val = true → f.enabled = true →
    256 < (v.setWidth 16 - f.cmdHead).toNat → ∃ t, exec (.mbxDoorbellWrite k v) s = .next t ∧ (fnOf t k.val).fault = 4 ∧
      (fnOf t k.val).doorbell = f.doorbell ∧ (fnOf t k.val).stopped = f.stopped) ∧
  (∀ s (k : Fin 128) f, f = fnOf s k.val → ctrlOpen s k.val = true → f.resetBusy = false → f.enabled = false →
    f.events = false → f.cmdBase ≠ 0 → f.cplBase ≠ 0 → exec (.mbxEnable k true) s =
      .next (setFn k.val { f with enabled := true, doorbell := 0, cmdHead := 0, cplTail := 0, cplHead := 0, evtTail := 0,
                                  evtHead := 0, expect := 0, unsignalled := 0, oldestAt := none } s)) ∧
  (∀ s (k : Fin 128), ctrlOpen s k.val = true → (fnOf s k.val).resetBusy = false → exec (.mbxEnable k false) s =
    .next (setFn k.val { fnOf s k.val with enabled := false } s)) ∧
  (∀ s (k : Fin 128), ctrlOpen s k.val = true → (fnOf s k.val).resetBusy = false → (fnOf s k.val).evtBase ≠ 0 →
    exec (.mbxEventsEnable k true) s = .next (setFn k.val { fnOf s k.val with events := true } s)) ∧
  (∀ s (k : Fin 128), ctrlOpen s k.val = true → ∃ t, exec (.mbxReset k) s = .next t ∧ (fnOf t k.val).enabled = false ∧
    (fnOf t k.val).resetBusy = true ∧ (fnOf t k.val).fault = 0 ∧ (fnOf t k.val).cmdHead = 0 ∧ (fnOf t k.val).expect = 0 ∧
    (∀ e ∈ t.cmds, e.cmd.issuer = .fn k → e.started = true ∧ e.done = none ∧ e.discard = true)) ∧
  (∀ s (k : Fin 128), exec (.mbxResetDone k) s = .next (setFn k.val { fnOf s k.val with resetBusy := false } s)) ∧
  (∀ s (k : Fin 128) v, barOpen s k.val = true → exec (.intStatusClear k v) s =
    .next (setFn k.val { fnOf s k.val with intStatus := (fnOf s k.val).intStatus &&& ~~~ v.setWidth 6 } s)) ∧
  (∀ s (k : Fin 128) v, barOpen s k.val = true → v.getLsbD 5 = true →
    exec (.kettleFlagsClear k v) s = .next { s with kettle := { s.kettle with slewFlag := false } }) ∧
  (∀ s (k : Fin 128) (off : BitVec 16) w, barOpen s k.val = true → ∃ t, exec (.timebaseRead k ⟨off, w⟩) s = .next t ∧
    t.out = .regRead k.val (BitVec.ofNat 64 (bar0Value s k.val off.toNat w)) :: s.out ∧
    t = { s with fns := t.fns, out := t.out } ∧
    (0x9008 ≤ off.toNat → bar0Value s k.val off.toNat w = 0)) ∧
  (∀ s (k : Fin 128), barOpen s k.val = true → s.clock.timebase < 2 ^ 64 → exec (.timebaseRead k ⟨0x08, 64⟩) s =
    .next (emit (.regRead k.val (BitVec.ofNat 64 s.clock.timebase)) s)) ∧
  (∀ s (k : Fin 128), barOpen s k.val = true → ∃ t, exec (.timebaseRead k ⟨0x08, 32⟩) s = .next t ∧
    t.out = .regRead k.val (BitVec.ofNat 64 (s.clock.timebase % 2 ^ 32)) :: s.out ∧
    (fnOf t k.val).tbLatch = some (BitVec.ofNat 32 (s.clock.timebase / 2 ^ 32))) ∧
  (∀ s (k : Fin 128) h, barOpen s k.val = true → (fnOf s k.val).tbLatch = some h →
    ∃ t, exec (.timebaseRead k ⟨0x0C, 32⟩) s = .next t ∧ t.out = .regRead k.val (h.setWidth 64) :: s.out ∧
      (fnOf t k.val).tbLatch = none) ∧
  (∀ s (k : Fin 128) v, barOpen s k.val = true → ∃ t, exec (.bar0RegisterWrite k 0x40 64 v) s = .next t ∧
    (fnOf t k.val).cmdBase = v &&& ~~~ 0xFFF ∧ t = { s with fns := t.fns }) ∧
  (∀ s (k : Fin 128) v, barOpen s k.val = true → exec (.bar0RegisterWrite k 0x84 32 v) s =
    .next (setFn k.val { fnOf s k.val with intEnable := v.setWidth 6 } s)) ∧
  (∀ s (k : Fin 128) (off : BitVec 16) v, 0x100 ≤ off.toNat → off.toNat < 0x8000 →
    exec (.bar0RegisterWrite k off 32 v) s = .next s)

/-- Fetching takes the command of the next slot of the function whose turn it is: with the expected sequence it takes an
execution place and starts where order allows; with another it completes with STALE_SEQUENCE. The slot's bytes give its
opcode and fields by Table 4.8. An ordered command starts once nothing before it
is left. An out-of-band command takes one of the PF's places (R132, R134, R136, R137, R166). A finished command's
completion goes to the next slot that the host has consumed, with the slot's phase bit, and its entry is gone; out of
band it is a message. The warm reset follows the completion of its command by 100 µs. Vector 0 is raised when the oldest
unsignalled completion has waited its delay (R133, R135, R139, R143, R166). -/
def Obligations.CommandTransport : Prop :=
  (∀ s (k : Fin 128) slot hostIn op c f, f = fnOf s k.val → op = slotOp slot → c = slotCmd (.fn k) slot hostIn →
    fetchTurn s = some k.val → c.seq = f.expect → (ofOpcode op.toNat c).isSome = true →
    (∀ e ∈ s.cmds, e.cmd.issuer ≠ .fn k) →
    exec (.commandFetch k slot hostIn) s =
      .next { setFn k.val { f with cmdHead := f.cmdHead + 1, expect := f.expect + 1 } s with
        boot := { s.boot with lastFetch := k.val }
        cmds := s.cmds ++ [{ op := op, cmd := c, started := true, since := s.clock.timebase }] }) ∧
  (∀ s (k : Fin 128), fetchTurn s = some k.val → fnReady s k.val = true ∧ barOpen s k.val = true ∧
    (fnOf s k.val).enabled = true ∧ (fnOf s k.val).stopped = false ∧ (fnOf s k.val).doorbell ≠ (fnOf s k.val).cmdHead ∧
    placeFree s (k.val == 0) = true) ∧
  (∀ s (k : Fin 128) slot hostIn c f, f = fnOf s k.val → c = slotCmd (.fn k) slot hostIn → fetchTurn s = some k.val →
    c.seq ≠ f.expect →
    ∃ t e r, exec (.commandFetch k slot hostIn) s = .next t ∧ t.cmds = s.cmds ++ [e] ∧ e.cmd = c ∧
      e.done = some (BitVec.ofNat 16 stStaleSequence, r) ∧ (fnOf t k.val).cmdHead = f.cmdHead + 1 ∧
      (fnOf t k.val).expect = f.expect) ∧
  (∀ (b : Nat → Byte) issuer hostIn slot c, slot = (List.range 64).map b → c = slotCmd issuer slot hostIn →
    slotOp slot = b 1 ++ b 0 ∧ c.seq = b 3 ++ b 2 ∧ c.flags = b 4 ∧ c.tenant = b 7 ++ b 6 ∧
    c.tag = b 15 ++ b 14 ++ b 13 ++ b 12 ++ b 11 ++ b 10 ++ b 9 ++ b 8 ∧
    c.params = (List.range 48).map (fun i => b (16 + i))) ∧
  (∀ s i q e, (∀ x ∈ s.cmds, x.cmd.issuer = i → x = e) → e ∈ s.cmds → e.cmd.issuer = i → e.cmd.seq = q →
    e.started = false → e.done = none → (ofOpcode e.op.toNat e.cmd).isSome = true → s.cmds = [e] →
    exec (.orderedCommandStart i q) s = .next { s with cmds := [{ e with started := true, since := s.clock.timebase, discard := false }] }) ∧
  (∀ s message hostIn op c, op = slotOp message → c = slotCmd .oob message hostIn → servesCmd op.toNat .oob s = true →
    s.cmds = [] → (ofOpcode op.toNat c).isSome = true →
    exec (.mctpCommandMessage message hostIn) s =
      .next { s with cmds := [{ op := op, cmd := c, started := true, since := s.clock.timebase }] }) ∧
  (∀ s (k : Fin 128) e f, f = fnOf s k.val → s.cmds = [e] → e.cmd.issuer = .fn k → e.done.isSome = true →
    f.enabled = true → f.stopped = false → (f.cplTail - f.cplHead).toNat < 256 → e.cmd.flags.getLsbD 0 = false →
    s.boot.warmAsked = false → ∃ t, exec (.completionWrite (.fn k) 0) s = .next t ∧ t.cmds = [] ∧
      t.out = .ringWrite k.val (f.cplBase.toNat + 32 * (f.cplTail.toNat % 256))
        (withPhase f.cplTail.toNat 256 (completionBytes e)) :: s.out ∧
      (fnOf t k.val).cplTail = f.cplTail + 1 ∧ cget t.tele.events 653 = (cget s.tele.events 653 + 1) % 2 ^ 64) ∧
  (∀ s (k : Fin 128) e f r, f = fnOf s k.val → s.cmds = [e] → e.cmd.issuer = .fn k → e.op = 0x0040 →
    e.done = some (0, r) → f.enabled = true → f.stopped = false → (f.cplTail - f.cplHead).toNat < 256 →
    s.boot.warmAsked = true →
    ∃ t, exec (.completionWrite (.fn k) 0) s = .next t ∧ t.cmds = [] ∧ t.boot.warmAsked = false ∧
      t.boot.warmResetAt = some (s.clock.timebase + usTicks 100)) ∧
  (∀ s e, s.cmds = [e] → e.cmd.issuer = .oob → e.done.isSome = true → e.op ≠ 0x0040 → exec (.completionWrite .oob 0) s =
    .next (emit (mctpOut 2 (completionBytes e)) { s with cmds := [] })) ∧
  (∀ s (k : Fin 128) t, (fnOf s k.val).oldestAt = some t → (fnOf s k.val).coalesceUs ≠ 0 →
    (fnOf s k.val).intEnable.getLsbD 0 = true → t + 1000 * (fnOf s k.val).coalesceUs.toNat ≤ s.clock.timebase →
    exec (.intCoalesceTimeout k) s =
      .next (raiseVector k.val 0 (setFn k.val { fnOf s k.val with unsignalled := 0, oldestAt := none } s)))

/-- A failed ring access stops the mailbox with its fault code (R140). A failed write of host memory ends the command with
HOST_WRITE_FAILED, with its range undefined and every other effect in place; a failed read takes no effect, but a
TEST_UNLOCK uses up its nonce (R507). -/
def Obligations.HostFaults : Prop :=
  (∀ s (k : Fin 128) w, (fnOf s k.val).enabled = true → (fnOf s k.val).stopped = false →
    ∃ t, exec (.ringAccessFault k w) s = .next t ∧ (fnOf t k.val).stopped = true ∧
      (fnOf t k.val).fault = (match w with
        | .fetch => 1
        | .completion => 2
        | .event => 3
        | .enable => 5)) ∧
  (∀ c s n, Accepted 0x0209 c s → par c 0 1 < 8 → ∃ t, exec (.hostAccessFault 0x0209 c true n) s =
    .next (finish 0x0209 c stHostWriteFailed [] t) ∧ t.out = .hostUndefined (cmdFn c) (par c 8 8) 64 :: s.out) ∧
  (∀ c s n, Accepted 0x0202 c s → par c 0 2 ≤ 128 → rinseIncomplete s (cmdTarget c) = false →
    exec (.hostAccessFault 0x0202 c false n) s = .next (finish 0x0202 c stHostWriteFailed [] s)) ∧
  (∀ c s n, Accepted 0x0E08 c s → (∀ t < 128, partState s t = 0) → exec (.hostAccessFault 0x0E08 c false n) s =
    .next (finish 0x0E08 c stHostWriteFailed (leBytes 1 s.dbg.level) { s with dbg := { s.dbg with nonce := none } }))

/-! ## Reset, supplies, boot (R96 to R123, R310 to R315, R480 to R482) -/

/-- What State.reset holds of the values the spec gives for a power-on reset: stage 0 with PG_CORE awaited (Table 4.2,
R98, R106), an empty queue and staging, the reset values of Tables 2.3, 4.6 and 5.12, colours k + 1 for Tk (R185), no
stack online, and timebase 0 (R9). Straps 0 are the model's choice (log entry 5). -/
def Obligations.ResetValues : Prop :=
  State.reset.pending = [] ∧ State.reset.boot.stage = .romCheck ∧ State.reset.pins.enCore = true ∧
  State.reset.pins.pgCore = false ∧ State.reset.clock.timebase = 0 ∧ State.reset.cfg.serial = 0 ∧
  onlineMask State.reset = 0 ∧ retiredMask State.reset = 0 ∧ serving State.reset = false ∧
  (∀ k : Fin 128, (fnOf State.reset k.val).enabled = false ∧ (fnOf State.reset k.val).intStatus = 0 ∧
    (fnOf State.reset k.val).coalesceCount = 1) ∧
  (∀ t : Fin 128, (colourOf State.reset t.val).toNat = t.val + 1 ∧ hasMemory State.reset t.val = false) ∧
  cfgN State.reset 0x0801 0 0 = 20000 ∧ cfgN State.reset 0x0801 2 0 = 700000 ∧ cfgN State.reset 0x0D00 0 0 = 0 ∧
  State.reset.wf

/-- POR_N_RISE starts the device from its fuses, its flash and the pins (R98, R106): what it keeps is named, and
everything else is as State.reset has it. Every trigger of a warm reset (Table 4.1) takes the warm reset that R108
and Table 4.2 describe: the core supply's state decides what power stays, the mailboxes and the pot are empty, and
the configuration in force, the flash store and the contents of HBM stay. -/
def Obligations.FullResets : Prop :=
  (∀ s straps, ∃ t, exec (.porNRise straps) s = .next t ∧ t.pins.straps = straps ∧ t.ident = s.ident ∧
    t.boot = State.reset.boot ∧ t.hbm = {} ∧ t.pot = {} ∧ t.cfg = {} ∧ t.cmds = [] ∧ t.fns = [] ∧ t.parts = [] ∧
    t.clock = {} ∧ t.kettle = {} ∧ t.kb = {} ∧ t.compute = {} ∧ t.infusers = [] ∧ t.peers = {} ∧ t.twin = {} ∧
    t.tele = {} ∧ t.flash.store.items = s.flash.store.items ∧ t.flash.retired = retiredReset s.flash ∧
    t.flash.mirror = s.flash.mirror ∧ t.flash.jobs = [] ∧ t.flash.erase = none ∧
    (s.flash.erase = none → t.flash.bankA.page0 = s.flash.bankA.page0 ∧ t.flash.bankB.page0 = s.flash.bankB.page0 ∧
      t.flash.bankA.image = s.flash.bankA.image ∧ t.flash.bankB.image = s.flash.bankB.image)) ∧
  (∀ s, s.pins.perstN = true → s.pins.vaux = true →
    exec .perstNLow s = .next (warmReset 1 { s with pins := { s.pins with perstN := false } })) ∧
  (∀ s, s.pins.hostLink = .up → exec .hostHotReset s = .next (warmReset 1 s)) ∧
  (∀ s t, s.boot.warmResetAt = some t → t ≤ s.clock.timebase → exec .warmResetDelayExpiry s = .next (warmReset 2 s)) ∧
  (∀ s last, s.pins.pgCore = true → tapHolds s = false → s.cfg.pour = none →
    (warmReset last s).boot.stage = .romCheck ∧ (warmReset last s).boot.lastReset = last ∧
    (warmReset last s).boot.warmResets = s.boot.warmResets + 1 ∧ (warmReset last s).cmds = [] ∧
    (warmReset last s).fns = [] ∧ (warmReset last s).pot = {} ∧ (warmReset last s).compute = {} ∧
    (warmReset last s).cfg.inForce = s.cfg.inForce ∧ (warmReset last s).flash.store.items = s.flash.store.items ∧
    (warmReset last s).clock = s.clock ∧ (warmReset last s).pending = s.pending)

/-- An HKP restart resets the mailboxes and drops staged configuration, and is reported; its end serves again or
leaves the stopped stage (R123). A function-level reset gives the function its reset values but for its BAR4's size
(R110). Supplies and clocks: PG_CORE and its timeout, REFCLK, VAUX, the stack rails and the core regulators (R88,
R96, R97, R102, R103). -/
def Obligations.PartialResetsAndSupplies : Prop :=
  (∀ s, hkpRuns s = true → s.boot.halt = .none → s.boot.hkpReloading = false →
    ∃ t, exec .hkpWatchdogExpiry s = .next t ∧ t.boot.hkpReloading = true ∧ t.boot.lastReset = 3 ∧ t.cfg.areas = [] ∧
      t.cfg.waiting = [] ∧ t.cfg.inForce = s.cfg.inForce ∧ (∀ e ∈ t.cmds, e.discard = true ∧ e.done = none) ∧
      serving t = false ∧ SameContents s t) ∧
  (∀ s ok, s.boot.hkpReloading = true → ∃ er, exec (.hkpReloadDone ok) s = .next { s with
      boot := { s.boot with hkpReloading := false, stage := if ok = true then s.boot.stage else .stopped },
      flash := { s.flash with erase := er } } ∧
    er.map (fun e => (e.bank, e.unit)) = s.flash.erase.map (fun e => (e.bank, e.unit))) ∧
  (∀ s (k : Fin 128), barOpen s k.val = true → k.val ≠ 0 → ∃ t, exec (.functionLevelReset k) s = .next t ∧
    (fnOf t k.val).bar4Log2 = (fnOf s k.val).bar4Log2 ∧ (fnOf t k.val).enabled = false ∧ (fnOf t k.val).cmdBase = 0 ∧
    (fnOf t k.val).intEnable = 0 ∧ (fnOf t k.val).expect = 0 ∧ staged t k.val = [] ∧ t.cfg.inForce = s.cfg.inForce) ∧
  (∀ s, s.pins.pgCore = false → s.pins.enCore = true → s.boot.halt = .none → s.boot.stage = .romCheck →
    tapHolds s = false → exec .pgCoreRise s =
      .next { s with pins := { s.pins with pgCore := true },
                     boot := { s.boot with stage := .romCheck, romStart := s.clock.timebase, enRise := none } }) ∧
  (∀ s, s.pins.pgCore = true → s.pins.enCore = false →
    exec .pgCoreFall s = .next { s with pins := { s.pins with pgCore := false } }) ∧
  (∀ s, s.pins.pgCore = true → s.pins.enCore = true → ∃ t, exec .pgCoreFall s = .next t ∧ t.pins.pgCore = false ∧
    t.pins.enCore = false ∧ t.boot.halt = .coreLost ∧ t.pins.devAlert = true) ∧
  (∀ s t, s.boot.enRise = some t → s.pins.pgCore = false → t + msTicks 20 ≤ s.clock.timebase →
    ∃ u, exec .pgCoreTimeout s = .next u ∧ u.doze = .asleep ∧ u.pins.enCore = false ∧ u.pins.devAlert = true) ∧
  (∀ s, s.pins.refclk = true → s.pins.vaux = true → s.boot.halt = .none → ∃ t, exec .refclkLoss s = .next t ∧
    t.pins.refclk = false ∧ t.pins.refclkFault = true ∧ t.boot.halt = .refclkLost ∧ t.pins.devAlert = true) ∧
  (∀ s, exec .refclkReturn s = .next { s with pins := { s.pins with refclk := true } }) ∧
  (∀ s, ∃ t, exec .vauxLoss s = .next t ∧ t.pins = { s.pins with vaux := false } ∧ t.kb.started = false ∧
    t.kb.acquired = false ∧ t = { s with pins := t.pins, kb := t.kb }) ∧
  (∀ s, exec .vauxReturn s = .next { s with pins := { s.pins with vaux := true } }) ∧
  (∀ s, ∃ t, exec .stackRailOutOfRange s = .next t ∧
    (∀ n < 8, (stackOf s n).retired = false → (stackOf t n).contentsLost = true) ∧ t = { s with hbm := {}, stk := t.stk }) ∧
  (∀ s (r : Fin 5), s.power.avsAbsent = false → s.power.heldRails.contains r.val = false →
    ∃ t, exec (.avsbusRegulatorFault r) s = .next t ∧ t.power.regFault = true ∧ t.power.heldRails.contains r.val = true ∧
      t.power.rails = s.power.rails ∧ t.pins.devAlert = true)

/-- The host's side of boot: the host link trains, the configuration space is loaded, and a configuration request
gets Request Retry Status until then (R119); a function that is not enabled is none, TotalVFs reads 0 in the
recovery-only stage, and VF Enable enables the VFs that there are (R110, R117, R119). The TAP (R480 to R482): an instruction that holds no pin takes effect
and leaves the boot alone; private instructions need level 1; Test-Logic-Reset selects IDCODE. -/
def Obligations.HostLinkAndTap : Prop :=
  (∀ s, s.pins.perstN = false → s.pins.vaux = true → s.boot.halt = .none → tapHolds s = false → exec .perstNRise s =
    .next { s with pins := { s.pins with perstN := true, hostLink := .up } }) ∧
  (∀ s, s.pins.pgCore = true → s.boot.stage ≠ .warm → s.boot.halt = .none →
    exec .configSpaceLoaded s = .next { s with boot := { s.boot with cfgLoaded := true } }) ∧
  (∀ s (k : Fin 128) tag r, s.pins.hostLink = .up → s.boot.cfgLoaded = false →
    exec (.configRequest k tag r) s = .next (emit (.tlp k.val tag .retry false []) s)) ∧
  (∀ s (k : Fin 128) tag g, s.pins.hostLink = .up → s.boot.cfgLoaded = true → fnPresent s k.val = true → 3 ≤ g → g ≤ 9 → exec (.configRequest k tag (.setBar4 g)) s =
      .next (emit (.tlp k.val tag .success false []) (setFn k.val { fnOf s k.val with bar4Log2 := some (30 + g) } s))) ∧
  (∀ s (k : Fin 128) tag r, s.pins.hostLink = .up → s.boot.cfgLoaded = true → k.val ≠ 0 →
    (s.boot.vfEnable = false ∨ s.ident.vfs < k.val) →
    exec (.configRequest k tag r) s = .next (emit (.tlp k.val tag .unsupported false []) s)) ∧
  (∀ s tag, s.pins.hostLink = .up → s.boot.cfgLoaded = true → exec (.configRequest 0 tag .totalVfs) s =
    .next (emit (.tlp 0 tag .success false (leBytes 2 (if s.boot.stage = .recovery then 0 else s.ident.vfs))) s)) ∧
  (∀ s tag on, s.pins.hostLink = .up → s.boot.cfgLoaded = true → s.boot.stage ≠ .recovery → s.ident.vfs ≠ 0 →
    exec (.configRequest 0 tag (.vfEnable on)) s =
      .next (emit (.tlp 0 tag .success false []) { s with boot := { s.boot with vfEnable := on } })) ∧
  (∀ s (k : Fin 128) tag, s.pins.hostLink = .up → s.boot.cfgLoaded = true → fnPresent s k.val = true → ∃ d, d.length = 4 ∧ ∃ t, exec (.configRequest k tag .read) s = .next t ∧
      t.out = .tlp k.val tag .success false d :: s.out) ∧
  (∀ s, tapHolds s = false → exec (.tapInstructionUpdate .bypass) s =
    .next { s with dbg := { s.dbg with tap := .bypass } }) ∧
  (∀ s n, tapHolds s = false → s.dbg.level = 0 → exec (.tapInstructionUpdate (.privateInstr n)) s =
    .next { s with dbg := { s.dbg with tap := .bypass } }) ∧
  (∀ s n, tapHolds s = false → s.dbg.level ≠ 0 → exec (.tapInstructionUpdate (.privateInstr n)) s =
    .next { s with dbg := { s.dbg with tap := .privateInstr n } }) ∧
  (∀ s, s.pins.perstN = true → exec (.tapInstructionUpdate .extest) s =
    .next { s with dbg := { s.dbg with tap := .bypass } }) ∧
  (∀ s, tapHolds s = false → exec .tapTestLogicReset s = .next { s with dbg := { s.dbg with tap := .idcode } })

/-- The stages of boot in their order (R113 to R122): the ROM chooses a bank and loads it, Yaresk starts and waits its
steep delay, the stacks train in turn, and the device is ready. -/
def Obligations.BootStages : Prop :=
  (∀ s code f, s.boot.stage = .romCheck → s.pins.pgCore = true → s.pins.refclk = true → tapHolds s = false →
    s.boot.halt = .none → s.boot.afterTrip = false → 15840 ≤ code → code ≤ 16160 → s.refcode.inForce = 0 →
    s.boot.triedBanks = [] → s.flash.bootNext = none → bankValid s.flash.bankA = true → failedTrial s.flash.bankA = false →
    bankValid s.flash.bankB = false → ∃ t, exec (.bootRomCheckDone code (some f)) s = .next t ∧ t.boot.stage = .romLoad ∧
      t.boot.bootedBank = 0 ∧ t.flash.sfdp = some f ∧ t.refcode.inForce = code) ∧
  (∀ s code, s.boot.stage = .romCheck → s.pins.pgCore = true → s.pins.refclk = true → tapHolds s = false →
    s.boot.halt = .none → s.boot.afterTrip = false → ∃ t, exec (.bootRomCheckDone code none) s = .next t ∧
      t.boot.stage = .recovery ∧ t.flash.answers = false) ∧
  (∀ s, s.boot.stage = .romLoad → s.boot.halt = .none → bankValid (bankOf s s.boot.bootedBank) = true →
    ∃ t, exec (.bootImageLoaded true) s = .next t ∧ t.boot.stage = .yaresk ∧
      (bankOf t s.boot.bootedBank).trial = true ∧ t.boot.romUs = (s.clock.timebase - s.boot.romStart) / 1000) ∧
  (∀ s, s.boot.stage = .yaresk → s.boot.halt = .none → s.boot.warmKind = true → s.flash.store.retiredStacks = [] →
    ∃ t, exec (.yareskStartDone true) s = .next t ∧ t.boot.stage = .steepDelay ∧ t.kettle.running = true ∧
      t.power.avsAbsent = false ∧ t.pot.clearing = List.range 8 ∧ t.cfg.inForce = s.cfg.inForce) ∧
  (∀ s t, s.boot.steepUntil = some t → s.boot.stage = .steepDelay → s.boot.halt = .none → t ≤ s.clock.timebase →
    s.ident.fuseGrades ≠ [] → exec .bootSteepDelayExpiry s = .next { s with boot := { s.boot with
      stage := .training, steepUntil := none, nextStack := nextToTrain s 0 } }) ∧
  (∀ s (n : Fin 8) r, s.boot.stage = .training → s.boot.nextStack = n.val → s.boot.halt = .none →
    s.boot.hkpReloading = false → bootPowered s n.val = true →
    (stackOf s n.val).ident = none → qualified s r.ident = true → r.failed = [] → 4 ≥ mappedCount s n.val →
    ∃ t, exec (.stackTrainingDone n r) s = .next t ∧ (stackOf t n.val).online = true ∧
      (stackOf t n.val).ident = some r.ident ∧ t.boot.nextStack > n.val) ∧
  (∀ s, s.boot.stage = .training → 8 ≤ s.boot.nextStack → s.boot.halt = .none → s.boot.hkpReloading = false →
    ∃ t, exec .bootReady s = .next t ∧
    t.boot.stage = .ready ∧ t.boot.ready = true ∧ (∀ k < 128, (fnOf t k).intStatus.getLsbD 4 = true))


/-! ## The brew period and the kettle bus (R24 to R30, R41, R52, R60 to R76, R87, R91, R92) -/

/-- PERIOD_MARK brings the timebase to the next multiple of 1024 and closes admission until the next allowance.
PERIOD_WORK runs the oldest mark that a die has not worked, no sooner than its mark, its last work's end and 768 ticks
after its last work's start, which its debt delays; a foot die refills its regulators. JOB_START_RELEASE releases held job work at its mark. -/
def Obligations.PeriodEvents : Prop :=
  (∀ s sensors, s.pins.refclk = true → s.pins.vaux = true → ∃ t, exec (.periodMark sensors) s = .next t ∧
    t.clock = { timebase := 1024 * (s.clock.timebase / 1024 + 1) % 2 ^ 64, mark := s.clock.timebase / 1024 + 1 } ∧
    (s.kettle.running = true → t.kettle.allowance = 0 ∧
      ((∀ x ∈ sensors, x < 115000) → t.kettle.closed.length = s.kettle.closed.length + 1))) ∧
  (∀ s (d : Fin 9) dur w, s.kettle.running = true → s.boot.halt = .none →
    (dieOf s d.val).workMark < s.clock.mark →
    max (max (dieOf s d.val).finish (1024 * ((dieOf s d.val).workMark + 1))) ((dieOf s d.val).start + 768) ≤
      s.clock.timebase →
    ∃ t, exec (.periodWork d dur w) s = .next t ∧
      (dieOf t d.val).workMark = (dieOf s d.val).workMark + 1 ∧
      (dieOf t d.val).start = max (max (dieOf s d.val).finish (1024 * ((dieOf s d.val).workMark + 1)))
        ((dieOf s d.val).start + 768) ∧
      (dieOf t d.val).finish ≤ (dieOf t d.val).start + 2816 ∧
      (d.val < 8 → s.cfg.pour = none → ∀ k < 128, regOn s k d.val = true →
        (bucketOf t k d.val).tokens =
          min (regDepth s k d.val) ((bucketOf s k d.val).tokens + regRate s k d.val))) ∧
  (∀ s m, s.kettle.jobRelease = some m → m ≤ s.clock.timebase → ∃ t, exec .jobStartRelease s = .next t ∧
    t.kettle.jobRelease = none ∧ (∀ e ∈ t.compute.lists, e.2.held = false) ∧
    (∀ e ∈ t.infusers, ∀ o ∈ e.2.queue, o.held = false))

/-- The envelope moves by no more than the slew of one period in a standalone device, stays under CEILING where it was,
and does not move during an admin hold, and the allowance is what is left of it, whichever blocks' counts are missing
(R27, R41). -/
def Obligations.EnvelopeSlew : Prop :=
  (∀ c m s, chained s = false → s.kettle.scaldDrop = [] →
    (governorWork c m s).kettle.e ≤ s.kettle.e + perPeriod (slewOf s true) ∧
    s.kettle.e ≤ (governorWork c m s).kettle.e + perPeriod (slewOf s false)) ∧
  (∀ c m s, s.kettle.e ≤ ceiling s → (governorWork c m s).kettle.e ≤ ceiling s) ∧
  (∀ c m s, s.kettle.scaldDrop = [] → 0 < s.kb.holdPeriods → (governorWork c m s).kettle.e = s.kettle.e) ∧
  (∀ c m s, (governorWork c m s).kettle.allowance ≤ (governorWork c m s).kettle.e) ∧
  (∀ c m s, (governorWork c m s).kettle.lastCounts = c.counts ∧
    (s.kettle.userWaits = false → (governorWork c m s).kettle.userWaits = false))

/-- The timeouts of KETTLE_QUIESCE and KB_SEND_ADMIN complete their commands; rails step by 5 mV; domains go on and off;
a cleared slice pair admits accesses. -/
def Obligations.KettleAndDomainEvents : Prop :=
  (∀ s c f d, s.kettle.quiesce = some { cmd := some c, ignoreFloor := f, deadline := d } → d ≤ s.clock.timebase →
    exec .kettleQuiesceTimeout s =
      .next (finish 0x0804 c stDeferred []
        { s with kettle := { s.kettle with quiesce := some { cmd := none, ignoreFloor := f, deadline := d } } })) ∧
  (∀ s c e m r, s.kb.adminSent = (c, e, m) :: r → m + 64 ≤ s.clock.mark →
    exec .kbSendAdminTimeout s =
      .next (finish 0x0807 c stOK [0, 0, 1] { s with kb := { s.kb with adminSent := r } })) ∧
  (∀ s (r : Fin 5), s.clock.mark % 4 = 0 → tget 0 s.power.railMark r.val ≠ s.clock.mark + 1 → s.kettle.running = true →
    railMoves s r.val = true → railTarget s r.val < railMv s r.val →
    ∃ t, exec (.vcoreStep r) s = .next t ∧ t.power.rails = s.power.rails.set r.val (railMv s r.val - 5) ∧
      Out.avsWrite (avsBus r.val) (avsSel r.val) (railMv s r.val - 5) ∈ t.out) ∧
  (∀ s (r : Fin 5), s.clock.mark % 4 = 0 → tget 0 s.power.railMark r.val ≠ s.clock.mark + 1 → s.kettle.running = true →
    railMoves s r.val = true → railMv s r.val < railTarget s r.val →
    ∃ t, exec (.vcoreStep r) s = .next t ∧
      (hasRoom s (stepRise s r.val) = true →
        t.power.rails = s.power.rails.set r.val (railMv s r.val + 5) ∧
        Out.avsWrite (avsBus r.val) (avsSel r.val) (railMv s r.val + 5) ∈ t.out) ∧
      (hasRoom s (stepRise s r.val) = false → r.val ∈ t.power.stepHeld ∧
        t = { s with power := { s.power with stepHeld := t.power.stepHeld } })) ∧
  (∀ s (d : Fin 96), wantsOn s d.val = true → hasRoom s (domainShare s d.val) = true →
    ∃ t, exec (.domainPowerOn d) s = .next t ∧ t.power.on.getLsbD d.val = true ∧
      ∀ i < 96, i ≠ d.val → t.power.on.getLsbD i = s.power.on.getLsbD i) ∧
  (∀ s (d : Fin 96), s.doze = .none → wantsOff s d.val = true →
    ∃ t, exec (.domainPowerOff d) s = .next t ∧ t.power.on.getLsbD d.val = false ∧
      ∀ i < 96, i ≠ d.val → t.power.on.getLsbD i = s.power.on.getLsbD i) ∧
  (∀ s (q : Fin 8), exec (.potClearDone q) s =
    .next { s with pot := { s.pot with clearing := s.pot.clearing.filter (· != q.val) } })

/-- A member subtracts its latched request from the credit of a passing grant frame, counts itself and sends the frame on
with a fresh CRC; a borrow marks an overdraw and denies the request, and so does a frame whose CRC fails. The master ends the returned frame. The chain's
events follow the counts of good and missing frames. -/
def Obligations.KettleBusFrames : Prop :=
  (∀ s w r, s.pins.vaux = true → kbStrap s = 0 → s.kb.acquired = true → s.kettle.running = true →
    s.kb.request = some (Int.ofNat r) → kbSync w = 0xA7 → kbCrcOk w = true → kbReserved w = 0 → kbType w = 0 →
    kbOverdraw w = false → ∃ t, exec (.kbFrameReceived w) s = .next t ∧ t.kb.request = none ∧
      t.kb.position = kbCount w + 1 ∧ t.kb.goodRun = s.kb.goodRun + 1 ∧ t.kb.badRun = 0 ∧
      (r ≤ kbCredit w →
        t.kb.grantUp = s.kb.grantUp + r * mw ∧
        Out.kbOut (kbFrame (kbBody 0xA7 0 (kbEpoch w) (kbCredit w - r) (min (kbCount w + 1) 4095) false 0) false) ∈ t.out) ∧
      (kbCredit w < r → r ≤ 1048575 →
        t.kb.grantUp = s.kb.grantUp ∧
        Out.kbOut (kbFrame (kbBody 0xA7 0 (kbEpoch w) (kbCredit w + 2 ^ 20 - r) (min (kbCount w + 1) 4095) true 0) false)
          ∈ t.out)) ∧
  (∀ s w, s.pins.vaux = true → kbStrap s = 0 → kbCrcOk w = false → kbType w = 0 →
    ∃ t, exec (.kbFrameReceived w) s = .next t ∧ t.kb.request = none ∧ t.kb.grantUp = s.kb.grantUp ∧ t.kb.accUp = 0 ∧
      t.kb.goodRun = 0 ∧ t.kb.badRun = s.kb.badRun + 1 ∧ t.kb.crcFails = s.kb.crcFails + 1) ∧
  (∀ s w, s.pins.vaux = true → kbStrap s ≠ 0 → kbStrap s ≠ 1 →
    exec (.kbFrameReceived w) s = .next (emit (.kbOut w) s)) ∧
  (∀ s w, s.pins.vaux = true → kbStrap s = 1 → s.kb.adminSent = [] → kbSync w = 0xA7 → kbCrcOk w = true →
    exec (.kbFrameReturn w) s = .next { s with kb := { s.kb with
      unreturned := 0, chainOpen := false, sinceValid := 0, lastEpoch := some (BitVec.ofNat 6 (kbEpoch w)),
      lastCount := kbCount w, lastCredit := kbCredit w, lastOverdraw := kbOverdraw w, lastType := kbType w,
      overdrawSeen := kbOverdraw w } }) ∧
  (∀ s, kbStrap s = 1 → 8 ≤ s.kb.unreturned → s.kb.chainOpen = false →
    ∃ t, exec .kbChainOpen s = .next t ∧ t.kb = { s.kb with chainOpen := true }) ∧
  (∀ s, kbStrap s = 0 → s.kb.acquired = false → s.kb.lost = false → 3 ≤ s.kb.goodRun → s.boot.stage = .ready →
    exec .kbChainAcquire s = .next { s with kb := { s.kb with acquired := true } }) ∧
  (∀ s, kbStrap s = 0 → s.kb.acquired = true → 8 ≤ s.kb.badRun →
    ∃ t, exec .kbMasterLoss s = .next t ∧ t.kb = { s.kb with
      acquired := false, lost := true, cap := none, losses := s.kb.losses + 1, grantUp := 0, grantDown := 0,
      request := none } ∧ t.kettle.e = s.kettle.e) ∧
  (∀ s, kbStrap s = 0 → s.kb.lost = true → 16 ≤ s.kb.epochRun →
    exec .kbChainRejoin s = .next { s with kb := { s.kb with acquired := true, lost := false, accUp := 0, accDown := 0 } }) ∧
  (∀ s, s.kb.holdPeriods = 1 → exec .kbAdminHoldEnd s = .next { s with kb := { s.kb with holdPeriods := 0 } })

/-! ## Host accesses and the sector path (R182, R183, R194, R199 to R215, R236, R259 to R268, R378, R379) -/

/-- A BAR4 access that is served becomes one request a 64 B line, each at its regulator, or at the ingress while its foot
die's store is full, and changes no stored byte; an access past the BAR's end and an AtomicOp are Unsupported Requests. -/
def Obligations.Bar4Accesses : Prop :=
  (∀ s (k : Fin 128) tag off len, barOpen s k.val = true → 0 < len → off + len ≤ bar4Size s k.val →
    holds s k.val = false → bar4Status s k.val off len = none → ∃ t a, exec (.bar4Read k tag off len) s = .next t ∧
      t.path.accesses = s.path.accesses ++ [a] ∧ a.id = s.path.nextId ∧ a.fn = k.val ∧ a.tag = tag ∧ a.write = false ∧
      a.start = off ∧ a.len = len ∧ a.left = (unitStarts off len).length ∧
      t.path.reqs.take s.path.reqs.length = s.path.reqs ∧
      (t.path.reqs.drop s.path.reqs.length).map (fun r => (r.access, r.tenant, r.ta)) =
        (lineStarts off len).map (fun l => (a.id, k.val, barTa (bar4Stride s k.val) l)) ∧
      (∀ r ∈ t.path.reqs.drop s.path.reqs.length, r.place = .regulator ∨ r.place = .stem) ∧
      ((∀ r ∈ s.path.reqs, r.place ≠ .stem) → s.path.reqs.length + (lineStarts off len).length ≤ 8192 →
        ∀ r ∈ t.path.reqs.drop s.path.reqs.length, r.place = .regulator) ∧
      t.hbm = s.hbm ∧ t.pot = s.pot ∧ t.out = s.out) ∧
  (∀ s (k : Fin 128) off data ep, barOpen s k.val = true → 0 < data.length → off + data.length ≤ bar4Size s k.val →
    holds s k.val = false → bar4Status s k.val off data.length = none →
    ∃ t a, exec (.bar4Write k off data ep) s = .next t ∧
      t.path.accesses = s.path.accesses ++ [a] ∧ a.id = s.path.nextId ∧ a.write = true ∧
      t.path.reqs.take s.path.reqs.length = s.path.reqs ∧
      (t.path.reqs.drop s.path.reqs.length).map (fun r => (r.access, r.tenant, r.data)) =
        (lineStarts off data.length).map (fun l => (a.id, k.val, lineBytes off data l)) ∧
      (∀ r ∈ t.path.reqs.drop s.path.reqs.length, r.place = .regulator ∨ r.place = .stem) ∧
      t.hbm = s.hbm ∧ t.pot = s.pot ∧ t.out = s.out) ∧
  (∀ s (k : Fin 128) tag off len, barOpen s k.val = true → bar4Size s k.val < off + len →
    exec (.bar4Read k tag off len) s = .next (emit (.tlp k.val tag .unsupported false []) s)) ∧
  (∀ s (k : Fin 128) tag, barOpen s k.val = true →
    exec (.bar4Atomic k tag) s = .next (emit (.tlp k.val tag .unsupported false []) s))

/-- A BAR2 access within one 32 B block of the pot, which nothing goes before at admission (R43) and whose debit, that of its
link payload in it, is in the allowance: a read
answers the bytes, a write stores them and leaves every other byte as it was, and FetchAdd answers the old value and stores
the sum. -/
def Obligations.Bar2Accesses : Prop :=
  (∀ s (k : Fin 128) tag off len o d, barOpen s k.val = true → 0 < len → off + len ≤ 2 ^ 27 → holds s k.val = false →
    translate s k.val (2 ^ 39 + off) = .inl (.pot o) → off % 32 + len ≤ 32 → potClearing s k.val off len = false →
    potBehind s k.val = false → kettleFirst s 0 k.val = false →
    d = potDebit s len + evPower s .host 8 (units64 len) → quiesced s = false → d ≤ allowanceOf s hubUnit →
    potFlagged s o = false →
    ∃ t, exec (.bar2Read k tag off len) s = .next t ∧
      t.out = .tlp k.val tag .success false (potBytes s o len) :: s.out ∧ t.pot = s.pot ∧ t.hbm = s.hbm ∧
      t.kettle.allowance = s.kettle.allowance - d) ∧
  (∀ s (k : Fin 128) off data o, barOpen s k.val = true → 0 < data.length → off + data.length ≤ 2 ^ 27 →
    holds s k.val = false → translate s k.val (2 ^ 39 + off) = .inl (.pot o) → off % 32 + data.length ≤ 32 →
    potClearing s k.val off data.length = false → potBehind s k.val = false → kettleFirst s 0 k.val = false → quiesced s = false →
    potDebit s data.length + evPower s .host 8 (units64 data.length) ≤ allowanceOf s hubUnit →
    ∃ t, exec (.bar2Write k off data false) s = .next t ∧ t.hbm = s.hbm ∧
      (∀ i < data.length, potByte t (o + i) = data.getD i 0) ∧
      (∀ a, a < o ∨ o + data.length ≤ a → potByte t a = potByte s a)) ∧
  (∀ s (k : Fin 128) tag off v o, barOpen s k.val = true → off + 4 ≤ 2 ^ 27 → off % 4 = 0 → holds s k.val = false →
    translate s k.val (2 ^ 39 + off) = .inl (.pot o) → potClearing s k.val off 4 = false → potBehind s k.val = false →
    kettleFirst s 0 k.val = false → quiesced s = false →
    potDebit s 4 + evPower s .host 8 1 ≤ allowanceOf s hubUnit → potFlagged s o = false →
    ∃ t, exec (.bar2Atomic k tag off 32 (.fetchAdd v)) s = .next t ∧
      t.out = .tlp k.val tag .success false (potBytes s o 4) :: s.out ∧
      potBytes t o 4 = leBytes 4 ((ofLe (potBytes s o 4) + v.toNat) % 2 ^ 32) ∧
      (∀ a, a < o ∨ o + 4 ≤ a → potByte t a = potByte s a) ∧ t.hbm = s.hbm)

/-- The gates of the sector path: REGULATOR_ADMIT takes a request's tokens, KETTLE_ADMIT its debit, and QUEUE_ENTRY puts
it into its reorder queue under the map in force; what its gate does not cover waits. After each, the engines go on as far
as completed accesses let them, which changes nothing while none waits. -/
def Obligations.SectorPathGates : Prop :=
  (∀ s, EnginesIdle s → engineTurn s = s) ∧
  (∀ s id r, reqOf s id = some r → (r.place = .regulator ∨ (r.place = .stem ∧ storeRoom s r.stack = true)) →
    r.kind ≠ .pot → earlierWaits s r = false → gateStatus s r = none → tokensCover s r = true →
    regulatorFirst s r = false →
    ∃ u, exec (.regulatorAdmit id) s = .next (engineTurn u) ∧
      reqOf u id = some { r with place := .kettle, target := takeTarget s r } ∧
      (r.exempt = false → regOn s r.tenant r.stack = true →
        (bucketOf u r.tenant r.stack).tokens = (bucketOf s r.tenant r.stack).tokens - reqSectors r) ∧
      u.hbm = s.hbm ∧ u.pot = s.pot ∧ u.kettle = s.kettle) ∧
  (∀ s id r, reqOf s id = some r → (r.place = .regulator ∨ (r.place = .stem ∧ storeRoom s r.stack = true)) →
    r.kind ≠ .pot → earlierWaits s r = false → gateStatus s r = none → tokensCover s r = false →
    exec (.regulatorAdmit id) s =
      .next (engineTurn (setBucket r.tenant r.stack
        { bucketOf s r.tenant r.stack with waits := (bucketOf s r.tenant r.stack).waits + 1, waited := true }
        (modReq id (fun x => { x with place := .regulator }) s)))) ∧
  (∀ s id r d, reqOf s id = some r → r.place = .kettle → r.kind ≠ .pot → earlierWaits s r = false →
    kettleFirst s (reqRank s r) r.tenant = false → gateStatus s r = none → quiesced s = false →
    d = hbmDebit s r.stack (reqSectors r) r.write + linkDebit s r 1 →
    ∃ u, exec (.kettleAdmit (.request id)) s = .next (engineTurn u) ∧
      (d ≤ allowanceOf s r.stack →
        reqOf u id = some { r with place := .gate } ∧ u.kettle.allowance = s.kettle.allowance - d ∧
        u.kettle.lastTenant = r.tenant ∧ u.hbm = s.hbm ∧ u.pot = s.pot) ∧
      (allowanceOf s r.stack < d → u = { s with kettle := { s.kettle with userWaits := true } })) ∧
  (∀ s bytes d, quiesced s = false → d = evPower s .host 8 (units64 bytes) → d ≤ allowanceOf s hubUnit →
    exec (.kettleAdmit (.link none bytes)) s = .next (engineTurn { s with kettle := { s.kettle with
      allowance := s.kettle.allowance - d, altAllowance := s.kettle.altAllowance - d } })) ∧
  (∀ s id r p, reqOf s id = some r → r.place = .gate → r.write = false → r.mask ≠ 0 → earlierWaits s r = false →
    mapoutHolds s r = false → fetchHeld s r = false → queueStatus s r = none → p = placeAt s r.stack r.offset →
    mayEnter s { r with pc := p.pc, bank := p.bank, row := p.row, line := p.line } = true →
    entersFirst s { r with pc := p.pc, bank := p.bank, row := p.row, line := p.line } = false →
    ∃ u, exec (.queueEntry id) s = .next (engineTurn u) ∧
      reqOf u id = some { r with
        pc := p.pc, bank := p.bank, row := p.row, line := p.line, rmw := false, place := .queued, seq := s.path.nextSeq } ∧
      u.path.nextSeq = s.path.nextSeq + 1 ∧ u.hbm = s.hbm ∧ u.pot = s.pot)

/-- One command slot: where neither pseudo-channel of the channel may issue, nothing is issued; a channel that is to sleep
repays a refresh that it owes first; a due neighbour refresh stalls the pseudo-channel for tDRFM; the request picked has its
row opened, another row closed, or its column issued. A read's data returns to its access. After each, the engines have their
turn. -/
def Obligations.CommandSlotsAndReturns : Prop :=
  (∀ s (fp : Fin 512) ready e c, slotShut s fp.val = true → slotShut s (partner fp.val) = true →
    exec (.commandSlot fp ready e c) s = .next (engineTurn s)) ∧
  (∀ s (fp : Fin 512) ready e c, slotClosed s fp.val = false → repayDue s fp.val = true →
    ∃ u, exec (.commandSlot fp ready e c) s = .next (engineTurn u) ∧
      (pcOf u fp.val).balance = (pcOf s fp.val).balance - 1 ∧ (pcOf u fp.val).rows = [] ∧
      (pcOf u fp.val).refreshUntil = s.clock.timebase + trfc s (fp.val / 64) ∧ u.hbm = s.hbm ∧ u.path = s.path) ∧
  (∀ s (fp : Fin 512) ready e c b r rest, slotShut s fp.val = false → (slotClosed s fp.val = true ∨ repayDue s fp.val = false) →
    (pcOf s fp.val).nbrDue = (b, r) :: rest →
    ∃ u, exec (.commandSlot fp ready e c) s = .next (engineTurn u) ∧ (pcOf u fp.val).rows = [] ∧
      (pcOf u fp.val).nbrDue = rest ∧ (pcOf u fp.val).refreshUntil = s.clock.timebase + tdrfm s (fp.val / 64) ∧
      u.hbm = s.hbm ∧ u.path = s.path) ∧
  (∀ s (fp : Fin 512) ready e c s0 s1 l d s2 r, slotClosed s fp.val = false → repayDue s fp.val = false →
    s0 = noteOffences fp.val ready s → slotClosed s0 fp.val = false → (pcOf s0 fp.val).nbrDue = [] →
    forcedDue s0 fp.val = false → eligible s0 fp.val ready ≠ [] → s1 = noteOffences fp.val ready s0 →
    l = eligible s1 fp.val ready → l ≠ [] → d = nextDirection s1 fp.val l → s2 = setDirection fp.val d s1 →
    pick s2 fp.val d l = some r →
    ∃ u, exec (.commandSlot fp ready e c) s = .next (engineTurn u) ∧ (pcOf u fp.val).batchWrite = d ∧
      (tfind (pcOf s2 fp.val).rows r.bank = none →
        (tfind (pcOf u fp.val).rows r.bank).map (·.row) = some r.row ∧ u.hbm = s.hbm ∧ u.path = s2.path) ∧
      (∀ o, tfind (pcOf s2 fp.val).rows r.bank = some o → o.row ≠ r.row →
        tfind (pcOf u fp.val).rows r.bank = none ∧ u.hbm = s.hbm ∧ u.path = s2.path) ∧
      (∀ o, tfind (pcOf s2 fp.val).rows r.bank = some o → o.row = r.row → r.write = false →
        u.path.flights.length = s2.path.flights.length + 1 ∧ u.hbm = s.hbm) ∧
      (∀ o, tfind (pcOf s2 fp.val).rows r.bank = some o → o.row = r.row → r.write = true →
        u.hbm = (writeSector (reqSector r (if r.mask.testBit 0 then 0 else 1)) (colourOf s r.tenant)
          (r.poisonMask.testBit (if r.mask.testBit 0 then 0 else 1))
          ((r.data.drop (32 * (if r.mask.testBit 0 then 0 else 1))).take 32) s).hbm)) ∧
  (∀ s id f a o flips, flightOf s id = some f → f.kind = .host → f.also = [] → accessOfId s f.access = some a →
    a.write = false → 1 < a.left →
    o = classify (policyOf s (secStack f.sector)) f.colour (flipped f.stored flips) →
    ∃ u, exec (.readDataReturn (.flight id) flips) s = .next (engineTurn u) ∧
      u.path.flights = s.path.flights.filter (fun x => x.id != id) ∧
      accessOfId u f.access = some { a with
        left := a.left - 1,
        got := a.got ++ [((if a.owner = .host then taBar a.stride f.ta else f.ta), outcomeData (flipped f.stored flips) o, o.failed)] } ∧
      u.hbm = s.hbm ∧ u.pot = s.pot)

/-! ## Refresh, parity and calibration (R226 to R228, R271 to R273, R310, R311, R317 to R329) -/

/-- At a refresh instant that no refresh has served yet exactly one all-bank refresh starts: on its owner, or on the
pseudo-channel that takes it, whose balance falls by one while the owner's rises by one. A parity alert is counted and changes no stored byte. A
channel enters self-refresh once it may and E has fallen by its share, a request starts its exit, and its end makes
it serve again. Doze entry begins when the host link is in L2, or is abandoned at its deadline. -/
def Obligations.RefreshAndSelfRefreshEvents : Prop :=
  (∀ s (fp : Fin 512) ready s', hasInstants s fp.val = true → isInstant s fp.val s.clock.timebase = true →
    (pcOf s fp.val).servedAt ≠ some s.clock.timebase →
    s' = modPc fp.val (fun p => { p with servedAt := some s.clock.timebase }) s →
    (eligible s' fp.val ready = [] ∨ calibrating s' fp.val = true ∨ replaying s' fp.val = true ∨
      (chanOf s' (fp.val / 2)).windowOpen = true ∨ 4 ≤ (pcOf s' fp.val).balance) →
    ∃ t, exec (.refreshInstant fp ready) s = .next t ∧
      (pcOf t fp.val).refreshUntil = s.clock.timebase + trfc s (fp.val / 64) ∧ (pcOf t fp.val).rows = [] ∧
      (pcOf t fp.val).balance = (pcOf s fp.val).balance ∧ (pcOf t fp.val).servedAt = some s.clock.timebase ∧
      (∀ i, i ≠ fp.val → pcOf t i = pcOf s i) ∧ t.hbm = s.hbm) ∧
  (∀ s (fp : Fin 512) ready q s', hasInstants s fp.val = true → isInstant s fp.val s.clock.timebase = true →
    (pcOf s fp.val).servedAt ≠ some s.clock.timebase →
    s' = modPc fp.val (fun p => { p with servedAt := some s.clock.timebase }) s →
    eligible s' fp.val ready ≠ [] → (chanOf s' (fp.val / 2)).windowOpen = false → calibrating s' fp.val = false →
    replaying s' fp.val = false → (pcOf s' fp.val).balance < 4 → takerOf s' ready fp.val = some q →
    ∃ t, exec (.refreshInstant fp ready) s = .next t ∧
      (pcOf t fp.val).balance = (pcOf s fp.val).balance + 1 ∧ (pcOf t q).balance = (pcOf s q).balance - 1 ∧
      (pcOf t q).refreshUntil = s.clock.timebase + trfc s (q / 64) ∧
      (pcOf t fp.val).refreshUntil = (pcOf s fp.val).refreshUntil ∧ t.hbm = s.hbm) ∧
  (∀ s (fp : Fin 512) ready, (pcOf s fp.val).servedAt = some s.clock.timebase →
    exec (.refreshInstant fp ready) s = .next s) ∧
  (∀ s (ch : Fin 256), (stackOf s (ch.val / 32)).online = true → (stackOf s (ch.val / 32)).retired = false →
    (stackOf s (ch.val / 32)).thermal.heat ≠ .scald → (chanOf s ch.val).sr = .awake →
    (stackOf s (ch.val / 32)).mapped.contains (ch.val % 32) = false →
    ∃ t, exec (.parityAlert ch) s = .next t ∧ (chanOf t ch.val).alertCount = (chanOf s ch.val).alertCount + 1 ∧
      t.hbm = s.hbm ∧ t.pot = s.pot ∧ t.path = s.path) ∧
  (∀ s (ch : Fin 256), wantsSleep s ch.val = true → hasFallen s (bgShare s) = true →
    (∀ fp ∈ chanPcs ch.val, calibrating s fp = false ∧ replaying s fp = false ∧ repayDue s fp = false ∧
      (pcOf s fp).refreshUntil ≤ s.clock.timebase) →
    ∃ t, exec (.selfRefreshEntry ch) s = .next t ∧ (chanOf t ch.val).sr = .asleep ∧
      (chanOf t ch.val).keepAll = ((stackOf s (ch.val / 32)).sleep.kind != .entering) ∧
      (∀ fp ∈ chanPcs ch.val, (pcOf t fp).rows = [] ∧ (pcOf t fp).balance = 0) ∧ t.hbm = s.hbm) ∧
  (∀ s (ch : Fin 256), chanServes s ch.val = true → (chanOf s ch.val).sr = .asleep →
    (stackOf s (ch.val / 32)).thermal.heat ≠ .scald → dozeEntry s = false →
    (stackOf s (ch.val / 32)).sleep.kind = .light → chanBusy s ch.val = true →
    ∃ t, exec (.selfRefreshExit ch) s = .next t ∧ (chanOf t ch.val).sr = .leaving ∧
      (stackOf t (ch.val / 32)).sleep.wakes = ((stackOf s (ch.val / 32)).sleep.wakes + 1) % 2 ^ 32) ∧
  (∀ s (ch : Fin 256), (chanOf s ch.val).sr = .leaving → chanServes s ch.val = true →
    ∃ t, exec (.selfRefreshExitDone ch) s = .next t ∧
    (chanOf t ch.val).sr = .awake ∧
    (∀ fp ∈ chanPcs ch.val, (pcOf t fp).balance = 0 ∧ (pcOf t fp).strain = [] ∧
      (pcOf t fp).refreshUntil = s.clock.timebase + trfc s (fp / 64))) ∧
  (∀ s d, s.doze = .pending d → ∃ t, exec .hostLinkL2 s = .next t ∧ t.pins.hostLink = .l2 ∧
    (t.doze = .entering ∨ t.doze = .asleep ∧ t.pins.enCore = false)) ∧
  (∀ s d, s.doze = .pending d → d ≤ s.clock.timebase → ∃ t, exec .dozeL2Timeout s = .next t ∧ t.doze = .none ∧
    t.tele.logSeq = s.tele.logSeq + 1)

/-- A calibration falls due at its instant, starts at its forced instant whatever the traffic, and its end applies a
plausible result in one step or discards it; a reference measurement is accepted within its bounds; an offline
retraining takes a window of its channel and applies codes within the absolute windows. -/
def Obligations.CalibrationEvents : Prop :=
  (∀ s (fp : Fin 512), isDueInstant fp.val s.clock.timebase = true →
    (pcOf s fp.val).cal.seen ≠ some s.clock.timebase → noneDue s fp.val = false →
    (chanOf s (fp.val / 2)).sr = .awake → (pcOf s fp.val).cal.due = none →
    ∃ t, exec (.calibrationDue fp) s = .next t ∧
      (pcOf t fp.val).cal.due = some (s.clock.timebase, (dueKind s fp.val s.clock.timebase).1) ∧
      (pcOf t fp.val).cal.forcedAt = freeSlot s fp.val (s.clock.timebase + 15990784) ∧
      (pcOf t fp.val).cal.seen = some s.clock.timebase) ∧
  (∀ s (fp : Fin 512) d timing, forcedDue s fp.val = true → slotClosed s fp.val = false →
    (pcOf s fp.val).cal.due = some (d, timing) → ∃ t, exec (.calibrationForced fp) s = .next t ∧
      (pcOf t fp.val).cal.running = some timing ∧ (pcOf t fp.val).rows = [] ∧
      (pcOf t fp.val).cal.forced = (pcOf s fp.val).cal.forced + 1 ∧
      (stackOf t (fp.val / 64)).calRunning = some (fp.val % 64)) ∧
  (∀ s (fp : Fin 512) r timing, (pcOf s fp.val).cal.running = some timing →
    ∃ t, exec (.calibrationEnd fp r) s = .next t ∧ (pcOf t fp.val).cal.running = none ∧ (pcOf t fp.val).cal.due = none ∧
      (stackOf t (fp.val / 64)).calRunning = none ∧
      (plausible (pcOf s fp.val).cal timing r = true →
        (pcOf t fp.val).cal.codes = (pcOf s fp.val).cal.codes.map (applyCodes timing r)) ∧
      (plausible (pcOf s fp.val).cal timing r = false →
        (pcOf t fp.val).cal.codes = (pcOf s fp.val).cal.codes ∧
        (pcOf t fp.val).cal.failImp + (pcOf t fp.val).cal.failTim =
          (pcOf s fp.val).cal.failImp + (pcOf s fp.val).cal.failTim + 1)) ∧
  (∀ s code, s.boot.halt = .none → s.refcode.inForce ≠ 0 → s.refcode.at_ + 2 ^ 30 ≤ s.clock.timebase →
    15840 ≤ code → code ≤ 16160 → code ≤ s.refcode.inForce + 16 → s.refcode.inForce ≤ code + 16 →
    exec (.rrefMeasurement code) s = .next { s with refcode := { s.refcode with
      last := code, at_ := s.clock.timebase, inForce := code, rowRejected := 0 } }) ∧
  (∀ s code, s.boot.halt = .none → s.refcode.inForce ≠ 0 → s.refcode.at_ + 2 ^ 30 ≤ s.clock.timebase →
    (code < 15840 ∨ 16160 < code ∨ s.refcode.inForce + 16 < code ∨ code + 16 < s.refcode.inForce) →
    ∃ t, exec (.rrefMeasurement code) s = .next t ∧ t.refcode.inForce = s.refcode.inForce ∧
      t.refcode.last = code ∧ t.refcode.rejected = s.refcode.rejected + 1 ∧
      t.refcode.rowRejected = s.refcode.rowRejected + 1) ∧
  (∀ s (ch : Fin 256), (chanOf s ch.val).retrainDue = true → (chanOf s ch.val).window = .none →
    (chanOf s ch.val).windowOpen = false → mayOpen s ch.val = true → (chanOf s ch.val).bench ≠ .device →
    ∃ t, exec (.offlineRetrainWindow ch) s = .next t ∧ (chanOf t ch.val).windowOpen = true ∧
      (chanOf t ch.val).window = .retrain ∧ (chanOf t ch.val).retrainDue = false ∧
      (∀ fp ∈ chanPcs ch.val, (pcOf t fp).rows = [])) ∧
  (∀ s (ch : Fin 256) r0 r1, (chanOf s ch.val).windowOpen = true → (chanOf s ch.val).window = .retrain →
    (stackOf s (ch.val / 32)).thermal.heat ≠ .scald → windowOk s (2 * ch.val) r0 = true →
    windowOk s (2 * ch.val + 1) r1 = true → ∃ t, exec (.offlineRetrainEnd ch [] r0 r1) s = .next t ∧
      (chanOf t ch.val).windowOpen = false ∧ (chanOf t ch.val).window = .none ∧
      (pcOf t (2 * ch.val)).cal.codes = some r0 ∧ (pcOf t (2 * ch.val + 1)).cal.codes = some r1)

/-! ## Repair, map-out and retirement (R286 to R309) -/

/-- Lane and row repairs: the window opens once the channel may, its end replaces the lane or the row and closes it, and
a data lane's repair starts the scrub, which REPAIR_SCRUB_DONE ends. The sectors of a repaired row are carried over. -/
def Obligations.RepairEvents : Prop :=
  (∀ s (ch : Fin 256) p l, (chanOf s ch.val).window = .laneRepair p l → (chanOf s ch.val).windowOpen = false →
    (chanOf s ch.val).bench = .none → mayOpen s ch.val = true → ∃ t, exec (.laneRepairWindow ch) s = .next t ∧
      (chanOf t ch.val).windowOpen = true ∧ (chanOf t ch.val).window = .laneRepair p l ∧
      (∀ fp ∈ chanPcs ch.val, (pcOf t fp).rows = [])) ∧
  (∀ s (ch : Fin 256) p l c, (chanOf s ch.val).window = .laneRepair p l → repairRuns s ch.val = true → l < 36 →
    laneSpare s p l = true → (chanOf s ch.val).laneQueue = [] → (chanOf s ch.val).repairCmd = some c →
    ∃ t, exec (.laneRepairEnd ch true) s = .next t ∧ (pcOf t p).lanesUsed = (pcOf s p).lanesUsed ++ [l] ∧
      (pcOf t p).scrub = some l ∧ (chanOf t ch.val).windowOpen = false ∧ (chanOf t ch.val).window = .none ∧
      (chanOf t ch.val).repairCmd = none ∧ t.cmds = (finish 0x0602 c stOK [] s).cmds ∧
      t.flash.store.laneRecs = s.flash.store.laneRecs ++ [(p, l)] ∧ t.hbm = s.hbm) ∧
  (∀ s (fp : Fin 512), exec (.repairScrubDone fp) s = .next (setPc fp.val { pcOf s fp.val with scrub := none } s)) ∧
  (∀ s (ch : Fin 256) r h, (chanOf s ch.val).window = .rowRepair r h → (chanOf s ch.val).windowOpen = false →
    (chanOf s ch.val).bench = .none → mayOpen s ch.val = true → ∃ t, exec (.rowRepairWindow ch) s = .next t ∧
      (chanOf t ch.val).windowOpen = true ∧ (chanOf t ch.val).repairSteps = 2) ∧
  (∀ s (ch : Fin 256) r, (chanOf s ch.val).window = .rowRepair r false → repairRuns s ch.val = true →
    2 ≤ (chanOf s ch.val).repairSteps → rowResource s r false = true → ∃ t, exec (.rowRepairEnd ch true) s = .next t ∧
      (stackOf t (r.pc / 64)).softRows = (stackOf s (r.pc / 64)).softRows ++ [r] ∧
      (pcOf t r.pc).spprBanks.contains r.bank = true ∧ (chanOf t ch.val).windowOpen = false ∧
      t.hbm = ((rowSectors r).foldl (fun s q => carrySector q s) (rowMoves r.pc s)).hbm)

/-- A map-out: its window opens and withdraws the channel's requests, a read that does not come back is withdrawn too,
and its close puts the new map in force with the reserved range under it. A retirement ends the stack's requests and
takes its extents from every partition. A prepared extent of the vacate range is written. -/
def Obligations.MapoutEvents : Prop :=
  (∀ s (n : Fin 8) m ch, (stackOf s n.val).mapout = some m → ch = n.val * 32 + m.ch → m.recorded = true →
    m.opened = false → foldReady s n.val = true → switchClear s n.val = true → pourAhead s n.val = false →
    (stackOf s n.val).thermal.heat ≠ .scald → (chanPcs ch).any (calibrating s) = false → s.clock.timebase % 1024 = 0 →
    (m.failedChannel = true ∨ fetchUnderWay s ch = false) →
    ∃ t, exec (.mapoutWindowOpen n) s = .next t ∧ (chanOf t ch).windowOpen = true ∧
      (stackOf t n.val).mapout = some { m with opened := true, openedAt := s.clock.timebase } ∧
      t.path.reqs.length = s.path.reqs.length ∧
      (∀ r ∈ t.path.reqs, r.stack * 32 + r.pc / 2 = ch → r.mask ≠ 0 → r.place ≠ .queued)) ∧
  (∀ s id f r m, flightOf s id = some f → (chanOf s (flightChan f)).windowOpen = true →
    (chanOf s (flightChan f)).window = .mapout → (stackOf s (flightChan f / 32)).mapout = some m → m.opened = true →
    m.openedAt + msTicks 1 ≤ s.clock.timebase → f.also = [] → reqOf s f.req = some r →
    r.mask.testBit (f.sector % 2) = false → ∃ t, exec (.mapoutReadTimeout id) s = .next t ∧
      t.path.flights = s.path.flights.filter (fun x => x.id != id) ∧
      reqOf t f.req = some { r with mask := r.mask + 2 ^ (f.sector % 2), place := .window }) ∧
  (∀ s (n : Fin 8) m ch, (stackOf s n.val).mapout = some m → ch = n.val * 32 + m.ch → m.ch < 32 → m.opened = true →
    (stackOf s n.val).thermal.heat ≠ .scald → (stackOf s n.val).mapQueue = [] → switchClear s n.val = true →
    (s.path.flights.any (fun f => flightChan f == ch && f.kind != .cosy)) = false →
    ∃ t, exec (.mapoutWindowClose n) s = .next t ∧ (stackOf t n.val).mapped = (stackOf s n.val).mapped ++ [m.ch] ∧
      (stackOf t n.val).mapout = none ∧ (stackOf t n.val).prepared = [] ∧ (chanOf t ch).windowOpen = false ∧
      (∀ r ∈ t.path.reqs, r.stack = n.val → r.place ≠ .window) ∧
      t.hbm = (writeReserved n.val (modStack n.val (fun k => { k with mapped := k.mapped ++ [m.ch] }) s)).hbm) ∧
  (∀ s (n : Fin 8) m, (stackOf s n.val).retireProc = some m → m.recorded = true →
    (stackOf s n.val).thermal.heat ≠ .scald →
    (∀ ch ∈ stackChans n.val, (m.failedChannel = true ∧ ch % 32 = m.ch) ∨ fetchUnderWay s ch = false) →
    ∃ t, exec (.stackRetireWindow n) s = .next t ∧
      (stackOf t n.val).retired = true ∧ (stackOf t n.val).online = false ∧ (stackOf t n.val).retireProc = none ∧
      (∀ r ∈ t.path.reqs, r.stack = n.val → r.kind = .pot) ∧ (∀ k < 128, extentsOf t k n.val = [])) ∧
  (∀ s (n : Fin 8) x, (stackOf s n.val).online = true → (stackOf s n.val).retired = false →
    (vacateExtents s n.val).contains x = true → extentFree s n.val x = true →
    (stackOf s n.val).prepared.contains x = false → (stackOf s n.val).restore = false → rinseWaits s n.val = false →
    (stackOf s n.val).prep = some (x, prepareSectors s n.val x) →
    ∃ t, exec (.foldPrepDone n x) s = .next t ∧ (stackOf t n.val).prepared.contains x = true ∧
      t.hbm = (prepareExtent n.val x s).hbm)

/-! ## Heat and sleep (R241 to R252, R332 to R349) -/

/-- A stack's sample sets its temperature and moves its state by Table 12.1; the cut at 100 °C asks for the drop of E.
The abort of a request that waited 2 ms ends its access. Scald ends at simmer step 1 once E has room. The hub's throttle
and its recovery move by one step. An advisory that is due is issued. -/
def Obligations.HeatEvents : Prop :=
  (∀ s (n : Fin 8) readings v, s.clock.mark % 16 = 0 → (stackOf s n.val).thermal.sampled ≠ some s.clock.mark →
    s.pins.vaux = true → highest (validReadings readings) = some v →
    ∃ t, exec (.stackThermalSample n readings) s = .next t ∧ (stackOf t n.val).thermal.temp = some v ∧
      (stackOf t n.val).thermal.failing = false ∧
      (stackOf t n.val).warmNext = ((stackOf t n.val).thermal.heat != .cool) ∧
      ((stackOf s n.val).thermal.heat = .cool → v < 340 → (stackOf t n.val).thermal.heat = .cool) ∧
      ((stackOf s n.val).thermal.heat = .cool → 340 ≤ v → v < 368 → (stackOf t n.val).thermal.heat = .warm) ∧
      ((stackOf s n.val).thermal.heat = .warm → v < 328 → (stackOf t n.val).thermal.heat = .cool) ∧
      ((stackOf s n.val).thermal.heat = .cool ∨ (stackOf s n.val).thermal.heat = .warm → 368 ≤ v → v < 400 →
        (stackOf t n.val).thermal.heat = .simmer ∧ (stackOf t n.val).thermal.step = 7) ∧
      ((stackOf s n.val).thermal.heat ≠ .scald → 400 ≤ v →
        (stackOf t n.val).thermal.heat = .scald ∧ n.val ∈ t.kettle.scaldDrop) ∧
      ((stackOf s n.val).thermal.heat = .scald → (stackOf t n.val).thermal.heat = .scald ∧
        ((stackOf t n.val).thermal.exitWait = true ↔ v < 380))) ∧
  (∀ s id r, reqOf s id = some r → r.kind ≠ .pot → r.kind ≠ .writeBack → waitedOut s r.stack r.arrived = true →
    ∃ u, exec (.scaldAbortTimeout (.request id)) s = .next (engineTurn u) ∧
      (∀ x ∈ u.path.reqs, x.access = r.access → x.kind = .writeBack) ∧
      (∀ a, accessOfId u r.access = some a → a.owner ≠ .host ∧ a.left = 0 ∧ a.status ≠ 0) ∧
      (stackOf s r.stack).thermal.aborts < (stackOf u r.stack).thermal.aborts) ∧
  (∀ s (n : Fin 8), (stackOf s n.val).thermal.heat = .scald → (stackOf s n.val).thermal.exitWait = true →
    hasRoom s (exitShare s n.val) = true → s.peers.held = [] →
    ∃ t, exec (.scaldExit n) s = .next t ∧ (stackOf t n.val).thermal.heat = .simmer ∧
      (stackOf t n.val).thermal.step = 1 ∧ (stackOf t n.val).thermal.exitWait = false) ∧
  (∀ s, 420 ≤ s.hub.tj → s.hub.stepMark ≠ s.clock.mark → s.boot.halt = .none → vcoreHStuck s = false →
    s.clock.mark % 16 = 0 → exec .hubThrottleStep s = .next (emit (.avsWrite 0 0 (railMv s 0 - 5)) { s with
      hub := { s.hub with ceiling := some (railMv s 0 - 5), stepMark := s.clock.mark },
      power := { s.power with rails := s.power.rails.set 0 (railMv s 0 - 5) } })) ∧
  (∀ s, 420 ≤ s.hub.tj → s.hub.stepMark ≠ s.clock.mark → s.boot.halt = .none → vcoreHStuck s = true →
    s.clock.mark % 1024 = 0 → exec .hubThrottleStep s =
      .next { s with hub := { s.hub with share := max 1 (s.hub.share - 1), stepMark := s.clock.mark } }) ∧
  (∀ s, s.hub.state = 2 → s.hub.tj < 400 → s.hub.stepMark ≠ s.clock.mark → s.boot.halt = .none → s.hub.share < 7 →
    s.clock.mark % 1024 = 0 → exec .hubThrottleRecoveryStep s =
      .next { s with hub := { s.hub with share := s.hub.share + 1, stepMark := s.clock.mark, state := 2 } }) ∧
  (∀ s (n : Fin 8) id c, s.late.colls.find? (fun x => x.stack == n.val && x.id == id) = some c → c.dueBy.isSome = true →
    c.sampleSent = false → ∃ t, exec (.latenessAdvisory n id) s = .next t ∧ t.late.issued = s.late.issued + 1)


/-! ## Descriptors and infuser operations (R360 to R373, R386, R402, R403) -/

/-- A descriptor is read from its tenant's memory, starts on tiles its list holds, and completes once its writes are visible;
a WAIT completes once satisfied, and its timeout stops the list. The head of an infuser reads its context and key, and starts,
or ends with no effect where a check fails; it completes once its output is visible. -/
def Obligations.EngineEvents : Prop :=
  (∀ s (h : Fin 64) l, listOf s h.val = some l → l.stopping = false → l.held = false → l.fetching = false →
    paused s l = false → fetchBlocked l = false → l.fetched.length < 9 → rangeStatus s l.tenant l.nextTa 128 = none →
    exec (.descriptorFetch h) s = .next (ask
      { owner := .fetch h.val, tenant := l.tenant, port := fetchPort s l, ta := l.nextTa, len := 128, write := false }
      (setList h.val { l with fetching := true } (freeStep s)))) ∧
  (∀ s (h : Fin 64) l a rest, listOf s h.val = some l → l.fetching = true → accessesOf s (.fetch h.val) = a :: rest →
    a.status = 0 → (gathered a).anyFailed = false → listOf (fetchDone h.val s) h.val = some { l with
      fetched := l.fetched ++ [{ ta := l.nextTa, bytes := (gathered a).bytes, failed := 0 }], fetching := false,
      nextTa := dNext l.nextTa (gathered a).bytes, endSeen := dEnd (gathered a).bytes, endTa := l.nextTa }) ∧
  (∀ s (h : Fin 64) l f rest d, listOf s h.val = some l → l.fetched = f :: rest → f.failed = 0 → mayStart s l = true →
    startStatus s l f = none → dRemote f.bytes = false →
    (needsTile (dOp f.bytes) = true → 0 < tilesAsked s l ∧ tilesAsked s l ≤ (idleTiles s h.val).length) →
    d = { id := l.started, ta := f.ta, bytes := f.bytes, tiles := (idleTiles s h.val).take (tilesAsked s l),
          since := s.clock.timebase, matrix := matrixBlocks f.bytes, vector := vectorBlocks f.bytes } →
    ∃ t, exec (.descriptorStart h) s = .next t ∧
      t = settleTiles (descProgress h.val l.inflight.length ((readSegs f.bytes).foldl
        (fun s g => descRead h.val l.tenant d g s) (descCollective l.tenant f.bytes (runTiles l.tenant d.tiles
          (setList h.val { l with fetched := rest, inflight := l.inflight ++ [d], started := l.started + 1 } s))))) ∧
      (∀ i ∈ d.tiles, (tileOf t i).running = true ∧ (tileOf t i).lastTenant = l.tenant)) ∧
  (∀ s u (h : Fin 64) i l d, u = descProgress h.val i s → listOf u h.val = some l → l.inflight[i]? = some d →
    (∀ st, d.result = some st → mirrorPending u l.tenant = false →
      exec (.descriptorComplete h i) s = .next (completeDesc h.val i st u)) ∧
    (d.result = none → dOp d.bytes = opFence → i = 0 →
      exec (.descriptorComplete h i) s = .next (completeDesc h.val 0 stOK u)) ∧
    (d.result = none → dOp d.bytes ≠ opWait → dOp d.bytes ≠ opFence → descOver u h.val d = true →
      exec (.descriptorComplete h i) s = .next (settleDesc h.val i (descEnds u h.val d) l.tenant u))) ∧
  (∀ s h i st l d, listOf s h = some l → l.inflight[i]? = some d → stopsList d st = false → l.stopping = false →
    l.endSeen = false → listOf (completeDesc h i st s) h = some { l with
      inflight := l.inflight.eraseIdx i, done := (l.done + 1) % 2 ^ 32, lastTa := d.ta } ∧
      (completeDesc h i st s).hbm = s.hbm ∧ (completeDesc h i st s).pot = s.pot) ∧
  (∀ s (h : Fin 64) i l d, listOf s h.val = some l → waitIndex l = some i → l.inflight[i]? = some d →
    waitStatus s l.tenant d.bytes = some stOK → l.stopping = false → l.endSeen = false →
    ∃ t, exec (.waitSatisfied h) s = .next t ∧ listOf t h.val = some { l with
      inflight := l.inflight.eraseIdx i, done := (l.done + 1) % 2 ^ 32, lastTa := d.ta } ∧
      t.hbm = s.hbm ∧ t.pot = s.pot) ∧
  (∀ s (h : Fin 64) l d, listOf s h.val = some l → l.inflight = [d] → dOp d.bytes = opWait → l.stopping = false →
    u32 d.bytes 36 ≠ 0 → d.since + usTicks (u32 d.bytes 36) ≤ s.clock.timebase →
    ∃ t, exec (.waitTimeoutExpiry h) s = .next t ∧ listOf t h.val = none ∧
      (∀ i < 16, (tileOf t i).holder ≠ some h.val) ∧ t.hbm = s.hbm ∧ t.pot = s.pot) ∧
  (∀ s (n : Fin 8) o rest, (infuserOf s n.val).running = none → (infuserOf s n.val).queue = o :: rest → o.held = false →
    (infuserOf s n.val).checking = false →
    (infPrecheck o.op.toNat o.cmd n.val s = none →
      ∀ u, u = ask (infAsk n.val o (opCtx o.cmd) ctxBytes false)
          (modInfuser n.val (fun i => { i with checking := true }) (dropOwner (.infuser n.val) s)) →
        exec (.infuserOpStart n) s =
          .next (if o.op.toNat = 0x0B08 then ask (infAsk n.val o (pageTa o.cmd 24) 64 false) u else u)) ∧
    (∀ e, infPrecheck o.op.toNat o.cmd n.val s = some e → ∃ t, exec (.infuserOpStart n) s = .next t ∧
      (infuserOf t n.val).running = none ∧ (infuserOf t n.val).queue.length = rest.length ∧
      (infuserOf t n.val).completed = (infuserOf s n.val).completed + 1 ∧ t.hbm = s.hbm ∧ t.pot = s.pot)) ∧
  (∀ s (n : Fin 8) o rest as, (infuserOf s n.val).running = none → (infuserOf s n.val).queue = o :: rest →
    (infuserOf s n.val).checking = true → ownerDone s (.infuser n.val) = true → ownerStatus s (.infuser n.val) = none →
    as = (accessesOf s (.infuser n.val)).map gathered →
    infCheckRead o.op.toNat o.cmd (as.getD 0 { bytes := [], failed := [] }) (as.getD 1 { bytes := [], failed := [] }) = none →
    ∀ i, i = infuserOf (infuserTurn n.val s) n.val →
      i.running = some o ∧ i.queue = rest ∧ i.checking = false ∧ i.phase = 1 ∧ i.startedAt = s.clock.timebase ∧
      i.lastTenant = o.tenant ∧ i.context = (as.getD 0 { bytes := [], failed := [] }).bytes) ∧
  (∀ s (n : Fin 8) o, (infuserOf s n.val).running = some o → (infuserOf s n.val).stage = 2 →
    (infuserOf s n.val).steps = [] → ownerDone s (.infuser n.val) = true → ownerStatus s (.infuser n.val) = none →
    (∀ a ∈ accessesOf s (.infuser n.val), a.write = false → (gathered a).anyFailed = false) →
    infuserTurn n.val s = writeOutput n.val o (ctxOf (infuserOf s n.val).context) s) ∧
  (∀ s (n : Fin 8) o e, (infuserOf s n.val).running = some o → (infuserOf s n.val).stage = 3 →
    (infuserOf s n.val).ends = some e → ownerDone s (.infuser n.val) = true → ownerStatus s (.infuser n.val) = none →
    ∃ t, exec (.infuserOpComplete n .ran) s = .next t ∧
      t = endInfuser n.val o e.1 e.2.1 e.2.2.1 e.2.2.2 s ∧ (infuserOf t n.val).running = none ∧
      (infuserOf t n.val).completed = (infuserOf s n.val).completed + 1 ∧ t.hbm = s.hbm ∧ t.pot = s.pot)

/-! ## Peer ports and the twin pair (R408 to R442) -/

/-- The next sequenced frame of a connection is accepted and has its effect; an older one is only acknowledged again, a
newer one is answered with a NAK (R418). -/
def Obligations.SequencedFrames : Prop :=
  (∀ (type : Nat) (i : Fin 4 → Frame → Instr), (type, i) ∈
      [(0x01, Instr.putFrame), (0x02, .getRequestFrame), (0x04, .reducePutFrame), (0x05, .signalFrame)] →
    ∀ s s1 k f c, RxNext k type f c s s1 →
      exec (i k f) s = .next (opReceived k.val type f c (acceptSeq k.val c s1))) ∧
  (∀ s s1 k f c, RxNext k 0x03 f c s s1 →
    exec (.getDataFrame k f) s = .next (getData k.val f c (acceptSeq k.val c s1))) ∧
  (∀ s s1 k f c o, RxNext k 0x06 f c s s1 → opNamed (acceptSeq k.val c s1) k.val c f = some o →
    exec (.responseFrame k f) s = .next (endOpMirrored o f.status.toNat (acceptSeq k.val c s1)) ∧
    (mirrorPending (acceptSeq k.val c s1) o.tenant = false →
      exec (.responseFrame k f) s = .next (endOp o f.status.toNat (acceptSeq k.val c s1)))) ∧
  (∀ s s1 k f c, RxNext k 0x0F f c s s1 → c = twinConn →
    exec (.stateFrame k f) s = .next (stateReceived f (acceptSeq k.val c s1))) ∧
  (∀ s s1 k f c, RxNext k 0x10 f c s s1 → c = twinConn →
    (twinPartOf (acceptSeq k.val c s1) f.dstTenant.toNat).state = 6 → ∃ t, exec (.handoverFrame k f) s = .next t ∧
      (twinPartOf t f.dstTenant.toNat).state = 3) ∧
  (∀ (type : Nat) (i : Fin 4 → Frame → Instr), (type, i) ∈ [(0x0D, Instr.mirrorFrame), (0x0E, .copyFrame)] →
    ∀ s s1 k f c, RxNext k type f c s s1 → c = twinConn → mirrorWaits s f = false →
      exec (i k f) s = .next (mirrorApply k.val type f (acceptSeq k.val c s1))) ∧
  (∀ s k c, (connOf (acceptSeq k c s) k c).rxExpect = (connOf s k c).rxExpect + 1) ∧
  (∀ (type : Nat) (i : Fin 4 → Frame → Instr), (type, i) ∈
      [(0x01, Instr.putFrame), (0x02, .getRequestFrame), (0x04, .reducePutFrame), (0x05, .signalFrame)] →
    ∀ s s1 k f c, RxFor k f c s → s1 = takeHeader k.val c f.ack f.window (countRx k.val type f s) →
      (connOf s1 k.val c).phase = 2 → f.seq ≠ (connOf s1 k.val c).rxExpect →
      exec (i k f) s = .next (if seqLe f.seq (connOf s1 k.val c).rxExpect then sendPlain k.val c 0x07 blankFrame s1
        else sendNak k.val c s1))

/-- What an accepted operation does (R423 to R426): one that passes its checks has its payload written, its range read or
its atomic asked for, on its port; one that fails a check has no effect on memory; the pot applies a SIGNAL's atomic; the
last frame of a PUT answers with the worst outcome of its writes; and data of a GET is written at its issuer. -/
def Obligations.PeerOperationEffects : Prop :=
  (∀ s c fresh (h : HeldFrame), h.frame.first = true →
    (receives s h.port c h.frame.dstTenant.toNat && holds s h.frame.dstTenant.toNat) = false →
    opStatus s h.port c h.type h.frame = none →
    (jobType h.type = true → s.kettle.jobRelease = none ∧ (jobArrive s).1 = false) →
    ∃ t, tryOp c fresh h s = issueFrame h (newRxOp h.type h.frame none) (setApplying h.id t) ∧
      t.hbm = s.hbm ∧ t.pot = s.pot) ∧
  (∀ s (h : HeldFrame) o, h.type = 0x01 → issueFrame h o s = writePayload h o.tenant (frameTa o.base h.frame) false s) ∧
  (∀ s (h : HeldFrame) o, h.type = 0x02 → issueFrame h o s =
    ask (frameAsk h o.tenant h.frame.addr.toNat h.frame.length.toNat false) s) ∧
  (∀ s (h : HeldFrame) o, h.type = 0x05 → issueFrame h o s = askAtomic (.frame h.id) o.tenant (1 + h.port)
    (frameTa o.base h.frame) 8 (if h.frame.operation = 0 then .swap (BitVec.ofNat 64 (leAt h.frame.payload 0 8))
      else .fetchAdd (BitVec.ofNat 64 (leAt h.frame.payload 0 8))) s) ∧
  (∀ s (r : Req) p v, translate s r.tenant r.ta = .inl (.pot p) → p % 8 = 0 → potFlagged s p = false →
    (r.atomic = some (.swap v, 8) → potBytes (potServe r s) p 8 = leBytes 8 v.toNat) ∧
    (r.atomic = some (.fetchAdd v, 8) →
      potBytes (potServe r s) p 8 = leBytes 8 ((ofLe (potBytes s p 8) + v.toNat) % 2 ^ 64)) ∧
    (r.atomic = some (.swap v, 8) ∨ r.atomic = some (.fetchAdd v, 8) →
      (potServe r s).hbm = s.hbm ∧ ∀ a, a < p ∨ p + 8 ≤ a → potByte (potServe r s) a = potByte s a)) ∧
  (∀ s c (h : HeldFrame) o as, h.type = 0x01 → h.frame.last = true → before s h = [] →
    rxOpOf s h.port c h.frame = some o → o.failed = none → as = accessesOf s (.frame h.id) → as ≠ [] →
    ownerStatus s (.frame h.id) = none → opDone c h s =
      respond h.port c h.frame (writeStatus (max o.worst (ownerWorst s (.frame h.id))))
        (setRxOp h.port c h.frame none (dropHeld h.id (dropOwner (.frame h.id) s)))) ∧
  (∀ s c (h : HeldFrame) o a rest, h.type = 0x02 → before s h = [] → rxOpOf s h.port c h.frame = some o → o.failed = none →
    accessesOf s (.frame h.id) = a :: rest → ownerStatus s (.frame h.id) = none → opDone c h s =
      answerGet h.port c h.frame a (setRxOp h.port c h.frame none (dropHeld h.id (dropOwner (.frame h.id) s)))) ∧
  (∀ s c (h : HeldFrame) o, opNamed s h.port c h.frame = some o →
    rangeStatus s o.tenant (o.localTa + h.frame.offset.toNat) h.frame.payload.length = none →
    tryGetData c h s = writePayload h o.tenant (o.localTa + h.frame.offset.toNat) false (setApplying h.id s)) ∧
  (∀ s c fresh (h : HeldFrame) st, opStatus s h.port c h.type h.frame = some st → h.frame.first = true →
    (receives s h.port c h.frame.dstTenant.toNat && holds s h.frame.dstTenant.toNat) = false →
    (tryOp c fresh h s).hbm = s.hbm ∧ (tryOp c fresh h s).pot = s.pot ∧
      ∀ x ∈ (tryOp c fresh h s).peers.held, x.id ≠ h.id)

/-- Links, connections and frames that carry no sequence: a link that comes up opens its connections, one that goes down
fails them; OPEN and OPEN_ACK open a connection; timeouts send again; a pause holds back what a port sends. -/
def Obligations.PortEvents : Prop :=
  (∀ s (k : Fin 4), portOn s k.val = true → linkUp s k.val = false → s.power.on.getLsbD (40 + k.val) = true →
    ∃ t, exec (.peerLinkUp k) s = .next t ∧
    linkUp t k.val = true ∧ (∀ c < 65, connOn s k.val c = true → (connOf t k.val c).phase = 1)) ∧
  (∀ s (k : Fin 4), linkUp s k.val = true → ∃ t, exec (.peerLinkDown k) s = .next t ∧ linkUp t k.val = false ∧
    (∀ c < 65, (connOf s k.val c).phase ≠ 0 → (connOf t k.val c).phase = 3)) ∧
  (∀ s (k : Fin 4) (c : Fin 65), (connOf s k.val c.val).phase = 1 → connOn s k.val c.val = true →
    linkUp s k.val = true → (connOf s k.val c.val).openAt ≤ s.clock.timebase →
    exec (.peerOpenRepeat k c) s = .next (sendOpen k.val c.val s)) ∧
  (∀ s (k : Fin 4) (c : Fin 65) x e, x = connOf s k.val c.val → x.phase = 2 →
    x.lastProgress + rto s k.val c.val ≤ s.clock.timebase → x.kept.find? (fun y => y.sent) = some e → x.timeouts < 15 →
    exec (.peerRtoExpiry k c) s = .next (resendFrom k.val c.val e.seq
      (setConn k.val c.val { x with timeouts := x.timeouts + 1, lastProgress := s.clock.timebase } s))) ∧
  (∀ s (k : Fin 4) (c : Fin 65), (connOf s k.val c.val).ackDue.isSome = true →
    exec (.peerAckSend k c) s = .next (sendPlain k.val c.val 0x07 blankFrame s)) ∧
  (∀ s k f c, RxFor k f c s → exec (.ackFrame k f) s =
    .next (takeHeader k.val c f.ack f.window (countRx k.val 0x07 f s))) ∧
  (∀ s s1 k f c, RxFor k f c s → s1 = takeHeader k.val c (f.ack - 1) f.window (countRx k.val 0x08 f s) →
    (connOf s1 k.val c).phase = 2 → exec (.nakFrame k f) s = .next (resendFrom k.val c f.ack s1)) ∧
  (∀ s k f c, RxFor k f c s → ∃ t, exec (.openFrame k f) s = .next t ∧ (connOf t k.val c).phase = 2 ∧
    (connOf t k.val c).rxExpect = f.seq + 1) ∧
  (∀ s k f c, RxFor k f c s → (connOf s k.val c).phase = 1 → ∃ t, exec (.openAckFrame k f) s = .next t ∧
    (connOf t k.val c).phase = 2 ∧ (connOf t k.val c).rxExpect = f.seq + 1) ∧
  (∀ s (k : Fin 4) f, linkUp s k.val = true → f.dst = portMac s k.val ∨ f.dst = broadcast →
    ∃ t, exec (.advisoryFrame k f) s = .next t ∧ t.late.received = s.late.received + 1 ∧
      t.tele.logSeq = s.tele.logSeq + 1) ∧
  (∀ s (k : Fin 4) why, linkUp s k.val = true →
    exec (.badPeerFrame k why) s = .next (countEvent (portCtr k.val 6) 1 s)) ∧
  (∀ s (k : Fin 4) q, linkUp s k.val = true → 0 < q → exec (.pauseFrame k q none) s =
    .next (setPort k.val { portOf s k.val with
      paused := true, pausedUntil := s.clock.timebase + ceilDiv (q * 64) 100 } s)) ∧
  (∀ s (k : Fin 4), (portOf s k.val).paused = true → (portOf s k.val).pausedUntil ≤ s.clock.timebase →
    ∃ t, exec (.pauseTimeExpiry k) s = .next t ∧ (portOf t k.val).paused = false ∧ (portOf t k.val).waiting = [])

/-- The pair's events (R429 to R442): a heartbeat mark counts a miss, and the eighth makes the partner lost; a heartbeat
ends the misses; a bound that is exceeded holds new writes; the waits of boot and of a switchover end; a resync whose last
frame is acknowledged brings the copies in sync. -/
def Obligations.TwinEvents : Prop :=
  (∀ s, twinOn s = true → s.clock.mark % 64 = 0 → s.twin.beatMark ≤ s.clock.mark → s.boot.halt = .none →
    ∃ t, exec .twinHeartbeatMark s = .next t ∧ t.twin.heard = false ∧ t.twin.beatMark = s.clock.mark + 1 ∧
      (s.twin.heard = true → t.twin.misses = s.twin.misses ∧ t.twin.lost = s.twin.lost) ∧
      (s.twin.heard = false → t.twin.misses = s.twin.misses + 1 ∧ (s.twin.misses = 7 → t.twin.lost = true))) ∧
  (∀ s (k : Fin 4) f, linkUp s k.val = true → twinPort s = k.val → f.dst = portMac s k.val ∨ f.dst = broadcast →
    32 ≤ f.payload.length → ∃ t, exec (.heartbeatFrame k f) s = .next t ∧ t.twin.heard = true ∧ t.twin.misses = 0 ∧
      t.twin.lost = false ∧ (t.twin.conflict = true ↔ leAt f.payload 0 1 = twinRole s)) ∧
  (∀ s (k : Fin 128), mirrored s k.val = true → lagOk s k.val = false → exec (.twinLagBoundExpiry k) s =
    .next (setTwinPart k.val { twinPartOf s k.val with lagHold := true } s)) ∧
  (∀ s m, s.twin.bootWaitFrom = some m → m + msTicks (cfgN s 0x0C05 2 0) ≤ s.clock.timebase →
    ∃ t, exec .twinBootWaitExpiry s = .next t ∧ t.twin.bootWaitFrom = none ∧
      (autoTakeover s = false → t = { s with twin := { s.twin with bootWaitFrom := none } })) ∧
  (∀ s (k : Fin 128) c d, (twinPartOf s k.val).takeover = some (c, d) → planned s k.val = true →
    d ≤ s.clock.timebase → ∃ t, exec (.twinTakeoverTimeout k) s = .next t ∧
      (twinPartOf t k.val).takeover = none ∧ (partOf t k.val).closed = false ∧
      t.cmds = (finish 0x0C09 c stDeferred [] s).cmds) ∧
  (∀ s (k : Fin 128) q, (twinPartOf s k.val).state = 2 → (twinPartOf s k.val).resyncLast = some q →
    planned s k.val = false → ((connOf s (twinPort s) twinConn).kept.any (fun e => seqLe e.seq q)) = false →
    exec (.resyncComplete k) s =
      .next (setTwinPart k.val { twinPartOf s k.val with state := 3, resyncLast := none } s))

/-! ## Rules over every command -/

/-- Every command answers a next state, with the queue as it found it: no command of the model faults or is refused. -/
def Obligations.EveryCommandCompletes : Prop :=
  ∀ i s, ∃ t, exec i s = .next t ∧ t.pending = s.pending

/-- Every step keeps the canonical form of the stored bytes of HBM and of the pot, from any state that has it. -/
def Obligations.EveryStepKeepsForm : Prop :=
  ∀ s t, s.wf → step s = .next t → t.wf

/-- Which commands change what is stored: every other command leaves every byte of HBM and of the pot, its flags and its
counts as they were. -/
def Obligations.OnlyStoringCommandsStore : Prop :=
  ∀ i s t, mayStore i = false → exec i s = .next t → t.hbm = s.hbm ∧ t.pot = s.pot ∧ SameContents s t

/-- Which commands change the configuration in force (staging changes none of it, R144), the timebase, the debug level
and its nonce; none changes the device's identity. -/
def Obligations.OnlyNamedCommandsChangeSystemState : Prop :=
  (∀ i s t, mayConfigure i = false → exec i s = .next t → t.cfg.inForce = s.cfg.inForce) ∧
  (∀ i s t, mayMoveTime i = false → exec i s = .next t → t.clock = s.clock) ∧
  (∀ i s t, mayChangeDebug i = false → exec i s = .next t → t.dbg = s.dbg) ∧
  (∀ i s t, exec i s = .next t → t.ident = s.ident)

/-- A mailbox opcode names one command and each mailbox command has one opcode (Table 20.2); the opcodes that name a
command are those that have an access row. -/
def Obligations.OpcodesNameCommands : Prop :=
  (∀ i op c, opcodeOf i = some op → i.cmd? = some c → ∃ j, ofOpcode op c = some j ∧ opcodeOf j = some op ∧
    j.cmd? = some c ∧ ((∀ d, i ≠ .testStackAccess c d) → j = i)) ∧
  (∀ op c i, ofOpcode op c = some i → opcodeOf i = some op ∧ i.cmd? = some c) ∧
  (∀ op c, (ofOpcode op c).isSome = (accessOf op).isSome) ∧
  (∀ i, (opcodeOf i).isSome = i.cmd?.isSome)

/-! ## Refusals and frames of the shared operations -/

/-- When a mailbox command is not taken: not before the device serves mailboxes, its turn has come and it has a place, and
not past the gate, whose status it completes with and nothing else. What the gate refuses (R19, R117, R134, R165, R167). A steep with
a field outside its range completes with BAD_PARAM, one with no room with STEEP_FULL, and neither stages anything
(R145, R146). -/
def Obligations.CommandRefusals : Prop :=
  (∀ i op c s, opcodeOf i = some op → i.cmd? = some c → taken op c s = false → exec i s = .next s) ∧
  (∀ op c s, serving s = false → op ≠ 0x0809 ∨ c.issuer ≠ .oob → taken op c s = false) ∧
  (∀ op c s, notStarted op c s = true → taken op c s = false) ∧
  (∀ op c s, s.cmds.any (execMatches op c) = false → placeFor s c.issuer = false → taken op c s = false) ∧
  (∀ i op c s st, opcodeOf i = some op → i.cmd? = some c → taken op c s = true →
    gate op c s = some st → exec i s = .next (finish op c st [] s)) ∧
  (∀ op c s, accessOf op = none → gate op c s = some stBadOpcode) ∧
  (∀ op c s a, accessOf op = some a → s.boot.stage = .recovery → a.recovery = false → gate op c s = some stRecoveryOnly) ∧
  (∀ op c s a (k : Fin 128), accessOf op = some a → s.boot.stage ≠ .recovery → c.issuer = .fn k → k.val ≠ 0 →
    a.vf = false ∨ (c.tenant ≠ 0xFFFF ∧ c.tenant.toNat ≠ k.val) ∨
      (∃ b, a.perm = some b ∧ bitOf (permWord s k.val) b = false) →
    gate op c s = some stNotPermitted) ∧
  (∀ op c s a, accessOf op = some a → s.boot.stage ≠ .recovery → c.issuer = .oob →
    a.oob = none ∨ (∃ b, a.oob = some (some b) ∧ bitOf (permWord s 0x80) b = false) →
    gate op c s = some stNotPermitted) ∧
  (∀ op c s a, accessOf op = some a → s.boot.stage ≠ .recovery → cmdPf c = true → a.master = false → a.level1 = false →
    c.tenant = 0xFFFF ∨ c.tenant.toNat < 128 → gate op c s = none) ∧
  (∀ c s, Accepted 0x0801 c s →
    (bitOf (par c 20 1) 0 = true ∧ ¬(100 ≤ par c 0 4 ∧ par c 0 4 ≤ 100000)) ∨
      (bitOf (par c 20 1) 2 = true ∧ ¬(700000 ≤ par c 8 4 ∧ par c 8 4 ≤ 1600000)) ∨
      (bitOf (par c 20 1) 5 = true ∧ par c 18 2 < 64) →
    exec (.kettleSteepLimits c) s = .next (finish 0x0801 c stBadParam [] s)) ∧
  (∀ c s, Accepted 0x0501 c s → ¬((par c 0 1 < 8 ∨ par c 0 1 = 0xFF) ∧ par c 1 1 ≤ 2) →
    exec (.integritySteepPolicy c) s = .next (finish 0x0501 c stBadParam [] s)) ∧
  (∀ c s, Accepted 0x0501 c s → par c 0 1 < 8 → par c 1 1 ≤ 2 → ¬ Room c [(cfgKey 0x0501 0 (par c 0 1), [par c 1 1])] s →
    exec (.integritySteepPolicy c) s = .next (finish 0x0501 c stSteepFull [] s)) ∧
  (∀ c s, Accepted 0x0401 c s → ¬((par c 0 2 < 256 ∨ par c 0 2 = 0xFFFF) ∧ par c 2 1 ≤ 1) →
    exec (.disturbSteepMode c) s = .next (finish 0x0401 c stBadParam [] s))

/-- What the operations that every command shares do, and nothing else: ending a command and going on with it change only
the command's own entry; sending changes only the output and the two counts of host payload; staging changes only the
issuer's area. -/
def Obligations.SharedOperationFrames : Prop :=
  (∀ op c st r s, finish op c st r s = { s with cmds := (finish op c st r s).cmds } ∧
    (∀ e ∈ s.cmds, execMatches op c e = false → e ∈ (finish op c st r s).cmds) ∧
    (s.cmds.any (execMatches op c) = false → (finish op c st r s).cmds = s.cmds ++
      [{ op := BitVec.ofNat 16 op, cmd := c, done := some (BitVec.ofNat 16 st, padTo 16 r) }])) ∧
  (∀ op c st r s e, s.cmds = [e] → execMatches op c e = true → (finish op c st r s).cmds =
    if e.discard = true then [] else [{ e with done := some (BitVec.ofNat 16 st, padTo 16 r), started := true }]) ∧
  (∀ op c s, hold op c s = { s with cmds := (hold op c s).cmds } ∧
    (∀ e ∈ s.cmds, execMatches op c e = false → e ∈ (hold op c s).cmds) ∧
    ∃ e ∈ (hold op c s).cmds, e.cmd.tag = c.tag ∧ e.started = true ∧ e.done = none ∧ e.since = s.clock.timebase) ∧
  (∀ o s, emit o s = { s with
    out := o :: s.out, tele := { s.tele with volumes := (emit o s).tele.volumes },
    kettle := { s.kettle with counts := (emit o s).kettle.counts } }) ∧
  (∀ c es s, afterSteep c es s = { s with cfg := { s.cfg with areas := (afterSteep c es s).cfg.areas } } ∧
    staged (afterSteep c es s) (cmdArea c) = stagedWith c es s ∧
    (∀ a, a ≠ cmdArea c → staged (afterSteep c es s) a = staged s a)) ∧
  (∀ c k v s, tfind (stagedWith c [(k, v)] s) k = some v ∧
    ∀ j, j ≠ k → tfind (stagedWith c [(k, v)] s) j = tfind (staged s (cmdArea c)) j)

/-- R136: when a command is fetched with the expected sequence, it takes an execution place, starts where nothing of its
function is before it, and the expected value advances; with any other it ends with STALE_SEQUENCE, whose result says
whether it is older (a difference of exactly 32,768 counts as older) and what is expected, and the value stays. -/
def Obligations.SequenceNumbers : Prop :=
  ∀ s (k : Fin 128) slot hostIn c f, f = fnOf s k.val → fetchTurn s = some k.val → c = slotCmd (.fn k) slot hostIn →
    (c.seq = f.expect → ∃ t e, exec (.commandFetch k slot hostIn) s = .next t ∧ t.cmds = s.cmds ++ [e] ∧
      e.op = slotOp slot ∧ e.cmd = c ∧ ((∀ x ∈ s.cmds, x.cmd.issuer ≠ .fn k) → e.started = true) ∧
      fnOf t k.val = { f with cmdHead := f.cmdHead + 1, expect := f.expect + 1 } ∧
      t = { s with cmds := t.cmds, fns := t.fns, boot := { s.boot with lastFetch := k.val } }) ∧
    (c.seq ≠ f.expect → ∃ t e b, exec (.commandFetch k slot hostIn) s = .next t ∧ t.cmds = s.cmds ++ [e] ∧
      e.done = some (BitVec.ofNat 16 stStaleSequence, padTo 16 ([b, 0] ++ leBytes 2 f.expect.toNat)) ∧
      (b = 0 ↔ (1 ≤ (f.expect - c.seq).toNat ∧ (f.expect - c.seq).toNat ≤ 32768)) ∧ (b = 0 ∨ b = 1) ∧
      fnOf t k.val = { f with cmdHead := f.cmdHead + 1 } ∧
      t = { s with cmds := t.cmds, fns := t.fns, boot := { s.boot with lastFetch := k.val } })

/-! ## Stored sectors and the sector code (R254 to R259) -/

/-- A read of a sector gives what its last write stored, and no write changes another sector: a full-sector write, a
whole-range write (what it covers holds zeros, or poison, under its colour), and a write of bytes of the pot. -/
def Obligations.StoredSectors : Prop :=
  (∀ q colour data s, readSector (writeSector q colour false data s) q colour = (.clean, padTo 32 data) ∧
    readSector (writeSector q colour true data s) q colour = (.poison, padTo 32 data)) ∧
  (∀ q colour poison data s q' i, q' ≠ q → i < 64 →
    stored (writeSector q colour poison data s) q' i = stored s q' i) ∧
  (∀ n lo hi colour poison s f q i,
    f = { stack := n, lo := lo, hi := hi, mapped := (stackOf s n).mapped, colour := colour, poison := poison } → i < 64 →
    stored (fillRange n lo hi colour poison s) q i =
      if fillCovers s.ident.big f q = true then (encodeSector colour poison []).getD i 0 else stored s q i) ∧
  (∀ o bytes s a, potByte (potStore o bytes s) a =
    if o ≤ a ∧ a < o + bytes.length then bytes.getD (a - o) 0 else potByte s a)

/-- R256 and R257: the syndromes of a sector are r(α^j) of the 37 symbols a reader forms; a sector written under one
colour and read under another, with no bad byte, has those of one bad symbol at position 36; a poisoned sector has the
poison mask in its check bytes, keeps its data and has the poison syndrome, which no one or two bad symbols of a codeword
have, so that under every policy it reads as poison. -/
def Obligations.SectorSyndromes : Prop :=
  (∀ k st j, j < 4 → syndrome k st j =
    ((List.range 37).map (fun p => gfMul (symbolAt k st p) (gfAlpha (p * j)))).foldl (· ^^^ ·) 0) ∧
  (∀ k k' data, syndromes k' (encodeSector k false data) =
    (List.range 4).map (fun j => gfMul (k ^^^ k') (gfAlpha (36 * j)))) ∧
  (∀ k data, encodeSector k true data =
    (encodeSector k false data).take 32 ++ List.zipWith (· ^^^ ·) ((encodeSector k false data).drop 32) [0x01, 0x07, 0x0E, 0x08] ∧
    (encodeSector k true data).take 32 = padTo 32 data) ∧
  (∀ k data, syndromes k (encodeSector k true data) = [0x00, 0x00, 0x00, 0x9F]) ∧
  (∀ k k' data st, st.length = 36 →
    ((List.range 37).filter (fun p => symbolAt k' st p != symbolAt k (encodeSector k false data) p)).length ≤ 2 →
    syndromes k' st ≠ [0x00, 0x00, 0x00, 0x9F]) ∧
  (∀ policy k data, classify policy k (encodeSector k true data) = .poison)

/-- The decode policies of Table 9.2 and the classification of Table 9.3: policy 0 corrects any one or two bad bytes,
policy 1 any one, policy 2 none; what is not corrected is detected; a sector of another colour is a colour mismatch under
every policy, and under policy 0 with one bad byte as well. -/
def Obligations.SectorCorrection : Prop :=
  (∀ policy k data, classify policy k (encodeSector k false data) = .clean) ∧
  (∀ policy k data i v, i < 36 → v ≠ 0 → policy ≤ 1 → ∃ bad,
    classify policy k (hitByte (encodeSector k false data) i v) = .corrected bad ∧ bad.length = 1 ∧
    outcomeData (hitByte (encodeSector k false data) i v) (.corrected bad) = padTo 32 data) ∧
  (∀ k data i v, i < 36 → v ≠ 0 → classify 2 k (hitByte (encodeSector k false data) i v) = .uncorrectable) ∧
  (∀ k data i j v w, i < j → j < 36 → v ≠ 0 → w ≠ 0 → ∃ bad,
    classify 0 k (hitByte (hitByte (encodeSector k false data) i v) j w) = .corrected bad ∧ bad.length = 2 ∧
    outcomeData (hitByte (hitByte (encodeSector k false data) i v) j w) (.corrected bad) = padTo 32 data) ∧
  (∀ policy k data i j v w, i < j → j < 36 → v ≠ 0 → w ≠ 0 → policy = 1 ∨ policy = 2 →
    classify policy k (hitByte (hitByte (encodeSector k false data) i v) j w) = .uncorrectable) ∧
  (∀ policy k k' data, k ≠ k' → classify policy k' (encodeSector k false data) = .mismatch) ∧
  (∀ k k' data i v, k ≠ k' → i < 36 → v ≠ 0 → classify 0 k' (hitByte (encodeSector k false data) i v) = .mismatch)
end

