-- ==== Sys2Proof/Laws/Bytes.lean ====
section
/-! SUPPORT. Byte lists: reading fields of a laid-out list, the bytes that an access gathers from its sectors, and that a
context the device writes (R390) passes its own check (R399). -/

namespace Sys2Proof.Laws

open Sys2Proof Sys2Proof.Machine

/-! ## Fields of a list of bytes -/

theorem bytesAt_length (bs : List Byte) (o n : Nat) : (bytesAt bs o n).length = n := by simp [bytesAt]

theorem bytesAt_getD (bs : List Byte) (o n i : Nat) (h : i < n) : (bytesAt bs o n).getD i 0 = bs.getD (o + i) 0 := by
  simp [bytesAt, List.getD_eq_getElem?_getD, List.getElem?_range h]

theorem bytesAt_congr {a b : List Byte} {o p n : Nat} (h : ∀ i < n, a.getD (o + i) 0 = b.getD (p + i) 0) :
    bytesAt a o n = bytesAt b p n :=
  List.map_congr_left fun i hi => h i (List.mem_range.mp hi)

theorem bytesAt_padTo (bs : List Byte) {m o n : Nat} (h : o + n ≤ m) : bytesAt (padTo m bs) o n = bytesAt bs o n :=
  bytesAt_congr fun i hi => by rw [padTo, bytesAt_getD _ _ _ _ (by omega), Nat.zero_add]

theorem bytesAt_self (bs : List Byte) : bytesAt bs 0 bs.length = bs := by
  apply List.ext_getElem
  · simp [bytesAt]
  · intro i _ h; simp [bytesAt, List.getD_eq_getElem?_getD, List.getElem?_eq_getElem h]

theorem bytesAt_append_left (a b : List Byte) {o n : Nat} (h : o + n ≤ a.length) :
    bytesAt (a ++ b) o n = bytesAt a o n :=
  bytesAt_congr fun i hi => by
    simp [List.getD_eq_getElem?_getD, List.getElem?_append_left (show o + i < a.length by omega)]

theorem bytesAt_append_right (a b : List Byte) (o n : Nat) :
    bytesAt (a ++ b) (a.length + o) n = bytesAt b o n :=
  bytesAt_congr fun i hi => by
    rw [List.getD_eq_getElem?_getD, List.getD_eq_getElem?_getD, List.getElem?_append_right (by omega)]
    congr 2; omega

theorem leBytes_length (n v : Nat) : (leBytes n v).length = n := by
  induction n generalizing v <;> simp_all [leBytes]

theorem ofLe_leBytes (n v : Nat) : ofLe (leBytes n v) = v % 256 ^ n := by
  induction n generalizing v with
  | zero => simp [leBytes, ofLe, Nat.mod_one]
  | succ n ih =>
    simp [leBytes, ofLe, ih, Nat.pow_succ', Nat.mod_mul]

/-- The magic and the CRC of a context that INFUSER_PREPARE writes are right. -/
theorem newContext_valid (n l k alpha t : Nat) (recs : List (Nat × Nat)) :
    ctxValid (newContext n l k alpha t recs) = true := by
  unfold newContext
  extract_lets head body tail all
  have hb : body.length = 20 := by simp [body, head, leBytes_length]
  have hl (x : List Byte) (hx : x.length = 4) : bytesAt (padTo ctxBytes (body ++ x ++ tail)) 0 20 = body := by
    rw [bytesAt_padTo _ (by decide), List.append_assoc, bytesAt_append_left _ _ (by omega), ← hb, bytesAt_self]
  have hr (x : List Byte) (hx : x.length = 4) : bytesAt (padTo ctxBytes (body ++ x ++ tail)) 24 (ctxBytes - 24) =
      bytesAt tail 0 (ctxBytes - 24) := by
    rw [bytesAt_padTo _ (by decide), show 24 = (body ++ x).length + 0 by simp [hb, hx], bytesAt_append_right]
  have hc (x : List Byte) (hx : x.length = 4) : ctxCrc (padTo ctxBytes (body ++ x ++ tail)) = ctxCrc all := by
    simp only [ctxCrc, all]; rw [hl x hx, hr x hx, hl _ (by simp), hr _ (by simp)]
  have hm : (leBytes 4 (ctxCrc all)).length = 4 := leBytes_length _ _
  simp only [ctxValid, Bool.and_eq_true, beq_iff_eq]
  refine ⟨?_, ?_⟩
  · rw [leAt, bytesAt_padTo _ (by decide), List.append_assoc, bytesAt_append_left _ _ (by omega)]
    simp only [body, List.append_assoc]
    rw [bytesAt_append_left _ _ (by simp [leBytes_length])]
    rfl
  · rw [hc _ hm, leAt, bytesAt_padTo _ (by decide), List.append_assoc,
      show 20 = body.length + 0 by omega, bytesAt_append_right, bytesAt_append_left _ _ (by omega)]
    have := bytesAt_self (leBytes 4 (ctxCrc all))
    rw [hm] at this
    rw [this, ofLe_leBytes]
    exact Nat.mod_eq_of_lt (BitVec.isLt _)

/-! ## What an access gathers -/

/-- The sectors of bs from a start. -/
def sectorsOf (start : Nat) (bs : List Byte) : List (Nat × List Byte × Bool) :=
  (List.range (bs.length / 32)).map fun i => (start + 32 * i, bytesAt bs (32 * i) 32, false)

theorem unitStarts_aligned (start k : Nat) (h : start % 32 = 0) :
    unitStarts start (32 * k) = (List.range k).map fun i => start + 32 * i := by
  rw [unitStarts, show ceilDiv (start + 32 * k) 32 - start / 32 = k by simp only [ceilDiv]; omega]
  exact List.map_congr_left fun i _ => by omega

theorem sectorsOf_find (start : Nat) (bs : List Byte) {i : Nat} (h : i < bs.length / 32) :
    (sectorsOf start bs).find? (fun e => e.1 == start + 32 * i) =
      some (start + 32 * i, bytesAt bs (32 * i) 32, false) := by
  rw [sectorsOf, List.find?_map]
  have : (List.range (bs.length / 32)).find? ((fun e : Nat × List Byte × Bool => e.1 == start + 32 * i) ∘
      fun i => (start + 32 * i, bytesAt bs (32 * i) 32, false)) = some i := by
    rw [List.find?_range_eq_some]
    refine ⟨by simp, List.mem_range.mpr h, fun j hj => by simp; omega⟩
  rw [this]; rfl

theorem chunks_flatMap (bs : List Byte) (k : Nat) (h : bs.length = 32 * k) :
    (List.range k).flatMap (fun i => bytesAt bs (32 * i) 32) = bs := by
  induction k generalizing bs with
  | zero => simpa using h
  | succ k ih =>
    have hd : (bs.drop 32).length = 32 * k := by simp [h]; omega
    have h0 : bytesAt bs (32 * 0) 32 = bs.take 32 := by
      have := bytesAt_append_left (bs.take 32) (bs.drop 32) (o := 0) (n := 32) (by simp; omega)
      rw [List.take_append_drop] at this
      rw [Nat.mul_zero, this]
      simpa [Nat.min_eq_left (show 32 ≤ bs.length by omega)] using bytesAt_self (bs.take 32)
    have hi (i : Nat) : bytesAt bs (32 * (i + 1)) 32 = bytesAt (bs.drop 32) (32 * i) 32 :=
      bytesAt_congr fun j _ => by
        simp only [List.getD_eq_getElem?_getD, List.getElem?_drop]; congr 2; omega
    rw [List.range_succ_eq_map, List.flatMap_cons, List.flatMap_map, h0]
    simp only [hi, Nat.succ_eq_add_one]
    rw [ih _ hd, List.take_append_drop]

/-- A read access whose sectors hold bs has gathered bs, and nothing failed. -/
theorem gathered_sectors (a : Access) (bs : List Byte) (k : Nat) (hk : bs.length = 32 * k) (hs : a.start % 32 = 0)
    (hl : a.len = bs.length) (hg : a.got = sectorsOf a.start bs) :
    gathered a = { bytes := bs, failed := List.replicate k false } := by
  have hf : (unitStarts a.start a.len).map (fun u => a.got.find? (fun e => e.1 == u)) =
      (List.range k).map fun i => some (a.start + 32 * i, bytesAt bs (32 * i) 32, false) := by
    rw [hl, hk, unitStarts_aligned _ _ hs, List.map_map, hg]
    exact List.map_congr_left fun i hi => sectorsOf_find _ _ (by have := List.mem_range.mp hi; omega)
  have hp (i : Nat) : padTo 32 (bytesAt bs (32 * i) 32) = bytesAt bs (32 * i) 32 := by
    have := bytesAt_self (bytesAt bs (32 * i) 32)
    rwa [bytesAt_length] at this
  simp only [gathered, hf, List.flatMap_map, List.map_map, Function.comp_def, Option.map_some, Option.getD_some, hp]
  rw [chunks_flatMap _ _ hk, hs, hl, bytesAt_self]
  simp

end Sys2Proof.Laws
end

