-- ==== Sys2Proof/Laws/Tables.lean ====
section
/-! SUPPORT. Laws of the sparse tables: a read after a write, and the canonical form that every write keeps. -/

namespace Sys2Proof.Machine

variable {α : Type}

@[simp] theorem tfind_nil (k : Nat) : tfind ([] : List (Nat × α)) k = none := rfl

@[simp] theorem tget_nil (d : α) (k : Nat) : tget d [] k = d := rfl

theorem tfind_tput (t : List (Nat × α)) (k j : Nat) (v : α) :
    tfind (tput t k v) j = if j = k then some v else tfind t j := by
  induction t with
  | nil => simp [tput, tfind, eq_comm]
  | cons e r ih =>
    obtain ⟨i, w⟩ := e
    simp only [tput]
    split
    · simp [tfind, eq_comm]
    · split
      · subst_vars; by_cases h : j = i <;> simp [tfind, h, eq_comm]
      · simp only [tfind, ih]
        split
        · subst_vars; simp [Ne.symm ‹_›]
        · rfl

@[simp] theorem tfind_tput_self (t : List (Nat × α)) (k : Nat) (v : α) : tfind (tput t k v) k = some v := by
  simp [tfind_tput]

theorem tfind_tput_ne (t : List (Nat × α)) (v : α) {k j : Nat} (h : j ≠ k) : tfind (tput t k v) j = tfind t j := by
  simp [tfind_tput, h]

theorem tfind_terase (t : List (Nat × α)) (k j : Nat) :
    tfind (terase t k) j = if j = k then none else tfind t j := by
  unfold terase
  induction t with
  | nil => simp
  | cons e r ih =>
    obtain ⟨i, w⟩ := e
    by_cases hi : i = k
    · rw [List.filter_cons_of_neg (by simp [hi]), ih]
      by_cases hj : j = k
      · simp [hj]
      · simp only [hj, if_false, tfind]
        rw [if_neg (by rw [hi]; exact Ne.symm hj)]
    · rw [List.filter_cons_of_pos (by simp [hi])]
      simp only [tfind, ih]
      by_cases hj : i = j
      · simp [hj, hj ▸ hi]
      · simp [hj]

/-- A read after a write: the value written at its index, what was there at any other. -/
theorem tget_tset [DecidableEq α] (d : α) (t : List (Nat × α)) (k j : Nat) (v : α) :
    tget d (tset d t k v) j = if j = k then v else tget d t j := by
  unfold tset tget
  split
  · subst_vars; rw [tfind_terase]; split <;> rfl
  · rw [tfind_tput]; split <;> rfl

@[simp] theorem tget_tset_self [DecidableEq α] (d : α) (t : List (Nat × α)) (k : Nat) (v : α) :
    tget d (tset d t k v) k = v := by simp [tget_tset]

theorem tget_tset_ne [DecidableEq α] (d : α) (t : List (Nat × α)) (v : α) {k j : Nat} (h : j ≠ k) :
    tget d (tset d t k v) j = tget d t j := by simp [tget_tset, h]

theorem cget_cadd (t : List (Nat × Nat)) (k j n : Nat) :
    cget (cadd t k n) j = if j = k then cget t k + n else cget t j := by
  simp only [cget, cadd, tget_tset]

/-! ## The canonical form -/

/-- What a table holds after tput: the new entry, and old ones of other indices. -/
theorem mem_tput {t : List (Nat × α)} {k : Nat} {v : α} {e : Nat × α} (h : e ∈ tput t k v) :
    e = (k, v) ∨ e ∈ t := by
  induction t with
  | nil => simpa [tput] using h
  | cons x r ih =>
    obtain ⟨j, w⟩ := x
    simp only [tput] at h
    split at h
    · simpa using h
    · split at h
      · rcases List.mem_cons.1 h with h | h
        · exact .inl h
        · exact .inr (List.mem_cons_of_mem _ h)
      · rcases List.mem_cons.1 h with h | h
        · exact .inr (h ▸ List.mem_cons_self)
        · exact (ih h).imp_right (List.mem_cons_of_mem _)

theorem sorted_tput {t : List (Nat × α)} (k : Nat) (v : α) (h : Table.sorted t) : Table.sorted (tput t k v) := by
  induction t with
  | nil => simp [tput, Table.sorted]
  | cons x r ih =>
    obtain ⟨j, w⟩ := x
    simp only [Table.sorted, List.map_cons, List.pairwise_cons] at h ih
    simp only [tput]
    split
    · rename_i hk
      simp only [Table.sorted, List.map_cons, List.pairwise_cons, List.mem_cons]
      refine ⟨?_, h.1, h.2⟩
      rintro a (rfl | ha)
      · exact hk
      · exact hk.trans (h.1 a ha)
    · split
      · subst_vars; simpa [Table.sorted] using h
      · simp only [Table.sorted, List.map_cons, List.pairwise_cons]
        refine ⟨?_, ih h.2⟩
        intro a ha
        obtain ⟨e, he, rfl⟩ := List.mem_map.1 ha
        rcases mem_tput he with rfl | he
        · show j < k; omega
        · exact h.1 _ (List.mem_map_of_mem he)

theorem sorted_filter {t : List (Nat × α)} (p : Nat × α → Bool) (h : Table.sorted t) : Table.sorted (t.filter p) :=
  List.Pairwise.sublist (List.filter_sublist.map _) h

theorem mem_tset [DecidableEq α] {d : α} {t : List (Nat × α)} {k : Nat} {v : α} {e : Nat × α}
    (h : e ∈ tset d t k v) : (e = (k, v) ∧ v ≠ d) ∨ e ∈ t := by
  unfold tset at h
  split at h
  · exact .inr (List.mem_filter.1 h).1
  · exact (mem_tput h).imp_left (fun h => ⟨h, ‹_›⟩)

theorem sorted_tset [DecidableEq α] (d : α) {t : List (Nat × α)} (k : Nat) (v : α) (h : Table.sorted t) :
    Table.sorted (tset d t k v) := by
  unfold tset
  split
  · exact sorted_filter _ h
  · exact sorted_tput k v h

/-- A write with the default left out keeps the canonical form. -/
theorem canonical_tset [DecidableEq α] {d : α} {t : List (Nat × α)} (k : Nat) (v : α) (h : Table.canonical d t) :
    Table.canonical d (tset d t k v) := by
  refine ⟨sorted_tset d k v h.1, fun e he => ?_⟩
  rcases mem_tset he with ⟨rfl, hv⟩ | he
  · exact hv
  · exact h.2 e he

theorem canonical_filter [DecidableEq α] {d : α} {t : List (Nat × α)} (p : Nat × α → Bool)
    (h : Table.canonical d t) : Table.canonical d (t.filter p) :=
  ⟨sorted_filter p h.1, fun e he => h.2 e (List.mem_filter.1 he).1⟩

end Sys2Proof.Machine
end

