-- ==== Sys2Proof/Laws/Memory.lean ====
section
/-! SUPPORT. Laws of the stored contents: a stored byte after a write, and the canonical form that every operation on
HBM and on the pot keeps. -/

namespace Sys2Proof.Machine

open Sys2Proof

/-! ## Stored bytes of HBM -/

/-- A write of one stored byte changes that byte alone. -/
theorem storedByte_putStored (big : Bool) (m : Memory) (q q' i i' : Nat) (b : Byte) (hi : i < 64) (hi' : i' < 64) :
    storedByte big (putStored big q m i b) q' i' = if q' = q ∧ i' = i then b else storedByte big m q' i' := by
  unfold storedByte putStored
  by_cases h : q' * 64 + i' = q * 64 + i
  · obtain ⟨rfl, rfl⟩ : q' = q ∧ i' = i := by omega
    simp
  · rw [if_neg (by rintro ⟨rfl, rfl⟩; exact h rfl)]
    show (tfind (tset _ m.cells (q * 64 + i) b) (q' * 64 + i')).getD _ = _
    unfold tset
    split
    · rw [tfind_terase, if_neg h]; rfl
    · rw [tfind_tput, if_neg h]; rfl

theorem putStored_fills (big : Bool) (q : Nat) (m : Memory) (i : Nat) (b : Byte) :
    (putStored big q m i b).fills = m.fills := rfl

/-- A write of one stored byte keeps the canonical form. -/
theorem putStored_wf {big : Bool} {m : Memory} (q i : Nat) (b : Byte) (hi : i < 64) (h : Memory.wf big m) :
    Memory.wf big (putStored big q m i b) := by
  refine ⟨sorted_tset _ _ _ h.1, fun c hc => ?_⟩
  rcases mem_tset hc with ⟨rfl, hv⟩ | hc
  · have h1 : (q * 64 + i) / 64 = q := by omega
    have h2 : (q * 64 + i) % 64 = i := by omega
    simpa only [h1, h2, putStored_fills] using hv
  · simpa only [putStored_fills] using h.2 c hc

/-- Writing a whole stored sector keeps the canonical form. -/
theorem writeStored_wf {big : Bool} {m : Memory} (q : Nat) (bytes : List Byte) (h : Memory.wf big m) :
    Memory.wf big (writeStored big q bytes m) := by
  unfold writeStored
  suffices ∀ (l : List Nat) (m : Memory), (∀ i ∈ l, i < 64) → Memory.wf big m →
      Memory.wf big (l.foldl (fun m i => putStored big q m i (bytes.getD i 0)) m) from
    this _ m (fun i hi => by have := List.mem_range.1 hi; omega) h
  intro l
  induction l with
  | nil => intro m _ h; exact h
  | cons i r ih =>
    intro m hl h
    exact ih _ (fun j hj => hl j (List.mem_cons_of_mem _ hj)) (putStored_wf q i _ (hl i List.mem_cons_self) h)

theorem setSector_wf {s : State} (q : Nat) (bytes : List Byte) (h : Memory.wf s.ident.big s.hbm) :
    Memory.wf (setSector q bytes s).ident.big (setSector q bytes s).hbm := writeStored_wf q bytes h

theorem writeSector_wf {s : State} (q : Nat) (colour : BitVec 8) (poison : Bool) (data : List Byte)
    (h : Memory.wf s.ident.big s.hbm) :
    Memory.wf (writeSector q colour poison data s).ident.big (writeSector q colour poison data s).hbm :=
  setSector_wf q _ h

/-- A byte that a new whole-range write does not cover reads unlisted as before. -/
theorem unlistedByte_cons (big : Bool) (f : Fill) (fills : List Fill) (q i : Nat) (h : fillCovers big f q = false) :
    unlistedByte big (f :: fills) q i = unlistedByte big fills q i := by
  simp [unlistedByte, h]

/-- A whole-range write keeps the canonical form. -/
theorem fillRange_wf {s : State} (n lo hi : Nat) (colour : BitVec 8) (poison : Bool)
    (h : Memory.wf s.ident.big s.hbm) :
    Memory.wf (fillRange n lo hi colour poison s).ident.big (fillRange n lo hi colour poison s).hbm := by
  refine ⟨sorted_filter _ h.1, fun c hc => ?_⟩
  obtain ⟨hc, hp⟩ := List.mem_filter.1 hc
  have hu := unlistedByte_cons s.ident.big _ s.hbm.fills (c.1 / 64) (c.1 % 64) (by simpa using hp)
  exact fun he => h.2 c hc (he.trans hu)

theorem writeReserved_wf {s : State} (n : Nat) (h : Memory.wf s.ident.big s.hbm) :
    Memory.wf (writeReserved n s).ident.big (writeReserved n s).hbm := fillRange_wf _ _ _ _ _ h

theorem fillExtent_wf {s : State} (n x : Nat) (colour : BitVec 8) (h : Memory.wf s.ident.big s.hbm) :
    Memory.wf (fillExtent n x colour s).ident.big (fillExtent n x colour s).hbm := fillRange_wf _ _ _ _ _ h

/-! ## The pot -/

/-- Storing bytes keeps the canonical form of the pot. -/
theorem potStore_wf {s : State} (o : Nat) (bytes : List Byte) (h : Pot.wf s.pot) :
    Pot.wf (potStore o bytes s).pot := by
  show Table.canonical 0 ((List.range bytes.length).foldl (fun c i => tset 0 c (o + i) (bytes.getD i 0)) s.pot.cells)
  generalize List.range bytes.length = l
  have h' : Table.canonical 0 s.pot.cells := h
  revert h'
  generalize s.pot.cells = c
  induction l generalizing c with
  | nil => exact id
  | cons i r ih => exact fun hc => ih _ (canonical_tset _ _ hc)

theorem potFlag_wf {s : State} (blk : Nat) (on : Bool) (h : Pot.wf s.pot) : Pot.wf (potFlag blk on s).pot := h

/-- Writing bytes keeps the canonical form of the pot. -/
theorem potWrite_wf {s : State} (o : Nat) (bytes : List Byte) (h : Pot.wf s.pot) : Pot.wf (potWrite o bytes s).pot := by
  have h' := potStore_wf o bytes h
  simp only [potWrite]
  generalize List.range _ = l
  generalize potStore o bytes s = t at h' ⊢
  induction l generalizing t with
  | nil => exact h'
  | cons i r ih => exact ih _ (potFlag_wf _ _ h')

theorem potClearGrain_wf {s : State} (g : Nat) (h : Pot.wf s.pot) : Pot.wf (potClearGrain g s).pot :=
  canonical_filter _ h

/-- The machine right after reset has the form: nothing is listed. -/
theorem reset_form : Memory.wf State.reset.ident.big State.reset.hbm ∧ Pot.wf State.reset.pot := by decide

end Sys2Proof.Machine
end

