-- ==== Sys2Proof/Laws/State.lean ====
section
/-! SUPPORT. Laws of State: what each update gives each field, one lemma a field and update, and what the accessors read
after a set. Each `mod` is its `set`, so that the lemmas of `set` serve both. -/

namespace Sys2Proof.Machine

open Sys2Proof

@[simp] theorem modFn_eq (k : Nat) (f : Fn → Fn) (s : State) : modFn k f s = setFn k (f (fnOf s k)) s := rfl
@[simp] theorem modStack_eq (n : Nat) (f : Stack → Stack) (s : State) : modStack n f s = setStack n (f (stackOf s n)) s := rfl
@[simp] theorem modChan_eq (n : Nat) (f : Chan → Chan) (s : State) : modChan n f s = setChan n (f (chanOf s n)) s := rfl
@[simp] theorem modPc_eq (n : Nat) (f : Pc → Pc) (s : State) : modPc n f s = setPc n (f (pcOf s n)) s := rfl
@[simp] theorem modPart_eq (t : Nat) (f : Part → Part) (s : State) : modPart t f s = setPart t (f (partOf s t)) s := rfl
@[simp] theorem modDie_eq (n : Nat) (f : Die → Die) (s : State) : modDie n f s = setDie n (f (dieOf s n)) s := rfl
@[simp] theorem modTile_eq (t : Nat) (f : Tile → Tile) (s : State) : modTile t f s = setTile t (f (tileOf s t)) s := rfl
@[simp] theorem modInfuser_eq (n : Nat) (f : Infuser → Infuser) (s : State) : modInfuser n f s = setInfuser n (f (infuserOf s n)) s := rfl
@[simp] theorem modPort_eq (k : Nat) (f : Port → Port) (s : State) : modPort k f s = setPort k (f (portOf s k)) s := rfl
@[simp] theorem modTwinPart_eq (t : Nat) (f : TwinPart → TwinPart) (s : State) : modTwinPart t f s = setTwinPart t (f (twinPartOf s t)) s := rfl
@[simp] theorem modExer_eq (n : Nat) (f : Exer → Exer) (s : State) : modExer n f s = setExer n (f (exerOf s n)) s := rfl
@[simp] theorem modConn_eq (k c : Nat) (f : Conn → Conn) (s : State) :
    modConn k c f s = setConn k c (f (connOf s k c)) s := rfl

/-! ## What the accessors read after a set -/

theorem fnOf_setFn (k j : Nat) (v : Fn) (s : State) : fnOf (setFn k v s) j = if j = k then v else fnOf s j :=
  tget_tset _ _ _ _ _
@[simp] theorem fnOf_setFn_self (k : Nat) (v : Fn) (s : State) : fnOf (setFn k v s) k = v := tget_tset_self _ _ _ _
theorem stackOf_setStack (n j : Nat) (v : Stack) (s : State) : stackOf (setStack n v s) j = if j = n then v else stackOf s j :=
  tget_tset _ _ _ _ _
@[simp] theorem stackOf_setStack_self (n : Nat) (v : Stack) (s : State) : stackOf (setStack n v s) n = v := tget_tset_self _ _ _ _
theorem chanOf_setChan (n j : Nat) (v : Chan) (s : State) : chanOf (setChan n v s) j = if j = n then v else chanOf s j :=
  tget_tset _ _ _ _ _
@[simp] theorem chanOf_setChan_self (n : Nat) (v : Chan) (s : State) : chanOf (setChan n v s) n = v := tget_tset_self _ _ _ _
theorem pcOf_setPc (n j : Nat) (v : Pc) (s : State) : pcOf (setPc n v s) j = if j = n then v else pcOf s j :=
  tget_tset _ _ _ _ _
@[simp] theorem pcOf_setPc_self (n : Nat) (v : Pc) (s : State) : pcOf (setPc n v s) n = v := tget_tset_self _ _ _ _
theorem partOf_setPart (t j : Nat) (v : Part) (s : State) : partOf (setPart t v s) j = if j = t then v else partOf s j :=
  tget_tset _ _ _ _ _
@[simp] theorem partOf_setPart_self (t : Nat) (v : Part) (s : State) : partOf (setPart t v s) t = v := tget_tset_self _ _ _ _
theorem dieOf_setDie (n j : Nat) (v : Die) (s : State) : dieOf (setDie n v s) j = if j = n then v else dieOf s j :=
  tget_tset _ _ _ _ _
@[simp] theorem dieOf_setDie_self (n : Nat) (v : Die) (s : State) : dieOf (setDie n v s) n = v := tget_tset_self _ _ _ _
theorem tileOf_setTile (t j : Nat) (v : Tile) (s : State) : tileOf (setTile t v s) j = if j = t then v else tileOf s j :=
  tget_tset _ _ _ _ _
@[simp] theorem tileOf_setTile_self (t : Nat) (v : Tile) (s : State) : tileOf (setTile t v s) t = v := tget_tset_self _ _ _ _
theorem infuserOf_setInfuser (n j : Nat) (v : Infuser) (s : State) : infuserOf (setInfuser n v s) j = if j = n then v else infuserOf s j :=
  tget_tset _ _ _ _ _
@[simp] theorem infuserOf_setInfuser_self (n : Nat) (v : Infuser) (s : State) : infuserOf (setInfuser n v s) n = v := tget_tset_self _ _ _ _
theorem portOf_setPort (k j : Nat) (v : Port) (s : State) : portOf (setPort k v s) j = if j = k then v else portOf s j :=
  tget_tset _ _ _ _ _
@[simp] theorem portOf_setPort_self (k : Nat) (v : Port) (s : State) : portOf (setPort k v s) k = v := tget_tset_self _ _ _ _
theorem twinPartOf_setTwinPart (t j : Nat) (v : TwinPart) (s : State) : twinPartOf (setTwinPart t v s) j = if j = t then v else twinPartOf s j :=
  tget_tset _ _ _ _ _
@[simp] theorem twinPartOf_setTwinPart_self (t : Nat) (v : TwinPart) (s : State) : twinPartOf (setTwinPart t v s) t = v := tget_tset_self _ _ _ _
theorem exerOf_setExer (n j : Nat) (v : Exer) (s : State) : exerOf (setExer n v s) j = if j = n then v else exerOf s j :=
  tget_tset _ _ _ _ _
@[simp] theorem exerOf_setExer_self (n : Nat) (v : Exer) (s : State) : exerOf (setExer n v s) n = v := tget_tset_self _ _ _ _
theorem connOf_setConn (k c k' c' : Nat) (v : Conn) (s : State) :
    connOf (setConn k c v s) k' c' = if connKey k' c' = connKey k c then v else connOf s k' c' := tget_tset _ _ _ _ _
@[simp] theorem connOf_setConn_self (k c : Nat) (v : Conn) (s : State) : connOf (setConn k c v s) k c = v :=
  tget_tset_self _ _ _ _
theorem listOf_setList (h j : Nat) (v : BrewList) (s : State) :
    listOf (setList h v s) j = if j = h then some v else listOf s j := tfind_tput _ _ _ _
@[simp] theorem listOf_setList_self (h : Nat) (v : BrewList) (s : State) : listOf (setList h v s) h = some v :=
  tfind_tput_self _ _ _
theorem listOf_dropList (h j : Nat) (s : State) : listOf (dropList h s) j = if j = h then none else listOf s j :=
  tfind_terase _ _ _

/-! ## setFn -/

@[simp] theorem setFn_pending (k : Nat) (v : Fn) (s : State) : (setFn k v s).pending = s.pending := rfl
@[simp] theorem setFn_ident (k : Nat) (v : Fn) (s : State) : (setFn k v s).ident = s.ident := rfl
@[simp] theorem setFn_pins (k : Nat) (v : Fn) (s : State) : (setFn k v s).pins = s.pins := rfl
@[simp] theorem setFn_clock (k : Nat) (v : Fn) (s : State) : (setFn k v s).clock = s.clock := rfl
@[simp] theorem setFn_boot (k : Nat) (v : Fn) (s : State) : (setFn k v s).boot = s.boot := rfl
@[simp] theorem setFn_flash (k : Nat) (v : Fn) (s : State) : (setFn k v s).flash = s.flash := rfl
@[simp] theorem setFn_fns (k : Nat) (v : Fn) (s : State) : (setFn k v s).fns = tset {} s.fns k v := rfl
@[simp] theorem setFn_cmds (k : Nat) (v : Fn) (s : State) : (setFn k v s).cmds = s.cmds := rfl
@[simp] theorem setFn_cfg (k : Nat) (v : Fn) (s : State) : (setFn k v s).cfg = s.cfg := rfl
@[simp] theorem setFn_parts (k : Nat) (v : Fn) (s : State) : (setFn k v s).parts = s.parts := rfl
@[simp] theorem setFn_hbm (k : Nat) (v : Fn) (s : State) : (setFn k v s).hbm = s.hbm := rfl
@[simp] theorem setFn_pot (k : Nat) (v : Fn) (s : State) : (setFn k v s).pot = s.pot := rfl
@[simp] theorem setFn_path (k : Nat) (v : Fn) (s : State) : (setFn k v s).path = s.path := rfl
@[simp] theorem setFn_buckets (k : Nat) (v : Fn) (s : State) : (setFn k v s).buckets = s.buckets := rfl
@[simp] theorem setFn_qos (k : Nat) (v : Fn) (s : State) : (setFn k v s).qos = s.qos := rfl
@[simp] theorem setFn_stk (k : Nat) (v : Fn) (s : State) : (setFn k v s).stk = s.stk := rfl
@[simp] theorem setFn_chans (k : Nat) (v : Fn) (s : State) : (setFn k v s).chans = s.chans := rfl
@[simp] theorem setFn_pcs (k : Nat) (v : Fn) (s : State) : (setFn k v s).pcs = s.pcs := rfl
@[simp] theorem setFn_kettle (k : Nat) (v : Fn) (s : State) : (setFn k v s).kettle = s.kettle := rfl
@[simp] theorem setFn_kb (k : Nat) (v : Fn) (s : State) : (setFn k v s).kb = s.kb := rfl
@[simp] theorem setFn_power (k : Nat) (v : Fn) (s : State) : (setFn k v s).power = s.power := rfl
@[simp] theorem setFn_hub (k : Nat) (v : Fn) (s : State) : (setFn k v s).hub = s.hub := rfl
@[simp] theorem setFn_dies (k : Nat) (v : Fn) (s : State) : (setFn k v s).dies = s.dies := rfl
@[simp] theorem setFn_compute (k : Nat) (v : Fn) (s : State) : (setFn k v s).compute = s.compute := rfl
@[simp] theorem setFn_infusers (k : Nat) (v : Fn) (s : State) : (setFn k v s).infusers = s.infusers := rfl
@[simp] theorem setFn_peers (k : Nat) (v : Fn) (s : State) : (setFn k v s).peers = s.peers := rfl
@[simp] theorem setFn_twin (k : Nat) (v : Fn) (s : State) : (setFn k v s).twin = s.twin := rfl
@[simp] theorem setFn_tele (k : Nat) (v : Fn) (s : State) : (setFn k v s).tele = s.tele := rfl
@[simp] theorem setFn_late (k : Nat) (v : Fn) (s : State) : (setFn k v s).late = s.late := rfl
@[simp] theorem setFn_exers (k : Nat) (v : Fn) (s : State) : (setFn k v s).exers = s.exers := rfl
@[simp] theorem setFn_dbg (k : Nat) (v : Fn) (s : State) : (setFn k v s).dbg = s.dbg := rfl
@[simp] theorem setFn_doze (k : Nat) (v : Fn) (s : State) : (setFn k v s).doze = s.doze := rfl
@[simp] theorem setFn_refcode (k : Nat) (v : Fn) (s : State) : (setFn k v s).refcode = s.refcode := rfl
@[simp] theorem setFn_out (k : Nat) (v : Fn) (s : State) : (setFn k v s).out = s.out := rfl
@[simp] theorem setFn_freeCount (k : Nat) (v : Fn) (s : State) : (setFn k v s).freeCount = s.freeCount := rfl

/-! ## setStack -/

@[simp] theorem setStack_pending (n : Nat) (v : Stack) (s : State) : (setStack n v s).pending = s.pending := rfl
@[simp] theorem setStack_ident (n : Nat) (v : Stack) (s : State) : (setStack n v s).ident = s.ident := rfl
@[simp] theorem setStack_pins (n : Nat) (v : Stack) (s : State) : (setStack n v s).pins = s.pins := rfl
@[simp] theorem setStack_clock (n : Nat) (v : Stack) (s : State) : (setStack n v s).clock = s.clock := rfl
@[simp] theorem setStack_boot (n : Nat) (v : Stack) (s : State) : (setStack n v s).boot = s.boot := rfl
@[simp] theorem setStack_flash (n : Nat) (v : Stack) (s : State) : (setStack n v s).flash = s.flash := rfl
@[simp] theorem setStack_fns (n : Nat) (v : Stack) (s : State) : (setStack n v s).fns = s.fns := rfl
@[simp] theorem setStack_cmds (n : Nat) (v : Stack) (s : State) : (setStack n v s).cmds = s.cmds := rfl
@[simp] theorem setStack_cfg (n : Nat) (v : Stack) (s : State) : (setStack n v s).cfg = s.cfg := rfl
@[simp] theorem setStack_parts (n : Nat) (v : Stack) (s : State) : (setStack n v s).parts = s.parts := rfl
@[simp] theorem setStack_hbm (n : Nat) (v : Stack) (s : State) : (setStack n v s).hbm = s.hbm := rfl
@[simp] theorem setStack_pot (n : Nat) (v : Stack) (s : State) : (setStack n v s).pot = s.pot := rfl
@[simp] theorem setStack_path (n : Nat) (v : Stack) (s : State) : (setStack n v s).path = s.path := rfl
@[simp] theorem setStack_buckets (n : Nat) (v : Stack) (s : State) : (setStack n v s).buckets = s.buckets := rfl
@[simp] theorem setStack_qos (n : Nat) (v : Stack) (s : State) : (setStack n v s).qos = s.qos := rfl
@[simp] theorem setStack_stk (n : Nat) (v : Stack) (s : State) : (setStack n v s).stk = tset {} s.stk n v := rfl
@[simp] theorem setStack_chans (n : Nat) (v : Stack) (s : State) : (setStack n v s).chans = s.chans := rfl
@[simp] theorem setStack_pcs (n : Nat) (v : Stack) (s : State) : (setStack n v s).pcs = s.pcs := rfl
@[simp] theorem setStack_kettle (n : Nat) (v : Stack) (s : State) : (setStack n v s).kettle = s.kettle := rfl
@[simp] theorem setStack_kb (n : Nat) (v : Stack) (s : State) : (setStack n v s).kb = s.kb := rfl
@[simp] theorem setStack_power (n : Nat) (v : Stack) (s : State) : (setStack n v s).power = s.power := rfl
@[simp] theorem setStack_hub (n : Nat) (v : Stack) (s : State) : (setStack n v s).hub = s.hub := rfl
@[simp] theorem setStack_dies (n : Nat) (v : Stack) (s : State) : (setStack n v s).dies = s.dies := rfl
@[simp] theorem setStack_compute (n : Nat) (v : Stack) (s : State) : (setStack n v s).compute = s.compute := rfl
@[simp] theorem setStack_infusers (n : Nat) (v : Stack) (s : State) : (setStack n v s).infusers = s.infusers := rfl
@[simp] theorem setStack_peers (n : Nat) (v : Stack) (s : State) : (setStack n v s).peers = s.peers := rfl
@[simp] theorem setStack_twin (n : Nat) (v : Stack) (s : State) : (setStack n v s).twin = s.twin := rfl
@[simp] theorem setStack_tele (n : Nat) (v : Stack) (s : State) : (setStack n v s).tele = s.tele := rfl
@[simp] theorem setStack_late (n : Nat) (v : Stack) (s : State) : (setStack n v s).late = s.late := rfl
@[simp] theorem setStack_exers (n : Nat) (v : Stack) (s : State) : (setStack n v s).exers = s.exers := rfl
@[simp] theorem setStack_dbg (n : Nat) (v : Stack) (s : State) : (setStack n v s).dbg = s.dbg := rfl
@[simp] theorem setStack_doze (n : Nat) (v : Stack) (s : State) : (setStack n v s).doze = s.doze := rfl
@[simp] theorem setStack_refcode (n : Nat) (v : Stack) (s : State) : (setStack n v s).refcode = s.refcode := rfl
@[simp] theorem setStack_out (n : Nat) (v : Stack) (s : State) : (setStack n v s).out = s.out := rfl
@[simp] theorem setStack_freeCount (n : Nat) (v : Stack) (s : State) : (setStack n v s).freeCount = s.freeCount := rfl

/-! ## setChan -/

@[simp] theorem setChan_pending (n : Nat) (v : Chan) (s : State) : (setChan n v s).pending = s.pending := rfl
@[simp] theorem setChan_ident (n : Nat) (v : Chan) (s : State) : (setChan n v s).ident = s.ident := rfl
@[simp] theorem setChan_pins (n : Nat) (v : Chan) (s : State) : (setChan n v s).pins = s.pins := rfl
@[simp] theorem setChan_clock (n : Nat) (v : Chan) (s : State) : (setChan n v s).clock = s.clock := rfl
@[simp] theorem setChan_boot (n : Nat) (v : Chan) (s : State) : (setChan n v s).boot = s.boot := rfl
@[simp] theorem setChan_flash (n : Nat) (v : Chan) (s : State) : (setChan n v s).flash = s.flash := rfl
@[simp] theorem setChan_fns (n : Nat) (v : Chan) (s : State) : (setChan n v s).fns = s.fns := rfl
@[simp] theorem setChan_cmds (n : Nat) (v : Chan) (s : State) : (setChan n v s).cmds = s.cmds := rfl
@[simp] theorem setChan_cfg (n : Nat) (v : Chan) (s : State) : (setChan n v s).cfg = s.cfg := rfl
@[simp] theorem setChan_parts (n : Nat) (v : Chan) (s : State) : (setChan n v s).parts = s.parts := rfl
@[simp] theorem setChan_hbm (n : Nat) (v : Chan) (s : State) : (setChan n v s).hbm = s.hbm := rfl
@[simp] theorem setChan_pot (n : Nat) (v : Chan) (s : State) : (setChan n v s).pot = s.pot := rfl
@[simp] theorem setChan_path (n : Nat) (v : Chan) (s : State) : (setChan n v s).path = s.path := rfl
@[simp] theorem setChan_buckets (n : Nat) (v : Chan) (s : State) : (setChan n v s).buckets = s.buckets := rfl
@[simp] theorem setChan_qos (n : Nat) (v : Chan) (s : State) : (setChan n v s).qos = s.qos := rfl
@[simp] theorem setChan_stk (n : Nat) (v : Chan) (s : State) : (setChan n v s).stk = s.stk := rfl
@[simp] theorem setChan_chans (n : Nat) (v : Chan) (s : State) : (setChan n v s).chans = tset {} s.chans n v := rfl
@[simp] theorem setChan_pcs (n : Nat) (v : Chan) (s : State) : (setChan n v s).pcs = s.pcs := rfl
@[simp] theorem setChan_kettle (n : Nat) (v : Chan) (s : State) : (setChan n v s).kettle = s.kettle := rfl
@[simp] theorem setChan_kb (n : Nat) (v : Chan) (s : State) : (setChan n v s).kb = s.kb := rfl
@[simp] theorem setChan_power (n : Nat) (v : Chan) (s : State) : (setChan n v s).power = s.power := rfl
@[simp] theorem setChan_hub (n : Nat) (v : Chan) (s : State) : (setChan n v s).hub = s.hub := rfl
@[simp] theorem setChan_dies (n : Nat) (v : Chan) (s : State) : (setChan n v s).dies = s.dies := rfl
@[simp] theorem setChan_compute (n : Nat) (v : Chan) (s : State) : (setChan n v s).compute = s.compute := rfl
@[simp] theorem setChan_infusers (n : Nat) (v : Chan) (s : State) : (setChan n v s).infusers = s.infusers := rfl
@[simp] theorem setChan_peers (n : Nat) (v : Chan) (s : State) : (setChan n v s).peers = s.peers := rfl
@[simp] theorem setChan_twin (n : Nat) (v : Chan) (s : State) : (setChan n v s).twin = s.twin := rfl
@[simp] theorem setChan_tele (n : Nat) (v : Chan) (s : State) : (setChan n v s).tele = s.tele := rfl
@[simp] theorem setChan_late (n : Nat) (v : Chan) (s : State) : (setChan n v s).late = s.late := rfl
@[simp] theorem setChan_exers (n : Nat) (v : Chan) (s : State) : (setChan n v s).exers = s.exers := rfl
@[simp] theorem setChan_dbg (n : Nat) (v : Chan) (s : State) : (setChan n v s).dbg = s.dbg := rfl
@[simp] theorem setChan_doze (n : Nat) (v : Chan) (s : State) : (setChan n v s).doze = s.doze := rfl
@[simp] theorem setChan_refcode (n : Nat) (v : Chan) (s : State) : (setChan n v s).refcode = s.refcode := rfl
@[simp] theorem setChan_out (n : Nat) (v : Chan) (s : State) : (setChan n v s).out = s.out := rfl
@[simp] theorem setChan_freeCount (n : Nat) (v : Chan) (s : State) : (setChan n v s).freeCount = s.freeCount := rfl

/-! ## setPc -/

@[simp] theorem setPc_pending (n : Nat) (v : Pc) (s : State) : (setPc n v s).pending = s.pending := rfl
@[simp] theorem setPc_ident (n : Nat) (v : Pc) (s : State) : (setPc n v s).ident = s.ident := rfl
@[simp] theorem setPc_pins (n : Nat) (v : Pc) (s : State) : (setPc n v s).pins = s.pins := rfl
@[simp] theorem setPc_clock (n : Nat) (v : Pc) (s : State) : (setPc n v s).clock = s.clock := rfl
@[simp] theorem setPc_boot (n : Nat) (v : Pc) (s : State) : (setPc n v s).boot = s.boot := rfl
@[simp] theorem setPc_flash (n : Nat) (v : Pc) (s : State) : (setPc n v s).flash = s.flash := rfl
@[simp] theorem setPc_fns (n : Nat) (v : Pc) (s : State) : (setPc n v s).fns = s.fns := rfl
@[simp] theorem setPc_cmds (n : Nat) (v : Pc) (s : State) : (setPc n v s).cmds = s.cmds := rfl
@[simp] theorem setPc_cfg (n : Nat) (v : Pc) (s : State) : (setPc n v s).cfg = s.cfg := rfl
@[simp] theorem setPc_parts (n : Nat) (v : Pc) (s : State) : (setPc n v s).parts = s.parts := rfl
@[simp] theorem setPc_hbm (n : Nat) (v : Pc) (s : State) : (setPc n v s).hbm = s.hbm := rfl
@[simp] theorem setPc_pot (n : Nat) (v : Pc) (s : State) : (setPc n v s).pot = s.pot := rfl
@[simp] theorem setPc_path (n : Nat) (v : Pc) (s : State) : (setPc n v s).path = s.path := rfl
@[simp] theorem setPc_buckets (n : Nat) (v : Pc) (s : State) : (setPc n v s).buckets = s.buckets := rfl
@[simp] theorem setPc_qos (n : Nat) (v : Pc) (s : State) : (setPc n v s).qos = s.qos := rfl
@[simp] theorem setPc_stk (n : Nat) (v : Pc) (s : State) : (setPc n v s).stk = s.stk := rfl
@[simp] theorem setPc_chans (n : Nat) (v : Pc) (s : State) : (setPc n v s).chans = s.chans := rfl
@[simp] theorem setPc_pcs (n : Nat) (v : Pc) (s : State) : (setPc n v s).pcs = tset {} s.pcs n v := rfl
@[simp] theorem setPc_kettle (n : Nat) (v : Pc) (s : State) : (setPc n v s).kettle = s.kettle := rfl
@[simp] theorem setPc_kb (n : Nat) (v : Pc) (s : State) : (setPc n v s).kb = s.kb := rfl
@[simp] theorem setPc_power (n : Nat) (v : Pc) (s : State) : (setPc n v s).power = s.power := rfl
@[simp] theorem setPc_hub (n : Nat) (v : Pc) (s : State) : (setPc n v s).hub = s.hub := rfl
@[simp] theorem setPc_dies (n : Nat) (v : Pc) (s : State) : (setPc n v s).dies = s.dies := rfl
@[simp] theorem setPc_compute (n : Nat) (v : Pc) (s : State) : (setPc n v s).compute = s.compute := rfl
@[simp] theorem setPc_infusers (n : Nat) (v : Pc) (s : State) : (setPc n v s).infusers = s.infusers := rfl
@[simp] theorem setPc_peers (n : Nat) (v : Pc) (s : State) : (setPc n v s).peers = s.peers := rfl
@[simp] theorem setPc_twin (n : Nat) (v : Pc) (s : State) : (setPc n v s).twin = s.twin := rfl
@[simp] theorem setPc_tele (n : Nat) (v : Pc) (s : State) : (setPc n v s).tele = s.tele := rfl
@[simp] theorem setPc_late (n : Nat) (v : Pc) (s : State) : (setPc n v s).late = s.late := rfl
@[simp] theorem setPc_exers (n : Nat) (v : Pc) (s : State) : (setPc n v s).exers = s.exers := rfl
@[simp] theorem setPc_dbg (n : Nat) (v : Pc) (s : State) : (setPc n v s).dbg = s.dbg := rfl
@[simp] theorem setPc_doze (n : Nat) (v : Pc) (s : State) : (setPc n v s).doze = s.doze := rfl
@[simp] theorem setPc_refcode (n : Nat) (v : Pc) (s : State) : (setPc n v s).refcode = s.refcode := rfl
@[simp] theorem setPc_out (n : Nat) (v : Pc) (s : State) : (setPc n v s).out = s.out := rfl
@[simp] theorem setPc_freeCount (n : Nat) (v : Pc) (s : State) : (setPc n v s).freeCount = s.freeCount := rfl

/-! ## setPart -/

@[simp] theorem setPart_pending (t : Nat) (v : Part) (s : State) : (setPart t v s).pending = s.pending := rfl
@[simp] theorem setPart_ident (t : Nat) (v : Part) (s : State) : (setPart t v s).ident = s.ident := rfl
@[simp] theorem setPart_pins (t : Nat) (v : Part) (s : State) : (setPart t v s).pins = s.pins := rfl
@[simp] theorem setPart_clock (t : Nat) (v : Part) (s : State) : (setPart t v s).clock = s.clock := rfl
@[simp] theorem setPart_boot (t : Nat) (v : Part) (s : State) : (setPart t v s).boot = s.boot := rfl
@[simp] theorem setPart_flash (t : Nat) (v : Part) (s : State) : (setPart t v s).flash = s.flash := rfl
@[simp] theorem setPart_fns (t : Nat) (v : Part) (s : State) : (setPart t v s).fns = s.fns := rfl
@[simp] theorem setPart_cmds (t : Nat) (v : Part) (s : State) : (setPart t v s).cmds = s.cmds := rfl
@[simp] theorem setPart_cfg (t : Nat) (v : Part) (s : State) : (setPart t v s).cfg = s.cfg := rfl
@[simp] theorem setPart_parts (t : Nat) (v : Part) (s : State) : (setPart t v s).parts = tset {} s.parts t v := rfl
@[simp] theorem setPart_hbm (t : Nat) (v : Part) (s : State) : (setPart t v s).hbm = s.hbm := rfl
@[simp] theorem setPart_pot (t : Nat) (v : Part) (s : State) : (setPart t v s).pot = s.pot := rfl
@[simp] theorem setPart_path (t : Nat) (v : Part) (s : State) : (setPart t v s).path = s.path := rfl
@[simp] theorem setPart_buckets (t : Nat) (v : Part) (s : State) : (setPart t v s).buckets = s.buckets := rfl
@[simp] theorem setPart_qos (t : Nat) (v : Part) (s : State) : (setPart t v s).qos = s.qos := rfl
@[simp] theorem setPart_stk (t : Nat) (v : Part) (s : State) : (setPart t v s).stk = s.stk := rfl
@[simp] theorem setPart_chans (t : Nat) (v : Part) (s : State) : (setPart t v s).chans = s.chans := rfl
@[simp] theorem setPart_pcs (t : Nat) (v : Part) (s : State) : (setPart t v s).pcs = s.pcs := rfl
@[simp] theorem setPart_kettle (t : Nat) (v : Part) (s : State) : (setPart t v s).kettle = s.kettle := rfl
@[simp] theorem setPart_kb (t : Nat) (v : Part) (s : State) : (setPart t v s).kb = s.kb := rfl
@[simp] theorem setPart_power (t : Nat) (v : Part) (s : State) : (setPart t v s).power = s.power := rfl
@[simp] theorem setPart_hub (t : Nat) (v : Part) (s : State) : (setPart t v s).hub = s.hub := rfl
@[simp] theorem setPart_dies (t : Nat) (v : Part) (s : State) : (setPart t v s).dies = s.dies := rfl
@[simp] theorem setPart_compute (t : Nat) (v : Part) (s : State) : (setPart t v s).compute = s.compute := rfl
@[simp] theorem setPart_infusers (t : Nat) (v : Part) (s : State) : (setPart t v s).infusers = s.infusers := rfl
@[simp] theorem setPart_peers (t : Nat) (v : Part) (s : State) : (setPart t v s).peers = s.peers := rfl
@[simp] theorem setPart_twin (t : Nat) (v : Part) (s : State) : (setPart t v s).twin = s.twin := rfl
@[simp] theorem setPart_tele (t : Nat) (v : Part) (s : State) : (setPart t v s).tele = s.tele := rfl
@[simp] theorem setPart_late (t : Nat) (v : Part) (s : State) : (setPart t v s).late = s.late := rfl
@[simp] theorem setPart_exers (t : Nat) (v : Part) (s : State) : (setPart t v s).exers = s.exers := rfl
@[simp] theorem setPart_dbg (t : Nat) (v : Part) (s : State) : (setPart t v s).dbg = s.dbg := rfl
@[simp] theorem setPart_doze (t : Nat) (v : Part) (s : State) : (setPart t v s).doze = s.doze := rfl
@[simp] theorem setPart_refcode (t : Nat) (v : Part) (s : State) : (setPart t v s).refcode = s.refcode := rfl
@[simp] theorem setPart_out (t : Nat) (v : Part) (s : State) : (setPart t v s).out = s.out := rfl
@[simp] theorem setPart_freeCount (t : Nat) (v : Part) (s : State) : (setPart t v s).freeCount = s.freeCount := rfl

/-! ## setDie -/

@[simp] theorem setDie_pending (n : Nat) (v : Die) (s : State) : (setDie n v s).pending = s.pending := rfl
@[simp] theorem setDie_ident (n : Nat) (v : Die) (s : State) : (setDie n v s).ident = s.ident := rfl
@[simp] theorem setDie_pins (n : Nat) (v : Die) (s : State) : (setDie n v s).pins = s.pins := rfl
@[simp] theorem setDie_clock (n : Nat) (v : Die) (s : State) : (setDie n v s).clock = s.clock := rfl
@[simp] theorem setDie_boot (n : Nat) (v : Die) (s : State) : (setDie n v s).boot = s.boot := rfl
@[simp] theorem setDie_flash (n : Nat) (v : Die) (s : State) : (setDie n v s).flash = s.flash := rfl
@[simp] theorem setDie_fns (n : Nat) (v : Die) (s : State) : (setDie n v s).fns = s.fns := rfl
@[simp] theorem setDie_cmds (n : Nat) (v : Die) (s : State) : (setDie n v s).cmds = s.cmds := rfl
@[simp] theorem setDie_cfg (n : Nat) (v : Die) (s : State) : (setDie n v s).cfg = s.cfg := rfl
@[simp] theorem setDie_parts (n : Nat) (v : Die) (s : State) : (setDie n v s).parts = s.parts := rfl
@[simp] theorem setDie_hbm (n : Nat) (v : Die) (s : State) : (setDie n v s).hbm = s.hbm := rfl
@[simp] theorem setDie_pot (n : Nat) (v : Die) (s : State) : (setDie n v s).pot = s.pot := rfl
@[simp] theorem setDie_path (n : Nat) (v : Die) (s : State) : (setDie n v s).path = s.path := rfl
@[simp] theorem setDie_buckets (n : Nat) (v : Die) (s : State) : (setDie n v s).buckets = s.buckets := rfl
@[simp] theorem setDie_qos (n : Nat) (v : Die) (s : State) : (setDie n v s).qos = s.qos := rfl
@[simp] theorem setDie_stk (n : Nat) (v : Die) (s : State) : (setDie n v s).stk = s.stk := rfl
@[simp] theorem setDie_chans (n : Nat) (v : Die) (s : State) : (setDie n v s).chans = s.chans := rfl
@[simp] theorem setDie_pcs (n : Nat) (v : Die) (s : State) : (setDie n v s).pcs = s.pcs := rfl
@[simp] theorem setDie_kettle (n : Nat) (v : Die) (s : State) : (setDie n v s).kettle = s.kettle := rfl
@[simp] theorem setDie_kb (n : Nat) (v : Die) (s : State) : (setDie n v s).kb = s.kb := rfl
@[simp] theorem setDie_power (n : Nat) (v : Die) (s : State) : (setDie n v s).power = s.power := rfl
@[simp] theorem setDie_hub (n : Nat) (v : Die) (s : State) : (setDie n v s).hub = s.hub := rfl
@[simp] theorem setDie_dies (n : Nat) (v : Die) (s : State) : (setDie n v s).dies = tset {} s.dies n v := rfl
@[simp] theorem setDie_compute (n : Nat) (v : Die) (s : State) : (setDie n v s).compute = s.compute := rfl
@[simp] theorem setDie_infusers (n : Nat) (v : Die) (s : State) : (setDie n v s).infusers = s.infusers := rfl
@[simp] theorem setDie_peers (n : Nat) (v : Die) (s : State) : (setDie n v s).peers = s.peers := rfl
@[simp] theorem setDie_twin (n : Nat) (v : Die) (s : State) : (setDie n v s).twin = s.twin := rfl
@[simp] theorem setDie_tele (n : Nat) (v : Die) (s : State) : (setDie n v s).tele = s.tele := rfl
@[simp] theorem setDie_late (n : Nat) (v : Die) (s : State) : (setDie n v s).late = s.late := rfl
@[simp] theorem setDie_exers (n : Nat) (v : Die) (s : State) : (setDie n v s).exers = s.exers := rfl
@[simp] theorem setDie_dbg (n : Nat) (v : Die) (s : State) : (setDie n v s).dbg = s.dbg := rfl
@[simp] theorem setDie_doze (n : Nat) (v : Die) (s : State) : (setDie n v s).doze = s.doze := rfl
@[simp] theorem setDie_refcode (n : Nat) (v : Die) (s : State) : (setDie n v s).refcode = s.refcode := rfl
@[simp] theorem setDie_out (n : Nat) (v : Die) (s : State) : (setDie n v s).out = s.out := rfl
@[simp] theorem setDie_freeCount (n : Nat) (v : Die) (s : State) : (setDie n v s).freeCount = s.freeCount := rfl

/-! ## setList -/

@[simp] theorem setList_pending (h : Nat) (v : BrewList) (s : State) : (setList h v s).pending = s.pending := rfl
@[simp] theorem setList_ident (h : Nat) (v : BrewList) (s : State) : (setList h v s).ident = s.ident := rfl
@[simp] theorem setList_pins (h : Nat) (v : BrewList) (s : State) : (setList h v s).pins = s.pins := rfl
@[simp] theorem setList_clock (h : Nat) (v : BrewList) (s : State) : (setList h v s).clock = s.clock := rfl
@[simp] theorem setList_boot (h : Nat) (v : BrewList) (s : State) : (setList h v s).boot = s.boot := rfl
@[simp] theorem setList_flash (h : Nat) (v : BrewList) (s : State) : (setList h v s).flash = s.flash := rfl
@[simp] theorem setList_fns (h : Nat) (v : BrewList) (s : State) : (setList h v s).fns = s.fns := rfl
@[simp] theorem setList_cmds (h : Nat) (v : BrewList) (s : State) : (setList h v s).cmds = s.cmds := rfl
@[simp] theorem setList_cfg (h : Nat) (v : BrewList) (s : State) : (setList h v s).cfg = s.cfg := rfl
@[simp] theorem setList_parts (h : Nat) (v : BrewList) (s : State) : (setList h v s).parts = s.parts := rfl
@[simp] theorem setList_hbm (h : Nat) (v : BrewList) (s : State) : (setList h v s).hbm = s.hbm := rfl
@[simp] theorem setList_pot (h : Nat) (v : BrewList) (s : State) : (setList h v s).pot = s.pot := rfl
@[simp] theorem setList_path (h : Nat) (v : BrewList) (s : State) : (setList h v s).path = s.path := rfl
@[simp] theorem setList_buckets (h : Nat) (v : BrewList) (s : State) : (setList h v s).buckets = s.buckets := rfl
@[simp] theorem setList_qos (h : Nat) (v : BrewList) (s : State) : (setList h v s).qos = s.qos := rfl
@[simp] theorem setList_stk (h : Nat) (v : BrewList) (s : State) : (setList h v s).stk = s.stk := rfl
@[simp] theorem setList_chans (h : Nat) (v : BrewList) (s : State) : (setList h v s).chans = s.chans := rfl
@[simp] theorem setList_pcs (h : Nat) (v : BrewList) (s : State) : (setList h v s).pcs = s.pcs := rfl
@[simp] theorem setList_kettle (h : Nat) (v : BrewList) (s : State) : (setList h v s).kettle = s.kettle := rfl
@[simp] theorem setList_kb (h : Nat) (v : BrewList) (s : State) : (setList h v s).kb = s.kb := rfl
@[simp] theorem setList_power (h : Nat) (v : BrewList) (s : State) : (setList h v s).power = s.power := rfl
@[simp] theorem setList_hub (h : Nat) (v : BrewList) (s : State) : (setList h v s).hub = s.hub := rfl
@[simp] theorem setList_dies (h : Nat) (v : BrewList) (s : State) : (setList h v s).dies = s.dies := rfl
@[simp] theorem setList_compute (h : Nat) (v : BrewList) (s : State) : (setList h v s).compute = { s.compute with lists := tput s.compute.lists h v } := rfl
@[simp] theorem setList_infusers (h : Nat) (v : BrewList) (s : State) : (setList h v s).infusers = s.infusers := rfl
@[simp] theorem setList_peers (h : Nat) (v : BrewList) (s : State) : (setList h v s).peers = s.peers := rfl
@[simp] theorem setList_twin (h : Nat) (v : BrewList) (s : State) : (setList h v s).twin = s.twin := rfl
@[simp] theorem setList_tele (h : Nat) (v : BrewList) (s : State) : (setList h v s).tele = s.tele := rfl
@[simp] theorem setList_late (h : Nat) (v : BrewList) (s : State) : (setList h v s).late = s.late := rfl
@[simp] theorem setList_exers (h : Nat) (v : BrewList) (s : State) : (setList h v s).exers = s.exers := rfl
@[simp] theorem setList_dbg (h : Nat) (v : BrewList) (s : State) : (setList h v s).dbg = s.dbg := rfl
@[simp] theorem setList_doze (h : Nat) (v : BrewList) (s : State) : (setList h v s).doze = s.doze := rfl
@[simp] theorem setList_refcode (h : Nat) (v : BrewList) (s : State) : (setList h v s).refcode = s.refcode := rfl
@[simp] theorem setList_out (h : Nat) (v : BrewList) (s : State) : (setList h v s).out = s.out := rfl
@[simp] theorem setList_freeCount (h : Nat) (v : BrewList) (s : State) : (setList h v s).freeCount = s.freeCount := rfl

/-! ## dropList -/

@[simp] theorem dropList_pending (h : Nat) (s : State) : (dropList h s).pending = s.pending := rfl
@[simp] theorem dropList_ident (h : Nat) (s : State) : (dropList h s).ident = s.ident := rfl
@[simp] theorem dropList_pins (h : Nat) (s : State) : (dropList h s).pins = s.pins := rfl
@[simp] theorem dropList_clock (h : Nat) (s : State) : (dropList h s).clock = s.clock := rfl
@[simp] theorem dropList_boot (h : Nat) (s : State) : (dropList h s).boot = s.boot := rfl
@[simp] theorem dropList_flash (h : Nat) (s : State) : (dropList h s).flash = s.flash := rfl
@[simp] theorem dropList_fns (h : Nat) (s : State) : (dropList h s).fns = s.fns := rfl
@[simp] theorem dropList_cmds (h : Nat) (s : State) : (dropList h s).cmds = s.cmds := rfl
@[simp] theorem dropList_cfg (h : Nat) (s : State) : (dropList h s).cfg = s.cfg := rfl
@[simp] theorem dropList_parts (h : Nat) (s : State) : (dropList h s).parts = s.parts := rfl
@[simp] theorem dropList_hbm (h : Nat) (s : State) : (dropList h s).hbm = s.hbm := rfl
@[simp] theorem dropList_pot (h : Nat) (s : State) : (dropList h s).pot = s.pot := rfl
@[simp] theorem dropList_path (h : Nat) (s : State) : (dropList h s).path = s.path := rfl
@[simp] theorem dropList_buckets (h : Nat) (s : State) : (dropList h s).buckets = s.buckets := rfl
@[simp] theorem dropList_qos (h : Nat) (s : State) : (dropList h s).qos = s.qos := rfl
@[simp] theorem dropList_stk (h : Nat) (s : State) : (dropList h s).stk = s.stk := rfl
@[simp] theorem dropList_chans (h : Nat) (s : State) : (dropList h s).chans = s.chans := rfl
@[simp] theorem dropList_pcs (h : Nat) (s : State) : (dropList h s).pcs = s.pcs := rfl
@[simp] theorem dropList_kettle (h : Nat) (s : State) : (dropList h s).kettle = s.kettle := rfl
@[simp] theorem dropList_kb (h : Nat) (s : State) : (dropList h s).kb = s.kb := rfl
@[simp] theorem dropList_power (h : Nat) (s : State) : (dropList h s).power = s.power := rfl
@[simp] theorem dropList_hub (h : Nat) (s : State) : (dropList h s).hub = s.hub := rfl
@[simp] theorem dropList_dies (h : Nat) (s : State) : (dropList h s).dies = s.dies := rfl
@[simp] theorem dropList_compute (h : Nat) (s : State) : (dropList h s).compute = { s.compute with lists := terase s.compute.lists h } := rfl
@[simp] theorem dropList_infusers (h : Nat) (s : State) : (dropList h s).infusers = s.infusers := rfl
@[simp] theorem dropList_peers (h : Nat) (s : State) : (dropList h s).peers = s.peers := rfl
@[simp] theorem dropList_twin (h : Nat) (s : State) : (dropList h s).twin = s.twin := rfl
@[simp] theorem dropList_tele (h : Nat) (s : State) : (dropList h s).tele = s.tele := rfl
@[simp] theorem dropList_late (h : Nat) (s : State) : (dropList h s).late = s.late := rfl
@[simp] theorem dropList_exers (h : Nat) (s : State) : (dropList h s).exers = s.exers := rfl
@[simp] theorem dropList_dbg (h : Nat) (s : State) : (dropList h s).dbg = s.dbg := rfl
@[simp] theorem dropList_doze (h : Nat) (s : State) : (dropList h s).doze = s.doze := rfl
@[simp] theorem dropList_refcode (h : Nat) (s : State) : (dropList h s).refcode = s.refcode := rfl
@[simp] theorem dropList_out (h : Nat) (s : State) : (dropList h s).out = s.out := rfl
@[simp] theorem dropList_freeCount (h : Nat) (s : State) : (dropList h s).freeCount = s.freeCount := rfl

/-! ## setTile -/

@[simp] theorem setTile_pending (t : Nat) (v : Tile) (s : State) : (setTile t v s).pending = s.pending := rfl
@[simp] theorem setTile_ident (t : Nat) (v : Tile) (s : State) : (setTile t v s).ident = s.ident := rfl
@[simp] theorem setTile_pins (t : Nat) (v : Tile) (s : State) : (setTile t v s).pins = s.pins := rfl
@[simp] theorem setTile_clock (t : Nat) (v : Tile) (s : State) : (setTile t v s).clock = s.clock := rfl
@[simp] theorem setTile_boot (t : Nat) (v : Tile) (s : State) : (setTile t v s).boot = s.boot := rfl
@[simp] theorem setTile_flash (t : Nat) (v : Tile) (s : State) : (setTile t v s).flash = s.flash := rfl
@[simp] theorem setTile_fns (t : Nat) (v : Tile) (s : State) : (setTile t v s).fns = s.fns := rfl
@[simp] theorem setTile_cmds (t : Nat) (v : Tile) (s : State) : (setTile t v s).cmds = s.cmds := rfl
@[simp] theorem setTile_cfg (t : Nat) (v : Tile) (s : State) : (setTile t v s).cfg = s.cfg := rfl
@[simp] theorem setTile_parts (t : Nat) (v : Tile) (s : State) : (setTile t v s).parts = s.parts := rfl
@[simp] theorem setTile_hbm (t : Nat) (v : Tile) (s : State) : (setTile t v s).hbm = s.hbm := rfl
@[simp] theorem setTile_pot (t : Nat) (v : Tile) (s : State) : (setTile t v s).pot = s.pot := rfl
@[simp] theorem setTile_path (t : Nat) (v : Tile) (s : State) : (setTile t v s).path = s.path := rfl
@[simp] theorem setTile_buckets (t : Nat) (v : Tile) (s : State) : (setTile t v s).buckets = s.buckets := rfl
@[simp] theorem setTile_qos (t : Nat) (v : Tile) (s : State) : (setTile t v s).qos = s.qos := rfl
@[simp] theorem setTile_stk (t : Nat) (v : Tile) (s : State) : (setTile t v s).stk = s.stk := rfl
@[simp] theorem setTile_chans (t : Nat) (v : Tile) (s : State) : (setTile t v s).chans = s.chans := rfl
@[simp] theorem setTile_pcs (t : Nat) (v : Tile) (s : State) : (setTile t v s).pcs = s.pcs := rfl
@[simp] theorem setTile_kettle (t : Nat) (v : Tile) (s : State) : (setTile t v s).kettle = s.kettle := rfl
@[simp] theorem setTile_kb (t : Nat) (v : Tile) (s : State) : (setTile t v s).kb = s.kb := rfl
@[simp] theorem setTile_power (t : Nat) (v : Tile) (s : State) : (setTile t v s).power = s.power := rfl
@[simp] theorem setTile_hub (t : Nat) (v : Tile) (s : State) : (setTile t v s).hub = s.hub := rfl
@[simp] theorem setTile_dies (t : Nat) (v : Tile) (s : State) : (setTile t v s).dies = s.dies := rfl
@[simp] theorem setTile_compute (t : Nat) (v : Tile) (s : State) : (setTile t v s).compute = { s.compute with tiles := tset {} s.compute.tiles t v } := rfl
@[simp] theorem setTile_infusers (t : Nat) (v : Tile) (s : State) : (setTile t v s).infusers = s.infusers := rfl
@[simp] theorem setTile_peers (t : Nat) (v : Tile) (s : State) : (setTile t v s).peers = s.peers := rfl
@[simp] theorem setTile_twin (t : Nat) (v : Tile) (s : State) : (setTile t v s).twin = s.twin := rfl
@[simp] theorem setTile_tele (t : Nat) (v : Tile) (s : State) : (setTile t v s).tele = s.tele := rfl
@[simp] theorem setTile_late (t : Nat) (v : Tile) (s : State) : (setTile t v s).late = s.late := rfl
@[simp] theorem setTile_exers (t : Nat) (v : Tile) (s : State) : (setTile t v s).exers = s.exers := rfl
@[simp] theorem setTile_dbg (t : Nat) (v : Tile) (s : State) : (setTile t v s).dbg = s.dbg := rfl
@[simp] theorem setTile_doze (t : Nat) (v : Tile) (s : State) : (setTile t v s).doze = s.doze := rfl
@[simp] theorem setTile_refcode (t : Nat) (v : Tile) (s : State) : (setTile t v s).refcode = s.refcode := rfl
@[simp] theorem setTile_out (t : Nat) (v : Tile) (s : State) : (setTile t v s).out = s.out := rfl
@[simp] theorem setTile_freeCount (t : Nat) (v : Tile) (s : State) : (setTile t v s).freeCount = s.freeCount := rfl

/-! ## setInfuser -/

@[simp] theorem setInfuser_pending (n : Nat) (v : Infuser) (s : State) : (setInfuser n v s).pending = s.pending := rfl
@[simp] theorem setInfuser_ident (n : Nat) (v : Infuser) (s : State) : (setInfuser n v s).ident = s.ident := rfl
@[simp] theorem setInfuser_pins (n : Nat) (v : Infuser) (s : State) : (setInfuser n v s).pins = s.pins := rfl
@[simp] theorem setInfuser_clock (n : Nat) (v : Infuser) (s : State) : (setInfuser n v s).clock = s.clock := rfl
@[simp] theorem setInfuser_boot (n : Nat) (v : Infuser) (s : State) : (setInfuser n v s).boot = s.boot := rfl
@[simp] theorem setInfuser_flash (n : Nat) (v : Infuser) (s : State) : (setInfuser n v s).flash = s.flash := rfl
@[simp] theorem setInfuser_fns (n : Nat) (v : Infuser) (s : State) : (setInfuser n v s).fns = s.fns := rfl
@[simp] theorem setInfuser_cmds (n : Nat) (v : Infuser) (s : State) : (setInfuser n v s).cmds = s.cmds := rfl
@[simp] theorem setInfuser_cfg (n : Nat) (v : Infuser) (s : State) : (setInfuser n v s).cfg = s.cfg := rfl
@[simp] theorem setInfuser_parts (n : Nat) (v : Infuser) (s : State) : (setInfuser n v s).parts = s.parts := rfl
@[simp] theorem setInfuser_hbm (n : Nat) (v : Infuser) (s : State) : (setInfuser n v s).hbm = s.hbm := rfl
@[simp] theorem setInfuser_pot (n : Nat) (v : Infuser) (s : State) : (setInfuser n v s).pot = s.pot := rfl
@[simp] theorem setInfuser_path (n : Nat) (v : Infuser) (s : State) : (setInfuser n v s).path = s.path := rfl
@[simp] theorem setInfuser_buckets (n : Nat) (v : Infuser) (s : State) : (setInfuser n v s).buckets = s.buckets := rfl
@[simp] theorem setInfuser_qos (n : Nat) (v : Infuser) (s : State) : (setInfuser n v s).qos = s.qos := rfl
@[simp] theorem setInfuser_stk (n : Nat) (v : Infuser) (s : State) : (setInfuser n v s).stk = s.stk := rfl
@[simp] theorem setInfuser_chans (n : Nat) (v : Infuser) (s : State) : (setInfuser n v s).chans = s.chans := rfl
@[simp] theorem setInfuser_pcs (n : Nat) (v : Infuser) (s : State) : (setInfuser n v s).pcs = s.pcs := rfl
@[simp] theorem setInfuser_kettle (n : Nat) (v : Infuser) (s : State) : (setInfuser n v s).kettle = s.kettle := rfl
@[simp] theorem setInfuser_kb (n : Nat) (v : Infuser) (s : State) : (setInfuser n v s).kb = s.kb := rfl
@[simp] theorem setInfuser_power (n : Nat) (v : Infuser) (s : State) : (setInfuser n v s).power = s.power := rfl
@[simp] theorem setInfuser_hub (n : Nat) (v : Infuser) (s : State) : (setInfuser n v s).hub = s.hub := rfl
@[simp] theorem setInfuser_dies (n : Nat) (v : Infuser) (s : State) : (setInfuser n v s).dies = s.dies := rfl
@[simp] theorem setInfuser_compute (n : Nat) (v : Infuser) (s : State) : (setInfuser n v s).compute = s.compute := rfl
@[simp] theorem setInfuser_infusers (n : Nat) (v : Infuser) (s : State) : (setInfuser n v s).infusers = tset {} s.infusers n v := rfl
@[simp] theorem setInfuser_peers (n : Nat) (v : Infuser) (s : State) : (setInfuser n v s).peers = s.peers := rfl
@[simp] theorem setInfuser_twin (n : Nat) (v : Infuser) (s : State) : (setInfuser n v s).twin = s.twin := rfl
@[simp] theorem setInfuser_tele (n : Nat) (v : Infuser) (s : State) : (setInfuser n v s).tele = s.tele := rfl
@[simp] theorem setInfuser_late (n : Nat) (v : Infuser) (s : State) : (setInfuser n v s).late = s.late := rfl
@[simp] theorem setInfuser_exers (n : Nat) (v : Infuser) (s : State) : (setInfuser n v s).exers = s.exers := rfl
@[simp] theorem setInfuser_dbg (n : Nat) (v : Infuser) (s : State) : (setInfuser n v s).dbg = s.dbg := rfl
@[simp] theorem setInfuser_doze (n : Nat) (v : Infuser) (s : State) : (setInfuser n v s).doze = s.doze := rfl
@[simp] theorem setInfuser_refcode (n : Nat) (v : Infuser) (s : State) : (setInfuser n v s).refcode = s.refcode := rfl
@[simp] theorem setInfuser_out (n : Nat) (v : Infuser) (s : State) : (setInfuser n v s).out = s.out := rfl
@[simp] theorem setInfuser_freeCount (n : Nat) (v : Infuser) (s : State) : (setInfuser n v s).freeCount = s.freeCount := rfl

/-! ## setPort -/

@[simp] theorem setPort_pending (k : Nat) (v : Port) (s : State) : (setPort k v s).pending = s.pending := rfl
@[simp] theorem setPort_ident (k : Nat) (v : Port) (s : State) : (setPort k v s).ident = s.ident := rfl
@[simp] theorem setPort_pins (k : Nat) (v : Port) (s : State) : (setPort k v s).pins = s.pins := rfl
@[simp] theorem setPort_clock (k : Nat) (v : Port) (s : State) : (setPort k v s).clock = s.clock := rfl
@[simp] theorem setPort_boot (k : Nat) (v : Port) (s : State) : (setPort k v s).boot = s.boot := rfl
@[simp] theorem setPort_flash (k : Nat) (v : Port) (s : State) : (setPort k v s).flash = s.flash := rfl
@[simp] theorem setPort_fns (k : Nat) (v : Port) (s : State) : (setPort k v s).fns = s.fns := rfl
@[simp] theorem setPort_cmds (k : Nat) (v : Port) (s : State) : (setPort k v s).cmds = s.cmds := rfl
@[simp] theorem setPort_cfg (k : Nat) (v : Port) (s : State) : (setPort k v s).cfg = s.cfg := rfl
@[simp] theorem setPort_parts (k : Nat) (v : Port) (s : State) : (setPort k v s).parts = s.parts := rfl
@[simp] theorem setPort_hbm (k : Nat) (v : Port) (s : State) : (setPort k v s).hbm = s.hbm := rfl
@[simp] theorem setPort_pot (k : Nat) (v : Port) (s : State) : (setPort k v s).pot = s.pot := rfl
@[simp] theorem setPort_path (k : Nat) (v : Port) (s : State) : (setPort k v s).path = s.path := rfl
@[simp] theorem setPort_buckets (k : Nat) (v : Port) (s : State) : (setPort k v s).buckets = s.buckets := rfl
@[simp] theorem setPort_qos (k : Nat) (v : Port) (s : State) : (setPort k v s).qos = s.qos := rfl
@[simp] theorem setPort_stk (k : Nat) (v : Port) (s : State) : (setPort k v s).stk = s.stk := rfl
@[simp] theorem setPort_chans (k : Nat) (v : Port) (s : State) : (setPort k v s).chans = s.chans := rfl
@[simp] theorem setPort_pcs (k : Nat) (v : Port) (s : State) : (setPort k v s).pcs = s.pcs := rfl
@[simp] theorem setPort_kettle (k : Nat) (v : Port) (s : State) : (setPort k v s).kettle = s.kettle := rfl
@[simp] theorem setPort_kb (k : Nat) (v : Port) (s : State) : (setPort k v s).kb = s.kb := rfl
@[simp] theorem setPort_power (k : Nat) (v : Port) (s : State) : (setPort k v s).power = s.power := rfl
@[simp] theorem setPort_hub (k : Nat) (v : Port) (s : State) : (setPort k v s).hub = s.hub := rfl
@[simp] theorem setPort_dies (k : Nat) (v : Port) (s : State) : (setPort k v s).dies = s.dies := rfl
@[simp] theorem setPort_compute (k : Nat) (v : Port) (s : State) : (setPort k v s).compute = s.compute := rfl
@[simp] theorem setPort_infusers (k : Nat) (v : Port) (s : State) : (setPort k v s).infusers = s.infusers := rfl
@[simp] theorem setPort_peers (k : Nat) (v : Port) (s : State) : (setPort k v s).peers = { s.peers with ports := tset {} s.peers.ports k v } := rfl
@[simp] theorem setPort_twin (k : Nat) (v : Port) (s : State) : (setPort k v s).twin = s.twin := rfl
@[simp] theorem setPort_tele (k : Nat) (v : Port) (s : State) : (setPort k v s).tele = s.tele := rfl
@[simp] theorem setPort_late (k : Nat) (v : Port) (s : State) : (setPort k v s).late = s.late := rfl
@[simp] theorem setPort_exers (k : Nat) (v : Port) (s : State) : (setPort k v s).exers = s.exers := rfl
@[simp] theorem setPort_dbg (k : Nat) (v : Port) (s : State) : (setPort k v s).dbg = s.dbg := rfl
@[simp] theorem setPort_doze (k : Nat) (v : Port) (s : State) : (setPort k v s).doze = s.doze := rfl
@[simp] theorem setPort_refcode (k : Nat) (v : Port) (s : State) : (setPort k v s).refcode = s.refcode := rfl
@[simp] theorem setPort_out (k : Nat) (v : Port) (s : State) : (setPort k v s).out = s.out := rfl
@[simp] theorem setPort_freeCount (k : Nat) (v : Port) (s : State) : (setPort k v s).freeCount = s.freeCount := rfl

/-! ## setConn -/

@[simp] theorem setConn_pending (k c : Nat) (v : Conn) (s : State) : (setConn k c v s).pending = s.pending := rfl
@[simp] theorem setConn_ident (k c : Nat) (v : Conn) (s : State) : (setConn k c v s).ident = s.ident := rfl
@[simp] theorem setConn_pins (k c : Nat) (v : Conn) (s : State) : (setConn k c v s).pins = s.pins := rfl
@[simp] theorem setConn_clock (k c : Nat) (v : Conn) (s : State) : (setConn k c v s).clock = s.clock := rfl
@[simp] theorem setConn_boot (k c : Nat) (v : Conn) (s : State) : (setConn k c v s).boot = s.boot := rfl
@[simp] theorem setConn_flash (k c : Nat) (v : Conn) (s : State) : (setConn k c v s).flash = s.flash := rfl
@[simp] theorem setConn_fns (k c : Nat) (v : Conn) (s : State) : (setConn k c v s).fns = s.fns := rfl
@[simp] theorem setConn_cmds (k c : Nat) (v : Conn) (s : State) : (setConn k c v s).cmds = s.cmds := rfl
@[simp] theorem setConn_cfg (k c : Nat) (v : Conn) (s : State) : (setConn k c v s).cfg = s.cfg := rfl
@[simp] theorem setConn_parts (k c : Nat) (v : Conn) (s : State) : (setConn k c v s).parts = s.parts := rfl
@[simp] theorem setConn_hbm (k c : Nat) (v : Conn) (s : State) : (setConn k c v s).hbm = s.hbm := rfl
@[simp] theorem setConn_pot (k c : Nat) (v : Conn) (s : State) : (setConn k c v s).pot = s.pot := rfl
@[simp] theorem setConn_path (k c : Nat) (v : Conn) (s : State) : (setConn k c v s).path = s.path := rfl
@[simp] theorem setConn_buckets (k c : Nat) (v : Conn) (s : State) : (setConn k c v s).buckets = s.buckets := rfl
@[simp] theorem setConn_qos (k c : Nat) (v : Conn) (s : State) : (setConn k c v s).qos = s.qos := rfl
@[simp] theorem setConn_stk (k c : Nat) (v : Conn) (s : State) : (setConn k c v s).stk = s.stk := rfl
@[simp] theorem setConn_chans (k c : Nat) (v : Conn) (s : State) : (setConn k c v s).chans = s.chans := rfl
@[simp] theorem setConn_pcs (k c : Nat) (v : Conn) (s : State) : (setConn k c v s).pcs = s.pcs := rfl
@[simp] theorem setConn_kettle (k c : Nat) (v : Conn) (s : State) : (setConn k c v s).kettle = s.kettle := rfl
@[simp] theorem setConn_kb (k c : Nat) (v : Conn) (s : State) : (setConn k c v s).kb = s.kb := rfl
@[simp] theorem setConn_power (k c : Nat) (v : Conn) (s : State) : (setConn k c v s).power = s.power := rfl
@[simp] theorem setConn_hub (k c : Nat) (v : Conn) (s : State) : (setConn k c v s).hub = s.hub := rfl
@[simp] theorem setConn_dies (k c : Nat) (v : Conn) (s : State) : (setConn k c v s).dies = s.dies := rfl
@[simp] theorem setConn_compute (k c : Nat) (v : Conn) (s : State) : (setConn k c v s).compute = s.compute := rfl
@[simp] theorem setConn_infusers (k c : Nat) (v : Conn) (s : State) : (setConn k c v s).infusers = s.infusers := rfl
@[simp] theorem setConn_peers (k c : Nat) (v : Conn) (s : State) : (setConn k c v s).peers = { s.peers with conns := tset {} s.peers.conns (connKey k c) v } := rfl
@[simp] theorem setConn_twin (k c : Nat) (v : Conn) (s : State) : (setConn k c v s).twin = s.twin := rfl
@[simp] theorem setConn_tele (k c : Nat) (v : Conn) (s : State) : (setConn k c v s).tele = s.tele := rfl
@[simp] theorem setConn_late (k c : Nat) (v : Conn) (s : State) : (setConn k c v s).late = s.late := rfl
@[simp] theorem setConn_exers (k c : Nat) (v : Conn) (s : State) : (setConn k c v s).exers = s.exers := rfl
@[simp] theorem setConn_dbg (k c : Nat) (v : Conn) (s : State) : (setConn k c v s).dbg = s.dbg := rfl
@[simp] theorem setConn_doze (k c : Nat) (v : Conn) (s : State) : (setConn k c v s).doze = s.doze := rfl
@[simp] theorem setConn_refcode (k c : Nat) (v : Conn) (s : State) : (setConn k c v s).refcode = s.refcode := rfl
@[simp] theorem setConn_out (k c : Nat) (v : Conn) (s : State) : (setConn k c v s).out = s.out := rfl
@[simp] theorem setConn_freeCount (k c : Nat) (v : Conn) (s : State) : (setConn k c v s).freeCount = s.freeCount := rfl

/-! ## setTwinPart -/

@[simp] theorem setTwinPart_pending (t : Nat) (v : TwinPart) (s : State) : (setTwinPart t v s).pending = s.pending := rfl
@[simp] theorem setTwinPart_ident (t : Nat) (v : TwinPart) (s : State) : (setTwinPart t v s).ident = s.ident := rfl
@[simp] theorem setTwinPart_pins (t : Nat) (v : TwinPart) (s : State) : (setTwinPart t v s).pins = s.pins := rfl
@[simp] theorem setTwinPart_clock (t : Nat) (v : TwinPart) (s : State) : (setTwinPart t v s).clock = s.clock := rfl
@[simp] theorem setTwinPart_boot (t : Nat) (v : TwinPart) (s : State) : (setTwinPart t v s).boot = s.boot := rfl
@[simp] theorem setTwinPart_flash (t : Nat) (v : TwinPart) (s : State) : (setTwinPart t v s).flash = s.flash := rfl
@[simp] theorem setTwinPart_fns (t : Nat) (v : TwinPart) (s : State) : (setTwinPart t v s).fns = s.fns := rfl
@[simp] theorem setTwinPart_cmds (t : Nat) (v : TwinPart) (s : State) : (setTwinPart t v s).cmds = s.cmds := rfl
@[simp] theorem setTwinPart_cfg (t : Nat) (v : TwinPart) (s : State) : (setTwinPart t v s).cfg = s.cfg := rfl
@[simp] theorem setTwinPart_parts (t : Nat) (v : TwinPart) (s : State) : (setTwinPart t v s).parts = s.parts := rfl
@[simp] theorem setTwinPart_hbm (t : Nat) (v : TwinPart) (s : State) : (setTwinPart t v s).hbm = s.hbm := rfl
@[simp] theorem setTwinPart_pot (t : Nat) (v : TwinPart) (s : State) : (setTwinPart t v s).pot = s.pot := rfl
@[simp] theorem setTwinPart_path (t : Nat) (v : TwinPart) (s : State) : (setTwinPart t v s).path = s.path := rfl
@[simp] theorem setTwinPart_buckets (t : Nat) (v : TwinPart) (s : State) : (setTwinPart t v s).buckets = s.buckets := rfl
@[simp] theorem setTwinPart_qos (t : Nat) (v : TwinPart) (s : State) : (setTwinPart t v s).qos = s.qos := rfl
@[simp] theorem setTwinPart_stk (t : Nat) (v : TwinPart) (s : State) : (setTwinPart t v s).stk = s.stk := rfl
@[simp] theorem setTwinPart_chans (t : Nat) (v : TwinPart) (s : State) : (setTwinPart t v s).chans = s.chans := rfl
@[simp] theorem setTwinPart_pcs (t : Nat) (v : TwinPart) (s : State) : (setTwinPart t v s).pcs = s.pcs := rfl
@[simp] theorem setTwinPart_kettle (t : Nat) (v : TwinPart) (s : State) : (setTwinPart t v s).kettle = s.kettle := rfl
@[simp] theorem setTwinPart_kb (t : Nat) (v : TwinPart) (s : State) : (setTwinPart t v s).kb = s.kb := rfl
@[simp] theorem setTwinPart_power (t : Nat) (v : TwinPart) (s : State) : (setTwinPart t v s).power = s.power := rfl
@[simp] theorem setTwinPart_hub (t : Nat) (v : TwinPart) (s : State) : (setTwinPart t v s).hub = s.hub := rfl
@[simp] theorem setTwinPart_dies (t : Nat) (v : TwinPart) (s : State) : (setTwinPart t v s).dies = s.dies := rfl
@[simp] theorem setTwinPart_compute (t : Nat) (v : TwinPart) (s : State) : (setTwinPart t v s).compute = s.compute := rfl
@[simp] theorem setTwinPart_infusers (t : Nat) (v : TwinPart) (s : State) : (setTwinPart t v s).infusers = s.infusers := rfl
@[simp] theorem setTwinPart_peers (t : Nat) (v : TwinPart) (s : State) : (setTwinPart t v s).peers = s.peers := rfl
@[simp] theorem setTwinPart_twin (t : Nat) (v : TwinPart) (s : State) : (setTwinPart t v s).twin = { s.twin with parts := tset {} s.twin.parts t v } := rfl
@[simp] theorem setTwinPart_tele (t : Nat) (v : TwinPart) (s : State) : (setTwinPart t v s).tele = s.tele := rfl
@[simp] theorem setTwinPart_late (t : Nat) (v : TwinPart) (s : State) : (setTwinPart t v s).late = s.late := rfl
@[simp] theorem setTwinPart_exers (t : Nat) (v : TwinPart) (s : State) : (setTwinPart t v s).exers = s.exers := rfl
@[simp] theorem setTwinPart_dbg (t : Nat) (v : TwinPart) (s : State) : (setTwinPart t v s).dbg = s.dbg := rfl
@[simp] theorem setTwinPart_doze (t : Nat) (v : TwinPart) (s : State) : (setTwinPart t v s).doze = s.doze := rfl
@[simp] theorem setTwinPart_refcode (t : Nat) (v : TwinPart) (s : State) : (setTwinPart t v s).refcode = s.refcode := rfl
@[simp] theorem setTwinPart_out (t : Nat) (v : TwinPart) (s : State) : (setTwinPart t v s).out = s.out := rfl
@[simp] theorem setTwinPart_freeCount (t : Nat) (v : TwinPart) (s : State) : (setTwinPart t v s).freeCount = s.freeCount := rfl

/-! ## setExer -/

@[simp] theorem setExer_pending (n : Nat) (v : Exer) (s : State) : (setExer n v s).pending = s.pending := rfl
@[simp] theorem setExer_ident (n : Nat) (v : Exer) (s : State) : (setExer n v s).ident = s.ident := rfl
@[simp] theorem setExer_pins (n : Nat) (v : Exer) (s : State) : (setExer n v s).pins = s.pins := rfl
@[simp] theorem setExer_clock (n : Nat) (v : Exer) (s : State) : (setExer n v s).clock = s.clock := rfl
@[simp] theorem setExer_boot (n : Nat) (v : Exer) (s : State) : (setExer n v s).boot = s.boot := rfl
@[simp] theorem setExer_flash (n : Nat) (v : Exer) (s : State) : (setExer n v s).flash = s.flash := rfl
@[simp] theorem setExer_fns (n : Nat) (v : Exer) (s : State) : (setExer n v s).fns = s.fns := rfl
@[simp] theorem setExer_cmds (n : Nat) (v : Exer) (s : State) : (setExer n v s).cmds = s.cmds := rfl
@[simp] theorem setExer_cfg (n : Nat) (v : Exer) (s : State) : (setExer n v s).cfg = s.cfg := rfl
@[simp] theorem setExer_parts (n : Nat) (v : Exer) (s : State) : (setExer n v s).parts = s.parts := rfl
@[simp] theorem setExer_hbm (n : Nat) (v : Exer) (s : State) : (setExer n v s).hbm = s.hbm := rfl
@[simp] theorem setExer_pot (n : Nat) (v : Exer) (s : State) : (setExer n v s).pot = s.pot := rfl
@[simp] theorem setExer_path (n : Nat) (v : Exer) (s : State) : (setExer n v s).path = s.path := rfl
@[simp] theorem setExer_buckets (n : Nat) (v : Exer) (s : State) : (setExer n v s).buckets = s.buckets := rfl
@[simp] theorem setExer_qos (n : Nat) (v : Exer) (s : State) : (setExer n v s).qos = s.qos := rfl
@[simp] theorem setExer_stk (n : Nat) (v : Exer) (s : State) : (setExer n v s).stk = s.stk := rfl
@[simp] theorem setExer_chans (n : Nat) (v : Exer) (s : State) : (setExer n v s).chans = s.chans := rfl
@[simp] theorem setExer_pcs (n : Nat) (v : Exer) (s : State) : (setExer n v s).pcs = s.pcs := rfl
@[simp] theorem setExer_kettle (n : Nat) (v : Exer) (s : State) : (setExer n v s).kettle = s.kettle := rfl
@[simp] theorem setExer_kb (n : Nat) (v : Exer) (s : State) : (setExer n v s).kb = s.kb := rfl
@[simp] theorem setExer_power (n : Nat) (v : Exer) (s : State) : (setExer n v s).power = s.power := rfl
@[simp] theorem setExer_hub (n : Nat) (v : Exer) (s : State) : (setExer n v s).hub = s.hub := rfl
@[simp] theorem setExer_dies (n : Nat) (v : Exer) (s : State) : (setExer n v s).dies = s.dies := rfl
@[simp] theorem setExer_compute (n : Nat) (v : Exer) (s : State) : (setExer n v s).compute = s.compute := rfl
@[simp] theorem setExer_infusers (n : Nat) (v : Exer) (s : State) : (setExer n v s).infusers = s.infusers := rfl
@[simp] theorem setExer_peers (n : Nat) (v : Exer) (s : State) : (setExer n v s).peers = s.peers := rfl
@[simp] theorem setExer_twin (n : Nat) (v : Exer) (s : State) : (setExer n v s).twin = s.twin := rfl
@[simp] theorem setExer_tele (n : Nat) (v : Exer) (s : State) : (setExer n v s).tele = s.tele := rfl
@[simp] theorem setExer_late (n : Nat) (v : Exer) (s : State) : (setExer n v s).late = s.late := rfl
@[simp] theorem setExer_exers (n : Nat) (v : Exer) (s : State) : (setExer n v s).exers = tset {} s.exers n v := rfl
@[simp] theorem setExer_dbg (n : Nat) (v : Exer) (s : State) : (setExer n v s).dbg = s.dbg := rfl
@[simp] theorem setExer_doze (n : Nat) (v : Exer) (s : State) : (setExer n v s).doze = s.doze := rfl
@[simp] theorem setExer_refcode (n : Nat) (v : Exer) (s : State) : (setExer n v s).refcode = s.refcode := rfl
@[simp] theorem setExer_out (n : Nat) (v : Exer) (s : State) : (setExer n v s).out = s.out := rfl
@[simp] theorem setExer_freeCount (n : Nat) (v : Exer) (s : State) : (setExer n v s).freeCount = s.freeCount := rfl

/-! ## freeStep -/

@[simp] theorem freeStep_pending (s : State) : (freeStep s).pending = s.pending := rfl
@[simp] theorem freeStep_ident (s : State) : (freeStep s).ident = s.ident := rfl
@[simp] theorem freeStep_pins (s : State) : (freeStep s).pins = s.pins := rfl
@[simp] theorem freeStep_clock (s : State) : (freeStep s).clock = s.clock := rfl
@[simp] theorem freeStep_boot (s : State) : (freeStep s).boot = s.boot := rfl
@[simp] theorem freeStep_flash (s : State) : (freeStep s).flash = s.flash := rfl
@[simp] theorem freeStep_fns (s : State) : (freeStep s).fns = s.fns := rfl
@[simp] theorem freeStep_cmds (s : State) : (freeStep s).cmds = s.cmds := rfl
@[simp] theorem freeStep_cfg (s : State) : (freeStep s).cfg = s.cfg := rfl
@[simp] theorem freeStep_parts (s : State) : (freeStep s).parts = s.parts := rfl
@[simp] theorem freeStep_hbm (s : State) : (freeStep s).hbm = s.hbm := rfl
@[simp] theorem freeStep_pot (s : State) : (freeStep s).pot = s.pot := rfl
@[simp] theorem freeStep_path (s : State) : (freeStep s).path = s.path := rfl
@[simp] theorem freeStep_buckets (s : State) : (freeStep s).buckets = s.buckets := rfl
@[simp] theorem freeStep_qos (s : State) : (freeStep s).qos = s.qos := rfl
@[simp] theorem freeStep_stk (s : State) : (freeStep s).stk = s.stk := rfl
@[simp] theorem freeStep_chans (s : State) : (freeStep s).chans = s.chans := rfl
@[simp] theorem freeStep_pcs (s : State) : (freeStep s).pcs = s.pcs := rfl
@[simp] theorem freeStep_kettle (s : State) : (freeStep s).kettle = s.kettle := rfl
@[simp] theorem freeStep_kb (s : State) : (freeStep s).kb = s.kb := rfl
@[simp] theorem freeStep_power (s : State) : (freeStep s).power = s.power := rfl
@[simp] theorem freeStep_hub (s : State) : (freeStep s).hub = s.hub := rfl
@[simp] theorem freeStep_dies (s : State) : (freeStep s).dies = s.dies := rfl
@[simp] theorem freeStep_compute (s : State) : (freeStep s).compute = s.compute := rfl
@[simp] theorem freeStep_infusers (s : State) : (freeStep s).infusers = s.infusers := rfl
@[simp] theorem freeStep_peers (s : State) : (freeStep s).peers = s.peers := rfl
@[simp] theorem freeStep_twin (s : State) : (freeStep s).twin = s.twin := rfl
@[simp] theorem freeStep_tele (s : State) : (freeStep s).tele = s.tele := rfl
@[simp] theorem freeStep_late (s : State) : (freeStep s).late = s.late := rfl
@[simp] theorem freeStep_exers (s : State) : (freeStep s).exers = s.exers := rfl
@[simp] theorem freeStep_dbg (s : State) : (freeStep s).dbg = s.dbg := rfl
@[simp] theorem freeStep_doze (s : State) : (freeStep s).doze = s.doze := rfl
@[simp] theorem freeStep_refcode (s : State) : (freeStep s).refcode = s.refcode := rfl
@[simp] theorem freeStep_out (s : State) : (freeStep s).out = s.out := rfl
@[simp] theorem freeStep_freeCount (s : State) : (freeStep s).freeCount = s.freeCount + 1 := rfl

/-! ## countEvent -/

@[simp] theorem countEvent_pending (i n : Nat) (s : State) : (countEvent i n s).pending = s.pending := rfl
@[simp] theorem countEvent_ident (i n : Nat) (s : State) : (countEvent i n s).ident = s.ident := rfl
@[simp] theorem countEvent_pins (i n : Nat) (s : State) : (countEvent i n s).pins = s.pins := rfl
@[simp] theorem countEvent_clock (i n : Nat) (s : State) : (countEvent i n s).clock = s.clock := rfl
@[simp] theorem countEvent_boot (i n : Nat) (s : State) : (countEvent i n s).boot = s.boot := rfl
@[simp] theorem countEvent_flash (i n : Nat) (s : State) : (countEvent i n s).flash = s.flash := rfl
@[simp] theorem countEvent_fns (i n : Nat) (s : State) : (countEvent i n s).fns = s.fns := rfl
@[simp] theorem countEvent_cmds (i n : Nat) (s : State) : (countEvent i n s).cmds = s.cmds := rfl
@[simp] theorem countEvent_cfg (i n : Nat) (s : State) : (countEvent i n s).cfg = s.cfg := rfl
@[simp] theorem countEvent_parts (i n : Nat) (s : State) : (countEvent i n s).parts = s.parts := rfl
@[simp] theorem countEvent_hbm (i n : Nat) (s : State) : (countEvent i n s).hbm = s.hbm := rfl
@[simp] theorem countEvent_pot (i n : Nat) (s : State) : (countEvent i n s).pot = s.pot := rfl
@[simp] theorem countEvent_path (i n : Nat) (s : State) : (countEvent i n s).path = s.path := rfl
@[simp] theorem countEvent_buckets (i n : Nat) (s : State) : (countEvent i n s).buckets = s.buckets := rfl
@[simp] theorem countEvent_qos (i n : Nat) (s : State) : (countEvent i n s).qos = s.qos := rfl
@[simp] theorem countEvent_stk (i n : Nat) (s : State) : (countEvent i n s).stk = s.stk := rfl
@[simp] theorem countEvent_chans (i n : Nat) (s : State) : (countEvent i n s).chans = s.chans := rfl
@[simp] theorem countEvent_pcs (i n : Nat) (s : State) : (countEvent i n s).pcs = s.pcs := rfl
@[simp] theorem countEvent_kettle (i n : Nat) (s : State) : (countEvent i n s).kettle = s.kettle := rfl
@[simp] theorem countEvent_kb (i n : Nat) (s : State) : (countEvent i n s).kb = s.kb := rfl
@[simp] theorem countEvent_power (i n : Nat) (s : State) : (countEvent i n s).power = s.power := rfl
@[simp] theorem countEvent_hub (i n : Nat) (s : State) : (countEvent i n s).hub = s.hub := rfl
@[simp] theorem countEvent_dies (i n : Nat) (s : State) : (countEvent i n s).dies = s.dies := rfl
@[simp] theorem countEvent_compute (i n : Nat) (s : State) : (countEvent i n s).compute = s.compute := rfl
@[simp] theorem countEvent_infusers (i n : Nat) (s : State) : (countEvent i n s).infusers = s.infusers := rfl
@[simp] theorem countEvent_peers (i n : Nat) (s : State) : (countEvent i n s).peers = s.peers := rfl
@[simp] theorem countEvent_twin (i n : Nat) (s : State) : (countEvent i n s).twin = s.twin := rfl
@[simp] theorem countEvent_tele (i n : Nat) (s : State) : (countEvent i n s).tele = { s.tele with events := tset 0 s.tele.events i ((cget s.tele.events i + n) % 2 ^ 64) } := rfl
@[simp] theorem countEvent_late (i n : Nat) (s : State) : (countEvent i n s).late = s.late := rfl
@[simp] theorem countEvent_exers (i n : Nat) (s : State) : (countEvent i n s).exers = s.exers := rfl
@[simp] theorem countEvent_dbg (i n : Nat) (s : State) : (countEvent i n s).dbg = s.dbg := rfl
@[simp] theorem countEvent_doze (i n : Nat) (s : State) : (countEvent i n s).doze = s.doze := rfl
@[simp] theorem countEvent_refcode (i n : Nat) (s : State) : (countEvent i n s).refcode = s.refcode := rfl
@[simp] theorem countEvent_out (i n : Nat) (s : State) : (countEvent i n s).out = s.out := rfl
@[simp] theorem countEvent_freeCount (i n : Nat) (s : State) : (countEvent i n s).freeCount = s.freeCount := rfl

/-! ## countVolume -/

@[simp] theorem countVolume_pending (i n : Nat) (s : State) : (countVolume i n s).pending = s.pending := rfl
@[simp] theorem countVolume_ident (i n : Nat) (s : State) : (countVolume i n s).ident = s.ident := rfl
@[simp] theorem countVolume_pins (i n : Nat) (s : State) : (countVolume i n s).pins = s.pins := rfl
@[simp] theorem countVolume_clock (i n : Nat) (s : State) : (countVolume i n s).clock = s.clock := rfl
@[simp] theorem countVolume_boot (i n : Nat) (s : State) : (countVolume i n s).boot = s.boot := rfl
@[simp] theorem countVolume_flash (i n : Nat) (s : State) : (countVolume i n s).flash = s.flash := rfl
@[simp] theorem countVolume_fns (i n : Nat) (s : State) : (countVolume i n s).fns = s.fns := rfl
@[simp] theorem countVolume_cmds (i n : Nat) (s : State) : (countVolume i n s).cmds = s.cmds := rfl
@[simp] theorem countVolume_cfg (i n : Nat) (s : State) : (countVolume i n s).cfg = s.cfg := rfl
@[simp] theorem countVolume_parts (i n : Nat) (s : State) : (countVolume i n s).parts = s.parts := rfl
@[simp] theorem countVolume_hbm (i n : Nat) (s : State) : (countVolume i n s).hbm = s.hbm := rfl
@[simp] theorem countVolume_pot (i n : Nat) (s : State) : (countVolume i n s).pot = s.pot := rfl
@[simp] theorem countVolume_path (i n : Nat) (s : State) : (countVolume i n s).path = s.path := rfl
@[simp] theorem countVolume_buckets (i n : Nat) (s : State) : (countVolume i n s).buckets = s.buckets := rfl
@[simp] theorem countVolume_qos (i n : Nat) (s : State) : (countVolume i n s).qos = s.qos := rfl
@[simp] theorem countVolume_stk (i n : Nat) (s : State) : (countVolume i n s).stk = s.stk := rfl
@[simp] theorem countVolume_chans (i n : Nat) (s : State) : (countVolume i n s).chans = s.chans := rfl
@[simp] theorem countVolume_pcs (i n : Nat) (s : State) : (countVolume i n s).pcs = s.pcs := rfl
@[simp] theorem countVolume_kettle (i n : Nat) (s : State) : (countVolume i n s).kettle = s.kettle := rfl
@[simp] theorem countVolume_kb (i n : Nat) (s : State) : (countVolume i n s).kb = s.kb := rfl
@[simp] theorem countVolume_power (i n : Nat) (s : State) : (countVolume i n s).power = s.power := rfl
@[simp] theorem countVolume_hub (i n : Nat) (s : State) : (countVolume i n s).hub = s.hub := rfl
@[simp] theorem countVolume_dies (i n : Nat) (s : State) : (countVolume i n s).dies = s.dies := rfl
@[simp] theorem countVolume_compute (i n : Nat) (s : State) : (countVolume i n s).compute = s.compute := rfl
@[simp] theorem countVolume_infusers (i n : Nat) (s : State) : (countVolume i n s).infusers = s.infusers := rfl
@[simp] theorem countVolume_peers (i n : Nat) (s : State) : (countVolume i n s).peers = s.peers := rfl
@[simp] theorem countVolume_twin (i n : Nat) (s : State) : (countVolume i n s).twin = s.twin := rfl
@[simp] theorem countVolume_tele (i n : Nat) (s : State) : (countVolume i n s).tele = { s.tele with volumes := cadd s.tele.volumes i n } := rfl
@[simp] theorem countVolume_late (i n : Nat) (s : State) : (countVolume i n s).late = s.late := rfl
@[simp] theorem countVolume_exers (i n : Nat) (s : State) : (countVolume i n s).exers = s.exers := rfl
@[simp] theorem countVolume_dbg (i n : Nat) (s : State) : (countVolume i n s).dbg = s.dbg := rfl
@[simp] theorem countVolume_doze (i n : Nat) (s : State) : (countVolume i n s).doze = s.doze := rfl
@[simp] theorem countVolume_refcode (i n : Nat) (s : State) : (countVolume i n s).refcode = s.refcode := rfl
@[simp] theorem countVolume_out (i n : Nat) (s : State) : (countVolume i n s).out = s.out := rfl
@[simp] theorem countVolume_freeCount (i n : Nat) (s : State) : (countVolume i n s).freeCount = s.freeCount := rfl

/-! ## assertAlert -/

@[simp] theorem assertAlert_pending (q : Nat) (s : State) : (assertAlert q s).pending = s.pending := rfl
@[simp] theorem assertAlert_ident (q : Nat) (s : State) : (assertAlert q s).ident = s.ident := rfl
@[simp] theorem assertAlert_pins (q : Nat) (s : State) : (assertAlert q s).pins = { s.pins with devAlert := true, alertSeq := q } := rfl
@[simp] theorem assertAlert_clock (q : Nat) (s : State) : (assertAlert q s).clock = s.clock := rfl
@[simp] theorem assertAlert_boot (q : Nat) (s : State) : (assertAlert q s).boot = s.boot := rfl
@[simp] theorem assertAlert_flash (q : Nat) (s : State) : (assertAlert q s).flash = s.flash := rfl
@[simp] theorem assertAlert_fns (q : Nat) (s : State) : (assertAlert q s).fns = s.fns := rfl
@[simp] theorem assertAlert_cmds (q : Nat) (s : State) : (assertAlert q s).cmds = s.cmds := rfl
@[simp] theorem assertAlert_cfg (q : Nat) (s : State) : (assertAlert q s).cfg = s.cfg := rfl
@[simp] theorem assertAlert_parts (q : Nat) (s : State) : (assertAlert q s).parts = s.parts := rfl
@[simp] theorem assertAlert_hbm (q : Nat) (s : State) : (assertAlert q s).hbm = s.hbm := rfl
@[simp] theorem assertAlert_pot (q : Nat) (s : State) : (assertAlert q s).pot = s.pot := rfl
@[simp] theorem assertAlert_path (q : Nat) (s : State) : (assertAlert q s).path = s.path := rfl
@[simp] theorem assertAlert_buckets (q : Nat) (s : State) : (assertAlert q s).buckets = s.buckets := rfl
@[simp] theorem assertAlert_qos (q : Nat) (s : State) : (assertAlert q s).qos = s.qos := rfl
@[simp] theorem assertAlert_stk (q : Nat) (s : State) : (assertAlert q s).stk = s.stk := rfl
@[simp] theorem assertAlert_chans (q : Nat) (s : State) : (assertAlert q s).chans = s.chans := rfl
@[simp] theorem assertAlert_pcs (q : Nat) (s : State) : (assertAlert q s).pcs = s.pcs := rfl
@[simp] theorem assertAlert_kettle (q : Nat) (s : State) : (assertAlert q s).kettle = s.kettle := rfl
@[simp] theorem assertAlert_kb (q : Nat) (s : State) : (assertAlert q s).kb = s.kb := rfl
@[simp] theorem assertAlert_power (q : Nat) (s : State) : (assertAlert q s).power = s.power := rfl
@[simp] theorem assertAlert_hub (q : Nat) (s : State) : (assertAlert q s).hub = s.hub := rfl
@[simp] theorem assertAlert_dies (q : Nat) (s : State) : (assertAlert q s).dies = s.dies := rfl
@[simp] theorem assertAlert_compute (q : Nat) (s : State) : (assertAlert q s).compute = s.compute := rfl
@[simp] theorem assertAlert_infusers (q : Nat) (s : State) : (assertAlert q s).infusers = s.infusers := rfl
@[simp] theorem assertAlert_peers (q : Nat) (s : State) : (assertAlert q s).peers = s.peers := rfl
@[simp] theorem assertAlert_twin (q : Nat) (s : State) : (assertAlert q s).twin = s.twin := rfl
@[simp] theorem assertAlert_tele (q : Nat) (s : State) : (assertAlert q s).tele = s.tele := rfl
@[simp] theorem assertAlert_late (q : Nat) (s : State) : (assertAlert q s).late = s.late := rfl
@[simp] theorem assertAlert_exers (q : Nat) (s : State) : (assertAlert q s).exers = s.exers := rfl
@[simp] theorem assertAlert_dbg (q : Nat) (s : State) : (assertAlert q s).dbg = s.dbg := rfl
@[simp] theorem assertAlert_doze (q : Nat) (s : State) : (assertAlert q s).doze = s.doze := rfl
@[simp] theorem assertAlert_refcode (q : Nat) (s : State) : (assertAlert q s).refcode = s.refcode := rfl
@[simp] theorem assertAlert_out (q : Nat) (s : State) : (assertAlert q s).out = s.out := rfl
@[simp] theorem assertAlert_freeCount (q : Nat) (s : State) : (assertAlert q s).freeCount = s.freeCount := rfl

/-! ## setSector -/

@[simp] theorem setSector_pending (q : Nat) (bytes : List Byte) (s : State) : (setSector q bytes s).pending = s.pending := rfl
@[simp] theorem setSector_ident (q : Nat) (bytes : List Byte) (s : State) : (setSector q bytes s).ident = s.ident := rfl
@[simp] theorem setSector_pins (q : Nat) (bytes : List Byte) (s : State) : (setSector q bytes s).pins = s.pins := rfl
@[simp] theorem setSector_clock (q : Nat) (bytes : List Byte) (s : State) : (setSector q bytes s).clock = s.clock := rfl
@[simp] theorem setSector_boot (q : Nat) (bytes : List Byte) (s : State) : (setSector q bytes s).boot = s.boot := rfl
@[simp] theorem setSector_flash (q : Nat) (bytes : List Byte) (s : State) : (setSector q bytes s).flash = s.flash := rfl
@[simp] theorem setSector_fns (q : Nat) (bytes : List Byte) (s : State) : (setSector q bytes s).fns = s.fns := rfl
@[simp] theorem setSector_cmds (q : Nat) (bytes : List Byte) (s : State) : (setSector q bytes s).cmds = s.cmds := rfl
@[simp] theorem setSector_cfg (q : Nat) (bytes : List Byte) (s : State) : (setSector q bytes s).cfg = s.cfg := rfl
@[simp] theorem setSector_parts (q : Nat) (bytes : List Byte) (s : State) : (setSector q bytes s).parts = s.parts := rfl
@[simp] theorem setSector_hbm (q : Nat) (bytes : List Byte) (s : State) : (setSector q bytes s).hbm = writeStored s.ident.big q bytes s.hbm := rfl
@[simp] theorem setSector_pot (q : Nat) (bytes : List Byte) (s : State) : (setSector q bytes s).pot = s.pot := rfl
@[simp] theorem setSector_path (q : Nat) (bytes : List Byte) (s : State) : (setSector q bytes s).path = s.path := rfl
@[simp] theorem setSector_buckets (q : Nat) (bytes : List Byte) (s : State) : (setSector q bytes s).buckets = s.buckets := rfl
@[simp] theorem setSector_qos (q : Nat) (bytes : List Byte) (s : State) : (setSector q bytes s).qos = s.qos := rfl
@[simp] theorem setSector_stk (q : Nat) (bytes : List Byte) (s : State) : (setSector q bytes s).stk = s.stk := rfl
@[simp] theorem setSector_chans (q : Nat) (bytes : List Byte) (s : State) : (setSector q bytes s).chans = s.chans := rfl
@[simp] theorem setSector_pcs (q : Nat) (bytes : List Byte) (s : State) : (setSector q bytes s).pcs = s.pcs := rfl
@[simp] theorem setSector_kettle (q : Nat) (bytes : List Byte) (s : State) : (setSector q bytes s).kettle = s.kettle := rfl
@[simp] theorem setSector_kb (q : Nat) (bytes : List Byte) (s : State) : (setSector q bytes s).kb = s.kb := rfl
@[simp] theorem setSector_power (q : Nat) (bytes : List Byte) (s : State) : (setSector q bytes s).power = s.power := rfl
@[simp] theorem setSector_hub (q : Nat) (bytes : List Byte) (s : State) : (setSector q bytes s).hub = s.hub := rfl
@[simp] theorem setSector_dies (q : Nat) (bytes : List Byte) (s : State) : (setSector q bytes s).dies = s.dies := rfl
@[simp] theorem setSector_compute (q : Nat) (bytes : List Byte) (s : State) : (setSector q bytes s).compute = s.compute := rfl
@[simp] theorem setSector_infusers (q : Nat) (bytes : List Byte) (s : State) : (setSector q bytes s).infusers = s.infusers := rfl
@[simp] theorem setSector_peers (q : Nat) (bytes : List Byte) (s : State) : (setSector q bytes s).peers = s.peers := rfl
@[simp] theorem setSector_twin (q : Nat) (bytes : List Byte) (s : State) : (setSector q bytes s).twin = s.twin := rfl
@[simp] theorem setSector_tele (q : Nat) (bytes : List Byte) (s : State) : (setSector q bytes s).tele = s.tele := rfl
@[simp] theorem setSector_late (q : Nat) (bytes : List Byte) (s : State) : (setSector q bytes s).late = s.late := rfl
@[simp] theorem setSector_exers (q : Nat) (bytes : List Byte) (s : State) : (setSector q bytes s).exers = s.exers := rfl
@[simp] theorem setSector_dbg (q : Nat) (bytes : List Byte) (s : State) : (setSector q bytes s).dbg = s.dbg := rfl
@[simp] theorem setSector_doze (q : Nat) (bytes : List Byte) (s : State) : (setSector q bytes s).doze = s.doze := rfl
@[simp] theorem setSector_refcode (q : Nat) (bytes : List Byte) (s : State) : (setSector q bytes s).refcode = s.refcode := rfl
@[simp] theorem setSector_out (q : Nat) (bytes : List Byte) (s : State) : (setSector q bytes s).out = s.out := rfl
@[simp] theorem setSector_freeCount (q : Nat) (bytes : List Byte) (s : State) : (setSector q bytes s).freeCount = s.freeCount := rfl

/-! ## writeSector -/

@[simp] theorem writeSector_pending (q : Nat) (colour : BitVec 8) (poison : Bool) (data : List Byte) (s : State) : (writeSector q colour poison data s).pending = s.pending := rfl
@[simp] theorem writeSector_ident (q : Nat) (colour : BitVec 8) (poison : Bool) (data : List Byte) (s : State) : (writeSector q colour poison data s).ident = s.ident := rfl
@[simp] theorem writeSector_pins (q : Nat) (colour : BitVec 8) (poison : Bool) (data : List Byte) (s : State) : (writeSector q colour poison data s).pins = s.pins := rfl
@[simp] theorem writeSector_clock (q : Nat) (colour : BitVec 8) (poison : Bool) (data : List Byte) (s : State) : (writeSector q colour poison data s).clock = s.clock := rfl
@[simp] theorem writeSector_boot (q : Nat) (colour : BitVec 8) (poison : Bool) (data : List Byte) (s : State) : (writeSector q colour poison data s).boot = s.boot := rfl
@[simp] theorem writeSector_flash (q : Nat) (colour : BitVec 8) (poison : Bool) (data : List Byte) (s : State) : (writeSector q colour poison data s).flash = s.flash := rfl
@[simp] theorem writeSector_fns (q : Nat) (colour : BitVec 8) (poison : Bool) (data : List Byte) (s : State) : (writeSector q colour poison data s).fns = s.fns := rfl
@[simp] theorem writeSector_cmds (q : Nat) (colour : BitVec 8) (poison : Bool) (data : List Byte) (s : State) : (writeSector q colour poison data s).cmds = s.cmds := rfl
@[simp] theorem writeSector_cfg (q : Nat) (colour : BitVec 8) (poison : Bool) (data : List Byte) (s : State) : (writeSector q colour poison data s).cfg = s.cfg := rfl
@[simp] theorem writeSector_parts (q : Nat) (colour : BitVec 8) (poison : Bool) (data : List Byte) (s : State) : (writeSector q colour poison data s).parts = s.parts := rfl
@[simp] theorem writeSector_hbm (q : Nat) (colour : BitVec 8) (poison : Bool) (data : List Byte) (s : State) : (writeSector q colour poison data s).hbm = writeStored s.ident.big q (encodeSector colour poison data) s.hbm := rfl
@[simp] theorem writeSector_pot (q : Nat) (colour : BitVec 8) (poison : Bool) (data : List Byte) (s : State) : (writeSector q colour poison data s).pot = s.pot := rfl
@[simp] theorem writeSector_path (q : Nat) (colour : BitVec 8) (poison : Bool) (data : List Byte) (s : State) : (writeSector q colour poison data s).path = s.path := rfl
@[simp] theorem writeSector_buckets (q : Nat) (colour : BitVec 8) (poison : Bool) (data : List Byte) (s : State) : (writeSector q colour poison data s).buckets = s.buckets := rfl
@[simp] theorem writeSector_qos (q : Nat) (colour : BitVec 8) (poison : Bool) (data : List Byte) (s : State) : (writeSector q colour poison data s).qos = s.qos := rfl
@[simp] theorem writeSector_stk (q : Nat) (colour : BitVec 8) (poison : Bool) (data : List Byte) (s : State) : (writeSector q colour poison data s).stk = s.stk := rfl
@[simp] theorem writeSector_chans (q : Nat) (colour : BitVec 8) (poison : Bool) (data : List Byte) (s : State) : (writeSector q colour poison data s).chans = s.chans := rfl
@[simp] theorem writeSector_pcs (q : Nat) (colour : BitVec 8) (poison : Bool) (data : List Byte) (s : State) : (writeSector q colour poison data s).pcs = s.pcs := rfl
@[simp] theorem writeSector_kettle (q : Nat) (colour : BitVec 8) (poison : Bool) (data : List Byte) (s : State) : (writeSector q colour poison data s).kettle = s.kettle := rfl
@[simp] theorem writeSector_kb (q : Nat) (colour : BitVec 8) (poison : Bool) (data : List Byte) (s : State) : (writeSector q colour poison data s).kb = s.kb := rfl
@[simp] theorem writeSector_power (q : Nat) (colour : BitVec 8) (poison : Bool) (data : List Byte) (s : State) : (writeSector q colour poison data s).power = s.power := rfl
@[simp] theorem writeSector_hub (q : Nat) (colour : BitVec 8) (poison : Bool) (data : List Byte) (s : State) : (writeSector q colour poison data s).hub = s.hub := rfl
@[simp] theorem writeSector_dies (q : Nat) (colour : BitVec 8) (poison : Bool) (data : List Byte) (s : State) : (writeSector q colour poison data s).dies = s.dies := rfl
@[simp] theorem writeSector_compute (q : Nat) (colour : BitVec 8) (poison : Bool) (data : List Byte) (s : State) : (writeSector q colour poison data s).compute = s.compute := rfl
@[simp] theorem writeSector_infusers (q : Nat) (colour : BitVec 8) (poison : Bool) (data : List Byte) (s : State) : (writeSector q colour poison data s).infusers = s.infusers := rfl
@[simp] theorem writeSector_peers (q : Nat) (colour : BitVec 8) (poison : Bool) (data : List Byte) (s : State) : (writeSector q colour poison data s).peers = s.peers := rfl
@[simp] theorem writeSector_twin (q : Nat) (colour : BitVec 8) (poison : Bool) (data : List Byte) (s : State) : (writeSector q colour poison data s).twin = s.twin := rfl
@[simp] theorem writeSector_tele (q : Nat) (colour : BitVec 8) (poison : Bool) (data : List Byte) (s : State) : (writeSector q colour poison data s).tele = s.tele := rfl
@[simp] theorem writeSector_late (q : Nat) (colour : BitVec 8) (poison : Bool) (data : List Byte) (s : State) : (writeSector q colour poison data s).late = s.late := rfl
@[simp] theorem writeSector_exers (q : Nat) (colour : BitVec 8) (poison : Bool) (data : List Byte) (s : State) : (writeSector q colour poison data s).exers = s.exers := rfl
@[simp] theorem writeSector_dbg (q : Nat) (colour : BitVec 8) (poison : Bool) (data : List Byte) (s : State) : (writeSector q colour poison data s).dbg = s.dbg := rfl
@[simp] theorem writeSector_doze (q : Nat) (colour : BitVec 8) (poison : Bool) (data : List Byte) (s : State) : (writeSector q colour poison data s).doze = s.doze := rfl
@[simp] theorem writeSector_refcode (q : Nat) (colour : BitVec 8) (poison : Bool) (data : List Byte) (s : State) : (writeSector q colour poison data s).refcode = s.refcode := rfl
@[simp] theorem writeSector_out (q : Nat) (colour : BitVec 8) (poison : Bool) (data : List Byte) (s : State) : (writeSector q colour poison data s).out = s.out := rfl
@[simp] theorem writeSector_freeCount (q : Nat) (colour : BitVec 8) (poison : Bool) (data : List Byte) (s : State) : (writeSector q colour poison data s).freeCount = s.freeCount := rfl

/-! ## fillRange -/

@[simp] theorem fillRange_pending (n lo hi : Nat) (colour : BitVec 8) (poison : Bool) (s : State) : (fillRange n lo hi colour poison s).pending = s.pending := rfl
@[simp] theorem fillRange_ident (n lo hi : Nat) (colour : BitVec 8) (poison : Bool) (s : State) : (fillRange n lo hi colour poison s).ident = s.ident := rfl
@[simp] theorem fillRange_pins (n lo hi : Nat) (colour : BitVec 8) (poison : Bool) (s : State) : (fillRange n lo hi colour poison s).pins = s.pins := rfl
@[simp] theorem fillRange_clock (n lo hi : Nat) (colour : BitVec 8) (poison : Bool) (s : State) : (fillRange n lo hi colour poison s).clock = s.clock := rfl
@[simp] theorem fillRange_boot (n lo hi : Nat) (colour : BitVec 8) (poison : Bool) (s : State) : (fillRange n lo hi colour poison s).boot = s.boot := rfl
@[simp] theorem fillRange_flash (n lo hi : Nat) (colour : BitVec 8) (poison : Bool) (s : State) : (fillRange n lo hi colour poison s).flash = s.flash := rfl
@[simp] theorem fillRange_fns (n lo hi : Nat) (colour : BitVec 8) (poison : Bool) (s : State) : (fillRange n lo hi colour poison s).fns = s.fns := rfl
@[simp] theorem fillRange_cmds (n lo hi : Nat) (colour : BitVec 8) (poison : Bool) (s : State) : (fillRange n lo hi colour poison s).cmds = s.cmds := rfl
@[simp] theorem fillRange_cfg (n lo hi : Nat) (colour : BitVec 8) (poison : Bool) (s : State) : (fillRange n lo hi colour poison s).cfg = s.cfg := rfl
@[simp] theorem fillRange_parts (n lo hi : Nat) (colour : BitVec 8) (poison : Bool) (s : State) : (fillRange n lo hi colour poison s).parts = s.parts := rfl
@[simp] theorem fillRange_pot (n lo hi : Nat) (colour : BitVec 8) (poison : Bool) (s : State) : (fillRange n lo hi colour poison s).pot = s.pot := rfl
@[simp] theorem fillRange_path (n lo hi : Nat) (colour : BitVec 8) (poison : Bool) (s : State) : (fillRange n lo hi colour poison s).path = s.path := rfl
@[simp] theorem fillRange_buckets (n lo hi : Nat) (colour : BitVec 8) (poison : Bool) (s : State) : (fillRange n lo hi colour poison s).buckets = s.buckets := rfl
@[simp] theorem fillRange_qos (n lo hi : Nat) (colour : BitVec 8) (poison : Bool) (s : State) : (fillRange n lo hi colour poison s).qos = s.qos := rfl
@[simp] theorem fillRange_stk (n lo hi : Nat) (colour : BitVec 8) (poison : Bool) (s : State) : (fillRange n lo hi colour poison s).stk = s.stk := rfl
@[simp] theorem fillRange_chans (n lo hi : Nat) (colour : BitVec 8) (poison : Bool) (s : State) : (fillRange n lo hi colour poison s).chans = s.chans := rfl
@[simp] theorem fillRange_pcs (n lo hi : Nat) (colour : BitVec 8) (poison : Bool) (s : State) : (fillRange n lo hi colour poison s).pcs = s.pcs := rfl
@[simp] theorem fillRange_kettle (n lo hi : Nat) (colour : BitVec 8) (poison : Bool) (s : State) : (fillRange n lo hi colour poison s).kettle = s.kettle := rfl
@[simp] theorem fillRange_kb (n lo hi : Nat) (colour : BitVec 8) (poison : Bool) (s : State) : (fillRange n lo hi colour poison s).kb = s.kb := rfl
@[simp] theorem fillRange_power (n lo hi : Nat) (colour : BitVec 8) (poison : Bool) (s : State) : (fillRange n lo hi colour poison s).power = s.power := rfl
@[simp] theorem fillRange_hub (n lo hi : Nat) (colour : BitVec 8) (poison : Bool) (s : State) : (fillRange n lo hi colour poison s).hub = s.hub := rfl
@[simp] theorem fillRange_dies (n lo hi : Nat) (colour : BitVec 8) (poison : Bool) (s : State) : (fillRange n lo hi colour poison s).dies = s.dies := rfl
@[simp] theorem fillRange_compute (n lo hi : Nat) (colour : BitVec 8) (poison : Bool) (s : State) : (fillRange n lo hi colour poison s).compute = s.compute := rfl
@[simp] theorem fillRange_infusers (n lo hi : Nat) (colour : BitVec 8) (poison : Bool) (s : State) : (fillRange n lo hi colour poison s).infusers = s.infusers := rfl
@[simp] theorem fillRange_peers (n lo hi : Nat) (colour : BitVec 8) (poison : Bool) (s : State) : (fillRange n lo hi colour poison s).peers = s.peers := rfl
@[simp] theorem fillRange_twin (n lo hi : Nat) (colour : BitVec 8) (poison : Bool) (s : State) : (fillRange n lo hi colour poison s).twin = s.twin := rfl
@[simp] theorem fillRange_tele (n lo hi : Nat) (colour : BitVec 8) (poison : Bool) (s : State) : (fillRange n lo hi colour poison s).tele = s.tele := rfl
@[simp] theorem fillRange_late (n lo hi : Nat) (colour : BitVec 8) (poison : Bool) (s : State) : (fillRange n lo hi colour poison s).late = s.late := rfl
@[simp] theorem fillRange_exers (n lo hi : Nat) (colour : BitVec 8) (poison : Bool) (s : State) : (fillRange n lo hi colour poison s).exers = s.exers := rfl
@[simp] theorem fillRange_dbg (n lo hi : Nat) (colour : BitVec 8) (poison : Bool) (s : State) : (fillRange n lo hi colour poison s).dbg = s.dbg := rfl
@[simp] theorem fillRange_doze (n lo hi : Nat) (colour : BitVec 8) (poison : Bool) (s : State) : (fillRange n lo hi colour poison s).doze = s.doze := rfl
@[simp] theorem fillRange_refcode (n lo hi : Nat) (colour : BitVec 8) (poison : Bool) (s : State) : (fillRange n lo hi colour poison s).refcode = s.refcode := rfl
@[simp] theorem fillRange_out (n lo hi : Nat) (colour : BitVec 8) (poison : Bool) (s : State) : (fillRange n lo hi colour poison s).out = s.out := rfl
@[simp] theorem fillRange_freeCount (n lo hi : Nat) (colour : BitVec 8) (poison : Bool) (s : State) : (fillRange n lo hi colour poison s).freeCount = s.freeCount := rfl

/-! ## potStore -/

@[simp] theorem potStore_pending (o : Nat) (bytes : List Byte) (s : State) : (potStore o bytes s).pending = s.pending := rfl
@[simp] theorem potStore_ident (o : Nat) (bytes : List Byte) (s : State) : (potStore o bytes s).ident = s.ident := rfl
@[simp] theorem potStore_pins (o : Nat) (bytes : List Byte) (s : State) : (potStore o bytes s).pins = s.pins := rfl
@[simp] theorem potStore_clock (o : Nat) (bytes : List Byte) (s : State) : (potStore o bytes s).clock = s.clock := rfl
@[simp] theorem potStore_boot (o : Nat) (bytes : List Byte) (s : State) : (potStore o bytes s).boot = s.boot := rfl
@[simp] theorem potStore_flash (o : Nat) (bytes : List Byte) (s : State) : (potStore o bytes s).flash = s.flash := rfl
@[simp] theorem potStore_fns (o : Nat) (bytes : List Byte) (s : State) : (potStore o bytes s).fns = s.fns := rfl
@[simp] theorem potStore_cmds (o : Nat) (bytes : List Byte) (s : State) : (potStore o bytes s).cmds = s.cmds := rfl
@[simp] theorem potStore_cfg (o : Nat) (bytes : List Byte) (s : State) : (potStore o bytes s).cfg = s.cfg := rfl
@[simp] theorem potStore_parts (o : Nat) (bytes : List Byte) (s : State) : (potStore o bytes s).parts = s.parts := rfl
@[simp] theorem potStore_hbm (o : Nat) (bytes : List Byte) (s : State) : (potStore o bytes s).hbm = s.hbm := rfl
@[simp] theorem potStore_path (o : Nat) (bytes : List Byte) (s : State) : (potStore o bytes s).path = s.path := rfl
@[simp] theorem potStore_buckets (o : Nat) (bytes : List Byte) (s : State) : (potStore o bytes s).buckets = s.buckets := rfl
@[simp] theorem potStore_qos (o : Nat) (bytes : List Byte) (s : State) : (potStore o bytes s).qos = s.qos := rfl
@[simp] theorem potStore_stk (o : Nat) (bytes : List Byte) (s : State) : (potStore o bytes s).stk = s.stk := rfl
@[simp] theorem potStore_chans (o : Nat) (bytes : List Byte) (s : State) : (potStore o bytes s).chans = s.chans := rfl
@[simp] theorem potStore_pcs (o : Nat) (bytes : List Byte) (s : State) : (potStore o bytes s).pcs = s.pcs := rfl
@[simp] theorem potStore_kettle (o : Nat) (bytes : List Byte) (s : State) : (potStore o bytes s).kettle = s.kettle := rfl
@[simp] theorem potStore_kb (o : Nat) (bytes : List Byte) (s : State) : (potStore o bytes s).kb = s.kb := rfl
@[simp] theorem potStore_power (o : Nat) (bytes : List Byte) (s : State) : (potStore o bytes s).power = s.power := rfl
@[simp] theorem potStore_hub (o : Nat) (bytes : List Byte) (s : State) : (potStore o bytes s).hub = s.hub := rfl
@[simp] theorem potStore_dies (o : Nat) (bytes : List Byte) (s : State) : (potStore o bytes s).dies = s.dies := rfl
@[simp] theorem potStore_compute (o : Nat) (bytes : List Byte) (s : State) : (potStore o bytes s).compute = s.compute := rfl
@[simp] theorem potStore_infusers (o : Nat) (bytes : List Byte) (s : State) : (potStore o bytes s).infusers = s.infusers := rfl
@[simp] theorem potStore_peers (o : Nat) (bytes : List Byte) (s : State) : (potStore o bytes s).peers = s.peers := rfl
@[simp] theorem potStore_twin (o : Nat) (bytes : List Byte) (s : State) : (potStore o bytes s).twin = s.twin := rfl
@[simp] theorem potStore_tele (o : Nat) (bytes : List Byte) (s : State) : (potStore o bytes s).tele = s.tele := rfl
@[simp] theorem potStore_late (o : Nat) (bytes : List Byte) (s : State) : (potStore o bytes s).late = s.late := rfl
@[simp] theorem potStore_exers (o : Nat) (bytes : List Byte) (s : State) : (potStore o bytes s).exers = s.exers := rfl
@[simp] theorem potStore_dbg (o : Nat) (bytes : List Byte) (s : State) : (potStore o bytes s).dbg = s.dbg := rfl
@[simp] theorem potStore_doze (o : Nat) (bytes : List Byte) (s : State) : (potStore o bytes s).doze = s.doze := rfl
@[simp] theorem potStore_refcode (o : Nat) (bytes : List Byte) (s : State) : (potStore o bytes s).refcode = s.refcode := rfl
@[simp] theorem potStore_out (o : Nat) (bytes : List Byte) (s : State) : (potStore o bytes s).out = s.out := rfl
@[simp] theorem potStore_freeCount (o : Nat) (bytes : List Byte) (s : State) : (potStore o bytes s).freeCount = s.freeCount := rfl

/-! ## potFlag -/

@[simp] theorem potFlag_pending (b : Nat) (on : Bool) (s : State) : (potFlag b on s).pending = s.pending := rfl
@[simp] theorem potFlag_ident (b : Nat) (on : Bool) (s : State) : (potFlag b on s).ident = s.ident := rfl
@[simp] theorem potFlag_pins (b : Nat) (on : Bool) (s : State) : (potFlag b on s).pins = s.pins := rfl
@[simp] theorem potFlag_clock (b : Nat) (on : Bool) (s : State) : (potFlag b on s).clock = s.clock := rfl
@[simp] theorem potFlag_boot (b : Nat) (on : Bool) (s : State) : (potFlag b on s).boot = s.boot := rfl
@[simp] theorem potFlag_flash (b : Nat) (on : Bool) (s : State) : (potFlag b on s).flash = s.flash := rfl
@[simp] theorem potFlag_fns (b : Nat) (on : Bool) (s : State) : (potFlag b on s).fns = s.fns := rfl
@[simp] theorem potFlag_cmds (b : Nat) (on : Bool) (s : State) : (potFlag b on s).cmds = s.cmds := rfl
@[simp] theorem potFlag_cfg (b : Nat) (on : Bool) (s : State) : (potFlag b on s).cfg = s.cfg := rfl
@[simp] theorem potFlag_parts (b : Nat) (on : Bool) (s : State) : (potFlag b on s).parts = s.parts := rfl
@[simp] theorem potFlag_hbm (b : Nat) (on : Bool) (s : State) : (potFlag b on s).hbm = s.hbm := rfl
@[simp] theorem potFlag_path (b : Nat) (on : Bool) (s : State) : (potFlag b on s).path = s.path := rfl
@[simp] theorem potFlag_buckets (b : Nat) (on : Bool) (s : State) : (potFlag b on s).buckets = s.buckets := rfl
@[simp] theorem potFlag_qos (b : Nat) (on : Bool) (s : State) : (potFlag b on s).qos = s.qos := rfl
@[simp] theorem potFlag_stk (b : Nat) (on : Bool) (s : State) : (potFlag b on s).stk = s.stk := rfl
@[simp] theorem potFlag_chans (b : Nat) (on : Bool) (s : State) : (potFlag b on s).chans = s.chans := rfl
@[simp] theorem potFlag_pcs (b : Nat) (on : Bool) (s : State) : (potFlag b on s).pcs = s.pcs := rfl
@[simp] theorem potFlag_kettle (b : Nat) (on : Bool) (s : State) : (potFlag b on s).kettle = s.kettle := rfl
@[simp] theorem potFlag_kb (b : Nat) (on : Bool) (s : State) : (potFlag b on s).kb = s.kb := rfl
@[simp] theorem potFlag_power (b : Nat) (on : Bool) (s : State) : (potFlag b on s).power = s.power := rfl
@[simp] theorem potFlag_hub (b : Nat) (on : Bool) (s : State) : (potFlag b on s).hub = s.hub := rfl
@[simp] theorem potFlag_dies (b : Nat) (on : Bool) (s : State) : (potFlag b on s).dies = s.dies := rfl
@[simp] theorem potFlag_compute (b : Nat) (on : Bool) (s : State) : (potFlag b on s).compute = s.compute := rfl
@[simp] theorem potFlag_infusers (b : Nat) (on : Bool) (s : State) : (potFlag b on s).infusers = s.infusers := rfl
@[simp] theorem potFlag_peers (b : Nat) (on : Bool) (s : State) : (potFlag b on s).peers = s.peers := rfl
@[simp] theorem potFlag_twin (b : Nat) (on : Bool) (s : State) : (potFlag b on s).twin = s.twin := rfl
@[simp] theorem potFlag_tele (b : Nat) (on : Bool) (s : State) : (potFlag b on s).tele = s.tele := rfl
@[simp] theorem potFlag_late (b : Nat) (on : Bool) (s : State) : (potFlag b on s).late = s.late := rfl
@[simp] theorem potFlag_exers (b : Nat) (on : Bool) (s : State) : (potFlag b on s).exers = s.exers := rfl
@[simp] theorem potFlag_dbg (b : Nat) (on : Bool) (s : State) : (potFlag b on s).dbg = s.dbg := rfl
@[simp] theorem potFlag_doze (b : Nat) (on : Bool) (s : State) : (potFlag b on s).doze = s.doze := rfl
@[simp] theorem potFlag_refcode (b : Nat) (on : Bool) (s : State) : (potFlag b on s).refcode = s.refcode := rfl
@[simp] theorem potFlag_out (b : Nat) (on : Bool) (s : State) : (potFlag b on s).out = s.out := rfl
@[simp] theorem potFlag_freeCount (b : Nat) (on : Bool) (s : State) : (potFlag b on s).freeCount = s.freeCount := rfl

/-! ## potClearGrain -/

@[simp] theorem potClearGrain_pending (g : Nat) (s : State) : (potClearGrain g s).pending = s.pending := rfl
@[simp] theorem potClearGrain_ident (g : Nat) (s : State) : (potClearGrain g s).ident = s.ident := rfl
@[simp] theorem potClearGrain_pins (g : Nat) (s : State) : (potClearGrain g s).pins = s.pins := rfl
@[simp] theorem potClearGrain_clock (g : Nat) (s : State) : (potClearGrain g s).clock = s.clock := rfl
@[simp] theorem potClearGrain_boot (g : Nat) (s : State) : (potClearGrain g s).boot = s.boot := rfl
@[simp] theorem potClearGrain_flash (g : Nat) (s : State) : (potClearGrain g s).flash = s.flash := rfl
@[simp] theorem potClearGrain_fns (g : Nat) (s : State) : (potClearGrain g s).fns = s.fns := rfl
@[simp] theorem potClearGrain_cmds (g : Nat) (s : State) : (potClearGrain g s).cmds = s.cmds := rfl
@[simp] theorem potClearGrain_cfg (g : Nat) (s : State) : (potClearGrain g s).cfg = s.cfg := rfl
@[simp] theorem potClearGrain_parts (g : Nat) (s : State) : (potClearGrain g s).parts = s.parts := rfl
@[simp] theorem potClearGrain_hbm (g : Nat) (s : State) : (potClearGrain g s).hbm = s.hbm := rfl
@[simp] theorem potClearGrain_path (g : Nat) (s : State) : (potClearGrain g s).path = s.path := rfl
@[simp] theorem potClearGrain_buckets (g : Nat) (s : State) : (potClearGrain g s).buckets = s.buckets := rfl
@[simp] theorem potClearGrain_qos (g : Nat) (s : State) : (potClearGrain g s).qos = s.qos := rfl
@[simp] theorem potClearGrain_stk (g : Nat) (s : State) : (potClearGrain g s).stk = s.stk := rfl
@[simp] theorem potClearGrain_chans (g : Nat) (s : State) : (potClearGrain g s).chans = s.chans := rfl
@[simp] theorem potClearGrain_pcs (g : Nat) (s : State) : (potClearGrain g s).pcs = s.pcs := rfl
@[simp] theorem potClearGrain_kettle (g : Nat) (s : State) : (potClearGrain g s).kettle = s.kettle := rfl
@[simp] theorem potClearGrain_kb (g : Nat) (s : State) : (potClearGrain g s).kb = s.kb := rfl
@[simp] theorem potClearGrain_power (g : Nat) (s : State) : (potClearGrain g s).power = s.power := rfl
@[simp] theorem potClearGrain_hub (g : Nat) (s : State) : (potClearGrain g s).hub = s.hub := rfl
@[simp] theorem potClearGrain_dies (g : Nat) (s : State) : (potClearGrain g s).dies = s.dies := rfl
@[simp] theorem potClearGrain_compute (g : Nat) (s : State) : (potClearGrain g s).compute = s.compute := rfl
@[simp] theorem potClearGrain_infusers (g : Nat) (s : State) : (potClearGrain g s).infusers = s.infusers := rfl
@[simp] theorem potClearGrain_peers (g : Nat) (s : State) : (potClearGrain g s).peers = s.peers := rfl
@[simp] theorem potClearGrain_twin (g : Nat) (s : State) : (potClearGrain g s).twin = s.twin := rfl
@[simp] theorem potClearGrain_tele (g : Nat) (s : State) : (potClearGrain g s).tele = s.tele := rfl
@[simp] theorem potClearGrain_late (g : Nat) (s : State) : (potClearGrain g s).late = s.late := rfl
@[simp] theorem potClearGrain_exers (g : Nat) (s : State) : (potClearGrain g s).exers = s.exers := rfl
@[simp] theorem potClearGrain_dbg (g : Nat) (s : State) : (potClearGrain g s).dbg = s.dbg := rfl
@[simp] theorem potClearGrain_doze (g : Nat) (s : State) : (potClearGrain g s).doze = s.doze := rfl
@[simp] theorem potClearGrain_refcode (g : Nat) (s : State) : (potClearGrain g s).refcode = s.refcode := rfl
@[simp] theorem potClearGrain_out (g : Nat) (s : State) : (potClearGrain g s).out = s.out := rfl
@[simp] theorem potClearGrain_freeCount (g : Nat) (s : State) : (potClearGrain g s).freeCount = s.freeCount := rfl

end Sys2Proof.Machine
end

