-- ==== Sys2Proof/Laws/Ops.lean ====
section
/-! SUPPORT. What the shared operations can do, said once for each: sending, interrupts, events and the log reach only
the functions, the output, the counters and the governor's counts; a mailbox command is its gate, then its work, then its
completion; an admitted debit takes its amount from the allowance. -/

namespace Sys2Proof.Machine

open Sys2Proof

/-- t differs from s at most in the functions, the output, telemetry and the governor. -/
def EventFrame (s t : State) : Prop :=
  ∃ fns out tele kettle, t = { s with fns := fns, out := out, tele := tele, kettle := kettle }

theorem EventFrame.refl (s : State) : EventFrame s s := ⟨_, _, _, _, rfl⟩

theorem EventFrame.trans {a b c : State} (h : EventFrame a b) (g : EventFrame b c) : EventFrame a c := by
  obtain ⟨_, _, _, _, rfl⟩ := h
  obtain ⟨_, _, _, _, rfl⟩ := g
  exact ⟨_, _, _, _, rfl⟩

theorem hostPayload_frame (sent : Bool) (n : Nat) (s : State) : EventFrame s (hostPayload sent n s) := by
  unfold hostPayload
  split
  · exact .refl s
  · exact ⟨_, _, _, _, rfl⟩

theorem emit_eventFrame (o : Out) (s : State) : EventFrame s (emit o s) :=
  .trans ⟨_, o :: s.out, _, _, rfl⟩ (hostPayload_frame true (outPayload o) { s with out := o :: s.out })

theorem setFn_frame (k : Nat) (f : Fn) (s : State) : EventFrame s (setFn k f s) := ⟨_, _, _, _, rfl⟩

theorem countEvent_frame (i n : Nat) (s : State) : EventFrame s (countEvent i n s) := ⟨_, _, _, _, rfl⟩

/-- Raising a vector sends its message or sets its pending bit (R139). -/
theorem raiseVector_frame (k v : Nat) (s : State) : EventFrame s (raiseVector k v s) := by
  unfold raiseVector
  simp only
  split
  · exact setFn_frame _ _ _
  · exact emit_eventFrame _ _

theorem setInt_frame (k bit : Nat) (s : State) : EventFrame s (setInt k bit s) := by
  unfold setInt
  simp only
  split
  · exact .refl s
  · split
    · exact .trans (setFn_frame _ _ s) (raiseVector_frame _ _ _)
    · exact setFn_frame _ _ s

/-- An interrupt bit that is set already raises nothing. -/
theorem setInt_set (k bit : Nat) (s : State) (h : (fnOf s k).intStatus.getLsbD bit = true) : setInt k bit s = s := by
  simp [setInt, h]

/-- A fold of operations that keep the frame keeps it. -/
theorem EventFrame.foldl {α : Type} (f : State → α → State) (h : ∀ s a, EventFrame s (f s a)) (l : List α)
    (s : State) : EventFrame s (l.foldl f s) := by
  induction l generalizing s with
  | nil => exact .refl s
  | cons a r ih => exact .trans (h s a) (ih _)

theorem setIntAll_frame (bit : Nat) (s : State) : EventFrame s (setIntAll bit s) :=
  .foldl _ (fun s k => setInt_frame k bit s) _ s

theorem loseEvent_frame (k : Nat) (full : Bool) (s : State) : EventFrame s (loseEvent k full s) := by
  have h : EventFrame s (setInt k 2 (modFn k (fun f => { f with evtLost := f.evtLost + 1 }) s)) :=
    .trans (setFn_frame _ _ s) (setInt_frame _ _ _)
  unfold loseEvent
  simp only
  split
  · exact .trans h (countEvent_frame _ _ _)
  · exact h

/-- An event for a ring is written, held, or counted as lost (R133, R140). -/
theorem ringEvent_frame (k : Nat) (bytes : List Byte) (s : State) : EventFrame s (ringEvent k bytes s) := by
  unfold ringEvent
  simp only
  split
  · exact loseEvent_frame _ _ _
  · split
    · exact setFn_frame _ _ _
    · split
      · exact loseEvent_frame _ _ _
      · exact .trans (emit_eventFrame _ s) (.trans (setFn_frame _ _ _)
          (.trans (countEvent_frame _ _ _) (setInt_frame _ _ _)))

/-- A logged event adds to the log and to the listed rings (R455, R456). -/
theorem logRecord_frame (code tenant sev stack : Nat) (payload : List Byte) (rings : List Nat) (s : State) :
    EventFrame s (logRecord code tenant sev stack payload rings s) := by
  unfold logRecord
  simp only
  exact .trans (.foldl _ (fun s k => ringEvent_frame k _ s) rings s) ⟨_, _, _, _, rfl⟩

theorem logEvent_frame (code tenant sev stack : Nat) (args : List Byte) (rings : List Nat) (s : State) :
    EventFrame s (logEvent code tenant sev stack args rings s) := logRecord_frame _ _ _ _ _ _ s

theorem devEvent_frame (code sev : Nat) (args : List Byte) (s : State) : EventFrame s (devEvent code sev args s) :=
  logEvent_frame _ _ _ _ _ _ s

/-- An event that asserts DEV_ALERT_N is the event, then the assertion for its sequence. -/
theorem alertEvent_eq (code sev : Nat) (args : List Byte) (rings : List Nat) (s : State) :
    alertEvent code sev args rings s =
      assertAlert s.tele.logSeq.toNat (logEvent code noTenant sev noStack args rings s) := rfl

/-! ## What the frame leaves alone -/

section
variable {s t : State} (h : EventFrame s t)
include h

theorem EventFrame.rest : t.pending = s.pending ∧ t.ident = s.ident ∧ t.pins = s.pins ∧ t.clock = s.clock ∧
    t.boot = s.boot ∧ t.flash = s.flash ∧ t.cmds = s.cmds ∧ t.cfg = s.cfg ∧ t.parts = s.parts ∧ t.hbm = s.hbm ∧
    t.pot = s.pot ∧ t.path = s.path ∧ t.buckets = s.buckets ∧ t.qos = s.qos ∧ t.stk = s.stk ∧ t.chans = s.chans ∧
    t.pcs = s.pcs ∧ t.kb = s.kb ∧ t.power = s.power ∧ t.hub = s.hub ∧ t.dies = s.dies ∧ t.compute = s.compute ∧
    t.infusers = s.infusers ∧ t.peers = s.peers ∧ t.twin = s.twin ∧ t.late = s.late ∧ t.exers = s.exers ∧
    t.dbg = s.dbg ∧ t.doze = s.doze ∧ t.refcode = s.refcode ∧ t.freeCount = s.freeCount := by
  obtain ⟨_, _, _, _, rfl⟩ := h
  simp

theorem EventFrame.hbm : t.hbm = s.hbm := by obtain ⟨_, _, _, _, rfl⟩ := h; rfl
theorem EventFrame.pot : t.pot = s.pot := by obtain ⟨_, _, _, _, rfl⟩ := h; rfl
theorem EventFrame.cfg : t.cfg = s.cfg := by obtain ⟨_, _, _, _, rfl⟩ := h; rfl
theorem EventFrame.cmds : t.cmds = s.cmds := by obtain ⟨_, _, _, _, rfl⟩ := h; rfl
theorem EventFrame.pending : t.pending = s.pending := by obtain ⟨_, _, _, _, rfl⟩ := h; rfl
end

/-! ## Mailbox commands -/

/-- A command that is not taken has no effect. -/
theorem mailbox_idle (op : Nat) (c : Cmd) (work : State → Reply) (s : State) (ht : taken op c s = false) :
    mailbox op c work s = s := by
  simp [mailbox, ht]

/-- A command that the gate turns away completes with the gate's status, and does nothing else. -/
theorem mailbox_refused (op : Nat) (c : Cmd) (work : State → Reply) (s : State) (st : Nat) (ht : taken op c s = true)
    (hg : gate op c s = some st) : mailbox op c work s = finish op c st [] s := by
  simp [mailbox, ht, hg]

/-- A command that is taken does its work; what the work answers ends it, or keeps it executing. -/
theorem mailbox_taken (op : Nat) (c : Cmd) (work : State → Reply) (s : State) (ht : taken op c s = true)
    (hg : gate op c s = none) :
    mailbox op c work s =
      match work s with
      | .done s' st r => finish op c st r s'
      | .wait s' => hold op c s'
      | .over s' => s' := by
  simp only [mailbox, ht, hg]
  cases work s <;> rfl

/-- A mailbox command ends with what its work stored: neither the refusal nor the completion touches stored bytes. -/
theorem finish_contents (op : Nat) (c : Cmd) (st : Nat) (r : List Byte) (s : State) :
    (finish op c st r s).hbm = s.hbm ∧ (finish op c st r s).pot = s.pot := by
  unfold finish
  simp only
  split
  · exact ⟨rfl, rfl⟩
  · split <;> exact ⟨rfl, rfl⟩

theorem hold_contents (op : Nat) (c : Cmd) (s : State) : (hold op c s).hbm = s.hbm ∧ (hold op c s).pot = s.pot := by
  unfold hold
  split <;> exact ⟨rfl, rfl⟩

/-! ## Admission (R42) -/

/-- An admitted debit is covered by the allowance of its unit and taken from the allowances, and nothing else changes. -/
theorem allow_some {unit debit : Nat} {s t : State} (h : allow unit debit s = some t) :
    debit ≤ allowanceOf s unit ∧ t = { s with kettle := { s.kettle with
      allowance := s.kettle.allowance - debit, altAllowance := s.kettle.altAllowance - debit } } := by
  unfold allow at h
  split at h
  · cases h
  · split at h
    · exact ⟨‹_›, by simpa using h.symm⟩
    · cases h

end Sys2Proof.Machine
end

