-- ==== Sys2Proof/Laws/PerInstr.lean ====
section
/-! SUPPORT. One law per constructor: an opcode fits the 16-bit field of a command slot (Table 4.8) and has a row in the
access column of Table 20.2. A row that is not a mailbox command has no opcode. -/

namespace Sys2Proof.Laws.Opcode

open Sys2Proof
open Sys2Proof.Machine

/-- The opcode of an instruction, where it has one, fits 16 bits and has an access row. -/
def Statement (i : Instr) : Prop := ∀ op, opcodeOf i = some op → op < 65536 ∧ (accessOf op).isSome = true

theorem of_some {i : Instr} {n : Nat} (h : opcodeOf i = some n) (hn : n < 65536)
    (ha : (accessOf n).isSome = true) : Statement i := by
  intro op ho
  obtain rfl : n = op := by simpa [h] using ho
  exact ⟨hn, ha⟩

theorem of_none {i : Instr} (h : opcodeOf i = none) : Statement i := fun op ho => by simp [h] at ho

theorem identify (c : Cmd) : Statement (.identify c) := of_some rfl (by decide) rfl
theorem capabilities (c : Cmd) : Statement (.capabilities c) := of_some rfl (by decide) rfl
theorem fwVersion (c : Cmd) : Statement (.fwVersion c) := of_some rfl (by decide) rfl
theorem functionSteepPerm (c : Cmd) : Statement (.functionSteepPerm c) := of_some rfl (by decide) rfl
theorem functionGetPerm (c : Cmd) : Statement (.functionGetPerm c) := of_some rfl (by decide) rfl
theorem warmReset (c : Cmd) : Statement (.warmReset c) := of_some rfl (by decide) rfl
theorem partitionReset (c : Cmd) : Statement (.partitionReset c) := of_some rfl (by decide) rfl
theorem bootStatus (c : Cmd) : Statement (.bootStatus c) := of_some rfl (by decide) rfl
theorem configPour (c : Cmd) : Statement (.configPour c) := of_some rfl (by decide) rfl
theorem configDiscard (c : Cmd) : Statement (.configDiscard c) := of_some rfl (by decide) rfl
theorem configStatus (c : Cmd) : Statement (.configStatus c) := of_some rfl (by decide) rfl
theorem configUndo (c : Cmd) : Statement (.configUndo c) := of_some rfl (by decide) rfl
theorem configDrain (c : Cmd) : Statement (.configDrain c) := of_some rfl (by decide) rfl
theorem configOpen (c : Cmd) : Statement (.configOpen c) := of_some rfl (by decide) rfl
theorem configStoreInfo (c : Cmd) : Statement (.configStoreInfo c) := of_some rfl (by decide) rfl
theorem partitionSteepExtents (c : Cmd) : Statement (.partitionSteepExtents c) := of_some rfl (by decide) rfl
theorem partitionSteepColour (c : Cmd) : Statement (.partitionSteepColour c) := of_some rfl (by decide) rfl
theorem partitionSteepPot (c : Cmd) : Statement (.partitionSteepPot c) := of_some rfl (by decide) rfl
theorem hashSteepMasks (c : Cmd) : Statement (.hashSteepMasks c) := of_some rfl (by decide) rfl
theorem regulatorSteep (c : Cmd) : Statement (.regulatorSteep c) := of_some rfl (by decide) rfl
theorem partitionInfo (c : Cmd) : Statement (.partitionInfo c) := of_some rfl (by decide) rfl
theorem partitionRinse (c : Cmd) : Statement (.partitionRinse c) := of_some rfl (by decide) rfl
theorem rinseControl (c : Cmd) : Statement (.rinseControl c) := of_some rfl (by decide) rfl
theorem addressTranslate (c : Cmd) : Statement (.addressTranslate c) := of_some rfl (by decide) rfl
theorem remapRead (c : Cmd) : Statement (.remapRead c) := of_some rfl (by decide) rfl
theorem regulatorStatus (c : Cmd) : Statement (.regulatorStatus c) := of_some rfl (by decide) rfl
theorem latencySteepTargets (c : Cmd) : Statement (.latencySteepTargets c) := of_some rfl (by decide) rfl
theorem latencyGetTargets (c : Cmd) : Statement (.latencyGetTargets c) := of_some rfl (by decide) rfl
theorem qosStatus (c : Cmd) : Statement (.qosStatus c) := of_some rfl (by decide) rfl
theorem schedSteepPolicy (c : Cmd) : Statement (.schedSteepPolicy c) := of_some rfl (by decide) rfl
theorem pcStatus (c : Cmd) : Statement (.pcStatus c) := of_some rfl (by decide) rfl
theorem schedStatus (c : Cmd) : Statement (.schedStatus c) := of_some rfl (by decide) rfl
theorem refreshStatus (c : Cmd) : Statement (.refreshStatus c) := of_some rfl (by decide) rfl
theorem disturbSteepMode (c : Cmd) : Statement (.disturbSteepMode c) := of_some rfl (by decide) rfl
theorem disturbSteepLimits (c : Cmd) : Statement (.disturbSteepLimits c) := of_some rfl (by decide) rfl
theorem disturbStatus (c : Cmd) : Statement (.disturbStatus c) := of_some rfl (by decide) rfl
theorem stackSleep (c : Cmd) : Statement (.stackSleep c) := of_some rfl (by decide) rfl
theorem stackWake (c : Cmd) : Statement (.stackWake c) := of_some rfl (by decide) rfl
theorem dozeEnter (c : Cmd) : Statement (.dozeEnter c) := of_some rfl (by decide) rfl
theorem lowpowerStatus (c : Cmd) : Statement (.lowpowerStatus c) := of_some rfl (by decide) rfl
theorem integrityStatus (c : Cmd) : Statement (.integrityStatus c) := of_some rfl (by decide) rfl
theorem integritySteepPolicy (c : Cmd) : Statement (.integritySteepPolicy c) := of_some rfl (by decide) rfl
theorem retirePending (c : Cmd) : Statement (.retirePending c) := of_some rfl (by decide) rfl
theorem retirePage (c : Cmd) : Statement (.retirePage c) := of_some rfl (by decide) rfl
theorem retireList (c : Cmd) : Statement (.retireList c) := of_some rfl (by decide) rfl
theorem poisonInject (c : Cmd) : Statement (.poisonInject c) := of_some rfl (by decide) rfl
theorem repairStatus (c : Cmd) : Statement (.repairStatus c) := of_some rfl (by decide) rfl
theorem repairRow (c : Cmd) : Statement (.repairRow c) := of_some rfl (by decide) rfl
theorem repairLane (c : Cmd) : Statement (.repairLane c) := of_some rfl (by decide) rfl
theorem mapoutChannel (c : Cmd) : Statement (.mapoutChannel c) := of_some rfl (by decide) rfl
theorem foldStatus (c : Cmd) : Statement (.foldStatus c) := of_some rfl (by decide) rfl
theorem foldTableRead (c : Cmd) : Statement (.foldTableRead c) := of_some rfl (by decide) rfl
theorem calStatus (c : Cmd) : Statement (.calStatus c) := of_some rfl (by decide) rfl
theorem calRefStatus (c : Cmd) : Statement (.calRefStatus c) := of_some rfl (by decide) rfl
theorem calStackSummary (c : Cmd) : Statement (.calStackSummary c) := of_some rfl (by decide) rfl
theorem kettleStatus (c : Cmd) : Statement (.kettleStatus c) := of_some rfl (by decide) rfl
theorem kettleSteepLimits (c : Cmd) : Statement (.kettleSteepLimits c) := of_some rfl (by decide) rfl
theorem kettleGetLimits (c : Cmd) : Statement (.kettleGetLimits c) := of_some rfl (by decide) rfl
theorem kettleSteepTrim (c : Cmd) : Statement (.kettleSteepTrim c) := of_some rfl (by decide) rfl
theorem kettleQuiesce (c : Cmd) : Statement (.kettleQuiesce c) := of_some rfl (by decide) rfl
theorem kettleJobTiming (c : Cmd) : Statement (.kettleJobTiming c) := of_some rfl (by decide) rfl
theorem kbSteepMaster (c : Cmd) : Statement (.kbSteepMaster c) := of_some rfl (by decide) rfl
theorem kbSendAdmin (c : Cmd) : Statement (.kbSendAdmin c) := of_some rfl (by decide) rfl
theorem kbChainInfo (c : Cmd) : Statement (.kbChainInfo c) := of_some rfl (by decide) rfl
theorem pdStatus (c : Cmd) : Statement (.pdStatus c) := of_some rfl (by decide) rfl
theorem pdSteepGate (c : Cmd) : Statement (.pdSteepGate c) := of_some rfl (by decide) rfl
theorem vcoreStatus (c : Cmd) : Statement (.vcoreStatus c) := of_some rfl (by decide) rfl
theorem vcoreSteepTarget (c : Cmd) : Statement (.vcoreSteepTarget c) := of_some rfl (by decide) rfl
theorem thermalStatus (c : Cmd) : Statement (.thermalStatus c) := of_some rfl (by decide) rfl
theorem hubThermalStatus (c : Cmd) : Statement (.hubThermalStatus c) := of_some rfl (by decide) rfl
theorem latenessStatus (c : Cmd) : Statement (.latenessStatus c) := of_some rfl (by decide) rfl
theorem thermalSteepAdvisory (c : Cmd) : Statement (.thermalSteepAdvisory c) := of_some rfl (by decide) rfl
theorem brewStart (c : Cmd) : Statement (.brewStart c) := of_some rfl (by decide) rfl
theorem brewStatus (c : Cmd) : Statement (.brewStatus c) := of_some rfl (by decide) rfl
theorem brewStop (c : Cmd) : Statement (.brewStop c) := of_some rfl (by decide) rfl
theorem tileStatus (c : Cmd) : Statement (.tileStatus c) := of_some rfl (by decide) rfl
theorem tileSteepPolicy (c : Cmd) : Statement (.tileSteepPolicy c) := of_some rfl (by decide) rfl
theorem potStatus (c : Cmd) : Statement (.potStatus c) := of_some rfl (by decide) rfl
theorem infuserStatus (c : Cmd) : Statement (.infuserStatus c) := of_some rfl (by decide) rfl
theorem infuserPrepare (c : Cmd) : Statement (.infuserPrepare c) := of_some rfl (by decide) rfl
theorem infuseNtt (c : Cmd) : Statement (.infuseNtt c) := of_some rfl (by decide) rfl
theorem infuseIntt (c : Cmd) : Statement (.infuseIntt c) := of_some rfl (by decide) rfl
theorem infusePointwise (c : Cmd) : Statement (.infusePointwise c) := of_some rfl (by decide) rfl
theorem infuseAutomorph (c : Cmd) : Statement (.infuseAutomorph c) := of_some rfl (by decide) rfl
theorem infuseRescale (c : Cmd) : Statement (.infuseRescale c) := of_some rfl (by decide) rfl
theorem infuseBaseconv (c : Cmd) : Statement (.infuseBaseconv c) := of_some rfl (by decide) rfl
theorem infuseKeyswitch (c : Cmd) : Statement (.infuseKeyswitch c) := of_some rfl (by decide) rfl
theorem peerStatus (c : Cmd) : Statement (.peerStatus c) := of_some rfl (by decide) rfl
theorem peerSteepPort (c : Cmd) : Statement (.peerSteepPort c) := of_some rfl (by decide) rfl
theorem peerSteepConn (c : Cmd) : Statement (.peerSteepConn c) := of_some rfl (by decide) rfl
theorem peerSteepHandle (c : Cmd) : Statement (.peerSteepHandle c) := of_some rfl (by decide) rfl
theorem peerConnStatus (c : Cmd) : Statement (.peerConnStatus c) := of_some rfl (by decide) rfl
theorem twinSteep (c : Cmd) : Statement (.twinSteep c) := of_some rfl (by decide) rfl
theorem twinSteepPartition (c : Cmd) : Statement (.twinSteepPartition c) := of_some rfl (by decide) rfl
theorem twinStatus (c : Cmd) : Statement (.twinStatus c) := of_some rfl (by decide) rfl
theorem peerOp (c : Cmd) : Statement (.peerOp c) := of_some rfl (by decide) rfl
theorem twinTakeover (c : Cmd) : Statement (.twinTakeover c) := of_some rfl (by decide) rfl
theorem spoutSteep (c : Cmd) : Statement (.spoutSteep c) := of_some rfl (by decide) rfl
theorem spoutStatus (c : Cmd) : Statement (.spoutStatus c) := of_some rfl (by decide) rfl
theorem telemetrySnapshot (c : Cmd) : Statement (.telemetrySnapshot c) := of_some rfl (by decide) rfl
theorem tenantDumpAttach (c : Cmd) : Statement (.tenantDumpAttach c) := of_some rfl (by decide) rfl
theorem eventLogRead (c : Cmd) : Statement (.eventLogRead c) := of_some rfl (by decide) rfl
theorem eventLogClear (c : Cmd) : Statement (.eventLogClear c) := of_some rfl (by decide) rfl
theorem debugSteepMux (c : Cmd) : Statement (.debugSteepMux c) := of_some rfl (by decide) rfl
theorem benchEnter (c : Cmd) : Statement (.benchEnter c) := of_some rfl (by decide) rfl
theorem benchExit (c : Cmd) : Statement (.benchExit c) := of_some rfl (by decide) rfl
theorem exerStart (c : Cmd) : Statement (.exerStart c) := of_some rfl (by decide) rfl
theorem exerStop (c : Cmd) : Statement (.exerStop c) := of_some rfl (by decide) rfl
theorem exerStatus (c : Cmd) : Statement (.exerStatus c) := of_some rfl (by decide) rfl
theorem exerCaptureRead (c : Cmd) : Statement (.exerCaptureRead c) := of_some rfl (by decide) rfl
theorem testNonce (c : Cmd) : Statement (.testNonce c) := of_some rfl (by decide) rfl
theorem testUnlock (c : Cmd) : Statement (.testUnlock c) := of_some rfl (by decide) rfl
theorem testStackAccess (c : Cmd) (dataOut : List Byte) :
    Statement (.testStackAccess c dataOut) := of_some rfl (by decide) rfl
theorem fwStatus (c : Cmd) : Statement (.fwStatus c) := of_some rfl (by decide) rfl
theorem fwBankErase (c : Cmd) : Statement (.fwBankErase c) := of_some rfl (by decide) rfl
theorem fwBankWrite (c : Cmd) : Statement (.fwBankWrite c) := of_some rfl (by decide) rfl
theorem fwBankActivate (c : Cmd) : Statement (.fwBankActivate c) := of_some rfl (by decide) rfl
theorem fwBootNext (c : Cmd) : Statement (.fwBootNext c) := of_some rfl (by decide) rfl
theorem flashInfo (c : Cmd) : Statement (.flashInfo c) := of_some rfl (by decide) rfl
theorem mbxDoorbellWrite (k : Fin 128) (v : Word32) : Statement (.mbxDoorbellWrite k v) := of_none rfl
theorem mbxEnable (k : Fin 128) (on : Bool) : Statement (.mbxEnable k on) := of_none rfl
theorem mbxEventsEnable (k : Fin 128) (on : Bool) : Statement (.mbxEventsEnable k on) := of_none rfl
theorem mbxReset (k : Fin 128) : Statement (.mbxReset k) := of_none rfl
theorem intStatusClear (k : Fin 128) (v : Word32) : Statement (.intStatusClear k v) := of_none rfl
theorem kettleFlagsClear (k : Fin 128) (v : Word32) : Statement (.kettleFlagsClear k v) := of_none rfl
theorem timebaseRead (k : Fin 128) (r : RegRead) : Statement (.timebaseRead k r) := of_none rfl
theorem bar0RegisterWrite (k : Fin 128) (off : BitVec 16) (width : Nat) (v : Word64) :
    Statement (.bar0RegisterWrite k off width v) := of_none rfl
theorem commandFetch (k : Fin 128) (slot hostIn : List Byte) : Statement (.commandFetch k slot hostIn) := of_none rfl
theorem orderedCommandStart (issuer : Issuer) (seq : BitVec 16) :
    Statement (.orderedCommandStart issuer seq) := of_none rfl
theorem completionWrite (issuer : Issuer) (idx : Nat) : Statement (.completionWrite issuer idx) := of_none rfl
theorem intCoalesceTimeout (k : Fin 128) : Statement (.intCoalesceTimeout k) := of_none rfl
theorem mbxResetDone (k : Fin 128) : Statement (.mbxResetDone k) := of_none rfl
theorem ringAccessFault (k : Fin 128) (which : RingAccess) : Statement (.ringAccessFault k which) := of_none rfl
theorem hostAccessFault (op : BitVec 16) (c : Cmd) (write : Bool) (pagesDone : Nat) :
    Statement (.hostAccessFault op c write pagesDone) := of_none rfl
theorem porNRise (straps : BitVec 6) : Statement (.porNRise straps) := of_none rfl
theorem pgCoreRise : Statement .pgCoreRise := of_none rfl
theorem perstNLow : Statement .perstNLow := of_none rfl
theorem hostHotReset : Statement .hostHotReset := of_none rfl
theorem warmResetDelayExpiry : Statement .warmResetDelayExpiry := of_none rfl
theorem functionLevelReset (k : Fin 128) : Statement (.functionLevelReset k) := of_none rfl
theorem pgCoreFall : Statement .pgCoreFall := of_none rfl
theorem pgCoreTimeout : Statement .pgCoreTimeout := of_none rfl
theorem refclkLoss : Statement .refclkLoss := of_none rfl
theorem vauxLoss : Statement .vauxLoss := of_none rfl
theorem stackRailOutOfRange : Statement .stackRailOutOfRange := of_none rfl
theorem avsbusRegulatorFault (rail : Fin 5) : Statement (.avsbusRegulatorFault rail) := of_none rfl
theorem hkpWatchdogExpiry : Statement .hkpWatchdogExpiry := of_none rfl
theorem hkpReloadDone (ok : Bool) : Statement (.hkpReloadDone ok) := of_none rfl
theorem configRequest (k : Fin 128) (tag : Nat) (req : CfgReq) : Statement (.configRequest k tag req) := of_none rfl
theorem bootRomCheckDone (code : Nat) (sfdp : Option Sfdp) : Statement (.bootRomCheckDone code sfdp) := of_none rfl
theorem bootImageLoaded (ok : Bool) : Statement (.bootImageLoaded ok) := of_none rfl
theorem yareskStartDone (avs : Bool) : Statement (.yareskStartDone avs) := of_none rfl
theorem bootSteepDelayExpiry : Statement .bootSteepDelayExpiry := of_none rfl
theorem stackTrainingDone (n : Fin 8) (r : TrainResult) : Statement (.stackTrainingDone n r) := of_none rfl
theorem bootReady : Statement .bootReady := of_none rfl
theorem periodMark (sensors : List Int) : Statement (.periodMark sensors) := of_none rfl
theorem periodWork (die : Fin 9) (dur : Nat) (w : PeriodIn) : Statement (.periodWork die dur w) := of_none rfl
theorem kbFrameReceived (bits : BitVec 64) : Statement (.kbFrameReceived bits) := of_none rfl
theorem kbFrameReturn (bits : BitVec 64) : Statement (.kbFrameReturn bits) := of_none rfl
theorem kbChainAcquire : Statement .kbChainAcquire := of_none rfl
theorem kbMasterLoss : Statement .kbMasterLoss := of_none rfl
theorem kbChainRejoin : Statement .kbChainRejoin := of_none rfl
theorem kbChainOpen : Statement .kbChainOpen := of_none rfl
theorem kbAdminHoldEnd : Statement .kbAdminHoldEnd := of_none rfl
theorem jobStartRelease : Statement .jobStartRelease := of_none rfl
theorem vcoreStep (rail : Fin 5) : Statement (.vcoreStep rail) := of_none rfl
theorem domainPowerOn (d : Fin 96) : Statement (.domainPowerOn d) := of_none rfl
theorem domainPowerOff (d : Fin 96) : Statement (.domainPowerOff d) := of_none rfl
theorem potClearDone (q : Fin 8) : Statement (.potClearDone q) := of_none rfl
theorem kettleQuiesceTimeout : Statement .kettleQuiesceTimeout := of_none rfl
theorem kbSendAdminTimeout : Statement .kbSendAdminTimeout := of_none rfl
theorem bar4Read (k : Fin 128) (tag : Nat) (off : Nat) (len : Nat) :
    Statement (.bar4Read k tag off len) := of_none rfl
theorem bar4Write (k : Fin 128) (off : Nat) (data : List Byte) (ep : Bool) :
    Statement (.bar4Write k off data ep) := of_none rfl
theorem bar4Atomic (k : Fin 128) (tag : Nat) : Statement (.bar4Atomic k tag) := of_none rfl
theorem bar2Read (k : Fin 128) (tag : Nat) (off : Nat) (len : Nat) :
    Statement (.bar2Read k tag off len) := of_none rfl
theorem bar2Write (k : Fin 128) (off : Nat) (data : List Byte) (ep : Bool) :
    Statement (.bar2Write k off data ep) := of_none rfl
theorem bar2Atomic (k : Fin 128) (tag : Nat) (off : Nat) (width : Nat) (op : AtomicOp) :
    Statement (.bar2Atomic k tag off width op) := of_none rfl
theorem regulatorAdmit (id : Nat) : Statement (.regulatorAdmit id) := of_none rfl
theorem kettleAdmit (w : Work) : Statement (.kettleAdmit w) := of_none rfl
theorem queueEntry (id : Nat) : Statement (.queueEntry id) := of_none rfl
theorem commandSlot (pc : Fin 512) (ready : List Nat) (exerReady cosyReady : Bool) :
    Statement (.commandSlot pc ready exerReady cosyReady) := of_none rfl
theorem readDataReturn (src : ReadSrc) (flips : List (Nat × Byte)) :
    Statement (.readDataReturn src flips) := of_none rfl
theorem refreshInstant (pc : Fin 512) (ready : List Nat) : Statement (.refreshInstant pc ready) := of_none rfl
theorem parityAlert (ch : Fin 256) : Statement (.parityAlert ch) := of_none rfl
theorem calibrationDue (pc : Fin 512) : Statement (.calibrationDue pc) := of_none rfl
theorem calibrationForced (pc : Fin 512) : Statement (.calibrationForced pc) := of_none rfl
theorem calibrationEnd (pc : Fin 512) (r : CalResult) : Statement (.calibrationEnd pc r) := of_none rfl
theorem rrefMeasurement (code : Nat) : Statement (.rrefMeasurement code) := of_none rfl
theorem offlineRetrainWindow (ch : Fin 256) : Statement (.offlineRetrainWindow ch) := of_none rfl
theorem offlineRetrainEnd (ch : Fin 256) (failLanes : List (Nat × Nat)) (r0 r1 : CalResult) :
    Statement (.offlineRetrainEnd ch failLanes r0 r1) := of_none rfl
theorem laneRepairWindow (ch : Fin 256) : Statement (.laneRepairWindow ch) := of_none rfl
theorem laneRepairEnd (ch : Fin 256) (ok : Bool) : Statement (.laneRepairEnd ch ok) := of_none rfl
theorem repairScrubDone (pc : Fin 512) : Statement (.repairScrubDone pc) := of_none rfl
theorem rowRepairWindow (ch : Fin 256) : Statement (.rowRepairWindow ch) := of_none rfl
theorem rowRepairEnd (ch : Fin 256) (ok : Bool) : Statement (.rowRepairEnd ch ok) := of_none rfl
theorem mapoutWindowOpen (n : Fin 8) : Statement (.mapoutWindowOpen n) := of_none rfl
theorem mapoutReadTimeout (id : Nat) : Statement (.mapoutReadTimeout id) := of_none rfl
theorem mapoutWindowClose (n : Fin 8) : Statement (.mapoutWindowClose n) := of_none rfl
theorem stackRetireWindow (n : Fin 8) : Statement (.stackRetireWindow n) := of_none rfl
theorem foldPrepDone (n : Fin 8) (extent : Nat) : Statement (.foldPrepDone n extent) := of_none rfl
theorem flashProgramComplete (ok : Bool) : Statement (.flashProgramComplete ok) := of_none rfl
theorem flashEraseComplete (store : Bool) (ok : Bool) : Statement (.flashEraseComplete store ok) := of_none rfl
theorem pourAccept : Statement .pourAccept := of_none rfl
theorem pourComplete : Statement .pourComplete := of_none rfl
theorem storeCompaction : Statement .storeCompaction := of_none rfl
theorem drainComplete (t : Fin 128) : Statement (.drainComplete t) := of_none rfl
theorem drainHoldTimeout (id : Nat) : Statement (.drainHoldTimeout id) := of_none rfl
theorem configDrainTimeout (t : Fin 128) : Statement (.configDrainTimeout t) := of_none rfl
theorem partitionRinseTimeout (t : Fin 128) : Statement (.partitionRinseTimeout t) := of_none rfl
theorem rinseRecordRetry (t : Fin 128) : Statement (.rinseRecordRetry t) := of_none rfl
theorem rinseColourRotate (t : Fin 128) : Statement (.rinseColourRotate t) := of_none rfl
theorem rinseComplete (t : Fin 128) : Statement (.rinseComplete t) := of_none rfl
theorem extentJoinDone (t : Fin 128) (n : Fin 8) (extent : Nat) :
    Statement (.extentJoinDone t n extent) := of_none rfl
theorem stackThermalSample (n : Fin 8) (readings : List Int) :
    Statement (.stackThermalSample n readings) := of_none rfl
theorem scaldAbortTimeout (w : ScaldWait) : Statement (.scaldAbortTimeout w) := of_none rfl
theorem scaldExit (n : Fin 8) : Statement (.scaldExit n) := of_none rfl
theorem hubThrottleStep : Statement .hubThrottleStep := of_none rfl
theorem hubThrottleRecoveryStep : Statement .hubThrottleRecoveryStep := of_none rfl
theorem latenessAdvisory (n : Fin 8) (coll : Word32) : Statement (.latenessAdvisory n coll) := of_none rfl
theorem selfRefreshEntry (ch : Fin 256) : Statement (.selfRefreshEntry ch) := of_none rfl
theorem selfRefreshExit (ch : Fin 256) : Statement (.selfRefreshExit ch) := of_none rfl
theorem selfRefreshExitDone (ch : Fin 256) : Statement (.selfRefreshExitDone ch) := of_none rfl
theorem hostLinkL2 : Statement .hostLinkL2 := of_none rfl
theorem dozeL2Timeout : Statement .dozeL2Timeout := of_none rfl
theorem descriptorFetch (h : Fin 64) : Statement (.descriptorFetch h) := of_none rfl
theorem descriptorStart (h : Fin 64) : Statement (.descriptorStart h) := of_none rfl
theorem descriptorComplete (h : Fin 64) (id : Nat) : Statement (.descriptorComplete h id) := of_none rfl
theorem waitSatisfied (h : Fin 64) : Statement (.waitSatisfied h) := of_none rfl
theorem waitTimeoutExpiry (h : Fin 64) : Statement (.waitTimeoutExpiry h) := of_none rfl
theorem infuserOpStart (n : Fin 8) : Statement (.infuserOpStart n) := of_none rfl
theorem infuserOpComplete (n : Fin 8) (how : InfuserEnd) : Statement (.infuserOpComplete n how) := of_none rfl
theorem peerLinkUp (k : Fin 4) : Statement (.peerLinkUp k) := of_none rfl
theorem peerLinkDown (k : Fin 4) : Statement (.peerLinkDown k) := of_none rfl
theorem peerOpenRepeat (k : Fin 4) (conn : Fin 65) : Statement (.peerOpenRepeat k conn) := of_none rfl
theorem peerRtoExpiry (k : Fin 4) (conn : Fin 65) : Statement (.peerRtoExpiry k conn) := of_none rfl
theorem peerAckSend (k : Fin 4) (conn : Fin 65) : Statement (.peerAckSend k conn) := of_none rfl
theorem putFrame (k : Fin 4) (f : Frame) : Statement (.putFrame k f) := of_none rfl
theorem getRequestFrame (k : Fin 4) (f : Frame) : Statement (.getRequestFrame k f) := of_none rfl
theorem getDataFrame (k : Fin 4) (f : Frame) : Statement (.getDataFrame k f) := of_none rfl
theorem reducePutFrame (k : Fin 4) (f : Frame) : Statement (.reducePutFrame k f) := of_none rfl
theorem signalFrame (k : Fin 4) (f : Frame) : Statement (.signalFrame k f) := of_none rfl
theorem responseFrame (k : Fin 4) (f : Frame) : Statement (.responseFrame k f) := of_none rfl
theorem ackFrame (k : Fin 4) (f : Frame) : Statement (.ackFrame k f) := of_none rfl
theorem nakFrame (k : Fin 4) (f : Frame) : Statement (.nakFrame k f) := of_none rfl
theorem openFrame (k : Fin 4) (f : Frame) : Statement (.openFrame k f) := of_none rfl
theorem openAckFrame (k : Fin 4) (f : Frame) : Statement (.openAckFrame k f) := of_none rfl
theorem advisoryFrame (k : Fin 4) (f : Frame) : Statement (.advisoryFrame k f) := of_none rfl
theorem heartbeatFrame (k : Fin 4) (f : Frame) : Statement (.heartbeatFrame k f) := of_none rfl
theorem mirrorFrame (k : Fin 4) (f : Frame) : Statement (.mirrorFrame k f) := of_none rfl
theorem copyFrame (k : Fin 4) (f : Frame) : Statement (.copyFrame k f) := of_none rfl
theorem stateFrame (k : Fin 4) (f : Frame) : Statement (.stateFrame k f) := of_none rfl
theorem handoverFrame (k : Fin 4) (f : Frame) : Statement (.handoverFrame k f) := of_none rfl
theorem pauseFrame (k : Fin 4) (quanta : Nat) (classes : Option Byte) :
    Statement (.pauseFrame k quanta classes) := of_none rfl
theorem twinHeartbeatMark : Statement .twinHeartbeatMark := of_none rfl
theorem twinLagBoundExpiry (t : Fin 128) : Statement (.twinLagBoundExpiry t) := of_none rfl
theorem twinBootWaitExpiry : Statement .twinBootWaitExpiry := of_none rfl
theorem twinTakeoverTimeout (t : Fin 128) : Statement (.twinTakeoverTimeout t) := of_none rfl
theorem resyncComplete (t : Fin 128) : Statement (.resyncComplete t) := of_none rfl
theorem dumpMark (consumers : List (Nat × Nat)) : Statement (.dumpMark consumers) := of_none rfl
theorem spoutRingFault (ring : Option (Fin 128)) (fault : Fin 4) :
    Statement (.spoutRingFault ring fault) := of_none rfl
theorem mctpCommandMessage (message hostIn : List Byte) : Statement (.mctpCommandMessage message hostIn) := of_none rfl
theorem mctpTelemetryCounters (first count : Nat) : Statement (.mctpTelemetryCounters first count) := of_none rfl
theorem mctpTelemetryLog (first : Word32) (count : Nat) : Statement (.mctpTelemetryLog first count) := of_none rfl
theorem mctpTelemetrySpoutStatus : Statement .mctpTelemetrySpoutStatus := of_none rfl
theorem exerRunDone (n : Fin 8) : Statement (.exerRunDone n) := of_none rfl
theorem exerRestoreDone (n : Fin 8) : Statement (.exerRestoreDone n) := of_none rfl
theorem refclkReturn : Statement .refclkReturn := of_none rfl
theorem vauxReturn : Statement .vauxReturn := of_none rfl
theorem perstNRise : Statement .perstNRise := of_none rfl
theorem configSpaceLoaded : Statement .configSpaceLoaded := of_none rfl
theorem tapInstructionUpdate (i : TapInstr) : Statement (.tapInstructionUpdate i) := of_none rfl
theorem tapTestLogicReset : Statement .tapTestLogicReset := of_none rfl
theorem mctpSetEndpointId (eid : Byte) : Statement (.mctpSetEndpointId eid) := of_none rfl
theorem smbusClockLowTimeout : Statement .smbusClockLowTimeout := of_none rfl
theorem badPeerFrame (k : Fin 4) (why : BadFrame) : Statement (.badPeerFrame k why) := of_none rfl
theorem pauseTimeExpiry (k : Fin 4) : Statement (.pauseTimeExpiry k) := of_none rfl

end Sys2Proof.Laws.Opcode
end

