-- ==== Sys2Proof/Laws/Updates.lean ====
section
/-! SUPPORT. Laws of State for the requests, the accesses, the buckets, the flash jobs and the debug ports: what each update
gives each field. -/

namespace Sys2Proof.Machine

open Sys2Proof

theorem bucketOf_setBucket (t n : Nat) (b : Bucket) (s : State) : bucketOf (setBucket t n b s) t n = b := tget_tset_self _ _ _ _
theorem muxPort_setMuxPort_zero (p : MuxPort) (s : State) : muxPort (setMuxPort 0 p s) 0 = p := rfl
theorem muxPort_setMuxPort_one (p : MuxPort) (s : State) : muxPort (setMuxPort 1 p s) 1 = p := rfl

@[simp] theorem modAccess_pending (id : Nat) (f : Access → Access) (s : State) :
    (modAccess id f s).pending = s.pending := rfl
@[simp] theorem modAccess_ident (id : Nat) (f : Access → Access) (s : State) : (modAccess id f s).ident = s.ident := rfl
@[simp] theorem modAccess_pins (id : Nat) (f : Access → Access) (s : State) : (modAccess id f s).pins = s.pins := rfl
@[simp] theorem modAccess_clock (id : Nat) (f : Access → Access) (s : State) : (modAccess id f s).clock = s.clock := rfl
@[simp] theorem modAccess_boot (id : Nat) (f : Access → Access) (s : State) : (modAccess id f s).boot = s.boot := rfl
@[simp] theorem modAccess_flash (id : Nat) (f : Access → Access) (s : State) : (modAccess id f s).flash = s.flash := rfl
@[simp] theorem modAccess_fns (id : Nat) (f : Access → Access) (s : State) : (modAccess id f s).fns = s.fns := rfl
@[simp] theorem modAccess_cmds (id : Nat) (f : Access → Access) (s : State) : (modAccess id f s).cmds = s.cmds := rfl
@[simp] theorem modAccess_cfg (id : Nat) (f : Access → Access) (s : State) : (modAccess id f s).cfg = s.cfg := rfl
@[simp] theorem modAccess_parts (id : Nat) (f : Access → Access) (s : State) : (modAccess id f s).parts = s.parts := rfl
@[simp] theorem modAccess_hbm (id : Nat) (f : Access → Access) (s : State) : (modAccess id f s).hbm = s.hbm := rfl
@[simp] theorem modAccess_pot (id : Nat) (f : Access → Access) (s : State) : (modAccess id f s).pot = s.pot := rfl
@[simp] theorem modAccess_path (id : Nat) (f : Access → Access) (s : State) :
    (modAccess id f s).path = { s.path with accesses := modFirst s.path.accesses (fun a => a.id == id) f } := rfl
@[simp] theorem modAccess_buckets (id : Nat) (f : Access → Access) (s : State) :
    (modAccess id f s).buckets = s.buckets := rfl
@[simp] theorem modAccess_qos (id : Nat) (f : Access → Access) (s : State) : (modAccess id f s).qos = s.qos := rfl
@[simp] theorem modAccess_stk (id : Nat) (f : Access → Access) (s : State) : (modAccess id f s).stk = s.stk := rfl
@[simp] theorem modAccess_chans (id : Nat) (f : Access → Access) (s : State) : (modAccess id f s).chans = s.chans := rfl
@[simp] theorem modAccess_pcs (id : Nat) (f : Access → Access) (s : State) : (modAccess id f s).pcs = s.pcs := rfl
@[simp] theorem modAccess_kettle (id : Nat) (f : Access → Access) (s : State) :
    (modAccess id f s).kettle = s.kettle := rfl
@[simp] theorem modAccess_kb (id : Nat) (f : Access → Access) (s : State) : (modAccess id f s).kb = s.kb := rfl
@[simp] theorem modAccess_power (id : Nat) (f : Access → Access) (s : State) : (modAccess id f s).power = s.power := rfl
@[simp] theorem modAccess_hub (id : Nat) (f : Access → Access) (s : State) : (modAccess id f s).hub = s.hub := rfl
@[simp] theorem modAccess_dies (id : Nat) (f : Access → Access) (s : State) : (modAccess id f s).dies = s.dies := rfl
@[simp] theorem modAccess_compute (id : Nat) (f : Access → Access) (s : State) :
    (modAccess id f s).compute = s.compute := rfl
@[simp] theorem modAccess_infusers (id : Nat) (f : Access → Access) (s : State) :
    (modAccess id f s).infusers = s.infusers := rfl
@[simp] theorem modAccess_peers (id : Nat) (f : Access → Access) (s : State) : (modAccess id f s).peers = s.peers := rfl
@[simp] theorem modAccess_twin (id : Nat) (f : Access → Access) (s : State) : (modAccess id f s).twin = s.twin := rfl
@[simp] theorem modAccess_tele (id : Nat) (f : Access → Access) (s : State) : (modAccess id f s).tele = s.tele := rfl
@[simp] theorem modAccess_late (id : Nat) (f : Access → Access) (s : State) : (modAccess id f s).late = s.late := rfl
@[simp] theorem modAccess_exers (id : Nat) (f : Access → Access) (s : State) : (modAccess id f s).exers = s.exers := rfl
@[simp] theorem modAccess_dbg (id : Nat) (f : Access → Access) (s : State) : (modAccess id f s).dbg = s.dbg := rfl
@[simp] theorem modAccess_doze (id : Nat) (f : Access → Access) (s : State) : (modAccess id f s).doze = s.doze := rfl
@[simp] theorem modAccess_refcode (id : Nat) (f : Access → Access) (s : State) :
    (modAccess id f s).refcode = s.refcode := rfl
@[simp] theorem modAccess_out (id : Nat) (f : Access → Access) (s : State) : (modAccess id f s).out = s.out := rfl
@[simp] theorem modAccess_freeCount (id : Nat) (f : Access → Access) (s : State) :
    (modAccess id f s).freeCount = s.freeCount := rfl

@[simp] theorem dropAccess_pending (id : Nat) (s : State) : (dropAccess id s).pending = s.pending := rfl
@[simp] theorem dropAccess_ident (id : Nat) (s : State) : (dropAccess id s).ident = s.ident := rfl
@[simp] theorem dropAccess_pins (id : Nat) (s : State) : (dropAccess id s).pins = s.pins := rfl
@[simp] theorem dropAccess_clock (id : Nat) (s : State) : (dropAccess id s).clock = s.clock := rfl
@[simp] theorem dropAccess_boot (id : Nat) (s : State) : (dropAccess id s).boot = s.boot := rfl
@[simp] theorem dropAccess_flash (id : Nat) (s : State) : (dropAccess id s).flash = s.flash := rfl
@[simp] theorem dropAccess_fns (id : Nat) (s : State) : (dropAccess id s).fns = s.fns := rfl
@[simp] theorem dropAccess_cmds (id : Nat) (s : State) : (dropAccess id s).cmds = s.cmds := rfl
@[simp] theorem dropAccess_cfg (id : Nat) (s : State) : (dropAccess id s).cfg = s.cfg := rfl
@[simp] theorem dropAccess_parts (id : Nat) (s : State) : (dropAccess id s).parts = s.parts := rfl
@[simp] theorem dropAccess_hbm (id : Nat) (s : State) : (dropAccess id s).hbm = s.hbm := rfl
@[simp] theorem dropAccess_pot (id : Nat) (s : State) : (dropAccess id s).pot = s.pot := rfl
@[simp] theorem dropAccess_path (id : Nat) (s : State) :
    (dropAccess id s).path = { s.path with accesses := s.path.accesses.filter (fun a => a.id != id) } := rfl
@[simp] theorem dropAccess_buckets (id : Nat) (s : State) : (dropAccess id s).buckets = s.buckets := rfl
@[simp] theorem dropAccess_qos (id : Nat) (s : State) : (dropAccess id s).qos = s.qos := rfl
@[simp] theorem dropAccess_stk (id : Nat) (s : State) : (dropAccess id s).stk = s.stk := rfl
@[simp] theorem dropAccess_chans (id : Nat) (s : State) : (dropAccess id s).chans = s.chans := rfl
@[simp] theorem dropAccess_pcs (id : Nat) (s : State) : (dropAccess id s).pcs = s.pcs := rfl
@[simp] theorem dropAccess_kettle (id : Nat) (s : State) : (dropAccess id s).kettle = s.kettle := rfl
@[simp] theorem dropAccess_kb (id : Nat) (s : State) : (dropAccess id s).kb = s.kb := rfl
@[simp] theorem dropAccess_power (id : Nat) (s : State) : (dropAccess id s).power = s.power := rfl
@[simp] theorem dropAccess_hub (id : Nat) (s : State) : (dropAccess id s).hub = s.hub := rfl
@[simp] theorem dropAccess_dies (id : Nat) (s : State) : (dropAccess id s).dies = s.dies := rfl
@[simp] theorem dropAccess_compute (id : Nat) (s : State) : (dropAccess id s).compute = s.compute := rfl
@[simp] theorem dropAccess_infusers (id : Nat) (s : State) : (dropAccess id s).infusers = s.infusers := rfl
@[simp] theorem dropAccess_peers (id : Nat) (s : State) : (dropAccess id s).peers = s.peers := rfl
@[simp] theorem dropAccess_twin (id : Nat) (s : State) : (dropAccess id s).twin = s.twin := rfl
@[simp] theorem dropAccess_tele (id : Nat) (s : State) : (dropAccess id s).tele = s.tele := rfl
@[simp] theorem dropAccess_late (id : Nat) (s : State) : (dropAccess id s).late = s.late := rfl
@[simp] theorem dropAccess_exers (id : Nat) (s : State) : (dropAccess id s).exers = s.exers := rfl
@[simp] theorem dropAccess_dbg (id : Nat) (s : State) : (dropAccess id s).dbg = s.dbg := rfl
@[simp] theorem dropAccess_doze (id : Nat) (s : State) : (dropAccess id s).doze = s.doze := rfl
@[simp] theorem dropAccess_refcode (id : Nat) (s : State) : (dropAccess id s).refcode = s.refcode := rfl
@[simp] theorem dropAccess_out (id : Nat) (s : State) : (dropAccess id s).out = s.out := rfl
@[simp] theorem dropAccess_freeCount (id : Nat) (s : State) : (dropAccess id s).freeCount = s.freeCount := rfl

@[simp] theorem modReq_pending (id : Nat) (f : Req → Req) (s : State) : (modReq id f s).pending = s.pending := rfl
@[simp] theorem modReq_ident (id : Nat) (f : Req → Req) (s : State) : (modReq id f s).ident = s.ident := rfl
@[simp] theorem modReq_pins (id : Nat) (f : Req → Req) (s : State) : (modReq id f s).pins = s.pins := rfl
@[simp] theorem modReq_clock (id : Nat) (f : Req → Req) (s : State) : (modReq id f s).clock = s.clock := rfl
@[simp] theorem modReq_boot (id : Nat) (f : Req → Req) (s : State) : (modReq id f s).boot = s.boot := rfl
@[simp] theorem modReq_flash (id : Nat) (f : Req → Req) (s : State) : (modReq id f s).flash = s.flash := rfl
@[simp] theorem modReq_fns (id : Nat) (f : Req → Req) (s : State) : (modReq id f s).fns = s.fns := rfl
@[simp] theorem modReq_cmds (id : Nat) (f : Req → Req) (s : State) : (modReq id f s).cmds = s.cmds := rfl
@[simp] theorem modReq_cfg (id : Nat) (f : Req → Req) (s : State) : (modReq id f s).cfg = s.cfg := rfl
@[simp] theorem modReq_parts (id : Nat) (f : Req → Req) (s : State) : (modReq id f s).parts = s.parts := rfl
@[simp] theorem modReq_hbm (id : Nat) (f : Req → Req) (s : State) : (modReq id f s).hbm = s.hbm := rfl
@[simp] theorem modReq_pot (id : Nat) (f : Req → Req) (s : State) : (modReq id f s).pot = s.pot := rfl
@[simp] theorem modReq_path (id : Nat) (f : Req → Req) (s : State) :
    (modReq id f s).path = { s.path with reqs := modFirst s.path.reqs (fun r => r.id == id) f } := rfl
@[simp] theorem modReq_buckets (id : Nat) (f : Req → Req) (s : State) : (modReq id f s).buckets = s.buckets := rfl
@[simp] theorem modReq_qos (id : Nat) (f : Req → Req) (s : State) : (modReq id f s).qos = s.qos := rfl
@[simp] theorem modReq_stk (id : Nat) (f : Req → Req) (s : State) : (modReq id f s).stk = s.stk := rfl
@[simp] theorem modReq_chans (id : Nat) (f : Req → Req) (s : State) : (modReq id f s).chans = s.chans := rfl
@[simp] theorem modReq_pcs (id : Nat) (f : Req → Req) (s : State) : (modReq id f s).pcs = s.pcs := rfl
@[simp] theorem modReq_kettle (id : Nat) (f : Req → Req) (s : State) : (modReq id f s).kettle = s.kettle := rfl
@[simp] theorem modReq_kb (id : Nat) (f : Req → Req) (s : State) : (modReq id f s).kb = s.kb := rfl
@[simp] theorem modReq_power (id : Nat) (f : Req → Req) (s : State) : (modReq id f s).power = s.power := rfl
@[simp] theorem modReq_hub (id : Nat) (f : Req → Req) (s : State) : (modReq id f s).hub = s.hub := rfl
@[simp] theorem modReq_dies (id : Nat) (f : Req → Req) (s : State) : (modReq id f s).dies = s.dies := rfl
@[simp] theorem modReq_compute (id : Nat) (f : Req → Req) (s : State) : (modReq id f s).compute = s.compute := rfl
@[simp] theorem modReq_infusers (id : Nat) (f : Req → Req) (s : State) : (modReq id f s).infusers = s.infusers := rfl
@[simp] theorem modReq_peers (id : Nat) (f : Req → Req) (s : State) : (modReq id f s).peers = s.peers := rfl
@[simp] theorem modReq_twin (id : Nat) (f : Req → Req) (s : State) : (modReq id f s).twin = s.twin := rfl
@[simp] theorem modReq_tele (id : Nat) (f : Req → Req) (s : State) : (modReq id f s).tele = s.tele := rfl
@[simp] theorem modReq_late (id : Nat) (f : Req → Req) (s : State) : (modReq id f s).late = s.late := rfl
@[simp] theorem modReq_exers (id : Nat) (f : Req → Req) (s : State) : (modReq id f s).exers = s.exers := rfl
@[simp] theorem modReq_dbg (id : Nat) (f : Req → Req) (s : State) : (modReq id f s).dbg = s.dbg := rfl
@[simp] theorem modReq_doze (id : Nat) (f : Req → Req) (s : State) : (modReq id f s).doze = s.doze := rfl
@[simp] theorem modReq_refcode (id : Nat) (f : Req → Req) (s : State) : (modReq id f s).refcode = s.refcode := rfl
@[simp] theorem modReq_out (id : Nat) (f : Req → Req) (s : State) : (modReq id f s).out = s.out := rfl
@[simp] theorem modReq_freeCount (id : Nat) (f : Req → Req) (s : State) : (modReq id f s).freeCount = s.freeCount := rfl

@[simp] theorem dropReq_pending (id : Nat) (s : State) : (dropReq id s).pending = s.pending := rfl
@[simp] theorem dropReq_ident (id : Nat) (s : State) : (dropReq id s).ident = s.ident := rfl
@[simp] theorem dropReq_pins (id : Nat) (s : State) : (dropReq id s).pins = s.pins := rfl
@[simp] theorem dropReq_clock (id : Nat) (s : State) : (dropReq id s).clock = s.clock := rfl
@[simp] theorem dropReq_boot (id : Nat) (s : State) : (dropReq id s).boot = s.boot := rfl
@[simp] theorem dropReq_flash (id : Nat) (s : State) : (dropReq id s).flash = s.flash := rfl
@[simp] theorem dropReq_fns (id : Nat) (s : State) : (dropReq id s).fns = s.fns := rfl
@[simp] theorem dropReq_cmds (id : Nat) (s : State) : (dropReq id s).cmds = s.cmds := rfl
@[simp] theorem dropReq_cfg (id : Nat) (s : State) : (dropReq id s).cfg = s.cfg := rfl
@[simp] theorem dropReq_parts (id : Nat) (s : State) : (dropReq id s).parts = s.parts := rfl
@[simp] theorem dropReq_hbm (id : Nat) (s : State) : (dropReq id s).hbm = s.hbm := rfl
@[simp] theorem dropReq_pot (id : Nat) (s : State) : (dropReq id s).pot = s.pot := rfl
@[simp] theorem dropReq_path (id : Nat) (s : State) :
    (dropReq id s).path = { s.path with reqs := s.path.reqs.filter (fun r => r.id != id) } := rfl
@[simp] theorem dropReq_buckets (id : Nat) (s : State) : (dropReq id s).buckets = s.buckets := rfl
@[simp] theorem dropReq_qos (id : Nat) (s : State) : (dropReq id s).qos = s.qos := rfl
@[simp] theorem dropReq_stk (id : Nat) (s : State) : (dropReq id s).stk = s.stk := rfl
@[simp] theorem dropReq_chans (id : Nat) (s : State) : (dropReq id s).chans = s.chans := rfl
@[simp] theorem dropReq_pcs (id : Nat) (s : State) : (dropReq id s).pcs = s.pcs := rfl
@[simp] theorem dropReq_kettle (id : Nat) (s : State) : (dropReq id s).kettle = s.kettle := rfl
@[simp] theorem dropReq_kb (id : Nat) (s : State) : (dropReq id s).kb = s.kb := rfl
@[simp] theorem dropReq_power (id : Nat) (s : State) : (dropReq id s).power = s.power := rfl
@[simp] theorem dropReq_hub (id : Nat) (s : State) : (dropReq id s).hub = s.hub := rfl
@[simp] theorem dropReq_dies (id : Nat) (s : State) : (dropReq id s).dies = s.dies := rfl
@[simp] theorem dropReq_compute (id : Nat) (s : State) : (dropReq id s).compute = s.compute := rfl
@[simp] theorem dropReq_infusers (id : Nat) (s : State) : (dropReq id s).infusers = s.infusers := rfl
@[simp] theorem dropReq_peers (id : Nat) (s : State) : (dropReq id s).peers = s.peers := rfl
@[simp] theorem dropReq_twin (id : Nat) (s : State) : (dropReq id s).twin = s.twin := rfl
@[simp] theorem dropReq_tele (id : Nat) (s : State) : (dropReq id s).tele = s.tele := rfl
@[simp] theorem dropReq_late (id : Nat) (s : State) : (dropReq id s).late = s.late := rfl
@[simp] theorem dropReq_exers (id : Nat) (s : State) : (dropReq id s).exers = s.exers := rfl
@[simp] theorem dropReq_dbg (id : Nat) (s : State) : (dropReq id s).dbg = s.dbg := rfl
@[simp] theorem dropReq_doze (id : Nat) (s : State) : (dropReq id s).doze = s.doze := rfl
@[simp] theorem dropReq_refcode (id : Nat) (s : State) : (dropReq id s).refcode = s.refcode := rfl
@[simp] theorem dropReq_out (id : Nat) (s : State) : (dropReq id s).out = s.out := rfl
@[simp] theorem dropReq_freeCount (id : Nat) (s : State) : (dropReq id s).freeCount = s.freeCount := rfl

@[simp] theorem takeId_pending (s : State) : (takeId s).pending = s.pending := rfl
@[simp] theorem takeId_ident (s : State) : (takeId s).ident = s.ident := rfl
@[simp] theorem takeId_pins (s : State) : (takeId s).pins = s.pins := rfl
@[simp] theorem takeId_clock (s : State) : (takeId s).clock = s.clock := rfl
@[simp] theorem takeId_boot (s : State) : (takeId s).boot = s.boot := rfl
@[simp] theorem takeId_flash (s : State) : (takeId s).flash = s.flash := rfl
@[simp] theorem takeId_fns (s : State) : (takeId s).fns = s.fns := rfl
@[simp] theorem takeId_cmds (s : State) : (takeId s).cmds = s.cmds := rfl
@[simp] theorem takeId_cfg (s : State) : (takeId s).cfg = s.cfg := rfl
@[simp] theorem takeId_parts (s : State) : (takeId s).parts = s.parts := rfl
@[simp] theorem takeId_hbm (s : State) : (takeId s).hbm = s.hbm := rfl
@[simp] theorem takeId_pot (s : State) : (takeId s).pot = s.pot := rfl
@[simp] theorem takeId_path (s : State) : (takeId s).path = { s.path with nextId := s.path.nextId + 1 } := rfl
@[simp] theorem takeId_buckets (s : State) : (takeId s).buckets = s.buckets := rfl
@[simp] theorem takeId_qos (s : State) : (takeId s).qos = s.qos := rfl
@[simp] theorem takeId_stk (s : State) : (takeId s).stk = s.stk := rfl
@[simp] theorem takeId_chans (s : State) : (takeId s).chans = s.chans := rfl
@[simp] theorem takeId_pcs (s : State) : (takeId s).pcs = s.pcs := rfl
@[simp] theorem takeId_kettle (s : State) : (takeId s).kettle = s.kettle := rfl
@[simp] theorem takeId_kb (s : State) : (takeId s).kb = s.kb := rfl
@[simp] theorem takeId_power (s : State) : (takeId s).power = s.power := rfl
@[simp] theorem takeId_hub (s : State) : (takeId s).hub = s.hub := rfl
@[simp] theorem takeId_dies (s : State) : (takeId s).dies = s.dies := rfl
@[simp] theorem takeId_compute (s : State) : (takeId s).compute = s.compute := rfl
@[simp] theorem takeId_infusers (s : State) : (takeId s).infusers = s.infusers := rfl
@[simp] theorem takeId_peers (s : State) : (takeId s).peers = s.peers := rfl
@[simp] theorem takeId_twin (s : State) : (takeId s).twin = s.twin := rfl
@[simp] theorem takeId_tele (s : State) : (takeId s).tele = s.tele := rfl
@[simp] theorem takeId_late (s : State) : (takeId s).late = s.late := rfl
@[simp] theorem takeId_exers (s : State) : (takeId s).exers = s.exers := rfl
@[simp] theorem takeId_dbg (s : State) : (takeId s).dbg = s.dbg := rfl
@[simp] theorem takeId_doze (s : State) : (takeId s).doze = s.doze := rfl
@[simp] theorem takeId_refcode (s : State) : (takeId s).refcode = s.refcode := rfl
@[simp] theorem takeId_out (s : State) : (takeId s).out = s.out := rfl
@[simp] theorem takeId_freeCount (s : State) : (takeId s).freeCount = s.freeCount := rfl

@[simp] theorem setBucket_pending (t n : Nat) (b : Bucket) (s : State) : (setBucket t n b s).pending = s.pending := rfl
@[simp] theorem setBucket_ident (t n : Nat) (b : Bucket) (s : State) : (setBucket t n b s).ident = s.ident := rfl
@[simp] theorem setBucket_pins (t n : Nat) (b : Bucket) (s : State) : (setBucket t n b s).pins = s.pins := rfl
@[simp] theorem setBucket_clock (t n : Nat) (b : Bucket) (s : State) : (setBucket t n b s).clock = s.clock := rfl
@[simp] theorem setBucket_boot (t n : Nat) (b : Bucket) (s : State) : (setBucket t n b s).boot = s.boot := rfl
@[simp] theorem setBucket_flash (t n : Nat) (b : Bucket) (s : State) : (setBucket t n b s).flash = s.flash := rfl
@[simp] theorem setBucket_fns (t n : Nat) (b : Bucket) (s : State) : (setBucket t n b s).fns = s.fns := rfl
@[simp] theorem setBucket_cmds (t n : Nat) (b : Bucket) (s : State) : (setBucket t n b s).cmds = s.cmds := rfl
@[simp] theorem setBucket_cfg (t n : Nat) (b : Bucket) (s : State) : (setBucket t n b s).cfg = s.cfg := rfl
@[simp] theorem setBucket_parts (t n : Nat) (b : Bucket) (s : State) : (setBucket t n b s).parts = s.parts := rfl
@[simp] theorem setBucket_hbm (t n : Nat) (b : Bucket) (s : State) : (setBucket t n b s).hbm = s.hbm := rfl
@[simp] theorem setBucket_pot (t n : Nat) (b : Bucket) (s : State) : (setBucket t n b s).pot = s.pot := rfl
@[simp] theorem setBucket_path (t n : Nat) (b : Bucket) (s : State) : (setBucket t n b s).path = s.path := rfl
@[simp] theorem setBucket_buckets (t n : Nat) (b : Bucket) (s : State) :
    (setBucket t n b s).buckets = tset {} s.buckets (regKey t n) b := rfl
@[simp] theorem setBucket_qos (t n : Nat) (b : Bucket) (s : State) : (setBucket t n b s).qos = s.qos := rfl
@[simp] theorem setBucket_stk (t n : Nat) (b : Bucket) (s : State) : (setBucket t n b s).stk = s.stk := rfl
@[simp] theorem setBucket_chans (t n : Nat) (b : Bucket) (s : State) : (setBucket t n b s).chans = s.chans := rfl
@[simp] theorem setBucket_pcs (t n : Nat) (b : Bucket) (s : State) : (setBucket t n b s).pcs = s.pcs := rfl
@[simp] theorem setBucket_kettle (t n : Nat) (b : Bucket) (s : State) : (setBucket t n b s).kettle = s.kettle := rfl
@[simp] theorem setBucket_kb (t n : Nat) (b : Bucket) (s : State) : (setBucket t n b s).kb = s.kb := rfl
@[simp] theorem setBucket_power (t n : Nat) (b : Bucket) (s : State) : (setBucket t n b s).power = s.power := rfl
@[simp] theorem setBucket_hub (t n : Nat) (b : Bucket) (s : State) : (setBucket t n b s).hub = s.hub := rfl
@[simp] theorem setBucket_dies (t n : Nat) (b : Bucket) (s : State) : (setBucket t n b s).dies = s.dies := rfl
@[simp] theorem setBucket_compute (t n : Nat) (b : Bucket) (s : State) : (setBucket t n b s).compute = s.compute := rfl
@[simp] theorem setBucket_infusers (t n : Nat) (b : Bucket) (s : State) :
    (setBucket t n b s).infusers = s.infusers := rfl
@[simp] theorem setBucket_peers (t n : Nat) (b : Bucket) (s : State) : (setBucket t n b s).peers = s.peers := rfl
@[simp] theorem setBucket_twin (t n : Nat) (b : Bucket) (s : State) : (setBucket t n b s).twin = s.twin := rfl
@[simp] theorem setBucket_tele (t n : Nat) (b : Bucket) (s : State) : (setBucket t n b s).tele = s.tele := rfl
@[simp] theorem setBucket_late (t n : Nat) (b : Bucket) (s : State) : (setBucket t n b s).late = s.late := rfl
@[simp] theorem setBucket_exers (t n : Nat) (b : Bucket) (s : State) : (setBucket t n b s).exers = s.exers := rfl
@[simp] theorem setBucket_dbg (t n : Nat) (b : Bucket) (s : State) : (setBucket t n b s).dbg = s.dbg := rfl
@[simp] theorem setBucket_doze (t n : Nat) (b : Bucket) (s : State) : (setBucket t n b s).doze = s.doze := rfl
@[simp] theorem setBucket_refcode (t n : Nat) (b : Bucket) (s : State) : (setBucket t n b s).refcode = s.refcode := rfl
@[simp] theorem setBucket_out (t n : Nat) (b : Bucket) (s : State) : (setBucket t n b s).out = s.out := rfl
@[simp] theorem setBucket_freeCount (t n : Nat) (b : Bucket) (s : State) :
    (setBucket t n b s).freeCount = s.freeCount := rfl

@[simp] theorem pushJob_pending (j : FlashJob) (s : State) : (pushJob j s).pending = s.pending := rfl
@[simp] theorem pushJob_ident (j : FlashJob) (s : State) : (pushJob j s).ident = s.ident := rfl
@[simp] theorem pushJob_pins (j : FlashJob) (s : State) : (pushJob j s).pins = s.pins := rfl
@[simp] theorem pushJob_clock (j : FlashJob) (s : State) : (pushJob j s).clock = s.clock := rfl
@[simp] theorem pushJob_boot (j : FlashJob) (s : State) : (pushJob j s).boot = s.boot := rfl
@[simp] theorem pushJob_flash (j : FlashJob) (s : State) :
    (pushJob j s).flash = { s.flash with jobs := s.flash.jobs ++ [j] } := rfl
@[simp] theorem pushJob_fns (j : FlashJob) (s : State) : (pushJob j s).fns = s.fns := rfl
@[simp] theorem pushJob_cmds (j : FlashJob) (s : State) : (pushJob j s).cmds = s.cmds := rfl
@[simp] theorem pushJob_cfg (j : FlashJob) (s : State) : (pushJob j s).cfg = s.cfg := rfl
@[simp] theorem pushJob_parts (j : FlashJob) (s : State) : (pushJob j s).parts = s.parts := rfl
@[simp] theorem pushJob_hbm (j : FlashJob) (s : State) : (pushJob j s).hbm = s.hbm := rfl
@[simp] theorem pushJob_pot (j : FlashJob) (s : State) : (pushJob j s).pot = s.pot := rfl
@[simp] theorem pushJob_path (j : FlashJob) (s : State) : (pushJob j s).path = s.path := rfl
@[simp] theorem pushJob_buckets (j : FlashJob) (s : State) : (pushJob j s).buckets = s.buckets := rfl
@[simp] theorem pushJob_qos (j : FlashJob) (s : State) : (pushJob j s).qos = s.qos := rfl
@[simp] theorem pushJob_stk (j : FlashJob) (s : State) : (pushJob j s).stk = s.stk := rfl
@[simp] theorem pushJob_chans (j : FlashJob) (s : State) : (pushJob j s).chans = s.chans := rfl
@[simp] theorem pushJob_pcs (j : FlashJob) (s : State) : (pushJob j s).pcs = s.pcs := rfl
@[simp] theorem pushJob_kettle (j : FlashJob) (s : State) : (pushJob j s).kettle = s.kettle := rfl
@[simp] theorem pushJob_kb (j : FlashJob) (s : State) : (pushJob j s).kb = s.kb := rfl
@[simp] theorem pushJob_power (j : FlashJob) (s : State) : (pushJob j s).power = s.power := rfl
@[simp] theorem pushJob_hub (j : FlashJob) (s : State) : (pushJob j s).hub = s.hub := rfl
@[simp] theorem pushJob_dies (j : FlashJob) (s : State) : (pushJob j s).dies = s.dies := rfl
@[simp] theorem pushJob_compute (j : FlashJob) (s : State) : (pushJob j s).compute = s.compute := rfl
@[simp] theorem pushJob_infusers (j : FlashJob) (s : State) : (pushJob j s).infusers = s.infusers := rfl
@[simp] theorem pushJob_peers (j : FlashJob) (s : State) : (pushJob j s).peers = s.peers := rfl
@[simp] theorem pushJob_twin (j : FlashJob) (s : State) : (pushJob j s).twin = s.twin := rfl
@[simp] theorem pushJob_tele (j : FlashJob) (s : State) : (pushJob j s).tele = s.tele := rfl
@[simp] theorem pushJob_late (j : FlashJob) (s : State) : (pushJob j s).late = s.late := rfl
@[simp] theorem pushJob_exers (j : FlashJob) (s : State) : (pushJob j s).exers = s.exers := rfl
@[simp] theorem pushJob_dbg (j : FlashJob) (s : State) : (pushJob j s).dbg = s.dbg := rfl
@[simp] theorem pushJob_doze (j : FlashJob) (s : State) : (pushJob j s).doze = s.doze := rfl
@[simp] theorem pushJob_refcode (j : FlashJob) (s : State) : (pushJob j s).refcode = s.refcode := rfl
@[simp] theorem pushJob_out (j : FlashJob) (s : State) : (pushJob j s).out = s.out := rfl
@[simp] theorem pushJob_freeCount (j : FlashJob) (s : State) : (pushJob j s).freeCount = s.freeCount := rfl

@[simp] theorem setMuxPort_pending (i : Nat) (p : MuxPort) (s : State) : (setMuxPort i p s).pending = s.pending := rfl
@[simp] theorem setMuxPort_ident (i : Nat) (p : MuxPort) (s : State) : (setMuxPort i p s).ident = s.ident := rfl
@[simp] theorem setMuxPort_pins (i : Nat) (p : MuxPort) (s : State) : (setMuxPort i p s).pins = s.pins := rfl
@[simp] theorem setMuxPort_clock (i : Nat) (p : MuxPort) (s : State) : (setMuxPort i p s).clock = s.clock := rfl
@[simp] theorem setMuxPort_boot (i : Nat) (p : MuxPort) (s : State) : (setMuxPort i p s).boot = s.boot := rfl
@[simp] theorem setMuxPort_flash (i : Nat) (p : MuxPort) (s : State) : (setMuxPort i p s).flash = s.flash := rfl
@[simp] theorem setMuxPort_fns (i : Nat) (p : MuxPort) (s : State) : (setMuxPort i p s).fns = s.fns := rfl
@[simp] theorem setMuxPort_cmds (i : Nat) (p : MuxPort) (s : State) : (setMuxPort i p s).cmds = s.cmds := rfl
@[simp] theorem setMuxPort_cfg (i : Nat) (p : MuxPort) (s : State) : (setMuxPort i p s).cfg = s.cfg := rfl
@[simp] theorem setMuxPort_parts (i : Nat) (p : MuxPort) (s : State) : (setMuxPort i p s).parts = s.parts := rfl
@[simp] theorem setMuxPort_hbm (i : Nat) (p : MuxPort) (s : State) : (setMuxPort i p s).hbm = s.hbm := rfl
@[simp] theorem setMuxPort_pot (i : Nat) (p : MuxPort) (s : State) : (setMuxPort i p s).pot = s.pot := rfl
@[simp] theorem setMuxPort_path (i : Nat) (p : MuxPort) (s : State) : (setMuxPort i p s).path = s.path := rfl
@[simp] theorem setMuxPort_buckets (i : Nat) (p : MuxPort) (s : State) : (setMuxPort i p s).buckets = s.buckets := rfl
@[simp] theorem setMuxPort_qos (i : Nat) (p : MuxPort) (s : State) : (setMuxPort i p s).qos = s.qos := rfl
@[simp] theorem setMuxPort_stk (i : Nat) (p : MuxPort) (s : State) : (setMuxPort i p s).stk = s.stk := rfl
@[simp] theorem setMuxPort_chans (i : Nat) (p : MuxPort) (s : State) : (setMuxPort i p s).chans = s.chans := rfl
@[simp] theorem setMuxPort_pcs (i : Nat) (p : MuxPort) (s : State) : (setMuxPort i p s).pcs = s.pcs := rfl
@[simp] theorem setMuxPort_kettle (i : Nat) (p : MuxPort) (s : State) : (setMuxPort i p s).kettle = s.kettle := rfl
@[simp] theorem setMuxPort_kb (i : Nat) (p : MuxPort) (s : State) : (setMuxPort i p s).kb = s.kb := rfl
@[simp] theorem setMuxPort_power (i : Nat) (p : MuxPort) (s : State) : (setMuxPort i p s).power = s.power := rfl
@[simp] theorem setMuxPort_hub (i : Nat) (p : MuxPort) (s : State) : (setMuxPort i p s).hub = s.hub := rfl
@[simp] theorem setMuxPort_dies (i : Nat) (p : MuxPort) (s : State) : (setMuxPort i p s).dies = s.dies := rfl
@[simp] theorem setMuxPort_compute (i : Nat) (p : MuxPort) (s : State) : (setMuxPort i p s).compute = s.compute := rfl
@[simp] theorem setMuxPort_infusers (i : Nat) (p : MuxPort) (s : State) :
    (setMuxPort i p s).infusers = s.infusers := rfl
@[simp] theorem setMuxPort_peers (i : Nat) (p : MuxPort) (s : State) : (setMuxPort i p s).peers = s.peers := rfl
@[simp] theorem setMuxPort_twin (i : Nat) (p : MuxPort) (s : State) : (setMuxPort i p s).twin = s.twin := rfl
@[simp] theorem setMuxPort_tele (i : Nat) (p : MuxPort) (s : State) : (setMuxPort i p s).tele = s.tele := rfl
@[simp] theorem setMuxPort_late (i : Nat) (p : MuxPort) (s : State) : (setMuxPort i p s).late = s.late := rfl
@[simp] theorem setMuxPort_exers (i : Nat) (p : MuxPort) (s : State) : (setMuxPort i p s).exers = s.exers := rfl
@[simp] theorem setMuxPort_dbg (i : Nat) (p : MuxPort) (s : State) :
    (setMuxPort i p s).dbg = if i = 0 then { s.dbg with mux0 := p } else { s.dbg with mux1 := p } := rfl
@[simp] theorem setMuxPort_doze (i : Nat) (p : MuxPort) (s : State) : (setMuxPort i p s).doze = s.doze := rfl
@[simp] theorem setMuxPort_refcode (i : Nat) (p : MuxPort) (s : State) : (setMuxPort i p s).refcode = s.refcode := rfl
@[simp] theorem setMuxPort_out (i : Nat) (p : MuxPort) (s : State) : (setMuxPort i p s).out = s.out := rfl
@[simp] theorem setMuxPort_freeCount (i : Nat) (p : MuxPort) (s : State) :
    (setMuxPort i p s).freeCount = s.freeCount := rfl

end Sys2Proof.Machine
end

