-- ==== Sys2Proof/Tests/Slice0.lean ====
section
/-! SUPPORT. Tests: terms that each check of `Instr.wellFormed` refuses, the worked examples of the spec, and for every
statement with hypotheses a state and operands that meet them. -/

open Sys2Proof
open Sys2Proof.Machine

namespace Sys2Proof.Tests

set_option Elab.async false

/-- A command of the PF with parameter bytes. -/
def pf (p : List Nat) : Cmd :=
  { issuer := .fn 0, seq := 0, flags := 0, tenant := 0xFFFF, tag := 1, params := padTo 48 (p.map (BitVec.ofNat 8)),
    hostIn := [] }

/-- A device in the ready stage with nothing else set up. -/
def ready : State :=
  { boot := { stage := .ready, ready := true, warmKind := true, cfgLoaded := true, vfEnable := true },
    pins := { perstN := true, pgCore := true, hostLink := .up }, clock := { timebase := 20480, mark := 20 } }

/-- `ready` as the master of its kettle-bus chain. -/
def master : State := { ready with pins := { ready.pins with straps := 1 } }

/-- `ready` with the flash's parameters read. -/
def ready2 : State :=
  { ready with flash := { sfdp := some { jedec := 1, sizeMiB := 64, quadMHz := 133, suspend := true, blockEraseMs := 2000 } } }

/-- `ready` with one entry staged by the PF. -/
def staged1 : State := { ready with cfg := { areas := [(0, [(cfgKey 0x0501 0 7, [2])])] } }

/-- `ready` after a completed pour of the PF. -/
def undo1 : State := { ready with cfg := { undo := [(0, [(cfgKey 0x0501 0 7, [0])])], undoPersist := [(0, true)] } }

/-- `ready` with every stack online, grain 7 and extent 1 of each of stacks 0 and 1 with T0, and extent 2 with T1. -/
def part1 : State :=
  { ready with
    stk := (List.range 8).map (fun n => (n, { online := true })),
    cfg := { inForce := [(cfgKey 0x0200 0 0, [1]), (cfgKey 0x0200 0 1, [1]), (cfgKey 0x0200 0 8, [2]),
                         (cfgKey 0x0202 0 0, [7])] } }

/-- `part1` with a pour of one staged integrity policy that waits. -/
def pour1 : State :=
  { part1 with cfg := { part1.cfg with
      areas := [(0, [(cfgKey 0x0501 0 7, [2])])], waiting := [{ cmd := pf [1], persist := true, reopen := false }] } }

/-- A pour that has switched everything. -/
def poured : Pour :=
  { req := { cmd := pf [0], persist := false, reopen := false }, serial := 1, entries := [(cfgKey 0x0501 0 7, [2])],
    old := [(cfgKey 0x0501 0 7, [0])], classDDone := true, hubDone := true, switched := 1 }

/-- `part1` with that pour under way. -/
def pour2 : State := { part1 with cfg := { part1.cfg with pour := some poured } }

/-- `part1` with a pour whose record is being written. -/
def pour3 : State :=
  { part1 with
    cfg := { part1.cfg with pour := some { poured with req := { cmd := pf [1], persist := true, reopen := false }, recordPending := true } },
    flash := { jobs := [.pourRecord] } }

/-- `ready` with a flash write under way. -/
def flash1 (j : FlashJob) : State := { ready with flash := { jobs := [j] } }

/-- `ready` with bank B erased since reset. -/
def bankB : State := { ready with flash := { bankB := { erasedOk := true } } }

/-- `part1` with T0's partition changed. -/
def withPart (p : Part) : State := { part1 with parts := [(0, p)] }

/-- A request that a closed partition holds. -/
def heldReq : Req :=
  { id := 1, access := 1, place := .held, tenant := 0, port := 0, write := false, ta := 0, stack := 0, offset := 0, pc := 0,
    bank := 0, row := 0, line := 0, mask := 1 }

/-- A PUT frame for T0 that was accepted at tick 0. -/
def heldPut : HeldFrame :=
  { id := 1, port := 0, type := 1, frame := { blankFrame with dstTenant := 0, first := true }, since := 0 }

/-- `withPart` with a governor that admits the device's own writes. -/
def writing (p : Part) : State := { withPart p with kettle := { running := true, e := 10 ^ 30 } }

/-- `part1` with every domain on. -/
def full : State := { part1 with power := { on := BitVec.allOnes 96 } }

/-- `full` with an allowance, and a host read of the first line of T0 at a place of its way. -/
def atPlace (p : ReqPlace) : State :=
  { full with
    kettle := { allowance := 10 ^ 30 },
    path :=
      { reqs := [{ heldReq with place := p }],
        accesses := [{ id := 1, fn := 0, tag := 5, write := false, start := 0, len := 64, stride := 2 ^ 36, left := 1 }] } }

/-- A peer device: port 0 with its link up and connection 0 to a device of address 0x22, handle 0 of T0 over it. -/
def peer1 : State :=
  { full with
    cfg := { inForce := full.cfg.inForce ++
      [(cfgKey 0x0C01 0 0, [1]), (cfgKey 0x0C01 1 0, [0x11]), (cfgKey 0x0C02 0 0, [0x22]), (cfgKey 0x0C02 1 0, [1]),
       (cfgKey 0x0C03 0 0, [1]), (cfgKey 0x0C03 2 0, [0]), (cfgKey 0x0C03 5 0, [65536])] },
    peers := { ports := [(0, { link := 2 })], conns := [(0, { phase := 2, window := 100 })] } }

/-- A frame of a type from that peer, with 64 bytes for the pot of T0, that was accepted. -/
def heldOp (type : Nat) : HeldFrame :=
  { id := 1, port := 0, type := type, since := 0, frame := { blankFrame with
      src := 0x22, dst := 0x11, first := true, last := true, payload := List.replicate 64 3, srcTenant := 0,
      dstTenant := 0, opTag := 7, addr := 2 ^ 39, length := 64 } }

/-- The receiver's record of its operation. -/
def rxOne : RxOp := { srcTenant := 0, opTag := 7, type := 1, base := 2 ^ 39, length := 64, tenant := 0 }

/-- An access of that frame that is complete. -/
def frameAccess : Access := { id := 9, owner := .frame 1, fn := 0, write := true, start := 2 ^ 39, len := 64, left := 0 }

/-- `peer1` once the accesses of that frame are complete. -/
def frameOver (type : Nat) : State :=
  { peer1 with
    path := { accesses := [frameAccess] },
    peers := { peer1.peers with
      held := [{ heldOp type with applying := true }],
      conns := [(0, { phase := 2, window := 100, rxOps := [rxOne] })] } }

/-- A GET of T0 that waits for its data. -/
def getOne : PeerOpState :=
  { tag := 7, conn := 0, issuer := .command (pf []), kind := 1, tenant := 0, localTa := 2 ^ 39, length := 64 }

/-- `peer1` with that GET. -/
def getting : State := { peer1 with peers := { peer1.peers with ops := [getOne] } }

/-- The primary of a twin pair on port 3, whose partner it has heard, with one partition in a state. -/
def twin1 (p : TwinPart) : State :=
  { full with
    pins := { full.pins with straps := 4 },
    cfg := { inForce := full.cfg.inForce ++
      [(cfgKey 0x0C01 0 3, [1]), (cfgKey 0x0C01 1 3, [0x11]), (cfgKey 0x0C05 0 0, [3]), (cfgKey 0x0C06 0 0, [2])] },
    peers := { ports := [(3, { link := 2 })], conns := [(connKey 3 64, { phase := 2, window := 100 })] },
    twin := { partner := some 0x22, parts := [(0, p)] } }

/-- `full` with list 63 of T0. -/
def lists1 : State := { full with compute := { lists := [(63, { tenant := 0, prio := 1, cmdMask := 0xFFFF, nextTa := 0 })] } }

/-- `full` with one list, whose handle is 63. -/
def listed (l : BrewList) : State := { full with compute := { lists := [(63, l)] } }

/-- A forward transform of one limb of 4096 words of T0, with its context at page 1. -/
def nttOp : InfOp :=
  { op := 0x0B02, tenant := 0,
    cmd := pf [0, 0, 1, 0, 1, 0, 12, 0, 1, 0, 0, 0, 0, 0, 0, 0, 0x10, 0, 0, 0, 0x20, 0, 0, 0] }

/-- A context for it. -/
def nttContext : List Byte := newContext 12 1 0 1 0 [(1073153, 869188)]

/-- The access that reads it. -/
def contextAccess : Access :=
  { id := 1, owner := .infuser 0, fn := 0, write := false, start := 4096, len := 8192, left := 0,
    got := Laws.sectorsOf 4096 nttContext }

/-- `full` with that operation, whose context has been read. -/
def contextRead : State :=
  { full with
    infusers := [(0, { queue := [nttOp], checking := true })],
    path := { accesses := [contextAccess] } }

/-- What the checks of the transform read: its context. -/
def nttReads : List RangeRead := (accessesOf contextRead (.infuser 0)).map gathered

theorem nttReads_eq : nttReads = [{ bytes := nttContext, failed := List.replicate 256 false }] := by
  have hl : nttContext.length = 8192 := Laws.bytesAt_length _ _ _
  have ha : accessesOf contextRead (.infuser 0) = [contextAccess] := rfl
  have hs : contextAccess.start % 32 = 0 := rfl
  have hn : contextAccess.len = nttContext.length := by rw [hl]; rfl
  have hg : contextAccess.got = Laws.sectorsOf contextAccess.start nttContext := by
    simp only [contextAccess]
  have hg' := Laws.gathered_sectors contextAccess nttContext 256 hl hs hn hg
  delta nttReads
  rw [ha, List.map_singleton, hg']

/-- They pass checks 5 to 7. -/
theorem nttReads_checked : infCheckRead nttOp.op.toNat nttOp.cmd (nttReads.getD 0 { bytes := [], failed := [] })
    (nttReads.getD 1 { bytes := [], failed := [] }) = none := by
  have hc : infContext nttOp.op.toNat nttOp.cmd nttContext = true := by
    have hv : ctxValid nttContext = true := Laws.newContext_valid ..
    delta infContext
    simp only [hv, Bool.true_and]
    decide +kernel
  rw [nttReads_eq, infCheckRead, if_neg (by decide +kernel), List.getD_cons_zero, hc]
  decide +kernel

/-- `ready` with one event in the log. -/
def logged : State := { ready with tele := { log := [{ bytes := [], timebase := 0, seq := 0 }], logSeq := 1 } }

/-- `ready` with dumps in force. -/
def dumping : State := { ready with cfg := { inForce := [(cfgKey 0x0D00 0 0, [64])] } }

/-- `ready` with the mailbox of function 127 enabled, and of an online function. -/
def boxed (f : Fn) : State := { ready with fns := [(127, f)] }

/-- An enabled mailbox. -/
def box : Fn := { enabled := true, cmdBase := 0x10000, cplBase := 0x20000, evtBase := 0x30000 }

/-- A command of function 127. -/
def vf (p : List Nat) : Cmd := { pf p with issuer := .fn 127 }

/-- A device that has just been reset, with the core supply up. -/
def booting (b : Boot) : State := { boot := b, pins := { pgCore := true } }

/-- A qualified stack's identification. -/
def goodIdent : StackIdent := { height := 16, gib := 64, metadataBits := 32, directed := true, grades := [.g64] }

/-- `full` at 85 °C with an envelope that leaves room for anything. -/
def roomy (w : Nat) : State :=
  { full with power := { on := BitVec.ofNat 96 w }, hub := { tj := 340 }, kettle := { running := true, e := 10 ^ 40 },
              stk := (List.range 8).map (fun n => (n, { online := true, thermal := { temp := some 340 } })) }

/-- A device whose stack 0 enters sleep, with room for its share to fall. -/
def sleepy : State :=
  { full with
    hub := { tj := 340 }, kettle := { running := true, e := 0 },
    stk := (0, { online := true, thermal := { temp := some 340 }, sleep := { kind := .entering } }) :: (roomy 0).stk.drop 1,
    cfg := { inForce := full.cfg.inForce ++ [(cfgKey 0x0A01 0 0, [20])] } }

/-- A member of a kettle-bus chain with a request of 5 mW. -/
def member : State := { ready with kettle := { running := true }, kb := { acquired := true, request := some 5 } }

/-! ## Ill-formed terms, one for each check -/

/-- A command with 47 parameter bytes is not one that a slot can hold (Table 4.8). -/
theorem test_short_params_ill_formed :
    (Instr.identify { pf [] with params := List.replicate 47 0 }).wellFormed = false ∧
      (Instr.identify (pf [])).wellFormed = true := by decide +kernel

/-- A fetched slot has 64 bytes. -/
theorem test_slot_length_ill_formed :
    (Instr.commandFetch 3 (List.replicate 63 0) []).wellFormed = false ∧
      (Instr.commandFetch 3 (List.replicate 64 0) []).wellFormed = true := by decide +kernel

/-- Table 4.8: a slot's opcode in bytes 0-1, its sequence in bytes 2-3, its flags in byte 4, its target tenant in bytes
6-7, its tag in bytes 8-15 and its parameters from byte 16, little-endian (R7). -/
theorem test_slot_fields :
    slotOp [0x05, 0x0F] = 0x0F05 ∧
      slotCmd (.fn 3) ([0x05, 0x0F, 0x34, 0x12, 1, 0, 0x7F, 0, 0x80, 0, 0, 0, 0, 0, 0, 7, 9] ++ List.replicate 47 0) [] =
        { issuer := .fn 3, seq := 0x1234, flags := 1, tenant := 0x7F, tag := 0x0700000000000080,
          params := 9 :: List.replicate 47 0, hostIn := [] } := by decide +kernel

/-- A PCIe read moves 1 to 4096 bytes. -/
theorem test_read_length_ill_formed :
    (Instr.bar4Read 0 1 0 0).wellFormed = false ∧ (Instr.bar2Read 0 1 0 4097).wellFormed = false ∧
      (Instr.bar4Read 0 1 0 4096).wellFormed = true := by decide +kernel

/-- A PCIe write carries at least one byte. -/
theorem test_write_length_ill_formed :
    (Instr.bar4Write 0 0 [] false).wellFormed = false ∧ (Instr.bar2Write 0 0 [7] false).wellFormed = true := by
  decide +kernel

/-- An AtomicOp has 32, 64 or 128 bits. -/
theorem test_atomic_width_ill_formed :
    (Instr.bar2Atomic 0 1 0 16 (.fetchAdd 1)).wellFormed = false ∧
      (Instr.bar2Atomic 0 1 0 64 (.fetchAdd 1)).wellFormed = true := by decide +kernel

/-- A peer frame's payload has at most 4096 bytes (Table 15.2). -/
theorem test_frame_payload_ill_formed :
    (Instr.putFrame 0 { blankFrame with payload := List.replicate 4097 0 }).wellFormed = false ∧
      (Instr.putFrame 0 { blankFrame with payload := List.replicate 4096 0 }).wellFormed = true := by decide +kernel

/-! ## Opcodes -/

/-- No word spells a command: the opcode table gives the rows no bits. -/
theorem test_no_word_spells_a_command : decodeTableWord 32 0x0001 = none ∧ decodeTableWord 0 0 = none := by decide

/-- Opcodes of Table 20.2, from the table: IDENTIFY 0x0001, CONFIG_POUR 0x0100, KETTLE_STEEP_LIMITS 0x0801,
INFUSE_KEYSWITCH 0x0B08, FLASH_INFO 0x0F05; 0x0006 is not defined. -/
theorem test_opcodes :
    ofOpcode 0x0001 (pf []) = some (.identify (pf [])) ∧ ofOpcode 0x0100 (pf []) = some (.configPour (pf [])) ∧
      ofOpcode 0x0801 (pf []) = some (.kettleSteepLimits (pf [])) ∧
      ofOpcode 0x0B08 (pf []) = some (.infuseKeyswitch (pf [])) ∧
      ofOpcode 0x0F05 (pf []) = some (.flashInfo (pf [])) ∧ ofOpcode 0x0006 (pf []) = none := by decide +kernel

/-! ## The spec's worked examples -/

/-- The steep delay of 8000 µs and the release mark (02_power_shape.md, after R52): a job start at 1,000,000,000 with
4882 µs is released at 1,004,882,944. -/
theorem test_release_mark : markAtOrAfter (1000000000 + 4882 * 1000) = 1004882944 := by decide +kernel

/-- `ready` where T005 has a BAR4 of 64 GiB and extents 14, 53, 7 on S2. -/
def tenant5 : State :=
  { ready with
    fns := [(5, { bar4Log2 := some 36 })], stk := [(2, { online := true })],
    cfg := { inForce := [(cfgKey 0x0200 0 42, [14, 53, 7])] } }

/-- The BAR4 offset 0x4_1A7C_9E40 of T005 is tenant address 0x20_1A7C_9E40 and stack offset 0x3_5A7C_9E40 of S2
(06_address_tiers_partitions.md, worked example after R177). -/
theorem test_translate_example :
    barTa (bar4Stride tenant5 5) 0x41A7C9E40 = 0x201A7C9E40 ∧
      translate tenant5 5 0x201A7C9E40 = .inl (.hbm 2 0x35A7C9E40) := by decide +kernel

/-- That line lies in pseudo-channel 22, bank index 14, row 0x35A7, line 9 (same example). -/
theorem test_place_example :
    placeAt ready 2 0x35A7C9E40 = { pc := 22, bank := 14, row := 0x35A7, line := 9, folded := false } := by
  decide +kernel

/-- The lines 1 KiB below and above it lie in pseudo-channels 23 and 25 (same example). -/
theorem test_place_neighbours :
    (placeAt ready 2 0x35A7C9A40).pc = 23 ∧ (placeAt ready 2 0x35A7CA240).pc = 25 := by decide +kernel

/-- The folded line of S6 with C09 mapped out lies in pseudo-channel 41, bank index 45, stack ID 2, row 0x3EA3, line 7
(10_repair_mapout.md, worked example). -/
theorem test_fold_example :
    placeOf false [9] (hashMasks ready 6) 0x28A3549C0 =
      { pc := 41, bank := 45, row := 0x3EA3, line := 7, folded := true } := by decide +kernel

/-- A 48 GiB stack with one channel mapped out has 186 extents (same example). -/
theorem test_extents_after_mapout : extentCount false 1 = 186 ∧ vacateRange false 0 = (185, 191) := by decide +kernel

/-- Levels of the two requests of 07_channel_scheduling.md's worked example, with targets 4000 ns and 1500 ns. -/
theorem test_levels :
    [2000, 2750, 3125, 3500, 4000].map (fun e => levelOf e 4000) = [1, 1, 2, 2, 3] ∧
      [0, 176, 750, 1125, 1500, 2000].map (fun e => levelOf e 1500) = [0, 0, 1, 2, 3, 3] := by decide +kernel

/-- A cool S3. -/
def coolStack3 : State := { ready with stk := [(3, { online := true, warmNow := false })] }

/-- The comb of S3.C17.P1 (08_refresh_disturbance_selfrefresh.md): offset 2155, and an instant at 1,000,001,155. -/
theorem test_comb_example :
    combOffset coolStack3 227 = 2155 ∧ isInstant coolStack3 227 1000001155 = true ∧
      isInstant coolStack3 227 1000001154 = false := by decide +kernel

/-- A warm S3 has offset 1077 (same example). -/
theorem test_comb_warm :
    combOffset { ready with stk := [(3, { online := true, warmNow := true })] } 227 = 1077 := by decide +kernel

/-- The calibrations of S3.C17.P1 (11_calibration.md): offset 9,273,344, the due instants of cycles 59 and 60, and the
forced instant. -/
theorem test_calibration_example :
    calOffset 227 = 9273344 ∧ nextDue 227 1000000000 = 1015906304 ∧ isDueInstant 227 999129088 = true ∧
      freeSlot full 227 (1015906304 + 15990784) = 1031897088 := by decide +kernel

/-- Cycle 60 is an impedance calibration, cycle 61 a timing retraining (same example). -/
theorem test_calibration_kinds : dueTiming 227 1015906304 = false ∧ dueTiming 227 1032683520 = true := by
  decide +kernel

/-- The poison mask at α^3 (09_integrity_ordering.md): 0x09 · 0x0A = 0x5A and 0x5A · 0x0C = 0x9F. -/
theorem test_gf_products : gfMul 0x09 0x0A = 0x5A ∧ gfMul 0x5A 0x0C = 0x9F := by decide +kernel

/-- A stack in simmer at a step and 9.6 Gb/s. -/
def simmering (step : Nat) : State :=
  { ready with boot := { ready.boot with grade := some .g96 },
               stk := [(4, { online := true, thermal := { heat := .simmer, step := step } })] }

/-- Predicted delays of Table 12.4, in µs rounded up: 293.1, 1065.7 and 153.9. -/
theorem test_lateness_example :
    lateDelay (simmering 7) 4 402653184 = 294 ∧ lateDelay (simmering 6) 4 332188877 = 1066 ∧
      lateDelay (simmering 7) 4 211392922 = 154 := by decide +kernel

/-- The reduction of 14_infuser.md's worked example: μ = 1,398,099 and r = 537,087. -/
theorem test_barrett_example : barrettMu 786433 = 1398099 ∧ barrett 786433 455000000000 = 537087 := by decide +kernel

/-- The key switch of 14_infuser.md's worked example: N = 2^16, 24 limbs, K = 8, α = 8. -/
def keyswitchExample : Cmd := pf ([5, 0, 24, 0, 1, 0, 16, 0] ++ List.replicate 36 0 ++ [8, 8])

/-- Multiplies and additions of a phase of an operation's steps. -/
def phaseWork (ph : Nat) (l : List (Nat × Nat × Nat)) : Nat × Nat :=
  l.foldl (fun a e => if e.1 = ph then (a.1 + e.2.1, a.2 + e.2.2) else a) (0, 0)

/-- M and A of its three phases (same example). -/
theorem test_keyswitch_work :
    phaseWork 1 (opSteps 0x0B08 keyswitchExample false) = (89653248, 138412032) ∧
      phaseWork 2 (opSteps 0x0B08 keyswitchExample false) = (12582912, 12582912) ∧
      phaseWork 3 (opSteps 0x0B08 keyswitchExample false) = (62914560, 95420416) := by decide +kernel

/-- A GEMV of M = 4096, K = 32,768 is 268,435,456 operations (13_compute_pot.md's worked example), 65,536 blocks. -/
theorem test_gemv_blocks :
    matrixBlocks (padTo 128 ([1] ++ List.replicate 55 0 ++ leBytes 4 4096 ++ leBytes 4 32768)) * 4096 = 268435456 := by
  decide +kernel

/-- `ready` with the mailbox of the PF enabled, which expects a sequence, with one slot doorbelled. -/
def expecting (seq : BitVec 16) : State :=
  { ready with fns := [(0, { enabled := true, cmdBase := 0x10000, cplBase := 0x20000, evtBase := 0x30000,
                             expect := seq, doorbell := 1 })] }

/-- What the fetched command's entry ended with, and the expected sequence, after one fetch. -/
def fetched (s : State) (seq : BitVec 16) : Option (BitVec 16 × List Byte) × BitVec 16 :=
  let t := commandFetch 0 (padTo 64 (leBytes 2 1 ++ leBytes 2 seq.toNat)) [] s
  ((t.cmds.getLast?.bind (·.done)).map (fun d => (d.1, d.2.take 4)), (fnOf t 0).expect)

/-- R136's worked example: with 0x0001 expected, 0xFF02 is older (byte 0 = 0) and 0x0005 newer (byte 0 = 1); neither
advances the expected value, and 0x0001 is taken and does. -/
theorem test_sequence_example :
    fetched (expecting 1) 0xFF02 = (some (BitVec.ofNat 16 stStaleSequence, [0, 0, 1, 0]), 1) ∧
      fetched (expecting 1) 0x0005 = (some (BitVec.ofNat 16 stStaleSequence, [1, 0, 1, 0]), 1) ∧
      fetched (expecting 1) 0x0001 = (none, 2) := by decide +kernel

/-- The limits of 05_configuration_admin.md's worked example, staged: CEILING 900,000 and WARM_FLOOR 1,000,000, under a
CEILING of 1,400,000 in force. -/
def disagreeing : State :=
  { part1 with cfg := { part1.cfg with
      inForce := part1.cfg.inForce ++ [(cfgKey 0x0801 2 0, [1400000]), (cfgKey 0x0801 3 0, [600000])],
      areas := [(0, [(cfgKey 0x0801 2 0, [900000]), (cfgKey 0x0801 3 0, [1000000])])] } }

/-- Check 4 fails at WARM_FLOOR: the completion names opcode 0x0801, field 3, reason 2, instance kind 0. -/
theorem test_pour_rejected :
    pourFailure disagreeing (pf []) (staged disagreeing 0) =
        some (stPourRejected, 2, cfgKey 0x0801 3 0) ∧
      rejectedResult 2 (cfgKey 0x0801 3 0) = [0x01, 0x08, 3, 2, 0, 0, 0] := by decide +kernel

/-! ## States that meet the statements' hypotheses -/

/-- The clauses of StepRunsFrontCommand about a running and a stopped REFCLK. -/
theorem witness_step_runs_front_command :
  (∃ (s : State), s.pins.refclk = true ∧ (s.pins.vaux = false ∨ (s.clock.timebase + 1) % 1024 ≠ 0)) ∧
  (∃ (s : State), s.pins.refclk = true ∧ s.pins.vaux = true ∧ (s.clock.timebase + 1) % 1024 = 0) ∧
  (∃ s : State, s.pins.refclk = false) :=
  ⟨⟨{ ready with pins := { ready.pins with refclk := true } }, by decide +kernel⟩,
   ⟨{ ready with pins := { ready.pins with refclk := true, vaux := true }, clock := { timebase := 2047, mark := 1 } },
       by decide +kernel⟩,
   ⟨{ ready with pins := { ready.pins with refclk := false } }, rfl⟩⟩

/-- Each clause of AdminReads has a state and operands that meet what it assumes. -/
theorem witness_admin_reads :
  (∃ (c : Cmd) (s : State), Accepted 0x0001 c s) ∧
  (∃ (c : Cmd) (s : State), Accepted 0x0002 c s ∧ par c 0 8 % 64 = 0 ∧ 1 ≤ par c 8 2 ∧ par c 8 2 ≤ 256) ∧
  (∃ (c : Cmd) (s : State), Accepted 0x0003 c s) ∧
  (∃ (c : Cmd) (s : State), Accepted 0x0005 c s ∧ cmdPf c = true ∧ 1 ≤ par c 0 2 ∧ par c 0 2 ≤ 0x80 ∧ par c 2 1 = 0) ∧
  (∃ (c : Cmd) (s : State), Accepted 0x0102 c s) ∧
  (∃ (c : Cmd) (s : State), Accepted 0x0106 c s) ∧
  (∃ (c : Cmd) (s : State), Accepted 0x0042 c s) ∧
  (∃ (c : Cmd) (s : State) (f : Sfdp), Accepted 0x0F05 c s ∧ s.flash.sfdp = some f) :=
  ⟨⟨pf [], ready, by decide +kernel⟩,
   ⟨pf [0,0,0,0,0,0,0,0,0,1], ready, by decide +kernel⟩,
   ⟨pf [], ready, by decide +kernel⟩,
   ⟨pf [0x80], ready, by decide +kernel⟩,
   ⟨pf [], ready, by decide +kernel⟩,
   ⟨pf [], ready, by decide +kernel⟩,
   ⟨pf [], ready, by decide +kernel⟩,
   ⟨pf [], ready2, {jedec:=1,sizeMiB:=64,quadMHz:=133,suspend:=true,blockEraseMs:=2000}, by decide +kernel⟩⟩

/-- Each clause of StagingCommands has a state and operands that meet what it assumes. -/
theorem witness_staging_commands :
  (∃ (c : Cmd) (s : State), Accepted 0x0101 c s) ∧
  (∃ (c : Cmd) (s : State), Accepted 0x0103 c s ∧ staged s (cmdArea c) = [] ∧ tget [] s.cfg.undo (cmdArea c) ≠ []) ∧
  (∃ (c : Cmd) (s : State), Accepted 0x0100 c s) :=
  ⟨⟨pf [], staged1, by decide +kernel⟩,
   ⟨pf [], undo1, by decide +kernel⟩,
   ⟨pf [3], ready, by decide +kernel⟩⟩

/-- Each clause of PartitionProcedures has a state and operands that meet what it assumes. -/
theorem witness_partition_procedures :
  (∃ (c : Cmd) (s : State) (k : _) (d : _), Accepted 0x0104 c s ∧ par c 0 2 ≠ 0 ∧ k = cmdTarget c ∧ d = (partOf s
      k).drainCmds ++ [(c, s.clock.timebase + msTicks (par c 0 2))]) ∧
  (∃ (c : Cmd) (s : State), Accepted 0x0105 c s) ∧
  (∃ (c : Cmd) (s : State) (t : _), Accepted 0x0206 c s ∧ par c 0 2 ≠ 0 ∧ rinseIncomplete s (cmdTarget c) = false ∧ t
      = startRinse (cmdTarget c) [(c, s.clock.timebase + msTicks (par c 0 2))] s) ∧
  (∃ (c : Cmd) (s : State) (t : _), Accepted 0x0207 c s ∧ par c 0 1 ≤ 2 ∧ t = modPart (cmdTarget c) (fun p =>
      { p with suspended := if par c 0 1 = 1 then true else if par c 0 1 = 2 then false else p.suspended }) s) :=
  ⟨⟨pf [10], ready, _, _, by decide +kernel, by decide +kernel, rfl, rfl⟩,
   ⟨pf [], ready, by decide +kernel⟩,
   ⟨pf [10], ready, _, by decide +kernel, by decide +kernel, by decide +kernel, rfl⟩,
   ⟨pf [2], ready, _, by decide +kernel, by decide +kernel, rfl⟩⟩

/-- Each clause of PartitionReports has a state and operands that meet what it assumes. -/
theorem witness_partition_reports :
  (∃ (c : Cmd) (s : State), Accepted 0x0205 c s ∧ par c 0 8 % 64 = 0) ∧
  (∃ (c : Cmd) (s : State) (g : _), Accepted 0x0208 c s ∧ 2 ^ 39 ≤ par c 0 5 ∧ bitsOf (par c 0 5) 27 12 = 0 ∧
      (grainsOf s (cmdTarget c))[bitsOf (par c 0 5) 20 7]? = some g) ∧
  (∃ (c : Cmd) (s : State) (n : _) (x : _) (o : _), Accepted 0x0208 c s ∧ par c 0 5 < 2 ^ 39 ∧ translateExtent s
      (cmdTarget c) (par c 0 5) = .inl (n, x, o)) ∧
  (∃ (c : Cmd) (s : State), Accepted 0x0209 c s ∧ par c 0 1 < 8) ∧
  (∃ (c : Cmd) (s : State) (i : _) (b : _), Accepted 0x020A c s ∧ par c 0 1 < 8 ∧ par c 1 1 ≤ 1 ∧ i = regKey
      (cmdTarget c) (par c 0 1) ∧ b = bucketOf s (cmdTarget c) (par c 0 1)) :=
  ⟨⟨pf [], ready, by decide +kernel⟩,
   ⟨pf [0,0,0,0,0x80], part1, 7, by decide +kernel⟩,
   ⟨pf [0,0,0,0,0x10], part1, 1, 1, 2^28, by decide +kernel⟩,
   ⟨pf [7], ready, by decide +kernel⟩,
   ⟨pf [7, 1], ready, _, _, by decide +kernel, by decide +kernel, by decide +kernel, rfl, rfl⟩⟩

/-- Each clause of PowerAndPartitionSteeps has a state and operands that meet what it assumes. -/
theorem witness_power_and_partition_steeps :
  (∃ (c : Cmd) (s : State) (es : _), Accepted 0x0801 c s ∧ (bitOf (par c 20 1) 0 = true → 100 ≤ par c 0 4 ∧ par c 0 4
      ≤ 100000) ∧ (bitOf (par c 20 1) 1 = true → 100 ≤ par c 4 4 ∧ par c 4 4 ≤ 100000) ∧ (bitOf (par c 20 1) 2 = true
      → 700000 ≤ par c 8 4 ∧ par c 8 4 ≤ 1600000) ∧ (bitOf (par c 20 1) 3 = true → par c 12 4 ≤ 1600000) ∧ (bitOf (par
      c 20 1) 4 = true → par c 16 2 ≤ 65535) ∧ (bitOf (par c 20 1) 5 = true → 64 ≤ par c 18 2 ∧ par c 18 2 ≤ 65535) ∧
      es = ((List.range 6).filter (fun i => bitOf (par c 20 1) i)).map (fun i => (cfgKey 0x0801 i 0, [[par c 0 4, par
      c 4 4, par c 8 4, par c 12 4, par c 16 2, par c 18 2].getD i 0])) ∧ Room c es s) ∧
  (∃ (c : Cmd) (s : State) (es : _), Accepted 0x0803 c s ∧ (∀ i < 8, 2048 ≤ par c (2 * i) 2 ∧ par c (2 * i) 2 ≤ 8192)
      ∧ es = [(cfgKey 0x0803 0 0, (List.range 8).map (fun i => par c (2 * i) 2))] ∧ Room c es s) ∧
  (∃ (c : Cmd) (s : State) (es : _), Accepted 0x0806 c s ∧ par c 0 4 ≤ 1048575 ∧ par c 4 4 ≤ 1048575 ∧ (∀ i < 8,
      bitsOf (par c 8 2) (2 * i) 2 ≠ 3) ∧ es = [(cfgKey 0x0806 0 0, [par c 0 4]), (cfgKey 0x0806 1 0, [par c 4 4]),
      (cfgKey 0x0806 2 0, [par c 8 2])] ∧ Room c es s) ∧
  (∃ (c : Cmd) (s : State) (es : _), Accepted 0x080A c s ∧ (∀ d < 96, (par c 0 12).testBit d = true → mayGate d =
      true) ∧ (∀ t < 16, (par c 0 12).testBit (2 * t) = (par c 0 12).testBit (2 * t + 1)) ∧ es = [(cfgKey 0x080A 0 0,
      [par c 0 12])] ∧ Room c es s) ∧
  (∃ (c : Cmd) (s : State) (es : _), Accepted 0x080C c s ∧ s.power.avsAbsent = false ∧ (∀ i < 5, bitOf (par c 10 1) i
      = true → 600 ≤ par c (2 * i) 2 ∧ par c (2 * i) 2 ≤ 850 ∧ par c (2 * i) 2 % 5 = 0) ∧ es = ((List.range 5).filter
      (fun i => bitOf (par c 10 1) i)).map (fun i => (cfgKey 0x080C i 0, [par c (2 * i) 2])) ∧ Room c es s) ∧
  (∃ (c : Cmd) (s : State) (es : _), Accepted 0x0004 c s ∧ 1 ≤ par c 0 2 ∧ par c 0 2 ≤ 0x80 ∧ par c 4 4 < 2 ^ 19 ∧ es
      = [(cfgKey 0x0004 0 (par c 0 2), [par c 4 4])] ∧ Room c es s) ∧
  (∃ (c : Cmd) (s : State) (es : _), Accepted 0x0200 c s ∧ par c 0 1 < 8 ∧ par c 2 2 ≤ 256 ∧ rinseIncomplete s
      (cmdTarget c) = false ∧ es = [(cfgKey 0x0200 0 (cmdTarget c * 8 + par c 0 1), (List.range (par c 2 2)).map (fun
      i => hostAt c (2 * i) 2))] ∧ Room c es s) ∧
  (∃ (c : Cmd) (s : State) (es : _), Accepted 0x0201 c s ∧ par c 0 1 ≠ 0 ∧ rinseIncomplete s (cmdTarget c) = false ∧
      es = [(cfgKey 0x0201 0 (cmdTarget c), [par c 0 1])] ∧ Room c es s) ∧
  (∃ (c : Cmd) (s : State) (es : _), Accepted 0x0202 c s ∧ par c 0 2 ≤ 128 ∧ (∀ i < par c 0 2, hostAt c i 1 < 128) ∧
      rinseIncomplete s (cmdTarget c) = false ∧ es = [(cfgKey 0x0202 0 (cmdTarget c), (List.range (par c 0 2)).map
      (fun i => hostAt c i 1))] ∧ Room c es s) ∧
  (∃ (c : Cmd) (s : State) (es : _), Accepted 0x0203 c s ∧ par c 0 1 < 8 ∧ es = [(cfgKey 0x0203 0 (par c 0 1),
      (List.range 10).map (fun i => par c (4 + 4 * i) 4 % 2 ^ 26 * 1024))] ∧ Room c es s) ∧
  (∃ (c : Cmd) (s : State) (es : _), Accepted 0x0204 c s ∧ (par c 0 1 < 8 ∨ par c 0 1 = 0xFF) ∧ 1 ≤ par c 4 4 ∧ par c
      4 4 ≤ 131072 ∧ 64 ≤ par c 8 4 ∧ par c 8 4 ≤ 16777216 ∧ es = (if par c 0 1 = 0xFF then List.range 8 else [par c 0
      1]).flatMap (fun n => [(cfgKey 0x0204 0 (cmdTarget c * 8 + n), [par c 1 1 % 4]), (cfgKey 0x0204 1 (cmdTarget c *
      8 + n), [par c 4 4]), (cfgKey 0x0204 2 (cmdTarget c * 8 + n), [par c 8 4])]) ∧ Room c es s) :=
  ⟨⟨pf [100,0,0,0,160,134,1,0,0,0,0,0,0,0,0,0,0,0,64,0,35], ready, [(cfgKey 0x0801 0 0,[100]),(cfgKey 0x0801 1
      0,[100000]),(cfgKey 0x0801 5 0,[64])], by decide +kernel⟩,
   ⟨pf [0, 8, 0, 8, 0, 8, 0, 8, 0, 32, 0, 32, 0, 32, 0, 32], ready, _, by decide +kernel, by decide +kernel, rfl,
       by decide +kernel⟩,
   ⟨pf [255,255,15,0,0,0,0,0,68,68], master, [(cfgKey 0x0806 0 0,[1048575]),(cfgKey 0x0806 1 0,[0]),(cfgKey 0x0806 2
       0,[0x4444])], by decide +kernel⟩,
   ⟨pf [3,0,0,0,0,1,8,0,0,0,0,0], ready, [(cfgKey 0x080A 0 0,[2252899325313027])], by decide +kernel⟩,
   ⟨pf [88,2,0,0,0,0,0,0,82,3,17], ready, [(cfgKey 0x080C 0 0,[600]),(cfgKey 0x080C 4 0,[850])], by decide +kernel⟩,
   ⟨pf [128,0,0,0,255,255,7,0], ready, [(cfgKey 0x0004 0 0x80,[524287])], by decide +kernel⟩,
   ⟨{ (pf [7,0,2,0]) with hostIn := [1,0,2,1] }, ready, [(cfgKey 0x0200 0 7,[1,258])], by decide +kernel⟩,
   ⟨pf [255], ready, [(cfgKey 0x0201 0 0,[255])], by decide +kernel⟩,
   ⟨{ (pf [2, 0]) with hostIn := [0, 127] }, ready, _, by decide +kernel, by decide +kernel, by decide +kernel,
       by decide +kernel, rfl, by decide +kernel⟩,
   ⟨pf [7, 0, 0, 0, 255, 255, 255, 3], ready, _, by decide +kernel, by decide +kernel, rfl, by decide +kernel⟩,
   ⟨pf [255,3,0,0,0,0,2,0,64,0,0,0], ready, (List.range 8).flatMap (fun n => [(cfgKey 0x0204 0 n,[3]),(cfgKey 0x0204 1
       n,[131072]),(cfgKey 0x0204 2 n,[64])]), by decide +kernel⟩⟩

/-- Each clause of PolicySteeps has a state and operands that meet what it assumes. -/
theorem witness_policy_steeps :
  (∃ (c : Cmd) (s : State) (es : _), Accepted 0x0300 c s ∧ (par c 0 1 < 26 ∨ par c 0 1 = 0xFF) ∧ (par c 4 4 = 0 ∨ (128
      ≤ par c 4 4 ∧ par c 4 4 ≤ 16777215)) ∧ es = (if par c 0 1 = 0xFF then List.range 26 else [par c 0 1]).map (fun q
      => (cfgKey 0x0300 0 (cmdTarget c * 32 + q), [par c 4 4])) ∧ Room c es s) ∧
  (∃ (c : Cmd) (s : State) (es : _), Accepted 0x0303 c s ∧ (par c 0 2 < 512 ∨ par c 0 2 = 0xFFFF) ∧ 2 ≤ par c 2 1 ∧
      par c 2 1 ≤ 56 ∧ par c 3 1 ≤ 54 ∧ 1 ≤ par c 4 1 ∧ par c 4 1 ≤ 32 ∧ 1 ≤ par c 5 1 ∧ par c 5 1 ≤ 64 ∧ es =
      [(cfgKey 0x0303 0 (par c 0 2), [par c 2 1]), (cfgKey 0x0303 1 (par c 0 2), [par c 3 1]), (cfgKey 0x0303 2 (par c
      0 2), [par c 4 1]), (cfgKey 0x0303 3 (par c 0 2), [par c 5 1])] ∧ Room c es s) ∧
  (∃ (c : Cmd) (s : State) (es : _), Accepted 0x0401 c s ∧ (par c 0 2 < 256 ∨ par c 0 2 = 0xFFFF) ∧ par c 2 1 ≤ 1 ∧ es
      = [(cfgKey 0x0401 0 (par c 0 2), [par c 2 1])] ∧ Room c es s) ∧
  (∃ (c : Cmd) (s : State) (es : _), Accepted 0x0402 c s ∧ (par c 0 2 < 512 ∨ par c 0 2 = 0xFFFF) ∧ (bitOf (par c 10
      1) 0 = true → 28672 ≤ par c 4 4 ∧ par c 4 4 ≤ 1048575) ∧ (bitOf (par c 10 1) 1 = true → 1 ≤ par c 8 1 ∧ par c 8
      1 ≤ 32) ∧ (bitOf (par c 10 1) 2 = true → 1 ≤ par c 9 1 ∧ par c 9 1 ≤ 32) ∧ es = ((List.range 3).filter (fun i =>
      bitOf (par c 10 1) i)).map (fun i => (cfgKey 0x0402 i (par c 0 2), [[par c 4 4, par c 8 1, par c 9 1].getD i
      0])) ∧ Room c es s) ∧
  (∃ (c : Cmd) (s : State) (es : _), Accepted 0x0501 c s ∧ (par c 0 1 < 8 ∨ par c 0 1 = 0xFF) ∧ par c 1 1 ≤ 2 ∧ es =
      (if par c 0 1 = 0xFF then List.range 8 else [par c 0 1]).map (fun n => (cfgKey 0x0501 0 n, [par c 1 1])) ∧ Room
      c es s) ∧
  (∃ (c : Cmd) (s : State) (es : _), Accepted 0x0903 c s ∧ 5 ≤ par c 1 1 ∧ par c 1 1 ≤ 100 ∧ es = [(cfgKey 0x0903 0 0,
      [par c 0 1 % 32]), (cfgKey 0x0903 1 0, [par c 1 1])] ∧ Room c es s) ∧
  (∃ (c : Cmd) (s : State) (es : _), Accepted 0x0A04 c s ∧ par c 0 2 ≠ 0 ∧ par c 2 1 ≤ 3 ∧ par c 4 2 ≠ 0 ∧ es =
      [(cfgKey 0x0A04 0 (cmdTarget c), [par c 0 2]), (cfgKey 0x0A04 1 (cmdTarget c), [par c 2 1]), (cfgKey 0x0A04 2
      (cmdTarget c), [par c 4 2])] ∧ Room c es s) ∧
  (∃ (c : Cmd) (s : State) (es : _), Accepted 0x0D00 c s ∧ par c 0 4 % 64 = 0 ∧ par c 0 4 ≤ 1048576 ∧ 2 ≤ par c 4 2 ∧
      par c 4 2 ≤ 4096 ∧ par c 8 8 % 4096 = 0 ∧ es = [(cfgKey 0x0D00 0 0, [par c 0 4]), (cfgKey 0x0D00 1 0, [par c 4
      2]), (cfgKey 0x0D00 2 0, [par c 8 8])] ∧ Room c es s) ∧
  (∃ (c : Cmd) (s : State) (es : _), Accepted 0x0E00 c s ∧ par c 0 1 ≤ 1 ∧ par c 1 1 ≤ 11 ∧ 3 ≤ par c 4 1 ∧ par c 4 1
      ≤ 10 ∧ es = [(cfgKey 0x0E00 0 (par c 0 1), [par c 1 1]), (cfgKey 0x0E00 1 (par c 0 1), [par c 2 2]), (cfgKey
      0x0E00 2 (par c 0 1), [par c 4 1])] ∧ Room c es s) ∧
  (∃ (c : Cmd) (s : State) (es : _), Accepted 0x0C01 c s ∧ par c 0 1 < 4 ∧ bitsOf (par c 1 1) 4 2 ≠ 3 ∧ 0x0600 ≤ par c
      8 2 ∧ es = [(cfgKey 0x0C01 0 (par c 0 1), [par c 1 1 % 64]), (cfgKey 0x0C01 1 (par c 0 1), [beAt c.params 2 6]),
      (cfgKey 0x0C01 2 (par c 0 1), [par c 8 2]), (cfgKey 0x0C01 3 (par c 0 1), [par c 10 2]), (cfgKey 0x0C01 4 (par c
      0 1), [par c 12 1]), (cfgKey 0x0C01 5 (par c 0 1), [beAt c.params 14 6])] ∧ Room c es s) ∧
  (∃ (c : Cmd) (s : State) (es : _), Accepted 0x0C02 c s ∧ par c 0 1 < 4 ∧ par c 1 1 < 64 ∧ 2 ≤ par c 10 2 ∧ es =
      [(cfgKey 0x0C02 0 (par c 0 1 * 64 + par c 1 1), [beAt c.params 2 6]), (cfgKey 0x0C02 1 (par c 0 1 * 64 + par c 1
      1), [par c 8 1 % 2]), (cfgKey 0x0C02 2 (par c 0 1 * 64 + par c 1 1), [par c 10 2]), (cfgKey 0x0C02 3 (par c 0 1
      * 64 + par c 1 1), [par c 16 16])] ∧ Room c es s) ∧
  (∃ (c : Cmd) (s : State) (es : _), Accepted 0x0C03 c s ∧ par c 0 2 < 4096 ∧ par c 4 2 < 128 ∧ par c 6 2 < 128 ∧ par
      c 8 8 < 2 ^ 40 ∧ par c 16 8 % 32 = 0 ∧ es = [(cfgKey 0x0C03 0 (par c 0 2), [par c 2 1 % 2]), (cfgKey 0x0C03 1
      (par c 0 2), [par c 3 1]), (cfgKey 0x0C03 2 (par c 0 2), [par c 4 2]), (cfgKey 0x0C03 3 (par c 0 2), [par c 6
      2]), (cfgKey 0x0C03 4 (par c 0 2), [par c 8 8]), (cfgKey 0x0C03 5 (par c 0 2), [par c 16 8])] ∧ Room c es s) ∧
  (∃ (c : Cmd) (s : State) (es : _), Accepted 0x0C05 c s ∧ (par c 0 1 < 4 ∨ par c 0 1 = 0xFF) ∧ 1 ≤ par c 2 2 ∧ par c
      2 2 ≤ 60000 ∧ es = [(cfgKey 0x0C05 0 0, [par c 0 1]), (cfgKey 0x0C05 1 0, [par c 1 1 % 2]), (cfgKey 0x0C05 2 0,
      [par c 2 2])] ∧ Room c es s) ∧
  (∃ (c : Cmd) (s : State) (es : _), Accepted 0x0C06 c s ∧ par c 0 1 ≤ 2 ∧ par c 1 1 ≤ 1 ∧ 16 ≤ par c 2 2 ∧ es =
      [(cfgKey 0x0C06 0 (cmdTarget c), [par c 0 1]), (cfgKey 0x0C06 1 (cmdTarget c), [par c 1 1]), (cfgKey 0x0C06 2
      (cmdTarget c), [par c 2 2])] ∧ Room c es s) :=
  ⟨⟨pf [255,0,0,0,255,255,255,0], ready, (List.range 26).map (fun q => (cfgKey 0x0300 0 q, [16777215])),
      by decide +kernel⟩,
   ⟨pf [255,255,2,54,32,1], ready, [(cfgKey 0x0303 0 0xFFFF,[2]),(cfgKey 0x0303 1 0xFFFF,[54]),(cfgKey 0x0303 2
       0xFFFF,[32]),(cfgKey 0x0303 3 0xFFFF,[1])], by decide +kernel⟩,
   ⟨pf [255,0,1], ready, [(cfgKey 0x0401 0 255,[1])], by decide +kernel⟩,
   ⟨pf [255,1,0,0,0,112,0,0,32,1,7], ready, [(cfgKey 0x0402 0 511,[28672]),(cfgKey 0x0402 1 511,[32]),(cfgKey 0x0402 2
       511,[1])], by decide +kernel⟩,
   ⟨pf [255,2], ready, (List.range 8).map (fun n => (cfgKey 0x0501 0 n,[2])), by decide +kernel⟩,
   ⟨pf [31,100], ready, [(cfgKey 0x0903 0 0,[31]),(cfgKey 0x0903 1 0,[100])], by decide +kernel⟩,
   ⟨pf [1,0,3,0,1,0], ready, [(cfgKey 0x0A04 0 0,[1]),(cfgKey 0x0A04 1 0,[3]),(cfgKey 0x0A04 2 0,[1])],
       by decide +kernel⟩,
   ⟨pf [0,0,16,0,0,16,0,0,0,16,0,0,0,0,0,0], ready, [(cfgKey 0x0D00 0 0,[1048576]),(cfgKey 0x0D00 1 0,[4096]),(cfgKey
       0x0D00 2 0,[4096])], by decide +kernel⟩,
   ⟨pf [1, 0, 0, 0, 10], ready, _, by decide +kernel, by decide +kernel, by decide +kernel, by decide +kernel,
       by decide +kernel, rfl, by decide +kernel⟩,
   ⟨pf [3,33,0,0,0,0,0,0,0,6,1,0,9,0,0,0,0,0,0,0], ready, [(cfgKey 0x0C01 0 3,[0x21]),(cfgKey 0x0C01 1 3,[0]),(cfgKey
       0x0C01 2 3,[0x600]),(cfgKey 0x0C01 3 3,[1]),(cfgKey 0x0C01 4 3,[9]),(cfgKey 0x0C01 5 3,[0])],
       by decide +kernel⟩,
   ⟨pf [3,63,0,0,0,0,0,0,1,0,2,0], ready, [(cfgKey 0x0C02 0 255,[0]),(cfgKey 0x0C02 1 255,[1]),(cfgKey 0x0C02 2
       255,[2]),(cfgKey 0x0C02 3 255,[0])], by decide +kernel⟩,
   ⟨pf [255,15,1,63,127,0,127,0,255,255,255,255,255,0,0,0,32,0,0,0,0,0,0,0], ready, [(cfgKey 0x0C03 0
       4095,[1]),(cfgKey 0x0C03 1 4095,[63]),(cfgKey 0x0C03 2 4095,[127]),(cfgKey 0x0C03 3 4095,[127]),(cfgKey 0x0C03
       4 4095,[1099511627775]),(cfgKey 0x0C03 5 4095,[32])], by decide +kernel⟩,
   ⟨pf [255,1,96,234], ready, [(cfgKey 0x0C05 0 0,[255]),(cfgKey 0x0C05 1 0,[1]),(cfgKey 0x0C05 2 0,[60000])],
       by decide +kernel⟩,
   ⟨pf [2,1,16,0], ready, [(cfgKey 0x0C06 0 0,[2]),(cfgKey 0x0C06 1 0,[1]),(cfgKey 0x0C06 2 0,[16])],
       by decide +kernel⟩⟩

/-- Each clause of PourEvents has a state and operands that meet what it assumes. -/
theorem witness_pour_events :
  (∃ (s : State) (r : _) (set : _), frontPour s = some r ∧ s.cfg.pour = none ∧ earlierSteep s r.cmd = false ∧ set =
      expandSet s (staged s (cmdArea r.cmd)) ∧ classDReady s set = true ∧ pourFailure s r.cmd set = none ∧ undrained s
      set = [] ∧ (needsRecord r set (tget false s.cfg.areaPersist (cmdArea r.cmd)) = true → s.flash.answers = true ∧
      storeHeld s = false)) ∧
  (∃ (s : State) (p : Pour), s.cfg.pour = some p ∧ p.recordPending = false ∧ p.classDDone = true ∧ p.hubDone = true ∧
      p.unitsLeft = [] ∧ p.req.reopen = false) ∧
  (∃ (s : State), s.flash.store.valid = true ∧ s.flash.store.compacting = false ∧ s.flash.store.freeBytes < 65536 ∧
      s.flash.answers = true) :=
  ⟨⟨pour1, { cmd := pf [1], persist := true, reopen := false }, _, by decide +kernel, by decide +kernel,
      by decide +kernel, rfl, by decide +kernel, by decide +kernel, by decide +kernel, by decide +kernel⟩,
   ⟨pour2, poured, by decide +kernel⟩,
   ⟨{ ready with flash := { store := { half0 := { ok := true }, freeBytes := 65535 } } }, by decide +kernel⟩⟩

/-- Each clause of FlashAndFirmware has a state and operands that meet what it assumes. -/
theorem witness_flash_and_firmware :
  (∃ (s : State) (rest : _) (p : _), s.flash.jobs = .pourRecord :: rest ∧ flashFree s = true ∧ s.flash.answers = true
      ∧ s.cfg.pour = some p ∧ p.recordPending = true) ∧
  (∃ (s : State) (rest : _) (p : _), s.flash.jobs = .pourRecord :: rest ∧ flashFree s = true ∧ s.cfg.pour = some p ∧
      p.recordPending = true) ∧
  (∃ (s : State) (rest : _) (c : _) (sel : _) (_ok : Bool), s.flash.jobs = .bootNext c sel :: rest ∧ flashFree s =
      true) ∧
  (∃ (s : State) (e : _), s.flash.erase = some e ∧ eraseSuspended s = false ∧ e.between = false ∧ s.flash.answers =
      true ∧ e.unit < 256) ∧
  (∃ (s : State) (e : _), s.flash.erase = some e ∧ eraseSuspended s = false ∧ e.between = false ∧ s.flash.answers =
      true ∧ 256 ≤ e.unit) ∧
  (∃ (s : State) (e : _), s.flash.erase = some e ∧ eraseSuspended s = false ∧ e.between = false) ∧
  (∃ (s : State), s.flash.store.compacting = true ∧ compactionSuspended s = false ∧ s.flash.answers = true ∧
      s.flash.store.half ≤ 1) ∧
  (∃ (c : Cmd) (s : State), Accepted 0x0F00 c s) ∧
  (∃ (c : Cmd) (s : State), Accepted 0x0F01 c s ∧ bankRefused (par c 0 1) s = none ∧ s.flash.answers = true) ∧
  (∃ (c : Cmd) (s : State), Accepted 0x0F02 c s ∧ bankRefused (par c 0 1) s = none ∧ s.flash.answers = true ∧ 0x1000 ≤
      par c 4 4 ∧ par c 4 4 ≤ 0xFFFF00 ∧ par c 4 4 % 256 = 0 ∧ 256 ≤ par c 16 4 ∧ par c 16 4 ≤ 1048576 ∧ par c 16 4 %
      256 = 0 ∧ par c 4 4 + par c 16 4 ≤ 2 ^ 24 ∧ (bankOf s (par c 0 1)).erasedOk = true ∧ (∀ p ∈ writePages (par c 4
      4) (par c 16 4), p ∉ (bankOf s (par c 0 1)).pages)) ∧
  (∃ (c : Cmd) (s : State), Accepted 0x0F03 c s ∧ bankRefused (par c 0 1) s = none ∧ s.flash.answers = true ∧ 4096 ≤
      par c 4 4 ∧ par c 4 4 ≤ 16773120) ∧
  (∃ (c : Cmd) (s : State), Accepted 0x0F04 c s ∧ s.flash.answers = true ∧ par c 0 1 ≤ 2 ∧ (par c 0 1 = 0 ∨ bankValid
      (bankOf s (par c 0 1 - 1)) = true)) :=
  ⟨⟨pour3, [], { poured with req := { cmd := pf [1], persist := true, reopen := false }, recordPending := true },
      by decide +kernel⟩,
   ⟨pour3, [], { poured with req := { cmd := pf [1], persist := true, reopen := false }, recordPending := true },
       by decide +kernel⟩,
   ⟨flash1 (.bootNext (pf [1]) (some 0)), [], pf [1], some 0, true, by decide +kernel⟩,
   ⟨{ ready with flash := { erase := some { bank := 1, cmd := pf [1] } } }, { bank := 1, cmd := pf [1] },
       by decide +kernel⟩,
   ⟨{ ready with flash := { erase := some { bank := 1, cmd := pf [1], unit := 256 } } },
       { bank := 1, cmd := pf [1], unit := 256 }, by decide +kernel⟩,
   ⟨{ ready with flash := { erase := some { bank := 1, cmd := pf [1] } } }, { bank := 1, cmd := pf [1] },
       by decide +kernel⟩,
   ⟨{ ready with flash := { store := { compacting := true } } }, by decide +kernel⟩,
   ⟨pf [], ready, by decide +kernel⟩,
   ⟨pf [1], ready, by decide +kernel⟩,
   ⟨{ (pf [1,0,0,0,0,0x10,0,0,0,0,0,0,0,0,0,0,0,1]) with hostIn := List.replicate 256 5 }, bankB, by decide +kernel⟩,
   ⟨pf [1,0,0,0,0,0x10], bankB, by decide +kernel⟩,
   ⟨pf [1], ready, by decide +kernel⟩⟩

/-- Each clause of DrainAndRinseEvents has a state and operands that meet what it assumes. -/
theorem witness_drain_and_rinse_events :
  (∃ (s : State) (t : Fin 128), (partOf s t.val).closed = true ∧ drainedNow s t.val = true ∧ (partOf s t.val).rinse =
      none ∧ (twinPartOf s t.val).takeover = none) ∧
  (∃ (s : State) (t : Fin 128) (r : _), (partOf s t.val).closed = true ∧ drainedNow s t.val = true ∧ (partOf s
      t.val).rinse = some r ∧ r.phase = .draining ∧ (twinPartOf s t.val).takeover = none) ∧
  (∃ (s : State) (id : _) (r : _), s.peers.held.any (fun h => h.id == id) = false ∧ s.path.reqs.find? (fun r =>
      r.access == id && r.place == .held) = some r ∧ r.arrived + msTicks 2 ≤ s.clock.timebase) ∧
  (∃ (s : State) (id : _) (h : _), s.peers.held.find? (fun h => h.id == id) = some h ∧ h.applying = false ∧ h.type ≠
      0x03 ∧ holds s h.frame.dstTenant.toNat = true ∧ h.since + msTicks 2 ≤ s.clock.timebase) ∧
  (∃ (s : State) (t : Fin 128) (r : _), (partOf s t.val).rinse = some r ∧ r.phase = .draining) ∧
  (∃ (s : State) (t : Fin 128) (r : _), (partOf s t.val).rinse = some r ∧ r.phase = .recording ∧ r.recorded = false ∧
      (∀ m, r.failedMark = some m → m < s.clock.mark) ∧ s.flash.jobs.any (fun j =>
      match j with | .rinseRecord u _ => u == t.val | _ => false) = false) ∧
  (∃ (s : State) (t : Fin 128) (r : Rinse), (partOf s t.val).rinse = some r ∧ r.phase = .recording ∧ r.recorded =
      true) ∧
  (∃ (s : State) (t : Fin 128), writesRun s = true ∧ rinseRunning s t.val = true ∧ rinseWritten s t.val = true) ∧
  (∃ (s : State) (t : Fin 128) (n : Fin 8) (x : _), writesRun s = true ∧ rinseRunning s t.val = false ∧ (joinLeft s
      t.val n.val).head? = some x ∧ extentSectors s n.val x ≤ cursorOf s t.val n.val x) :=
  ⟨⟨withPart { closed := true, drainCmds := [(pf [1], 5)] }, 0, by decide +kernel⟩,
   ⟨withPart { closed := true, rinse := some { phase := .draining, cmds := [(pf [1], 20480)] } }, 0,
       { phase := .draining, cmds := [(pf [1], 20480)] }, by decide +kernel⟩,
   ⟨{ part1 with path := { reqs := [heldReq] }, clock := { timebase := 2000000 } }, 1, heldReq, by decide +kernel⟩,
   ⟨{ (withPart { closed := true }) with peers := { held := [heldPut] }, clock := { timebase := 2000000 } }, 1,
       heldPut, by decide +kernel⟩,
   ⟨withPart { closed := true, rinse := some { phase := .draining, cmds := [(pf [1], 20480)] } }, 0,
       { phase := .draining, cmds := [(pf [1], 20480)] }, by decide +kernel⟩,
   ⟨withPart { closed := true, rinse := some { phase := .recording } }, 0, { phase := .recording }, by decide +kernel⟩,
   ⟨{ (withPart { closed := true, rinse := some { phase := .recording, recorded := true } }) with flash := { mirror := [(0, 9)] } },
       0, { phase := .recording, recorded := true }, by decide +kernel⟩,
   ⟨writing { closed := true, incomplete := true, rinse := some { phase := .running }, rinsed := [(0, 1), (1, 1)] },
       0, by decide +kernel⟩,
   ⟨writing { joining := [(0, 1)], cursor := [(0, (1, 8388608))] }, 0, 0, 1, by decide +kernel⟩⟩

/-- Each clause of SchedulingAndKettleReports has a state and operands that meet what it assumes. -/
theorem witness_scheduling_and_kettle_reports :
  (∃ (c : Cmd) (s : State), Accepted 0x0301 c s ∧ par c 0 1 < 26 ∧ par c 1 1 ≤ 1) ∧
  (∃ (c : Cmd) (s : State) (ks : _) (q : _), Accepted 0x0302 c s ∧ (par c 0 1 < 26 ∨ par c 0 1 = 0xFF) ∧
      (par c 1 1 < 8 ∨ par c 1 1 = 0xFF) ∧ ks = qosKeys (cmdTarget c) (par c 0 1) (par c 1 1) ∧
      q = ks.map (fun k => tget {} s.qos k)) ∧
  (∃ (c : Cmd) (s : State), Accepted 0x0304 c s ∧ par c 0 2 < 512) ∧
  (∃ (c : Cmd) (s : State) (d : _), Accepted 0x0305 c s ∧ par c 0 1 ≤ 8 ∧ d = dieOf s (dieField (par c 0 1))) ∧
  (∃ (c : Cmd) (s : State), Accepted 0x0800 c s) ∧
  (∃ (c : Cmd) (s : State), Accepted 0x0802 c s ∧ par c 0 1 = 0) ∧
  (∃ (c : Cmd) (s : State), Accepted 0x0802 c s ∧ par c 0 1 = 1) ∧
  (∃ (c : Cmd) (s : State), Accepted 0x0805 c s) ∧
  (∃ (c : Cmd) (s : State), Accepted 0x0808 c s) ∧
  (∃ (c : Cmd) (s : State), Accepted 0x0809 c s ∧ par c 0 1 ≤ 2) ∧
  (∃ (c : Cmd) (s : State), Accepted 0x080B c s ∧ par c 0 1 ≤ 2) ∧
  (∃ (c : Cmd) (s : State), Accepted 0x080B c s ∧ par c 0 1 = 3) :=
  ⟨⟨pf [25,1], ready, by decide +kernel⟩,
   ⟨pf [25,7,1], ready, [((0 * 32 + 25) * 8 + 7)], [{}], by decide +kernel⟩,
   ⟨pf [255,1], ready, by decide +kernel⟩,
   ⟨pf [8], ready, {}, by decide +kernel⟩,
   ⟨pf [], ready, by decide +kernel⟩,
   ⟨pf [], ready, by decide +kernel⟩,
   ⟨pf [1], ready, by decide +kernel⟩,
   ⟨pf [], ready, by decide +kernel⟩,
   ⟨pf [], ready, by decide +kernel⟩,
   ⟨pf [2], ready, by decide +kernel⟩,
   ⟨pf [2], ready, by decide +kernel⟩,
   ⟨pf [3], ready, by decide +kernel⟩⟩

/-- Each clause of FootDieReports has a state and operands that meet what it assumes. -/
theorem witness_foot_die_reports :
  (∃ (c : Cmd) (s : State), Accepted 0x0400 c s ∧ par c 0 2 < 512) ∧
  (∃ (c : Cmd) (s : State) (p : _), Accepted 0x0403 c s ∧ par c 0 2 < 512 ∧ p = pcOf s (par c 0 2)) ∧
  (∃ (c : Cmd) (s : State), Accepted 0x0407 c s ∧ par c 0 1 < 8) ∧
  (∃ (c : Cmd) (s : State), Accepted 0x0500 c s ∧ par c 0 2 < 512) ∧
  (∃ (c : Cmd) (s : State), Accepted 0x0500 c s ∧ par c 0 2 = 0xFFFF) ∧
  (∃ (c : Cmd) (s : State), Accepted 0x0502 c s ∧ par c 0 1 < 8 ∧ par c 8 8 % 16 = 0) ∧
  (∃ (c : Cmd) (s : State) (es : _), Accepted 0x0504 c s ∧ par c 0 1 < 8 ∧ par c 2 2 < 8192 ∧ 1 ≤ par c 4 2 ∧
      par c 4 2 ≤ 8192 ∧ par c 8 8 % 32 = 0 ∧
      es = (((retiredEntries s (par c 0 1)).filter (fun e => e.crcOk)).drop (par c 2 2)).take (par c 4 2)) ∧
  (∃ (c : Cmd) (s : State) (p : _), Accepted 0x0600 c s ∧ par c 0 1 < 8 ∧ par c 2 2 < 64 ∧
      p = par c 0 1 * 64 + par c 2 2) ∧
  (∃ (c : Cmd) (s : State), Accepted 0x0604 c s ∧ par c 0 1 < 8) ∧
  (∃ (c : Cmd) (s : State) (t : FoldTable), Accepted 0x0605 c s ∧ par c 0 1 < 8 ∧ par c 1 1 < 4 ∧ par c 8 8 % 64 = 0 ∧
      t = (foldTables (stackOf s (par c 0 1)).mapped).getD (par c 1 1) []) :=
  ⟨⟨pf [255,1], ready, by decide +kernel⟩,
   ⟨pf [255,1,1], ready, {}, by decide +kernel⟩,
   ⟨pf [7], ready, by decide +kernel⟩,
   ⟨pf [255,1,1], ready, by decide +kernel⟩,
   ⟨pf [255,255,1], ready, by decide +kernel⟩,
   ⟨pf [7], ready, by decide +kernel⟩,
   ⟨pf [7,0,255,31,0,32], ready, [], by decide +kernel⟩,
   ⟨pf [7,0,63], ready, 511, by decide +kernel⟩,
   ⟨pf [7], ready, by decide +kernel⟩,
   ⟨pf [7,3], ready, [], by decide +kernel⟩⟩

/-- Each clause of CalibrationAndThermalReports has a state and operands that meet what it assumes. -/
theorem witness_calibration_and_thermal_reports :
  (∃ (c : Cmd) (s : State) (k : _), Accepted 0x0700 c s ∧ par c 0 2 < 512 ∧ par c 8 8 % 64 = 0 ∧
      k = (pcOf s (par c 0 2)).cal) ∧
  (∃ (c : Cmd) (s : State), Accepted 0x0701 c s) ∧
  (∃ (c : Cmd) (s : State), Accepted 0x0702 c s ∧ par c 0 1 < 8) ∧
  (∃ (c : Cmd) (s : State) (k : _), Accepted 0x0900 c s ∧ par c 0 1 < 8 ∧ k = stackOf s (par c 0 1)) ∧
  (∃ (c : Cmd) (s : State), Accepted 0x0901 c s) ∧
  (∃ (c : Cmd) (s : State), Accepted 0x0902 c s ∧ (par c 0 1 < 8 ∨ par c 0 1 = 0xFF) ∧ par c 8 8 % 32 = 0) :=
  ⟨⟨pf [255,1,0,0,0,0,0,0,64], ready, {}, by decide +kernel⟩,
   ⟨pf [], ready, by decide +kernel⟩,
   ⟨pf [7], ready, by decide +kernel⟩,
   ⟨pf [7,1], ready, {}, by decide +kernel⟩,
   ⟨pf [], ready, by decide +kernel⟩,
   ⟨pf [255], ready, by decide +kernel⟩⟩

/-- Each clause of BrewCommands has a state and operands that meet what it assumes. -/
theorem witness_brew_commands :
  (∃ (c : Cmd) (s : State), Accepted 0x0A00 c s ∧ brewRefused c s = none ∧ freeHandles s ≠ []) ∧
  (∃ (c : Cmd) (s : State) (l : _), Accepted 0x0A02 c s ∧ listOf s (par c 0 1) = some l ∧ l.tenant = cmdTarget c) ∧
  (∃ (c : Cmd) (s : State), Accepted 0x0A01 c s ∧ par c 0 1 < 64 ∧ listOf s (par c 0 1) = none) ∧
  (∃ (c : Cmd) (s : State) (l : _), Accepted 0x0A01 c s ∧ par c 0 1 < 64 ∧ listOf s (par c 0 1) = some l ∧
      l.tenant = cmdTarget c) ∧
  (∃ (c : Cmd) (s : State), Accepted 0x0A03 c s ∧ par c 0 1 < 16) ∧
  (∃ (c : Cmd) (s : State), Accepted 0x0A05 c s ∧ par c 0 1 < 16) :=
  ⟨⟨pf [0,0,0,0,0,0,0,0,255,255,1], full, by decide +kernel⟩,
   ⟨pf [63], lists1, { tenant := 0, prio := 1, cmdMask := 0xFFFF, nextTa := 0 }, by decide +kernel⟩,
   ⟨pf [63], ready, by decide +kernel⟩,
   ⟨pf [63], lists1, { tenant := 0, prio := 1, cmdMask := 0xFFFF, nextTa := 0 }, by decide +kernel⟩,
   ⟨pf [15], ready, by decide +kernel⟩,
   ⟨pf [15], ready, by decide +kernel⟩⟩

/-- Each clause of InfuserCommands has a state and operands that meet what it assumes. -/
theorem witness_infuser_commands :
  (∃ (c : Cmd) (s : State) (i : _), Accepted 0x0B00 c s ∧ par c 0 1 < 8 ∧ i = infuserOf s (par c 0 1)) ∧
  (∃ (c : Cmd) (s : State), Accepted 0x0B01 c s ∧ par c 0 1 < 8 ∧ infGated s (par c 0 1) = false ∧ infCheck1 0x0B01 c
      (par c 0 1) s = none ∧ prepareFields c = true ∧ recordsFault (par c 2 1) (par c 24 8) 0 [] (prepareRecords c) =
      none ∧ infRanges s (cmdTarget c) (par c 0 1) [(pageTa c 8, ctxBytes)] = none) ∧
  (∃ (op : Nat) (i : Cmd → Instr) (c : Cmd) (s : State), (op, i) ∈ [(0x0B02, Instr.infuseNtt), (0x0B03, .infuseIntt),
      (0x0B04, .infusePointwise), (0x0B05, .infuseAutomorph), (0x0B06, .infuseRescale), (0x0B07, .infuseBaseconv),
      (0x0B08, .infuseKeyswitch)] ∧ Accepted op c s ∧ rinseIncomplete s (cmdTarget c) = false ∧ (partOf s (cmdTarget
      c)).closed = false ∧ opStack c < 8 ∧ infGated s (opStack c) = false ∧ (infuserOf s (opStack c)).faulted = false
      ∧ (infuserOf s (opStack c)).queue.length < 64) :=
  ⟨⟨pf [7], ready, {}, by decide +kernel⟩,
   ⟨{ (pf [0, 0, 12, 1, 0, 1]) with hostIn := leBytes 8 1073153 ++ leBytes 8 869188 }, full, by decide +kernel⟩,
   ⟨0x0B02, .infuseNtt, pf [7], full, List.Mem.head _, by decide +kernel⟩⟩

/-- Each clause of PeerAndTwinCommands has a state and operands that meet what it assumes. -/
theorem witness_peer_and_twin_commands :
  (∃ (c : Cmd) (s : State), Accepted 0x0C00 c s ∧ par c 0 1 < 4) ∧
  (∃ (c : Cmd) (s : State) (x : _), Accepted 0x0C04 c s ∧ par c 0 1 < 4 ∧ par c 1 1 < 64 ∧ x = connOf s (par c 0 1)
      (par c 1 1)) ∧
  (∃ (c : Cmd) (s : State) (q : OpReq), Accepted 0x0C08 c s ∧ q = peerOpReq c ∧ peerOpFields c = true ∧
      rinseIncomplete s q.tenant = false ∧ (partOf s q.tenant).closed = false ∧ issueStatus s q.tenant q.handle q.off
      q.len = none ∧ q.kind = 3 ∧ quiesced s = false) ∧
  (∃ (c : Cmd) (s : State) (q : OpReq), Accepted 0x0C08 c s ∧ q = peerOpReq c ∧ peerOpFields c = true ∧
      rinseIncomplete s q.tenant = false ∧ (partOf s q.tenant).closed = false ∧ issueStatus s q.tenant q.handle q.off
      q.len = none ∧ q.kind = 1 ∧ rangeStatus s q.tenant q.localTa q.len = none ∧ quiesced s = false) ∧
  (∃ (c : Cmd) (s : State) (q : OpReq), Accepted 0x0C08 c s ∧ q = peerOpReq c ∧ peerOpFields c = true ∧
      rinseIncomplete s q.tenant = false ∧ (partOf s q.tenant).closed = false ∧ issueStatus s q.tenant q.handle q.off
      q.len = none ∧ (q.kind = 0 ∨ q.kind = 2) ∧ rangeStatus s q.tenant q.localTa q.len = none ∧ quiesced s = false) ∧
  (∃ (c : Cmd) (s : State) (p : _), Accepted 0x0C07 c s ∧ par c 0 1 = 1 ∧ p = twinPartOf s (cmdTarget c)) ∧
  (∃ (c : Cmd) (s : State), Accepted 0x0C07 c s ∧ par c 0 1 = 0 ∧ cmdPf c = true) ∧
  (∃ (c : Cmd) (s : State), Accepted 0x0C09 c s ∧ par c 0 1 = 0 ∧ par c 2 2 ≠ 0 ∧ takeoverOk s (cmdTarget c) = true ∧
      s.flash.jobs = []) ∧
  (∃ (c : Cmd) (s : State), Accepted 0x0C09 c s ∧ par c 0 1 = 1 ∧ par c 2 2 ≠ 0 ∧ switchoverOk s (cmdTarget c) = true) :=
  ⟨⟨pf [3], ready, by decide +kernel⟩,
   ⟨pf [3,63], ready, {}, by decide +kernel⟩,
   ⟨pf [3, 0, 0, 0, 0, 0, 0, 0, 0, 0, 0, 0, 0, 0, 0, 0, 0, 0, 0, 0, 0, 0, 0, 0, 8], peer1, _, by decide +kernel, rfl,
       by decide +kernel, by decide +kernel, by decide +kernel, by decide +kernel, by decide +kernel,
       by decide +kernel⟩,
   ⟨pf [1, 0, 0, 0, 0, 0, 0, 0, 0, 0, 0, 0, 0, 0, 0, 0, 0, 0, 0, 0, 0, 0, 0, 0, 32], peer1, _, by decide +kernel, rfl,
       by decide +kernel, by decide +kernel, by decide +kernel, by decide +kernel, by decide +kernel,
       by decide +kernel, by decide +kernel⟩,
   ⟨pf [0, 0, 0, 0, 0, 0, 0, 0, 0, 0, 0, 0, 0, 0, 0, 0, 0, 0, 0, 0, 0, 0, 0, 0, 32], peer1, _, by decide +kernel, rfl,
       by decide +kernel, by decide +kernel, by decide +kernel, by decide +kernel, by decide +kernel,
       by decide +kernel, by decide +kernel⟩,
   ⟨pf [1], twin1 { state := 3 }, { state := 3 }, by decide +kernel⟩,
   ⟨pf [], twin1 { state := 3 }, by decide +kernel⟩,
   ⟨pf [0,0,1], { (twin1 { state := 6 }) with twin := { lost := true, parts := [(0, { state := 6 })] } },
       by decide +kernel⟩,
   ⟨pf [1,0,1], twin1
       { state := 3,
         view := some { mode := 2, home := 1, epoch := 0, state := 6, windows := [256, 256, 0, 0, 0, 0, 0, 0], config := [] } },
       by decide +kernel⟩⟩

/-- Each clause of TelemetryCommandsAndSpout has a state and operands that meet what it assumes. -/
theorem witness_telemetry_commands_and_spout :
  (∃ (c : Cmd) (s : State), Accepted 0x0D01 c s ∧ (par c 0 1 = 1 ∨ (par c 0 1 = 0 ∧ cmdPf c = true))) ∧
  (∃ (c : Cmd) (s : State), Accepted 0x0D02 c s ∧ par c 0 8 % 64 = 0 ∧ (par c 8 1 = 0 ∨ (par c 8 1 = 1 ∧
      cmdPf c = true))) ∧
  (∃ (c : Cmd) (s : State), Accepted 0x0D03 c s ∧ par c 0 8 % 4096 = 0 ∧ par c 0 8 ≠ 0 ∧ 2 ≤ par c 8 2 ∧
      par c 8 2 ≤ 4096) ∧
  (∃ (c : Cmd) (s : State), Accepted 0x0D03 c s ∧ par c 0 8 = 0) ∧
  (∃ (c : Cmd) (s : State) (es : _), Accepted 0x0D04 c s ∧ 1 ≤ par c 4 2 ∧ par c 4 2 ≤ 4096 ∧ par c 8 8 % 16 = 0 ∧
      es = logSelect s (BitVec.ofNat 32 (par c 0 4)) (par c 4 2) (bitOf (par c 6 1) 0)) ∧
  (∃ (c : Cmd) (s : State), Accepted 0x0D05 c s) ∧
  (∃ (s : State) (l : Latch) (base : _) (slots : _) (producer : _) (consumers : _), s.tele.dump = some l ∧
      s.tele.tenantRings = [] ∧ slots ≠ 0 ∧
      s.tele.ring = { base := base, slots := slots, producer := producer, state := 1 } ∧
      cget consumers 128 ≤ producer ∧ producer - cget consumers 128 < slots ∧ producer < 2 ^ 64 - 1) ∧
  (∃ (s : State) (f : Fin 4), f.val ≠ 0 ∧ s.tele.ring.state = 1) ∧
  (∃ (s : State) (f : Fin 4) (k : Fin 128), f.val ≠ 0 ∧ (tget {} s.tele.tenantRings k.val).state = 1) :=
  ⟨⟨pf [1], ready, by decide +kernel⟩,
   ⟨pf [0,0,0,0,0,0,0,0,1], ready, by decide +kernel⟩,
   ⟨pf [0,16,0,0,0,0,0,0,2], ready, by decide +kernel⟩,
   ⟨pf [], ready, by decide +kernel⟩,
   ⟨pf [0,0,0,0,0,16,0,0,16], logged, [{ bytes := [], timebase := 0, seq := 0 }], by decide +kernel⟩,
   ⟨pf [], logged, by decide +kernel⟩,
   ⟨{ ready with tele := { dump := some {}, ring := { base := 4096, slots := 4096, producer := 4095, state := 1 } } },
       {}, 4096, 4096, 4095, [], by decide +kernel⟩,
   ⟨{ ready with tele := { ring := { state := 1 } } }, 3, by decide +kernel⟩,
   ⟨{ ready with tele := { tenantRings := [(127, { state := 1 })] } }, 3, 127, by decide +kernel⟩⟩

/-- Each clause of OutOfBandRequests has a state and operands that meet what it assumes. -/
theorem witness_out_of_band_requests :
  (∃ (s : State) (first : _) (count : _) (l : Latch) (ls : List Latch), serving s = true ∧ 1 ≤ count ∧ count ≤ 32 ∧
      first + count ≤ 1024 ∧ dumpPeriod s ≠ 0 ∧ s.tele.latching = ls ++ [l]) ∧
  (∃ (s : State) (first : _) (count : _), serving s = true ∧ 1 ≤ count ∧ count ≤ 32 ∧ first + count ≤ 1024 ∧
      dumpPeriod s ≠ 0 ∧ s.tele.latching = [] ∧ s.tele.latch.tick ≠ 0) ∧
  (∃ (s : State) (count : _), serving s = true ∧ 1 ≤ count ∧ count ≤ 8) ∧
  (∃ (s : State), serving s = true) :=
  ⟨⟨{ dumping with tele := { latching := [{}] } }, 992, 32, { tick := 0 }, [], by decide +kernel⟩,
   ⟨{ dumping with tele := { latch := { tick := 1 } } }, 1023, 1, by decide +kernel⟩,
   ⟨ready, 8, by decide +kernel⟩,
   ⟨ready, by decide +kernel⟩⟩

/-- Each clause of TestAccessCommands has a state and operands that meet what it assumes. -/
theorem witness_test_access_commands :
  (∃ (c : Cmd) (s : State), Accepted 0x0E03 c s ∧ par c 0 1 < 8 ∧ (exerOf s (par c 0 1)).running = false ∧ ((par c 1 1
      = 0 ∧ par c 2 1 ≤ 5 ∧ 1 ≤ par c 3 1 ∧ par c 3 1 ≤ peakTenths s / 80 ∧ par c 8 8 ≠ 0 ∧ (∀ v < 64, (par c 8
      8).testBit v = true → inService s (par c 0 1 * 64 + v) = true)) ∨ (par c 1 1 = 1 ∧ par c 2 1 ≤ 5 ∧ par c 4 2 /
      32 = par c 0 1 ∧ (chanOf s (par c 4 2)).bench ≠ .none) ∨ (par c 1 1 = 2 ∧ par c 2 1 ≤ 6 ∧ par c 4 2 / 32 = par c
      0 1 ∧ (chanOf s (par c 4 2)).bench ≠ .none ∧ stackOwned s (par c 0 1) = false))) ∧
  (∃ (c : Cmd) (s : State), Accepted 0x0E04 c s ∧ par c 0 1 < 8) ∧
  (∃ (c : Cmd) (s : State), Accepted 0x0E05 c s ∧ par c 0 1 < 8) ∧
  (∃ (c : Cmd) (s : State), Accepted 0x0E06 c s ∧ par c 0 1 < 8 ∧ par c 8 8 % 64 = 0) ∧
  (∃ (s : State) (n : Fin 8), (exerOf s n.val).running = true ∧ (exerOf s n.val).passes ≠ 0 ∧ (exerOf s n.val).passes
      ≤ passesDone s (exerOf s n.val)) ∧
  (∃ (s : State) (n : Fin 8), (stackOf s n.val).restore = true ∧ (stackOf s n.val).online = true ∧ rinseWaits s n.val
      = false) ∧
  (∃ (c : Cmd) (s : State), Accepted 0x0E01 c s ∧ par c 0 2 < 256 ∧ chanAbsent s (par c 0 2) = false ∧ (stackOf s (par
      c 0 2 / 32)).thermal.heat ≠ .scald ∧ asleep s (par c 0 2 / 32) = false ∧ s.doze = .none ∧ (chanOf s (par c 0
      2)).windowOpen = false ∧ (chanOf s (par c 0 2)).bench = .none ∧ fetchUnderWay s (par c 0 2) = false) ∧
  (∃ (c : Cmd) (s : State), Accepted 0x0E01 c s ∧ par c 0 2 < 256 ∧ chanAbsent s (par c 0 2) = false ∧ (stackOf s (par
      c 0 2 / 32)).thermal.heat ≠ .scald ∧ asleep s (par c 0 2 / 32) = false ∧ s.doze = .none ∧ (chanOf s (par c 0
      2)).windowOpen = false ∧ (chanOf s (par c 0 2)).bench = .none ∧ fetchUnderWay s (par c 0 2) = true) ∧
  (∃ (c : Cmd) (s : State), Accepted 0x0E02 c s ∧ par c 0 2 < 256 ∧ chanAbsent s (par c 0 2) = false ∧ (chanOf s (par
      c 0 2)).bench = .command ∧ (chanOf s (par c 0 2)).exitCmd = none) ∧
  (∃ (c : Cmd) (s : State), Accepted 0x0E07 c s) ∧
  (∃ (c : Cmd) (s : State), Accepted 0x0E08 c s ∧ (∀ t < 128, partState s t = 0) ∧ leAt c.hostIn 0 1 = 0) ∧
  (∃ (c : Cmd) (s : State), Accepted 0x0E08 c s ∧ (∀ t < 128, partState s t = 0) ∧ leAt c.hostIn 0 1 ≠ 0) ∧
  (∃ (c : Cmd) (s : State), Accepted 0x0E09 c s ∧ par c 0 2 < 256 ∧ 1 ≤ par c 4 4 ∧ par c 4 4 ≤ 65536 ∧ chanAbsent s
      (par c 0 2) = false ∧ (chanOf s (par c 0 2)).bench ≠ .none ∧ stackOwned s (par c 0 2 / 32) = false ∧ (stackOf s
      (par c 0 2 / 32)).thermal.heat ≠ .scald) :=
  ⟨⟨pf [7,0,5,1,0,0,0,0,1], full, by decide +kernel⟩,
   ⟨pf [7], ready, by decide +kernel⟩,
   ⟨pf [7], ready, by decide +kernel⟩,
   ⟨pf [7,0,0,0,0,0,0,0,64], ready, by decide +kernel⟩,
   ⟨{ ready with exers := [(7, { running := true, mode := 1, channel := 255, passes := 1, passNo := 1 })] }, 7,
       by decide +kernel⟩,
   ⟨{ full with stk := [(7, { online := true, restore := true })] }, 7, by decide +kernel⟩,
   ⟨pf [255], full, by decide +kernel⟩,
   ⟨pf [0],
       { (atPlace .queued) with path := { (atPlace .queued).path with reqs := [{ heldReq with place := .queued, access := 1 }], accesses := [{ id := 1, owner := .fetch 63, fn := 0, write := false, start := 0, len := 64, left := 1 }] } },
       by decide +kernel⟩,
   ⟨pf [255], { full with chans := [(255, { bench := .command })] }, by decide +kernel⟩,
   ⟨pf [], ready, by decide +kernel⟩,
   ⟨pf [], ready, by decide +kernel⟩,
   ⟨{ (pf []) with hostIn := [1] }, ready, by decide +kernel⟩,
   ⟨pf [255,0,0,0,0,0,1],
       { ready with stk := [(7, { online := true })], chans := [(255, { bench := .device })], dbg := { level := 1 } },
       by decide +kernel⟩⟩

/-- Each clause of PowerAndSleepProcedures has a state and operands that meet what it assumes. -/
theorem witness_power_and_sleep_procedures :
  (∃ (c : Cmd) (s : State), Accepted 0x0804 c s ∧ par c 2 2 ≠ 0 ∧ s.kettle.quiesce = none ∧ bitOf (par c 0 1) 0 =
      false) ∧
  (∃ (c : Cmd) (s : State) (q : _) (d : _), Accepted 0x0804 c s ∧ par c 2 2 ≠ 0 ∧ s.kettle.quiesce = some q ∧ q.cmd =
      some d ∧ bitOf (par c 0 1) 0 = false) ∧
  (∃ (c : Cmd) (s : State) (q : _), Accepted 0x0804 c s ∧ par c 2 2 ≠ 0 ∧ s.kettle.quiesce = some q ∧ q.cmd = none ∧
      bitOf (par c 0 1) 0 = true) ∧
  (∃ (c : Cmd) (s : State), Accepted 0x0406 c s ∧ 1 ≤ par c 0 2 ∧ par c 0 2 ≤ 60000 ∧ dozeBusy s = false ∧ twinLinkUp
      s = false) ∧
  (∃ (c : Cmd) (s : State), Accepted 0x0807 c s ∧ par c 0 1 ≤ 3) ∧
  (∃ (c : Cmd) (s : State), Accepted 0x0040 c s ∧ (quiescedFully s = true ∨ bitOf (par c 0 1) 0 = true) ∧
      completionGone 0x0040 c s = false) ∧
  (∃ (c : Cmd) (s : State), Accepted 0x0040 c s ∧ (quiescedFully s = true ∨ bitOf (par c 0 1) 0 = true) ∧
      completionGone 0x0040 c s = true) ∧
  (∃ (c : Cmd) (s : State), Accepted 0x0404 c s ∧ par c 0 1 < 8 ∧ keepOk s (par c 0 1) (par c 2 2) = true ∧ (stackOf s
      (par c 0 1)).retired = false ∧ (stackOf s (par c 0 1)).online = true ∧ holdsMirrored s (par c 0 1) = false ∧
      stackUnsettled s (par c 0 1) = false ∧ (stackOf s (par c 0 1)).thermal.heat ≠ .simmer ∧ (stackOf s (par c 0
      1)).thermal.heat ≠ .scald ∧ ((stackOf s (par c 0 1)).sleep.kind = .awake ∨ (stackOf s (par c 0 1)).sleep.kind =
      .light) ∧ keepsAll s (par c 2 2) = true) ∧
  (∃ (c : Cmd) (s : State), Accepted 0x0404 c s ∧ par c 0 1 < 8 ∧ keepOk s (par c 0 1) (par c 2 2) = true ∧ (stackOf s
      (par c 0 1)).retired = false ∧ (stackOf s (par c 0 1)).online = true ∧ holdsMirrored s (par c 0 1) = false ∧
      stackUnsettled s (par c 0 1) = false ∧ (stackOf s (par c 0 1)).thermal.heat ≠ .simmer ∧ (stackOf s (par c 0
      1)).thermal.heat ≠ .scald ∧ ((stackOf s (par c 0 1)).sleep.kind = .awake ∨ (stackOf s (par c 0 1)).sleep.kind =
      .light) ∧ keepsAll s (par c 2 2) = false) ∧
  (∃ (c : Cmd) (s : State), Accepted 0x0405 c s ∧ par c 0 1 < 8 ∧ (stackOf s (par c 0 1)).retired = false ∧ (stackOf s
      (par c 0 1)).online = true ∧ (stackOf s (par c 0 1)).sleep.kind = .awake) ∧
  (∃ (c : Cmd) (s : State), Accepted 0x0405 c s ∧ par c 0 1 < 8 ∧ (stackOf s (par c 0 1)).retired = false ∧ (stackOf s
      (par c 0 1)).online = true ∧ (stackOf s (par c 0 1)).sleep.kind = .partialSleep ∧ (∃ ch ∈ stackChans (par c 0
      1), chanServes s ch = true ∧ (chanOf s ch).sr ≠ .awake)) ∧
  (∃ (c : Cmd) (s : State), Accepted 0x0405 c s ∧ par c 0 1 < 8 ∧ (stackOf s (par c 0 1)).retired = false ∧ (stackOf s
      (par c 0 1)).online = true ∧ ((stackOf s (par c 0 1)).sleep.kind = .waking ∨ (stackOf s (par c 0 1)).sleep.kind
      = .wakingLight)) :=
  ⟨⟨pf [2,0,1], ready, by decide +kernel⟩,
   ⟨pf [0,0,1],
       { ready with kettle := { quiesce := some { ignoreFloor := true, deadline := 30000, cmd := some (pf [9]) } } },
       { ignoreFloor := true, deadline := 30000, cmd := some (pf [9]) }, pf [9], by decide +kernel⟩,
   ⟨pf [1,0,1], { ready with kettle := { quiesce := some { ignoreFloor := true, deadline := 30000, cmd := none } } },
       { ignoreFloor := true, deadline := 30000, cmd := none }, by decide +kernel⟩,
   ⟨pf [0x60,0xEA], ready, by decide +kernel⟩,
   ⟨pf [3,0,255,255], master, by decide +kernel⟩,
   ⟨pf [1], ready, by decide +kernel⟩,
   ⟨pf [1], { ready with cmds := [{ op := 0x0040, cmd := pf [1], discard := true }] }, by decide +kernel⟩,
   ⟨pf [0,0,255,255], part1, by decide +kernel⟩,
   ⟨pf [7,0,0,128], part1, by decide +kernel⟩,
   ⟨pf [7], full, by decide +kernel⟩,
   ⟨pf [7],
       { ready with stk := [(7, { online := true, sleep := { kind := .partialSleep } })],
                    chans := [(255, { sr := .asleep })] }, by decide +kernel⟩,
   ⟨pf [7], { ready with stk := [(7, { online := true, sleep := { kind := .wakingLight } })] }, by decide +kernel⟩⟩

/-- Each clause of RepairCommands has a state and operands that meet what it assumes. -/
theorem witness_repair_commands :
  (∃ (c : Cmd) (s : State), Accepted 0x0601 c s ∧ par c 0 1 < 8 ∧ par c 2 2 < 64 ∧ par c 4 1 < bankCount s.ident.big ∧
      par c 6 2 < 16384 ∧ repairRefused s (par c 0 1) (par c 2 2 / 2) = none ∧ bitOf (par c 8 1) 0 = false ∧
      repairTaken s (par c 0 1 * 32 + par c 2 2 / 2) = false ∧ s.flash.answers = true) ∧
  (∃ (c : Cmd) (s : State), Accepted 0x0602 c s ∧ par c 0 1 < 8 ∧ par c 2 2 < 64 ∧ par c 4 1 < 64 ∧
      repairRefused s (par c 0 1) (par c 2 2 / 2) = none ∧ repairTaken s (par c 0 1 * 32 + par c 2 2 / 2) = false ∧
      laneSpare s (par c 0 1 * 64 + par c 2 2) (par c 4 1) = true ∧ s.flash.answers = true) ∧
  (∃ (c : Cmd) (s : State), Accepted 0x0603 c s ∧ par c 0 1 < 8 ∧ par c 1 1 < 32 ∧
      repairRefused s (par c 0 1) (par c 1 1) = none ∧ (stackOf s (par c 0 1)).mapout = none ∧
      (stackOf s (par c 0 1)).retireProc = none ∧ (stackOf s (par c 0 1)).mapped.length < 4 ∧
      foldReady s (par c 0 1) = true ∧ s.flash.answers = true) ∧
  (∃ (c : Cmd) (s : State), Accepted 0x0503 c s ∧ par c 0 1 < 8 ∧ par c 2 2 / 64 = par c 0 1 ∧
      par c 4 1 < bankCount s.ident.big ∧ par c 6 2 < 16384 ∧
      rowStored s (par c 0 1) (par c 2 2 % 64) (par c 4 1) (par c 6 2) = false ∧
      (retiredEntries s (par c 0 1)).length < 8192 ∧ s.flash.answers = true) :=
  ⟨⟨pf [7,0,63,0,63,0,255,63], part1, by decide +kernel⟩,
   ⟨pf [7,0,63,0,35], part1, by decide +kernel⟩,
   ⟨pf [7,31], { part1 with stk := [(7, { online := true, prepared := List.range 512 })] }, by decide +kernel⟩,
   ⟨pf [7,0,255,1,63,0,255,63], part1, by decide +kernel⟩⟩

/-- Each clause of TenantProcedures has a state and operands that meet what it assumes. -/
theorem witness_tenant_procedures :
  (∃ (c : Cmd) (s : State), Accepted 0x0505 c s ∧ par c 0 5 % 32 = 0 ∧ 1 ≤ par c 6 2 ∧ par c 6 2 ≤ 64 ∧ par c 0 5 < 2
      ^ 39 ∧ (partOf s (cmdTarget c)).closed = false ∧ rangeStatus s (cmdTarget c) (par c 0 5) (32 * par c 6 2) =
      none) ∧
  (∃ (c : Cmd) (s : State), Accepted 0x0041 c s ∧ bitOf (par c 0 1) 0 = false) ∧
  (∃ (c : Cmd) (s : State) (t : _), Accepted 0x0041 c s ∧ bitOf (par c 0 1) 0 = true ∧ t = lockBanks (stopTenant
      (cmdTarget c) s) ∧ rinseIncomplete t (cmdTarget c) = false) :=
  ⟨⟨pf [0, 0, 0, 0, 0, 0, 1], part1, by decide +kernel⟩,
   ⟨pf [], ready, by decide +kernel⟩,
   ⟨pf [1], ready, _, by decide +kernel, by decide +kernel, rfl, by decide +kernel⟩⟩

/-- Each clause of MailboxRegisters has a state and operands that meet what it assumes. -/
theorem witness_mailbox_registers :
  (∃ (s : State) (k : Fin 128) (v : BitVec 32) (f : _), f = fnOf s k.val ∧ barOpen s k.val = true ∧ f.enabled = true ∧
      (v.setWidth 16 - f.cmdHead).toNat ≤ 256 ∧ (f.doorbell - f.cmdHead).toNat < (v.setWidth 16 - f.cmdHead).toNat) ∧
  (∃ (s : State) (k : Fin 128) (v : BitVec 32) (f : _), f = fnOf s k.val ∧ barOpen s k.val = true ∧ f.enabled = true ∧
      256 < (v.setWidth 16 - f.cmdHead).toNat) ∧
  (∃ (s : State) (k : Fin 128) (f : _), f = fnOf s k.val ∧ ctrlOpen s k.val = true ∧ f.resetBusy = false ∧ f.enabled =
      false ∧ f.events = false ∧ f.cmdBase ≠ 0 ∧ f.cplBase ≠ 0) ∧
  (∃ (s : State) (k : Fin 128), ctrlOpen s k.val = true ∧ (fnOf s k.val).resetBusy = false) ∧
  (∃ (s : State) (k : Fin 128), ctrlOpen s k.val = true ∧ (fnOf s k.val).resetBusy = false ∧ (fnOf s k.val).evtBase ≠
      0) ∧
  (∃ (s : State) (k : Fin 128), ctrlOpen s k.val = true) ∧
  (∃ (s : State) (k : Fin 128), barOpen s k.val = true) ∧
  (∃ (s : State) (k : Fin 128) (v : BitVec 32), barOpen s k.val = true ∧ v.getLsbD 5 = true) ∧
  (∃ (s : State) (k : Fin 128), barOpen s k.val = true) ∧
  (∃ (s : State) (k : Fin 128), barOpen s k.val = true ∧ s.clock.timebase < 2 ^ 64) ∧
  (∃ (s : State) (k : Fin 128), barOpen s k.val = true) ∧
  (∃ (s : State) (k : Fin 128) (h : BitVec 32), barOpen s k.val = true ∧ (fnOf s k.val).tbLatch = some h) ∧
  (∃ (s : State) (k : Fin 128), barOpen s k.val = true) ∧
  (∃ (s : State) (k : Fin 128), barOpen s k.val = true) ∧
  (∃ (off : BitVec 16), 0x100 ≤ off.toNat ∧ off.toNat < 0x8000) :=
  ⟨⟨boxed box, 127, 256, box, by decide +kernel⟩,
   ⟨boxed box, 127, 257, box, by decide +kernel⟩,
   ⟨boxed { box with enabled := false }, 127, { box with enabled := false }, by decide +kernel⟩,
   ⟨boxed box, 127, by decide +kernel⟩,
   ⟨boxed box, 127, by decide +kernel⟩,
   ⟨{ (boxed box) with cmds := [{ op := 1, cmd := vf [] }] }, 127, by decide +kernel⟩,
   ⟨boxed { box with intStatus := 3 }, 127, by decide +kernel⟩,
   ⟨ready, 127, 32, by decide +kernel⟩,
   ⟨ready, 127, by decide +kernel⟩,
   ⟨ready, 127, by decide +kernel⟩,
   ⟨ready, 127, by decide +kernel⟩,
   ⟨boxed { box with tbLatch := some 7 }, 127, 7, by decide +kernel⟩,
   ⟨ready, 127, by decide +kernel⟩,
   ⟨ready, 127, by decide +kernel⟩,
   ⟨0x100, by decide +kernel⟩⟩

/-- Each clause of CommandTransport has a state and operands that meet what it assumes. -/
theorem witness_command_transport :
  (∃ (s : State) (k : Fin 128) (slot : List Byte) (hostIn : List Byte) (op : BitVec 16) (c : Cmd) (f : Fn), f = fnOf s
      k.val ∧ op = slotOp slot ∧ c = slotCmd (.fn k) slot hostIn ∧ fetchTurn s = some k.val ∧ c.seq = f.expect ∧
      (ofOpcode op.toNat c).isSome = true ∧ (∀ e ∈ s.cmds, e.cmd.issuer ≠ .fn k)) ∧
  (∃ (s : State) (k : Fin 128), fetchTurn s = some k.val) ∧
  (∃ (s : State) (k : Fin 128) (slot : List Byte) (hostIn : List Byte) (c : Cmd) (f : Fn), f = fnOf s k.val ∧ c =
      slotCmd (.fn k) slot hostIn ∧ fetchTurn s = some k.val ∧ c.seq ≠ f.expect) ∧
  (∃ (b : Nat → Byte) (issuer : Issuer) (hostIn : List Byte) (slot : List Byte) (c : Cmd), slot = (List.range 64).map
      b ∧ c = slotCmd issuer slot hostIn) ∧
  (∃ (s : State) (i : Issuer) (q : BitVec 16) (e : Exec), (∀ x ∈ s.cmds, x.cmd.issuer = i → x = e) ∧ e ∈ s.cmds ∧
      e.cmd.issuer = i ∧ e.cmd.seq = q ∧ e.started = false ∧ e.done = none ∧ (ofOpcode e.op.toNat e.cmd).isSome = true
      ∧ s.cmds = [e]) ∧
  (∃ (s : State) (message : List Byte) (hostIn : List Byte) (op : BitVec 16) (c : Cmd), op = slotOp message ∧ c =
      slotCmd .oob message hostIn ∧ servesCmd op.toNat .oob s = true ∧ s.cmds = [] ∧ (ofOpcode op.toNat c).isSome =
      true) ∧
  (∃ (s : State) (k : Fin 128) (e : Exec) (f : Fn), f = fnOf s k.val ∧ s.cmds = [e] ∧ e.cmd.issuer = .fn k ∧
      e.done.isSome = true ∧ f.enabled = true ∧ f.stopped = false ∧ (f.cplTail - f.cplHead).toNat < 256 ∧
      e.cmd.flags.getLsbD 0 = false ∧ s.boot.warmAsked = false) ∧
  (∃ (s : State) (k : Fin 128) (e : Exec) (f : Fn) (r : List Byte), f = fnOf s k.val ∧ s.cmds = [e] ∧ e.cmd.issuer =
      .fn k ∧ e.op = 0x0040 ∧ e.done = some (0, r) ∧ f.enabled = true ∧ f.stopped = false ∧ (f.cplTail -
      f.cplHead).toNat < 256 ∧ s.boot.warmAsked = true) ∧
  (∃ (s : State) (e : Exec), s.cmds = [e] ∧ e.cmd.issuer = .oob ∧ e.done.isSome = true ∧ e.op ≠ 0x0040) ∧
  (∃ (s : State) (k : Fin 128) (t : _), (fnOf s k.val).oldestAt = some t ∧ (fnOf s k.val).coalesceUs ≠ 0 ∧ (fnOf s
      k.val).intEnable.getLsbD 0 = true ∧ t + 1000 * (fnOf s k.val).coalesceUs.toNat ≤ s.clock.timebase) :=
  ⟨⟨boxed { box with doorbell := 1 }, 127, [1], [], _, _, _, rfl, rfl, rfl, by decide +kernel, by decide +kernel,
      by decide +kernel, by decide +kernel⟩,
   ⟨boxed { box with doorbell := 1 }, 127, by decide +kernel⟩,
   ⟨boxed { box with doorbell := 1 }, 127, [1, 0, 1], [], _, _, rfl, rfl, by decide +kernel, by decide +kernel⟩,
   ⟨fun i => BitVec.ofNat 8 i, .oob, [], _, _, rfl, rfl⟩,
   ⟨{ ready with cmds := [{ op := 1, cmd := vf [], started := false }] }, .fn 127, 0,
       { op := 1, cmd := vf [], started := false }, by decide +kernel⟩,
   ⟨ready, [1], [], _, _, rfl, rfl, by decide +kernel, by decide +kernel, by decide +kernel⟩,
   ⟨{ (boxed box) with cmds := [{ op := 1, cmd := vf [], done := some (0, []) }] }, 127,
       { op := 1, cmd := vf [], done := some (0, []) }, _, rfl, by decide +kernel, by decide +kernel,
       by decide +kernel, by decide +kernel, by decide +kernel, by decide +kernel, by decide +kernel,
       by decide +kernel⟩,
   ⟨{ (boxed box) with cmds := [{ op := 0x0040, cmd := vf [], done := some (0, []) }], boot := { ready.boot with warmAsked := true } },
       127, { op := 0x0040, cmd := vf [], done := some (0, []) }, _, [], rfl, by decide +kernel, by decide +kernel,
       by decide +kernel, by decide +kernel, by decide +kernel, by decide +kernel, by decide +kernel,
       by decide +kernel⟩,
   ⟨{ ready with cmds := [{ op := 1, cmd := { pf [] with issuer := .oob }, done := some (0, []) }] },
       { op := 1, cmd := { pf [] with issuer := .oob }, done := some (0, []) }, by decide +kernel⟩,
   ⟨boxed { box with oldestAt := some 10480, coalesceUs := 10, intEnable := 1 }, 127, 10480, by decide +kernel⟩⟩

/-- Each clause of HostFaults has a state and operands that meet what it assumes. -/
theorem witness_host_faults :
  (∃ (s : State) (k : Fin 128), (fnOf s k.val).enabled = true ∧ (fnOf s k.val).stopped = false) ∧
  (∃ (c : Cmd) (s : State), Accepted 0x0209 c s ∧ par c 0 1 < 8) ∧
  (∃ (c : Cmd) (s : State), Accepted 0x0202 c s ∧ par c 0 2 ≤ 128 ∧ rinseIncomplete s (cmdTarget c) = false) ∧
  (∃ (c : Cmd) (s : State), Accepted 0x0E08 c s ∧ (∀ t < 128, partState s t = 0)) :=
  ⟨⟨boxed box, 127, by decide +kernel⟩,
   ⟨pf [7], ready, by decide +kernel⟩,
   ⟨pf [128], ready, by decide +kernel⟩,
   ⟨pf [], ready, by decide +kernel⟩⟩

/-- Each clause of FullResets has a state and operands that meet what it assumes. -/
theorem witness_full_resets :
  (∃ (s : State), s.pins.perstN = true ∧ s.pins.vaux = true) ∧
  (∃ (s : State), s.pins.hostLink = .up) ∧
  (∃ (s : State) (t : _), s.boot.warmResetAt = some t ∧ t ≤ s.clock.timebase) ∧
  (∃ (s : State), s.pins.pgCore = true ∧ tapHolds s = false ∧ s.cfg.pour = none) :=
  ⟨⟨ready, by decide +kernel⟩,
   ⟨ready, by decide +kernel⟩,
   ⟨{ ready with boot := { ready.boot with warmResetAt := some 20480 } }, 20480, by decide +kernel⟩,
   ⟨ready, by decide +kernel⟩⟩

/-- Each clause of PartialResetsAndSupplies has a state and operands that meet what it assumes. -/
theorem witness_partial_resets_and_supplies :
  (∃ (s : State), hkpRuns s = true ∧ s.boot.halt = .none ∧ s.boot.hkpReloading = false) ∧
  (∃ (s : State), s.boot.hkpReloading = true) ∧
  (∃ (s : State) (k : Fin 128), barOpen s k.val = true ∧ k.val ≠ 0) ∧
  (∃ (s : State), s.pins.pgCore = false ∧ s.pins.enCore = true ∧ s.boot.halt = .none ∧ s.boot.stage = .romCheck ∧
      tapHolds s = false) ∧
  (∃ (s : State), s.pins.pgCore = true ∧ s.pins.enCore = false) ∧
  (∃ (s : State), s.pins.pgCore = true ∧ s.pins.enCore = true) ∧
  (∃ (s : State) (t : _), s.boot.enRise = some t ∧ s.pins.pgCore = false ∧ t + msTicks 20 ≤ s.clock.timebase) ∧
  (∃ (s : State), s.pins.refclk = true ∧ s.pins.vaux = true ∧ s.boot.halt = .none) ∧
  (∃ (s : State) (r : Fin 5), s.power.avsAbsent = false ∧ s.power.heldRails.contains r.val = false) :=
  ⟨⟨{ part1 with cmds := [{ op := 1, cmd := pf [] }] }, by decide +kernel⟩,
   ⟨{ ready with boot := { ready.boot with hkpReloading := true } }, by decide +kernel⟩,
   ⟨boxed { box with bar4Log2 := some 33 }, 127, by decide +kernel⟩,
   ⟨{}, by decide +kernel⟩,
   ⟨{ ready with pins := { ready.pins with enCore := false } }, by decide +kernel⟩,
   ⟨ready, by decide +kernel⟩,
   ⟨{ boot := { enRise := some 480 }, clock := { timebase := 20000480 } }, 480, by decide +kernel⟩,
   ⟨ready, by decide +kernel⟩,
   ⟨{ ready with power := {} }, 4, by decide +kernel⟩⟩

/-- Each clause of HostLinkAndTap has a state and operands that meet what it assumes. -/
theorem witness_host_link_and_tap :
  (∃ (s : State), s.pins.perstN = false ∧ s.pins.vaux = true ∧ s.boot.halt = .none ∧ tapHolds s = false) ∧
  (∃ (s : State), s.pins.pgCore = true ∧ s.boot.stage ≠ .warm ∧ s.boot.halt = .none) ∧
  (∃ (s : State), s.pins.hostLink = .up ∧ s.boot.cfgLoaded = false) ∧
  (∃ (s : State) (k : Fin 128) (_tag : Nat) (g : Nat), s.pins.hostLink = .up ∧ s.boot.cfgLoaded = true ∧ fnPresent s
      k.val = true ∧ 3 ≤ g ∧ g ≤ 9) ∧
  (∃ (s : State) (k : Fin 128) (_tag : Nat) (_r : CfgReq), s.pins.hostLink = .up ∧ s.boot.cfgLoaded = true ∧ k.val ≠ 0 ∧
      (s.boot.vfEnable = false ∨ s.ident.vfs < k.val)) ∧
  (∃ (s : State) (_tag : Nat), s.pins.hostLink = .up ∧ s.boot.cfgLoaded = true) ∧
  (∃ (s : State) (_tag : Nat) (_on : Bool), s.pins.hostLink = .up ∧ s.boot.cfgLoaded = true ∧ s.boot.stage ≠ .recovery ∧
      s.ident.vfs ≠ 0) ∧
  (∃ (s : State) (k : Fin 128) (_tag : Nat), s.pins.hostLink = .up ∧ s.boot.cfgLoaded = true ∧ fnPresent s k.val =
      true) ∧
  (∃ (s : State), tapHolds s = false) ∧
  (∃ (s : State), tapHolds s = false ∧ s.dbg.level = 0) ∧
  (∃ (s : State), tapHolds s = false ∧ s.dbg.level ≠ 0) ∧
  (∃ (s : State), s.pins.perstN = true) ∧
  (∃ (s : State), tapHolds s = false) :=
  ⟨⟨{}, by decide +kernel⟩,
   ⟨ready, by decide +kernel⟩,
   ⟨{ ready with boot := { ready.boot with cfgLoaded := false } }, by decide +kernel⟩,
   ⟨ready, 127, 9, 9, by decide +kernel⟩,
   ⟨{ ready with boot := { ready.boot with vfEnable := false } }, 127, 9, .read, by decide +kernel⟩,
   ⟨ready, 9, by decide +kernel⟩,
   ⟨ready, 9, true, by decide +kernel⟩,
   ⟨ready, 127, 9, by decide +kernel⟩,
   ⟨ready, by decide +kernel⟩,
   ⟨ready, by decide +kernel⟩,
   ⟨{ ready with dbg := { level := 1 } }, by decide +kernel⟩,
   ⟨ready, by decide +kernel⟩,
   ⟨ready, by decide +kernel⟩⟩

/-- Each clause of BootStages has a state and operands that meet what it assumes. -/
theorem witness_boot_stages :
  (∃ (s : State) (code : _), s.boot.stage = .romCheck ∧ s.pins.pgCore = true ∧ s.pins.refclk = true ∧ tapHolds s =
      false ∧ s.boot.halt = .none ∧ s.boot.afterTrip = false ∧ 15840 ≤ code ∧ code ≤ 16160 ∧ s.refcode.inForce = 0 ∧
      s.boot.triedBanks = [] ∧ s.flash.bootNext = none ∧ bankValid s.flash.bankA = true ∧ failedTrial s.flash.bankA =
      false ∧ bankValid s.flash.bankB = false) ∧
  (∃ (s : State), s.boot.stage = .romCheck ∧ s.pins.pgCore = true ∧ s.pins.refclk = true ∧ tapHolds s = false ∧
      s.boot.halt = .none ∧ s.boot.afterTrip = false) ∧
  (∃ (s : State), s.boot.stage = .romLoad ∧ s.boot.halt = .none ∧ bankValid (bankOf s s.boot.bootedBank) = true) ∧
  (∃ (s : State), s.boot.stage = .yaresk ∧ s.boot.halt = .none ∧ s.boot.warmKind = true ∧ s.flash.store.retiredStacks
      = []) ∧
  (∃ (s : State) (t : _), s.boot.steepUntil = some t ∧ s.boot.stage = .steepDelay ∧ s.boot.halt = .none ∧ t ≤
      s.clock.timebase ∧ s.ident.fuseGrades ≠ []) ∧
  (∃ (s : State) (n : Fin 8) (r : TrainResult), s.boot.stage = .training ∧ s.boot.nextStack = n.val ∧ s.boot.halt =
      .none ∧ s.boot.hkpReloading = false ∧ bootPowered s n.val = true ∧ (stackOf s n.val).ident = none ∧ qualified s
      r.ident = true ∧ r.failed = [] ∧ 4 ≥ mappedCount s n.val) ∧
  (∃ (s : State), s.boot.stage = .training ∧ 8 ≤ s.boot.nextStack ∧ s.boot.halt = .none ∧ s.boot.hkpReloading = false) :=
  ⟨⟨booting {}, 15840, by decide +kernel⟩,
   ⟨booting {}, by decide +kernel⟩,
   ⟨booting { stage := .romLoad }, by decide +kernel⟩,
   ⟨booting { stage := .yaresk, warmKind := true }, by decide +kernel⟩,
   ⟨{ (booting { stage := .steepDelay, steepUntil := some 0 }) with ident := {} }, 0, by decide +kernel⟩,
   ⟨{ (booting { stage := .training, nextStack := 7 }) with power := { on := BitVec.allOnes 96 } }, 7,
       { ident := goodIdent, failed := [], repaired := [], implausible := [], codes := [] }, by decide +kernel⟩,
   ⟨{ (booting { stage := .training, nextStack := 8 }) with power := { on := BitVec.allOnes 96 } }, by decide +kernel⟩⟩

/-- Each clause of PeriodEvents has a state and operands that meet what it assumes. -/
theorem witness_period_events :
  (∃ (s : State), s.pins.refclk = true ∧ s.pins.vaux = true) ∧
  (∃ (s : State) (d : Fin 9) (_dur : Nat) (_w : PeriodIn), s.kettle.running = true ∧ s.boot.halt =
      .none ∧ (dieOf s d.val).workMark < s.clock.mark ∧ max (max (dieOf s d.val).finish (1024 * ((dieOf s
      d.val).workMark + 1))) ((dieOf s d.val).start + 768) ≤ s.clock.timebase) ∧
  (∃ (s : State) (m : _), s.kettle.jobRelease = some m ∧ m ≤ s.clock.timebase) :=
  ⟨⟨ready, by decide +kernel⟩,
   ⟨{ ready with kettle := { running := true } }, 8, 0, ⟨0, []⟩, by decide +kernel⟩,
   ⟨{ ready with kettle := { jobRelease := some 20 } }, 20, by decide +kernel⟩⟩

/-- Each clause of EnvelopeSlew has a state and operands that meet what it assumes. -/
theorem witness_envelope_slew :
  (∃ (s : State), chained s = false ∧ s.kettle.scaldDrop = []) ∧
  (∃ (s : State), s.kettle.e ≤ ceiling s) ∧
  (∃ (s : State), s.kettle.scaldDrop = [] ∧ 0 < s.kb.holdPeriods) :=
  ⟨⟨ready, by decide +kernel⟩,
   ⟨{ ready with kettle := { e := 700000 * mw } }, by decide +kernel⟩,
   ⟨{ ready with kb := { holdPeriods := 1 } }, by decide +kernel⟩⟩

/-- Each clause of KettleAndDomainEvents has a state and operands that meet what it assumes. -/
theorem witness_kettle_and_domain_events :
  (∃ (s : State) (c : Cmd) (f : Bool) (d : Nat),
      s.kettle.quiesce = some { cmd := some c, ignoreFloor := f, deadline := d } ∧ d ≤ s.clock.timebase) ∧
  (∃ (s : State) (c : Cmd) (e : BitVec 6) (m : Nat) (r : _), s.kb.adminSent = (c, e, m) :: r ∧
      m + 64 ≤ s.clock.mark) ∧
  (∃ (s : State) (r : Fin 5), s.clock.mark % 4 = 0 ∧ tget 0 s.power.railMark r.val ≠ s.clock.mark + 1 ∧
      s.kettle.running = true ∧ railMoves s r.val = true ∧ railTarget s r.val < railMv s r.val) ∧
  (∃ (s : State) (r : Fin 5), s.clock.mark % 4 = 0 ∧ tget 0 s.power.railMark r.val ≠ s.clock.mark + 1 ∧
      s.kettle.running = true ∧ railMoves s r.val = true ∧ railMv s r.val < railTarget s r.val) ∧
  (∃ (s : State) (d : Fin 96), wantsOn s d.val = true ∧ hasRoom s (domainShare s d.val) = true) ∧
  (∃ (s : State) (d : Fin 96), s.doze = .none ∧ wantsOff s d.val = true) :=
  ⟨⟨{ ready with kettle := { quiesce := some { cmd := some (pf [9]), ignoreFloor := true, deadline := 20480 } } },
      pf [9], true, 20480, by decide +kernel⟩,
   ⟨{ ready with clock := { timebase := 70000, mark := 64 }, kb := { adminSent := [(pf [9], 1, 0)] } }, pf [9], 1, 0,
       [], by decide +kernel⟩,
   ⟨{ (roomy 1) with cfg := { inForce := [(cfgKey 0x080C 4 0, [600])] } }, 4, by decide +kernel⟩,
   ⟨{ (roomy 1) with cfg := { inForce := [(cfgKey 0x080C 4 0, [850])] } }, 4, by decide +kernel⟩,
   ⟨roomy 1, 31, by decide +kernel⟩,
   ⟨{ (roomy 1) with cfg := { inForce := [(cfgKey 0x080A 0 0, [1])] } }, 0, by decide +kernel⟩⟩

/-- Each clause of KettleBusFrames has a state and operands that meet what it assumes. -/
theorem witness_kettle_bus_frames :
  (∃ (s : State) (w : _) (r : _), s.pins.vaux = true ∧ kbStrap s = 0 ∧ s.kb.acquired = true ∧ s.kettle.running = true
      ∧ s.kb.request = some (Int.ofNat r) ∧ kbSync w = 0xA7 ∧ kbCrcOk w = true ∧ kbReserved w = 0 ∧ kbType w = 0 ∧
      kbOverdraw w = false) ∧
  (∃ (s : State) (w : BitVec 64), s.pins.vaux = true ∧ kbStrap s = 0 ∧ kbCrcOk w = false ∧ kbType w = 0) ∧
  (∃ (s : State), s.pins.vaux = true ∧ kbStrap s ≠ 0 ∧ kbStrap s ≠ 1) ∧
  (∃ (s : State) (w : _), s.pins.vaux = true ∧ kbStrap s = 1 ∧ s.kb.adminSent = [] ∧ kbSync w = 0xA7 ∧ kbCrcOk w =
      true) ∧
  (∃ (s : State), kbStrap s = 1 ∧ 8 ≤ s.kb.unreturned ∧ s.kb.chainOpen = false) ∧
  (∃ (s : State), kbStrap s = 0 ∧ s.kb.acquired = false ∧ s.kb.lost = false ∧ 3 ≤ s.kb.goodRun ∧ s.boot.stage =
      .ready) ∧
  (∃ (s : State), kbStrap s = 0 ∧ s.kb.acquired = true ∧ 8 ≤ s.kb.badRun) ∧
  (∃ (s : State), kbStrap s = 0 ∧ s.kb.lost = true ∧ 16 ≤ s.kb.epochRun) ∧
  (∃ (s : State), s.kb.holdPeriods = 1) :=
  ⟨⟨member, kbFrame (kbBody 0xA7 0 1 5 4095 false 0) false, 5, by decide +kernel⟩,
   ⟨{ ready with pins := { ready.pins with vaux := true } }, 2 ^ 56, by decide +kernel⟩,
   ⟨{ ready with pins := { ready.pins with straps := 3 } }, by decide +kernel⟩,
   ⟨master, kbFrame (kbBody 0xA7 0 1 5 4095 false 0) false, by decide +kernel⟩,
   ⟨{ master with kb := { unreturned := 8 } }, by decide +kernel⟩,
   ⟨{ ready with kb := { goodRun := 3 } }, by decide +kernel⟩,
   ⟨{ ready with kb := { acquired := true, badRun := 8 } }, by decide +kernel⟩,
   ⟨{ ready with kb := { lost := true, epochRun := 16 } }, by decide +kernel⟩,
   ⟨{ ready with kb := { holdPeriods := 1 } }, by decide +kernel⟩⟩

/-- Each clause of Bar4Accesses has a state and operands that meet what it assumes. -/
theorem witness_bar4_accesses :
  (∃ (s : State) (k : Fin 128) (off : _) (len : _), barOpen s k.val = true ∧ 0 < len ∧ off + len ≤ bar4Size s k.val ∧
      holds s k.val = false ∧ bar4Status s k.val off len = none) ∧
  (∃ (s : State) (k : Fin 128) (off : _) (data : List Byte), barOpen s k.val = true ∧ 0 < data.length ∧
      off + data.length ≤ bar4Size s k.val ∧ holds s k.val = false ∧ bar4Status s k.val off data.length = none) ∧
  (∃ (s : State) (k : Fin 128) (off : _) (len : _), barOpen s k.val = true ∧ bar4Size s k.val < off + len) ∧
  (∃ (s : State) (k : Fin 128), barOpen s k.val = true) :=
  ⟨⟨full, 0, 32, 100, by decide +kernel⟩,
   ⟨full, 0, 32, List.replicate 40 7, by decide +kernel⟩,
   ⟨full, 0, 2 ^ 39, 1, by decide +kernel⟩,
   ⟨full, 0, by decide +kernel⟩⟩

/-- Each clause of Bar2Accesses has a state and operands that meet what it assumes. -/
theorem witness_bar2_accesses :
  (∃ (s : State) (k : Fin 128) (_tag : Nat) (off : Nat) (len : Nat) (o : Nat) (d : Nat), barOpen s k.val = true ∧ 0 <
      len ∧ off + len ≤ 2 ^ 27 ∧ holds s k.val = false ∧ translate s k.val (2 ^ 39 + off) = .inl (.pot o) ∧ off % 32 +
      len ≤ 32 ∧ potClearing s k.val off len = false ∧ potBehind s k.val = false ∧ kettleFirst s 0 k.val = false ∧ d =
      potDebit s len + evPower s .host 8 (units64 len) ∧ quiesced s = false ∧ d ≤ allowanceOf s hubUnit ∧ potFlagged s
      o = false) ∧
  (∃ (s : State) (k : Fin 128) (off : Nat) (data : List Byte) (o : Nat), barOpen s k.val = true ∧ 0 < data.length ∧
      off + data.length ≤ 2 ^ 27 ∧ holds s k.val = false ∧ translate s k.val (2 ^ 39 + off) = .inl (.pot o) ∧ off % 32
      + data.length ≤ 32 ∧ potClearing s k.val off data.length = false ∧ potBehind s k.val = false ∧ kettleFirst s 0
      k.val = false ∧ quiesced s = false ∧ potDebit s data.length + evPower s .host 8 (units64 data.length) ≤
      allowanceOf s hubUnit) ∧
  (∃ (s : State) (k : Fin 128) (_tag : Nat) (off : Nat) (_v : BitVec 64) (o : Nat), barOpen s k.val = true ∧ off + 4 ≤ 2
      ^ 27 ∧ off % 4 = 0 ∧ holds s k.val = false ∧ translate s k.val (2 ^ 39 + off) = .inl (.pot o) ∧ potClearing s
      k.val off 4 = false ∧ potBehind s k.val = false ∧ kettleFirst s 0 k.val = false ∧ quiesced s = false ∧ potDebit
      s 4 + evPower s .host 8 1 ≤ allowanceOf s hubUnit ∧ potFlagged s o = false) :=
  ⟨⟨{ full with kettle := { allowance := 10 ^ 30 } }, 0, 5, 32, 32, 7 * 2 ^ 20 + 32, _, by decide +kernel,
      by decide +kernel, by decide +kernel, by decide +kernel, by decide +kernel, by decide +kernel,
      by decide +kernel, by decide +kernel, by decide +kernel, rfl, by decide +kernel, by decide +kernel,
      by decide +kernel⟩,
   ⟨{ full with kettle := { allowance := 10 ^ 30 } }, 0, 32, [1, 2, 3, 4], 7 * 2 ^ 20 + 32, by decide +kernel⟩,
   ⟨{ full with kettle := { allowance := 10 ^ 30 } }, 0, 5, 32, 1, 7 * 2 ^ 20 + 32, by decide +kernel⟩⟩

/-- Each clause of SectorPathGates has a state and operands that meet what it assumes. -/
theorem witness_sector_path_gates :
  (∃ (s : State), EnginesIdle s) ∧
  (∃ (s : State) (id : Nat) (r : Req), reqOf s id = some r ∧ (r.place = .regulator ∨ (r.place = .stem ∧ storeRoom s
      r.stack = true)) ∧ r.kind ≠ .pot ∧ earlierWaits s r = false ∧ gateStatus s r = none ∧ tokensCover s r = true ∧
      regulatorFirst s r = false) ∧
  (∃ (s : State) (id : Nat) (r : Req), reqOf s id = some r ∧ (r.place = .regulator ∨ (r.place = .stem ∧ storeRoom s
      r.stack = true)) ∧ r.kind ≠ .pot ∧ earlierWaits s r = false ∧ gateStatus s r = none ∧ tokensCover s r = false) ∧
  (∃ (s : State) (id : Nat) (r : Req) (d : Nat), reqOf s id = some r ∧ r.place = .kettle ∧ r.kind ≠ .pot ∧
      earlierWaits s r = false ∧ kettleFirst s (reqRank s r) r.tenant = false ∧ gateStatus s r = none ∧ quiesced s =
      false ∧ d = hbmDebit s r.stack (reqSectors r) r.write + linkDebit s r 1) ∧
  (∃ (s : State) (bytes : Nat) (d : Nat), quiesced s = false ∧ d = evPower s .host 8 (units64 bytes) ∧ d ≤ allowanceOf
      s hubUnit) ∧
  (∃ (s : State) (id : Nat) (r : Req) (p : Place), reqOf s id = some r ∧ r.place = .gate ∧ r.write = false ∧ r.mask ≠
      0 ∧ earlierWaits s r = false ∧ mapoutHolds s r = false ∧ fetchHeld s r = false ∧ queueStatus s r = none ∧ p =
      placeAt s r.stack r.offset ∧ mayEnter s { r with pc := p.pc, bank := p.bank, row := p.row, line := p.line } =
      true ∧ entersFirst s { r with pc := p.pc, bank := p.bank, row := p.row, line := p.line } = false) :=
  ⟨⟨ready, by decide +kernel⟩,
   ⟨atPlace .regulator, 1, { heldReq with place := .regulator }, by decide +kernel⟩,
   ⟨{ (atPlace .regulator) with cfg := { full.cfg with inForce := full.cfg.inForce ++ [(cfgKey 0x0204 0 0, [1])] } },
       1, { heldReq with place := .regulator }, by decide +kernel⟩,
   ⟨atPlace .kettle, 1, { heldReq with place := .kettle }, _, by decide +kernel, by decide +kernel, by decide +kernel,
       by decide +kernel, by decide +kernel, by decide +kernel, by decide +kernel, rfl⟩,
   ⟨{ full with kettle := { allowance := 10 ^ 30 } }, 64, _, by decide +kernel, rfl, by decide +kernel⟩,
   ⟨atPlace .gate, 1, { heldReq with place := .gate }, _, by decide +kernel, by decide +kernel, by decide +kernel,
       by decide +kernel, by decide +kernel, by decide +kernel, by decide +kernel, by decide +kernel, rfl,
       by decide +kernel, by decide +kernel⟩⟩

/-- Each clause of CommandSlotsAndReturns has a state and operands that meet what it assumes. -/
theorem witness_command_slots_and_returns :
  (∃ (s : State) (fp : Fin 512) (_ready : List Nat) (_e : Bool) (_c : Bool), slotShut s fp.val = true ∧ slotShut s
      (partner fp.val) = true) ∧
  (∃ (s : State) (fp : Fin 512) (_ready : List Nat) (_e : Bool) (_c : Bool), slotClosed s fp.val = false ∧ repayDue s
      fp.val = true) ∧
  (∃ (s : State) (fp : Fin 512) (_ready : List Nat) (_e : Bool) (_c : Bool) (b : _) (r : _) (rest : _), slotShut s fp.val
      = false ∧ (slotClosed s fp.val = true ∨ repayDue s fp.val = false) ∧ (pcOf s fp.val).nbrDue = (b, r) :: rest) ∧
  (∃ (s : State) (fp : Fin 512) (ready : List Nat) (_e : Bool) (_c : Bool) (s0 : State) (s1 : State) (l : List Req) (d :
      _) (s2 : State) (r : Req), slotClosed s fp.val = false ∧ repayDue s fp.val = false ∧ s0 = noteOffences fp.val
      ready s ∧ slotClosed s0 fp.val = false ∧ (pcOf s0 fp.val).nbrDue = [] ∧ forcedDue s0 fp.val = false ∧ eligible
      s0 fp.val ready ≠ [] ∧ s1 = noteOffences fp.val ready s0 ∧ l = eligible s1 fp.val ready ∧ l ≠ [] ∧ d =
      nextDirection s1 fp.val l ∧ s2 = setDirection fp.val d s1 ∧ pick s2 fp.val d l = some r) ∧
  (∃ (s : State) (id : _) (f : _) (a : _) (o : _) (flips : _), flightOf s id = some f ∧ f.kind = .host ∧ f.also = [] ∧
      accessOfId s f.access = some a ∧ a.write = false ∧ 1 < a.left ∧ o = classify (policyOf s (secStack f.sector))
      f.colour (flipped f.stored flips)) :=
  ⟨⟨ready, 0, [], false, false, by decide +kernel⟩,
   ⟨{ sleepy with pcs := [(0, { balance := 1 })] }, 0, [], false, false, by decide +kernel⟩,
   ⟨{ full with pcs := [(0, { nbrDue := [(3, 9)] })] }, 0, [], false, false, 3, 9, [], by decide +kernel⟩,
   ⟨atPlace .queued, 0, [1], false, false, _, _, _, _, _, { heldReq with place := .queued }, by decide +kernel,
       by decide +kernel, rfl, by decide +kernel, by decide +kernel, by decide +kernel, by decide +kernel, rfl, rfl,
       by decide +kernel, rfl, rfl, by decide +kernel⟩,
   ⟨{ full with kettle := { allowance := 10 ^ 30 }, path := { reqs := [{ heldReq with place := .queued, mask := 3 }], accesses := [{ id := 1, fn := 0, tag := 5, write := false, start := 0, len := 64, stride := 2 ^ 36, left := 2 }], flights := [{ id := 3, req := 1, kind := .host, access := 1, sector := 0, colour := 1, stored := List.replicate 36 0 }] } },
       3, { id := 3, req := 1, kind := .host, access := 1, sector := 0, colour := 1, stored := List.replicate 36 0 },
       { id := 1, fn := 0, tag := 5, write := false, start := 0, len := 64, stride := 2 ^ 36, left := 2 }, classify
       (policyOf full 0) 1 (flipped (List.replicate 36 0) [2]), [2], ⟨by decide +kernel, by decide +kernel,
       by decide +kernel, by decide +kernel, by decide +kernel, by decide +kernel, rfl⟩⟩⟩

/-- Each clause of RefreshAndSelfRefreshEvents has a state and operands that meet what it assumes. -/
theorem witness_refresh_and_self_refresh_events :
  (∃ (s : State) (fp : Fin 512) (ready : List Nat) (s' : State), hasInstants s fp.val = true ∧ isInstant s fp.val
      s.clock.timebase = true ∧ (pcOf s fp.val).servedAt ≠ some s.clock.timebase ∧ s' = modPc fp.val (fun p =>
      { p with servedAt := some s.clock.timebase }) s ∧ (eligible s' fp.val ready = [] ∨ calibrating s' fp.val = true
      ∨ replaying s' fp.val = true ∨ (chanOf s' (fp.val / 2)).windowOpen = true ∨ 4 ≤ (pcOf s' fp.val).balance)) ∧
  (∃ (s : State) (fp : Fin 512) (ready : List Nat) (q : _) (s' : State), hasInstants s fp.val = true ∧ isInstant s
      fp.val s.clock.timebase = true ∧ (pcOf s fp.val).servedAt ≠ some s.clock.timebase ∧ s' = modPc fp.val (fun p =>
      { p with servedAt := some s.clock.timebase }) s ∧ eligible s' fp.val ready ≠ [] ∧ (chanOf s' (fp.val /
      2)).windowOpen = false ∧ calibrating s' fp.val = false ∧ replaying s' fp.val = false ∧ (pcOf s' fp.val).balance
      < 4 ∧ takerOf s' ready fp.val = some q) ∧
  (∃ (s : State) (fp : Fin 512) (_ready : List Nat), (pcOf s fp.val).servedAt = some s.clock.timebase) ∧
  (∃ (s : State) (ch : Fin 256), (stackOf s (ch.val / 32)).online = true ∧ (stackOf s (ch.val / 32)).retired = false ∧
      (stackOf s (ch.val / 32)).thermal.heat ≠ .scald ∧ (chanOf s ch.val).sr = .awake ∧ (stackOf s (ch.val /
      32)).mapped.contains (ch.val % 32) = false) ∧
  (∃ (s : State) (ch : Fin 256), wantsSleep s ch.val = true ∧ hasFallen s (bgShare s) = true ∧ (∀ fp ∈ chanPcs ch.val,
      calibrating s fp = false ∧ replaying s fp = false ∧ repayDue s fp = false ∧ (pcOf s fp).refreshUntil ≤
      s.clock.timebase)) ∧
  (∃ (s : State) (ch : Fin 256), chanServes s ch.val = true ∧ (chanOf s ch.val).sr = .asleep ∧ (stackOf s (ch.val /
      32)).thermal.heat ≠ .scald ∧ dozeEntry s = false ∧ (stackOf s (ch.val / 32)).sleep.kind = .light ∧ chanBusy s
      ch.val = true) ∧
  (∃ (s : State) (ch : Fin 256), (chanOf s ch.val).sr = .leaving ∧ chanServes s ch.val = true) ∧
  (∃ (s : State) (d : _), s.doze = .pending d) ∧
  (∃ (s : State) (d : _), s.doze = .pending d ∧ d ≤ s.clock.timebase) :=
  ⟨⟨{ full with clock := { timebase := 1950, mark := 20 } }, 0, [], _, by decide +kernel, by decide +kernel,
      by decide +kernel, rfl, by decide +kernel⟩,
   ⟨{ (atPlace .queued) with clock := { timebase := 1950, mark := 20 } }, 0, [1], 1, _, by decide +kernel,
       by decide +kernel, by decide +kernel, rfl, by decide +kernel, by decide +kernel, by decide +kernel,
       by decide +kernel, by decide +kernel, by decide +kernel⟩,
   ⟨{ full with pcs := [(0, { servedAt := some 20480 })] }, 0, [], by decide +kernel⟩,
   ⟨full, 5, by decide +kernel⟩,
   ⟨sleepy, 0, by decide +kernel⟩,
   ⟨{ (full) with chans := [(0, { sr := .asleep })], path := { reqs := [{ heldReq with place := .queued, mask := 3 }], accesses := [{ id := 1, fn := 0, tag := 5, write := false, start := 0, len := 64, stride := 2 ^ 36, left := 2 }] }, stk := (0, { online := true, sleep := { kind := .light } }) :: full.stk.drop 1 },
       0, by decide +kernel⟩,
   ⟨{ full with chans := [(0, { sr := .leaving })] }, 0, by decide +kernel⟩,
   ⟨{ ready with doze := .pending 30000 }, 30000, by decide +kernel⟩,
   ⟨{ ready with doze := .pending 20000 }, 20000, by decide +kernel⟩⟩

/-- Each clause of CalibrationEvents has a state and operands that meet what it assumes. -/
theorem witness_calibration_events :
  (∃ (s : State) (fp : Fin 512), isDueInstant fp.val s.clock.timebase = true ∧ (pcOf s fp.val).cal.seen ≠ some
      s.clock.timebase ∧ noneDue s fp.val = false ∧ (chanOf s (fp.val / 2)).sr = .awake ∧ (pcOf s fp.val).cal.due =
      none) ∧
  (∃ (s : State) (fp : Fin 512) (d : _) (timing : _), forcedDue s fp.val = true ∧ slotClosed s fp.val = false ∧ (pcOf
      s fp.val).cal.due = some (d, timing)) ∧
  (∃ (s : State) (fp : Fin 512) (timing : _), (pcOf s fp.val).cal.running = some timing) ∧
  (∃ (s : State) (code : _), s.boot.halt = .none ∧ s.refcode.inForce ≠ 0 ∧ s.refcode.at_ + 2 ^ 30 ≤ s.clock.timebase ∧
      15840 ≤ code ∧ code ≤ 16160 ∧ code ≤ s.refcode.inForce + 16 ∧ s.refcode.inForce ≤ code + 16) ∧
  (∃ (s : State) (code : _), s.boot.halt = .none ∧ s.refcode.inForce ≠ 0 ∧ s.refcode.at_ + 2 ^ 30 ≤ s.clock.timebase ∧
      (code < 15840 ∨ 16160 < code ∨ s.refcode.inForce + 16 < code ∨ code + 16 < s.refcode.inForce)) ∧
  (∃ (s : State) (ch : Fin 256), (chanOf s ch.val).retrainDue = true ∧ (chanOf s ch.val).window = .none ∧ (chanOf s
      ch.val).windowOpen = false ∧ mayOpen s ch.val = true ∧ (chanOf s ch.val).bench ≠ .device) ∧
  (∃ (s : State) (ch : Fin 256) (r0 : CalResult) (r1 : CalResult), (chanOf s ch.val).windowOpen = true ∧ (chanOf s
      ch.val).window = .retrain ∧ (stackOf s (ch.val / 32)).thermal.heat ≠ .scald ∧ windowOk s (2 * ch.val) r0 = true
      ∧ windowOk s (2 * ch.val + 1) r1 = true) :=
  ⟨⟨{ (full) with clock := { timebase := 16777216 * 3, mark := 20 } }, 0, by decide +kernel⟩,
   ⟨{ (full) with pcs := [(0, { cal := { due := some (0, false) } })] }, 0, 0, false, by decide +kernel⟩,
   ⟨{ (full) with pcs := [(0, { cal := { boot := some ⟨0, 0, true, [], [], [], 0, 0⟩, codes := some ⟨0, 0, true, [], [], [], 0, 0⟩, running := some false, due := some (0, false) } })] },
       0, false, by decide +kernel⟩,
   ⟨{ ready with refcode := { inForce := 16000 }, clock := { timebase := 2 ^ 30 } }, 16010, by decide +kernel⟩,
   ⟨{ ready with refcode := { inForce := 16000 }, clock := { timebase := 2 ^ 30 } }, 16017, by decide +kernel⟩,
   ⟨{ (full) with chans := [(0, { retrainDue := true })] }, 0, by decide +kernel⟩,
   ⟨{ (full) with chans := [(0, { windowOpen := true, window := .retrain })] }, 0, ⟨0, 0, true, [], [], List.replicate
       36 400, 0, 0⟩, ⟨0, 0, true, [], [], List.replicate 36 400, 0, 0⟩, by decide +kernel⟩⟩

/-- Each clause of RepairEvents has a state and operands that meet what it assumes. -/
theorem witness_repair_events :
  (∃ (s : State) (ch : Fin 256) (p : _) (l : _), (chanOf s ch.val).window = .laneRepair p l ∧
      (chanOf s ch.val).windowOpen = false ∧ (chanOf s ch.val).bench = .none ∧ mayOpen s ch.val = true) ∧
  (∃ (s : State) (ch : Fin 256) (p : _) (l : _) (c : Cmd), (chanOf s ch.val).window = .laneRepair p l ∧
      repairRuns s ch.val = true ∧ l < 36 ∧ laneSpare s p l = true ∧ (chanOf s ch.val).laneQueue = [] ∧
      (chanOf s ch.val).repairCmd = some c) ∧
  (∃ (s : State) (ch : Fin 256) (r : _) (h : _), (chanOf s ch.val).window = .rowRepair r h ∧
      (chanOf s ch.val).windowOpen = false ∧ (chanOf s ch.val).bench = .none ∧ mayOpen s ch.val = true) ∧
  (∃ (s : State) (ch : Fin 256) (r : _), (chanOf s ch.val).window = .rowRepair r false ∧ repairRuns s ch.val = true ∧
      2 ≤ (chanOf s ch.val).repairSteps ∧ rowResource s r false = true) :=
  ⟨⟨{ (full) with chans := [(3, { window := .laneRepair 6 4, windowOpen := false, repairCmd := some (pf [0]), repairSteps := 2 })] },
      3, 6, 4, by decide +kernel⟩,
   ⟨{ (full) with chans := [(3, { window := .laneRepair 6 4, windowOpen := true, repairCmd := some (pf [0]), repairSteps := 2 })] },
       3, 6, 4, pf [0], by decide +kernel⟩,
   ⟨{ (full) with chans := [(3, { window := .rowRepair { pc := 7, bank := 2, row := 100 } false, windowOpen := false, repairCmd := some (pf [0]), repairSteps := 2 })] },
       3, { pc := 7, bank := 2, row := 100 }, false, by decide +kernel⟩,
   ⟨{ (full) with chans := [(3, { window := .rowRepair { pc := 7, bank := 2, row := 100 } false, windowOpen := true, repairCmd := some (pf [0]), repairSteps := 2 })] },
       3, { pc := 7, bank := 2, row := 100 }, by decide +kernel⟩⟩

/-- Each clause of MapoutEvents has a state and operands that meet what it assumes. -/
theorem witness_mapout_events :
  (∃ (s : State) (n : Fin 8) (m : _) (ch : _), (stackOf s n.val).mapout = some m ∧ ch = n.val * 32 + m.ch ∧ m.recorded
      = true ∧ m.opened = false ∧ foldReady s n.val = true ∧ switchClear s n.val = true ∧ pourAhead s n.val = false ∧
      (stackOf s n.val).thermal.heat ≠ .scald ∧ (chanPcs ch).any (calibrating s) = false ∧ s.clock.timebase % 1024 = 0
      ∧ (m.failedChannel = true ∨ fetchUnderWay s ch = false)) ∧
  (∃ (s : State) (id : Nat) (f : Flight) (r : Req) (m : _), flightOf s id = some f ∧ (chanOf s (flightChan
      f)).windowOpen = true ∧ (chanOf s (flightChan f)).window = .mapout ∧ (stackOf s (flightChan f / 32)).mapout =
      some m ∧ m.opened = true ∧ m.openedAt + msTicks 1 ≤ s.clock.timebase ∧ f.also = [] ∧ reqOf s f.req = some r ∧
      r.mask.testBit (f.sector % 2) = false) ∧
  (∃ (s : State) (n : Fin 8) (m : Mapout) (ch : _), (stackOf s n.val).mapout = some m ∧ ch = n.val * 32 + m.ch ∧ m.ch
      < 32 ∧ m.opened = true ∧ (stackOf s n.val).thermal.heat ≠ .scald ∧ (stackOf s n.val).mapQueue = [] ∧ switchClear
      s n.val = true ∧ (s.path.flights.any (fun f => flightChan f == ch && f.kind != .cosy)) = false) ∧
  (∃ (s : State) (n : Fin 8) (m : _), (stackOf s n.val).retireProc = some m ∧ m.recorded = true ∧ (stackOf s
      n.val).thermal.heat ≠ .scald ∧ (∀ ch ∈ stackChans n.val, (m.failedChannel = true ∧ ch % 32 = m.ch) ∨
      fetchUnderWay s ch = false)) ∧
  (∃ (s : State) (n : Fin 8) (x : Nat), (stackOf s n.val).online = true ∧ (stackOf s n.val).retired = false ∧
      (vacateExtents s n.val).contains x = true ∧ extentFree s n.val x = true ∧ (stackOf s n.val).prepared.contains x
      = false ∧ (stackOf s n.val).restore = false ∧ rinseWaits s n.val = false ∧ (stackOf s n.val).prep = some (x,
      prepareSectors s n.val x)) :=
  ⟨⟨{ full with stk := (0, { online := true, prepared := (List.range 9).map (247 + ·), mapout := some { ch := 3, recorded := true } }) :: full.stk.drop 1 },
      0, { ch := 3, recorded := true }, _, by decide +kernel, rfl, by decide +kernel, by decide +kernel,
      by decide +kernel, by decide +kernel, by decide +kernel, by decide +kernel, by decide +kernel,
      by decide +kernel, by decide +kernel⟩,
   ⟨{ (atPlace .queued) with chans := [(0, { windowOpen := true, window := .mapout })], path := { (atPlace .queued).path with reqs := [{ heldReq with place := .queued, mask := 2 }], flights := [{ id := 3, req := 1, kind := .host, access := 1, sector := 0, colour := 1, stored := List.replicate 36 0 }] }, stk := (0, { online := true, mapout := some { ch := 0, recorded := true, opened := true } }) :: full.stk.drop 1, clock := { timebase := 2000000 } },
       3, { id := 3, req := 1, kind := .host, access := 1, sector := 0, colour := 1, stored := List.replicate 36 0 },
       { heldReq with place := .queued, mask := 2 }, { ch := 0, recorded := true, opened := true }, by decide +kernel⟩,
   ⟨{ full with chans := [(3, { windowOpen := true, window := .mapout })], stk := (0, { online := true, prepared := (List.range 9).map (247 + ·), mapout := some { ch := 3, recorded := true, opened := true } }) :: full.stk.drop 1 },
       0, { ch := 3, recorded := true, opened := true }, _, by decide +kernel, rfl, by decide +kernel,
       by decide +kernel, by decide +kernel, by decide +kernel, by decide +kernel, by decide +kernel⟩,
   ⟨{ full with stk := (0, { online := true, retireProc := some { ch := 3, recorded := true } }) :: full.stk.drop 1 },
       0, { ch := 3, recorded := true }, by decide +kernel⟩,
   ⟨{ full with stk := (0, { online := true, prep := some (250, prepareSectors full 0 250) }) :: full.stk.drop 1 }, 0,
       250, by decide +kernel⟩⟩

/-- Each clause of HeatEvents has a state and operands that meet what it assumes. -/
theorem witness_heat_events :
  (∃ (s : State) (n : Fin 8) (readings : List Int) (v : _), s.clock.mark % 16 = 0 ∧ (stackOf s n.val).thermal.sampled
      ≠ some s.clock.mark ∧ s.pins.vaux = true ∧ highest (validReadings readings) = some v) ∧
  (∃ (s : State) (id : Nat) (r : Req), reqOf s id = some r ∧ r.kind ≠ .pot ∧ r.kind ≠ .writeBack ∧ waitedOut s r.stack
      r.arrived = true) ∧
  (∃ (s : State) (n : Fin 8), (stackOf s n.val).thermal.heat = .scald ∧ (stackOf s n.val).thermal.exitWait = true ∧
      hasRoom s (exitShare s n.val) = true ∧ s.peers.held = []) ∧
  (∃ (s : State), 420 ≤ s.hub.tj ∧ s.hub.stepMark ≠ s.clock.mark ∧ s.boot.halt = .none ∧ vcoreHStuck s = false ∧
      s.clock.mark % 16 = 0) ∧
  (∃ (s : State), 420 ≤ s.hub.tj ∧ s.hub.stepMark ≠ s.clock.mark ∧ s.boot.halt = .none ∧ vcoreHStuck s = true ∧
      s.clock.mark % 1024 = 0) ∧
  (∃ (s : State), s.hub.state = 2 ∧ s.hub.tj < 400 ∧ s.hub.stepMark ≠ s.clock.mark ∧ s.boot.halt = .none ∧ s.hub.share
      < 7 ∧ s.clock.mark % 1024 = 0) ∧
  (∃ (s : State) (n : Fin 8) (id : _) (c : Coll), s.late.colls.find? (fun x => x.stack == n.val && x.id == id) = some
      c ∧ c.dueBy.isSome = true ∧ c.sampleSent = false) :=
  ⟨⟨{ full with clock := { timebase := 32768, mark := 32 }, pins := { full.pins with vaux := true } }, 0, [92500,
      93000], 372, by decide +kernel⟩,
   ⟨{ (atPlace .queued) with clock := { timebase := 10 ^ 9, mark := 20 }, stk := (0, { online := true, thermal := { heat := .scald } }) :: full.stk.drop 1 },
       1, { heldReq with place := .queued }, by decide +kernel⟩,
   ⟨{ (roomy (2 ^ 96 - 1)) with stk := (0, { online := true, thermal := { temp := some 340, heat := .scald, exitWait := true } }) :: (roomy 0).stk.drop 1 },
       0, by decide +kernel⟩,
   ⟨{ full with clock := { timebase := 32768, mark := 32 }, hub := { tj := 430 } }, by decide +kernel⟩,
   ⟨{ full with clock := { timebase := 1048576, mark := 1024 }, hub := { tj := 430, share := 5 }, power := { full.power with rails := full.power.rails.set 0 600 } },
       by decide +kernel⟩,
   ⟨{ full with clock := { timebase := 1048576, mark := 1024 }, hub := { tj := 390, share := 5, state := 2 } },
       by decide +kernel⟩,
   ⟨{ full with late := { colls := [{ stack := 0, id := 7, tenant := 0, dueBy := some 5 }] } }, 0, 7,
       { stack := 0, id := 7, tenant := 0, dueBy := some 5 }, by decide +kernel⟩⟩

/-- Each clause of EngineEvents has a state and operands that meet what it assumes. -/
theorem witness_engine_events :
  (∃ (s : State) (h : Fin 64) (l : _), listOf s h.val = some l ∧ l.stopping = false ∧ l.held = false ∧ l.fetching =
      false ∧ paused s l = false ∧ fetchBlocked l = false ∧ l.fetched.length < 9 ∧ rangeStatus s l.tenant l.nextTa 128
      = none) ∧
  (∃ (s : State) (h : Fin 64) (l : _) (a : _) (rest : _), listOf s h.val = some l ∧ l.fetching = true ∧ accessesOf s
      (.fetch h.val) = a :: rest ∧ a.status = 0 ∧ (gathered a).anyFailed = false) ∧
  (∃ (s : State) (h : Fin 64) (l : BrewList) (f : Fetched) (rest : _) (d : InDesc), listOf s h.val = some l ∧
      l.fetched = f :: rest ∧ f.failed = 0 ∧ mayStart s l = true ∧ startStatus s l f = none ∧ dRemote f.bytes = false
      ∧ (needsTile (dOp f.bytes) = true → 0 < tilesAsked s l ∧ tilesAsked s l ≤ (idleTiles s h.val).length) ∧ d =
      { id := l.started, ta := f.ta, bytes := f.bytes, tiles := (idleTiles s h.val).take (tilesAsked s l),
        since := s.clock.timebase, matrix := matrixBlocks f.bytes, vector := vectorBlocks f.bytes }) ∧
  (∃ (s : State) (u : State) (h : Fin 64) (i : Nat) (l : _) (d : _), u = descProgress h.val i s ∧ listOf u h.val =
      some l ∧ l.inflight[i]? = some d) ∧
  (∃ (s : State) (h : Nat) (i : Nat) (st : Nat) (l : _) (d : _), listOf s h = some l ∧ l.inflight[i]? = some d ∧
      stopsList d st = false ∧ l.stopping = false ∧ l.endSeen = false) ∧
  (∃ (s : State) (h : Fin 64) (i : Nat) (l : BrewList) (d : InDesc), listOf s h.val = some l ∧ waitIndex l = some i ∧
      l.inflight[i]? = some d ∧ waitStatus s l.tenant d.bytes = some stOK ∧ l.stopping = false ∧ l.endSeen = false) ∧
  (∃ (s : State) (h : Fin 64) (l : BrewList) (d : InDesc), listOf s h.val = some l ∧ l.inflight = [d] ∧ dOp d.bytes =
      opWait ∧ l.stopping = false ∧ u32 d.bytes 36 ≠ 0 ∧ d.since + usTicks (u32 d.bytes 36) ≤ s.clock.timebase) ∧
  (∃ (s : State) (n : Fin 8) (o : _) (rest : _), (infuserOf s n.val).running = none ∧ (infuserOf s n.val).queue = o ::
      rest ∧ o.held = false ∧ (infuserOf s n.val).checking = false) ∧
  (∃ (s : State) (n : Fin 8) (o : _) (rest : _) (as : List RangeRead) (i : Infuser), (infuserOf s n.val).running =
      none ∧ (infuserOf s n.val).queue = o :: rest ∧ (infuserOf s n.val).checking = true ∧ ownerDone s (.infuser
      n.val) = true ∧ ownerStatus s (.infuser n.val) = none ∧ as = (accessesOf s (.infuser n.val)).map gathered ∧
      infCheckRead o.op.toNat o.cmd (as.getD 0 { bytes := [], failed := [] }) (as.getD 1
      { bytes := [], failed := [] }) = none ∧ i = infuserOf (infuserTurn n.val s) n.val) ∧
  (∃ (s : State) (n : Fin 8) (o : _), (infuserOf s n.val).running = some o ∧ (infuserOf s n.val).stage = 2 ∧
      (infuserOf s n.val).steps = [] ∧ ownerDone s (.infuser n.val) = true ∧ ownerStatus s (.infuser n.val) = none ∧
      (∀ a ∈ accessesOf s (.infuser n.val), a.write = false → (gathered a).anyFailed = false)) ∧
  (∃ (s : State) (n : Fin 8) (o : InfOp) (e : Nat × Nat × Nat × Nat), (infuserOf s n.val).running = some o ∧
      (infuserOf s n.val).stage = 3 ∧ (infuserOf s n.val).ends = some e ∧ ownerDone s (.infuser n.val) = true ∧
      ownerStatus s (.infuser n.val) = none) ∧
  (∃ (s u : State) (l : BrewList) (d : InDesc), u = descProgress 63 0 s ∧ listOf u 63 = some l ∧ l.inflight[0]? = some
      d ∧ d.result = some 0 ∧ mirrorPending u l.tenant = false) ∧
  (∃ (s u : State) (l : BrewList) (d : InDesc), u = descProgress 63 0 s ∧ listOf u 63 = some l ∧ l.inflight[0]? = some
      d ∧ d.result = none ∧ dOp d.bytes = opFence) ∧
  (∃ (s u : State) (l : BrewList) (d : InDesc), u = descProgress 63 0 s ∧ listOf u 63 = some l ∧ l.inflight[0]? = some
      d ∧ d.result = none ∧ dOp d.bytes ≠ opWait ∧ dOp d.bytes ≠ opFence ∧ descOver u 63 d = true) ∧
  (∃ (s : State) (o : InfOp), (infuserOf s 0).running = none ∧ (infuserOf s 0).queue = [o] ∧ o.held = false ∧
      (infuserOf s 0).checking = false ∧ infPrecheck o.op.toNat o.cmd 0 s = none) ∧
  (∃ (s : State) (o : InfOp) (e : _), (infuserOf s 0).running = none ∧ (infuserOf s 0).queue = [o] ∧ o.held = false ∧
      (infuserOf s 0).checking = false ∧ infPrecheck o.op.toNat o.cmd 0 s = some e) :=
  ⟨⟨listed { tenant := 0, prio := 1, cmdMask := 0xFFFF, nextTa := 2 ^ 39 }, 63,
      { tenant := 0, prio := 1, cmdMask := 0xFFFF, nextTa := 2 ^ 39 }, by decide +kernel⟩,
   ⟨{ (listed { tenant := 0, prio := 1, cmdMask := 0xFFFF, nextTa := 2 ^ 39, fetching := true }) with path := { accesses := [{ id := 1, owner := .fetch 63, fn := 0, tag := 0, write := false, start := 2 ^ 39, len := 128, left := 0 }] } },
       63, { tenant := 0, prio := 1, cmdMask := 0xFFFF, nextTa := 2 ^ 39, fetching := true },
       { id := 1, owner := .fetch 63, fn := 0, tag := 0, write := false, start := 2 ^ 39, len := 128, left := 0 }, [],
       by decide +kernel⟩,
   ⟨listed
       { tenant := 0, prio := 1, cmdMask := 0xFFFF, nextTa := 2 ^ 39,
         fetched := [{ ta := 2 ^ 39, bytes := padTo 128 [11] }] }, 63,
       { tenant := 0, prio := 1, cmdMask := 0xFFFF, nextTa := 2 ^ 39,
         fetched := [{ ta := 2 ^ 39, bytes := padTo 128 [11] }] }, { ta := 2 ^ 39, bytes := padTo 128 [11] }, [], _,
       by decide +kernel, by decide +kernel, by decide +kernel, by decide +kernel, by decide +kernel,
       by decide +kernel, by decide +kernel, rfl⟩,
   ⟨listed
       { tenant := 0, prio := 1, cmdMask := 0xFFFF, nextTa := 2 ^ 39,
         inflight := [{ id := 1, ta := 2 ^ 39, bytes := padTo 128 [8], tiles := [], since := 0, matrix := 0, vector := 0, result := some 0 }] },
       _, 63, 0,
       { tenant := 0, prio := 1, cmdMask := 0xFFFF, nextTa := 2 ^ 39,
         inflight := [{ id := 1, ta := 2 ^ 39, bytes := padTo 128 [8], tiles := [], since := 0, matrix := 0, vector := 0, result := some 0 }] },
       { id := 1, ta := 2 ^ 39, bytes := padTo 128 [8], tiles := [], since := 0, matrix := 0, vector := 0,
         result := some 0 }, rfl, by decide +kernel, by decide +kernel⟩,
   ⟨listed
       { tenant := 0, prio := 1, cmdMask := 0xFFFF, nextTa := 2 ^ 39,
         inflight := [{ id := 1, ta := 2 ^ 39, bytes := padTo 128 [8], tiles := [], since := 0, matrix := 0, vector := 0, result := some 0 }] },
       63, 0, 0,
       { tenant := 0, prio := 1, cmdMask := 0xFFFF, nextTa := 2 ^ 39,
         inflight := [{ id := 1, ta := 2 ^ 39, bytes := padTo 128 [8], tiles := [], since := 0, matrix := 0, vector := 0, result := some 0 }] },
       { id := 1, ta := 2 ^ 39, bytes := padTo 128 [8], tiles := [], since := 0, matrix := 0, vector := 0,
         result := some 0 }, by decide +kernel⟩,
   ⟨{ full with compute := { lists := [(63, { tenant := 0, prio := 1, cmdMask := 0xFFFF, nextTa := 2 ^ 39, inflight := [{ id := 1, ta := 2 ^ 39, bytes := padTo 128 ([13] ++ List.replicate 15 0 ++ leBytes 8 (2 ^ 39) ++ List.replicate 12 0 ++ leBytes 4 1) }] })] } },
       63, 0,
       { tenant := 0, prio := 1, cmdMask := 0xFFFF, nextTa := 2 ^ 39,
         inflight := [{ id := 1, ta := 2 ^ 39, bytes := padTo 128 ([13] ++ List.replicate 15 0 ++ leBytes 8 (2 ^ 39) ++ List.replicate 12 0 ++ leBytes 4 1) }] },
       { id := 1, ta := 2 ^ 39,
         bytes := padTo 128 ([13] ++ List.replicate 15 0 ++ leBytes 8 (2 ^ 39) ++ List.replicate 12 0 ++ leBytes 4 1) },
       by decide +kernel⟩,
   ⟨{ full with compute := { lists := [(63, { tenant := 0, prio := 1, cmdMask := 0xFFFF, nextTa := 2 ^ 39, inflight := [{ id := 1, ta := 2 ^ 39, bytes := padTo 128 ([13] ++ List.replicate 15 0 ++ leBytes 8 (2 ^ 39) ++ List.replicate 12 0 ++ leBytes 4 1) }] })] } },
       63,
       { tenant := 0, prio := 1, cmdMask := 0xFFFF, nextTa := 2 ^ 39,
         inflight := [{ id := 1, ta := 2 ^ 39, bytes := padTo 128 ([13] ++ List.replicate 15 0 ++ leBytes 8 (2 ^ 39) ++ List.replicate 12 0 ++ leBytes 4 1) }] },
       { id := 1, ta := 2 ^ 39,
         bytes := padTo 128 ([13] ++ List.replicate 15 0 ++ leBytes 8 (2 ^ 39) ++ List.replicate 12 0 ++ leBytes 4 1) },
       by decide +kernel⟩,
   ⟨{ full with infusers := [(0, { queue := [nttOp] })] }, 0, nttOp, [], by decide +kernel⟩,
   ⟨contextRead, 0, nttOp, [], nttReads, _, by decide +kernel, by decide +kernel, by decide +kernel,
       by decide +kernel, by decide +kernel, rfl, nttReads_checked, rfl⟩,
   ⟨{ full with infusers := [(0, { running := some nttOp, stage := 2 })] }, 0, nttOp, by decide +kernel⟩,
   ⟨{ full with infusers := [(0, { running := some nttOp, stage := 3, ends := some (0, 0, 1, 0) })] }, 0, nttOp, (0,
       0, 1, 0), by decide +kernel⟩,
   ⟨listed
       { tenant := 0, prio := 1, cmdMask := 0xFFFF, nextTa := 2 ^ 39,
         inflight := [{ id := 1, ta := 2 ^ 39, bytes := padTo 128 [8], tiles := [], since := 0, matrix := 0, vector := 0, result := some 0 }] },
       _,
       { tenant := 0, prio := 1, cmdMask := 0xFFFF, nextTa := 2 ^ 39,
         inflight := [{ id := 1, ta := 2 ^ 39, bytes := padTo 128 [8], tiles := [], since := 0, matrix := 0, vector := 0, result := some 0 }] },
       { id := 1, ta := 2 ^ 39, bytes := padTo 128 [8], tiles := [], since := 0, matrix := 0, vector := 0,
         result := some 0 }, rfl, by decide +kernel⟩,
   ⟨listed
       { tenant := 0, prio := 1, cmdMask := 0xFFFF, nextTa := 2 ^ 39,
         inflight := [{ id := 1, ta := 2 ^ 39, bytes := padTo 128 [11], tiles := [], since := 0, matrix := 0, vector := 0 }] },
       _,
       { tenant := 0, prio := 1, cmdMask := 0xFFFF, nextTa := 2 ^ 39,
         inflight := [{ id := 1, ta := 2 ^ 39, bytes := padTo 128 [11], tiles := [], since := 0, matrix := 0, vector := 0 }] },
       { id := 1, ta := 2 ^ 39, bytes := padTo 128 [11], tiles := [], since := 0, matrix := 0, vector := 0 }, rfl,
       by decide +kernel⟩,
   ⟨listed
       { tenant := 0, prio := 1, cmdMask := 0xFFFF, nextTa := 2 ^ 39,
         inflight := [{ id := 1, ta := 2 ^ 39, bytes := padTo 128 [8], tiles := [], since := 0, matrix := 0, vector := 0, stage := 2 }] },
       _,
       { tenant := 0, prio := 1, cmdMask := 0xFFFF, nextTa := 2 ^ 39,
         inflight := [{ id := 1, ta := 2 ^ 39, bytes := padTo 128 [8], tiles := [], since := 0, matrix := 0, vector := 0, stage := 2 }] },
       { id := 1, ta := 2 ^ 39, bytes := padTo 128 [8], tiles := [], since := 0, matrix := 0, vector := 0,
         stage := 2 }, rfl, by decide +kernel⟩,
   ⟨{ full with infusers := [(0, { queue := [nttOp] })] }, nttOp, by decide +kernel⟩,
   ⟨{ full with infusers := [(0, { queue := [{ nttOp with cmd := pf [] }] })] }, { nttOp with cmd := pf [] },
       (stBadParam, 2), by decide +kernel⟩⟩

/-- Each clause of SequencedFrames has a state and operands that meet what it assumes. -/
theorem witness_sequenced_frames :
  (∃ (type : Nat) (i : Fin 4 → Frame → Instr) (s : State) (s1 : State) (k : Fin 4) (f : Frame) (c : Nat), (type, i) ∈
      [(0x01, Instr.putFrame), (0x02, .getRequestFrame), (0x04, .reducePutFrame), (0x05, .signalFrame)] ∧ RxNext k
      type f c s s1) ∧
  (∃ (s : State) (s1 : State) (k : Fin 4) (f : Frame) (c : Nat), RxNext k 0x03 f c s s1) ∧
  (∃ (s : State) (s1 : State) (k : Fin 4) (f : Frame) (c : Nat) (o : PeerOpState), RxNext k 0x06 f c s s1 ∧ opNamed
      (acceptSeq k.val c s1) k.val c f = some o) ∧
  (∃ (s : State) (s1 : State) (k : Fin 4) (f : Frame) (c : Nat), RxNext k 0x0F f c s s1 ∧ c = twinConn) ∧
  (∃ (s : State) (s1 : State) (k : Fin 4) (f : Frame) (c : Nat), RxNext k 0x10 f c s s1 ∧ c = twinConn ∧ (twinPartOf
      (acceptSeq k.val c s1) f.dstTenant.toNat).state = 6) ∧
  (∃ (type : Nat) (i : Fin 4 → Frame → Instr) (s : State) (s1 : State) (k : Fin 4) (f : Frame) (c : Nat), (type, i) ∈
      [(0x0D, Instr.mirrorFrame), (0x0E, .copyFrame)] ∧ RxNext k type f c s s1 ∧ c = twinConn ∧ mirrorWaits s f =
      false) ∧
  (∃ (type : Nat) (i : Fin 4 → Frame → Instr) (s : State) (s1 : State) (k : Fin 4) (f : Frame) (c : Nat), (type, i) ∈
      [(0x01, Instr.putFrame), (0x02, .getRequestFrame), (0x04, .reducePutFrame), (0x05, .signalFrame)] ∧ RxFor k f c
      s ∧ s1 = takeHeader k.val c f.ack f.window (countRx k.val type f s) ∧ (connOf s1 k.val c).phase = 2 ∧ f.seq ≠
      (connOf s1 k.val c).rxExpect) :=
  ⟨⟨0x01, Instr.putFrame, peer1, takeHeader 0 0
      ({ blankFrame with src := 0x22, dst := 0x11, first := true, last := true, payload := List.replicate 64 3,
                         srcTenant := 0, dstTenant := 0, opTag := 7 } : Frame).ack
      ({ blankFrame with src := 0x22, dst := 0x11, first := true, last := true, payload := List.replicate 64 3,
                         srcTenant := 0, dstTenant := 0, opTag := 7 } : Frame).window (countRx 0 1
      ({ blankFrame with src := 0x22, dst := 0x11, first := true, last := true, payload := List.replicate 64 3,
                         srcTenant := 0, dstTenant := 0, opTag := 7 }) (peer1)), 0,
      { blankFrame with src := 0x22, dst := 0x11, first := true, last := true, payload := List.replicate 64 3,
                        srcTenant := 0, dstTenant := 0, opTag := 7 }, 0, ⟨by simp, ⟨by decide +kernel,
      by decide +kernel, by decide +kernel⟩, rfl, by decide +kernel, by decide +kernel⟩⟩,
   ⟨peer1, takeHeader 0 0
       ({ blankFrame with src := 0x22, dst := 0x11, first := true, last := true, payload := List.replicate 64 3,
                          srcTenant := 0, dstTenant := 0, opTag := 7 } : Frame).ack
       ({ blankFrame with src := 0x22, dst := 0x11, first := true, last := true, payload := List.replicate 64 3,
                          srcTenant := 0, dstTenant := 0, opTag := 7 } : Frame).window (countRx 0 3
       ({ blankFrame with src := 0x22, dst := 0x11, first := true, last := true, payload := List.replicate 64 3,
                          srcTenant := 0, dstTenant := 0, opTag := 7 }) (peer1)), 0,
       { blankFrame with src := 0x22, dst := 0x11, first := true, last := true, payload := List.replicate 64 3,
                         srcTenant := 0, dstTenant := 0, opTag := 7 }, 0, ⟨⟨by decide +kernel, by decide +kernel,
       by decide +kernel⟩, rfl, by decide +kernel, by decide +kernel⟩⟩,
   ⟨{ peer1 with peers := { peer1.peers with ops := [{ tag := 7, conn := 0, issuer := .command (pf []), kind := 0, tenant := 0, localTa := 2 ^ 39, length := 64 }] } },
       _, 0,
       { blankFrame with src := 0x22, dst := 0x11, first := true, last := true, payload := List.replicate 64 3,
                         srcTenant := 0, dstTenant := 0, opTag := 7 }, 0,
       { tag := 7, conn := 0, issuer := .command (pf []), kind := 0, tenant := 0, localTa := 2 ^ 39, length := 64 },
       ⟨⟨by decide +kernel, by decide +kernel, by decide +kernel⟩, rfl, by decide +kernel, by decide +kernel⟩,
       by decide +kernel⟩,
   ⟨twin1 { state := 6 }, takeHeader 3 64 ({ blankFrame with src := 0x22, dst := 0x11 } : Frame).ack
       ({ blankFrame with src := 0x22, dst := 0x11 } : Frame).window (countRx 3 15
       ({ blankFrame with src := 0x22, dst := 0x11 }) (twin1 { state := 6 })), 3,
       { blankFrame with src := 0x22, dst := 0x11 }, 64, ⟨⟨⟨by decide +kernel, by decide +kernel, by decide +kernel⟩,
       rfl, by decide +kernel, by decide +kernel⟩, by decide +kernel⟩⟩,
   ⟨twin1 { state := 6 }, takeHeader 3 64 ({ blankFrame with src := 0x22, dst := 0x11, dstTenant := 0 } : Frame).ack
       ({ blankFrame with src := 0x22, dst := 0x11, dstTenant := 0 } : Frame).window (countRx 3 16
       ({ blankFrame with src := 0x22, dst := 0x11, dstTenant := 0 }) (twin1 { state := 6 })), 3,
       { blankFrame with src := 0x22, dst := 0x11, dstTenant := 0 }, 64, ⟨⟨⟨by decide +kernel, by decide +kernel,
       by decide +kernel⟩, rfl, by decide +kernel, by decide +kernel⟩, by decide +kernel, by decide +kernel⟩⟩,
   ⟨0x0D, Instr.mirrorFrame, twin1 { state := 6 }, takeHeader 3 64
       ({ blankFrame with src := 0x22, dst := 0x11, dstTenant := 0 } : Frame).ack
       ({ blankFrame with src := 0x22, dst := 0x11, dstTenant := 0 } : Frame).window (countRx 3 13
       ({ blankFrame with src := 0x22, dst := 0x11, dstTenant := 0 }) (twin1 { state := 6 })), 3,
       { blankFrame with src := 0x22, dst := 0x11, dstTenant := 0 }, 64, ⟨by simp, ⟨⟨by decide +kernel,
       by decide +kernel, by decide +kernel⟩, rfl, by decide +kernel, by decide +kernel⟩, by decide +kernel,
       by decide +kernel⟩⟩,
   ⟨0x01, Instr.putFrame, peer1, takeHeader 0 0 ({ blankFrame with src := 0x22, dst := 0x11, seq := 5 } : Frame).ack
       ({ blankFrame with src := 0x22, dst := 0x11, seq := 5 } : Frame).window (countRx 0 1
       ({ blankFrame with src := 0x22, dst := 0x11, seq := 5 }) (peer1)), 0,
       { blankFrame with src := 0x22, dst := 0x11, seq := 5 }, 0, ⟨by simp, ⟨by decide +kernel, by decide +kernel,
       by decide +kernel⟩, rfl, by decide +kernel, by decide +kernel⟩⟩⟩

/-- Each clause of PeerOperationEffects has a state and operands that meet what it assumes. -/
theorem witness_peer_operation_effects :
  (∃ (s : State) (c : Nat) (_fresh : Bool) (h : HeldFrame), h.frame.first = true ∧ (receives s h.port c
      h.frame.dstTenant.toNat && holds s h.frame.dstTenant.toNat) = false ∧ opStatus s h.port c h.type h.frame = none
      ∧ (jobType h.type = true → s.kettle.jobRelease = none ∧ (jobArrive s).1 = false)) ∧
  (∃ (_s : State) (h : HeldFrame) (_o : RxOp), h.type = 0x01) ∧
  (∃ (_s : State) (h : HeldFrame) (_o : RxOp), h.type = 0x02) ∧
  (∃ (_s : State) (h : HeldFrame) (_o : RxOp), h.type = 0x05) ∧
  (∃ (s : State) (r : Req) (p : Nat) (_v : BitVec 64), translate s r.tenant r.ta = .inl (.pot p) ∧ p % 8 = 0 ∧
      potFlagged s p = false) ∧
  (∃ (s : State) (c : Nat) (h : HeldFrame) (o : RxOp) (as : List Access), h.type = 0x01 ∧ h.frame.last = true ∧ before
      s h = [] ∧ rxOpOf s h.port c h.frame = some o ∧ o.failed = none ∧ as = accessesOf s (.frame h.id) ∧ as ≠ [] ∧
      ownerStatus s (.frame h.id) = none) ∧
  (∃ (s : State) (c : Nat) (h : HeldFrame) (o : RxOp) (a : Access) (rest : _), h.type = 0x02 ∧ before s h = [] ∧
      rxOpOf s h.port c h.frame = some o ∧ o.failed = none ∧ accessesOf s (.frame h.id) = a :: rest ∧ ownerStatus s
      (.frame h.id) = none) ∧
  (∃ (s : State) (c : Nat) (h : HeldFrame) (o : PeerOpState), opNamed s h.port c h.frame = some o ∧ rangeStatus s
      o.tenant (o.localTa + h.frame.offset.toNat) h.frame.payload.length = none) ∧
  (∃ (s : State) (c : Nat) (_fresh : Bool) (h : HeldFrame) (st : Nat), opStatus s h.port c h.type h.frame = some st ∧
      h.frame.first = true ∧ (receives s h.port c h.frame.dstTenant.toNat && holds s h.frame.dstTenant.toNat) = false) ∧
  (∃ (s : State) (r : Req) (p : Nat) (v : BitVec 64), translate s r.tenant r.ta = .inl (.pot p) ∧ p % 8 = 0 ∧
      potFlagged s p = false ∧ r.atomic = some (.swap v, 8)) ∧
  (∃ (s : State) (r : Req) (p : Nat) (v : BitVec 64), translate s r.tenant r.ta = .inl (.pot p) ∧ p % 8 = 0 ∧
      potFlagged s p = false ∧ r.atomic = some (.fetchAdd v, 8)) :=
  ⟨⟨{ peer1 with cfg := { peer1.cfg with inForce := peer1.cfg.inForce ++ [(cfgKey 0x0C02 3 0, [1])] } }, 0, true,
      heldOp 1, by decide +kernel⟩,
   ⟨peer1, heldOp 1, rxOne, by decide +kernel⟩,
   ⟨peer1, heldOp 2, rxOne, by decide +kernel⟩,
   ⟨peer1, heldOp 5, rxOne, by decide +kernel⟩,
   ⟨peer1, { heldReq with kind := .pot, ta := 2 ^ 39 }, 7 * 2 ^ 20, 0, by decide +kernel⟩,
   ⟨frameOver 1, 0, heldOp 1, rxOne, _, by decide +kernel, by decide +kernel, by decide +kernel, by decide +kernel,
       by decide +kernel, rfl, by decide +kernel, by decide +kernel⟩,
   ⟨frameOver 2, 0, heldOp 2, rxOne, frameAccess, [], by decide +kernel⟩,
   ⟨getting, 0, heldOp 3, getOne, by decide +kernel⟩,
   ⟨peer1, 0, true, heldOp 5, stNotPermitted, by decide +kernel⟩,
   ⟨peer1, { heldReq with kind := .pot, ta := 2 ^ 39, atomic := some (.swap 7, 8) }, 7 * 2 ^ 20, 7, by decide +kernel⟩,
   ⟨peer1, { heldReq with kind := .pot, ta := 2 ^ 39, atomic := some (.fetchAdd 7, 8) }, 7 * 2 ^ 20, 7,
       by decide +kernel⟩⟩

/-- Each clause of PortEvents has a state and operands that meet what it assumes. -/
theorem witness_port_events :
  (∃ (s : State) (k : Fin 4), portOn s k.val = true ∧ linkUp s k.val = false ∧ s.power.on.getLsbD (40 + k.val) = true) ∧
  (∃ (s : State) (k : Fin 4), linkUp s k.val = true) ∧
  (∃ (s : State) (k : Fin 4) (c : Fin 65), (connOf s k.val c.val).phase = 1 ∧ connOn s k.val c.val = true ∧ linkUp s
      k.val = true ∧ (connOf s k.val c.val).openAt ≤ s.clock.timebase) ∧
  (∃ (s : State) (k : Fin 4) (c : Fin 65) (x : _) (e : _), x = connOf s k.val c.val ∧ x.phase = 2 ∧ x.lastProgress +
      rto s k.val c.val ≤ s.clock.timebase ∧ x.kept.find? (fun y => y.sent) = some e ∧ x.timeouts < 15) ∧
  (∃ (s : State) (k : Fin 4) (c : Fin 65), (connOf s k.val c.val).ackDue.isSome = true) ∧
  (∃ (s : State) (k : Fin 4) (f : Frame) (c : Nat), RxFor k f c s) ∧
  (∃ (s : State) (s1 : State) (k : Fin 4) (f : Frame) (c : Nat), RxFor k f c s ∧ s1 = takeHeader k.val c (f.ack - 1)
      f.window (countRx k.val 0x08 f s) ∧ (connOf s1 k.val c).phase = 2) ∧
  (∃ (s : State) (k : Fin 4) (f : Frame) (c : Nat), RxFor k f c s) ∧
  (∃ (s : State) (k : Fin 4) (f : Frame) (c : Nat), RxFor k f c s ∧ (connOf s k.val c).phase = 1) ∧
  (∃ (s : State) (k : Fin 4) (f : Frame), linkUp s k.val = true ∧ (f.dst = portMac s k.val ∨ f.dst = broadcast)) ∧
  (∃ (s : State) (k : Fin 4), linkUp s k.val = true) ∧
  (∃ (s : State) (k : Fin 4) (q : _), linkUp s k.val = true ∧ 0 < q) ∧
  (∃ (s : State) (k : Fin 4), (portOf s k.val).paused = true ∧ (portOf s k.val).pausedUntil ≤ s.clock.timebase) :=
  ⟨⟨{ full with cfg := { full.cfg with inForce := full.cfg.inForce ++ [(cfgKey 0x0C01 0 0, [1])] } }, 0,
      by decide +kernel⟩,
   ⟨peer1, 0, by decide +kernel⟩,
   ⟨{ peer1 with clock := { timebase := 20480, mark := 20 }, peers := { ports := [(0, { link := 2 })], conns := [(0, { phase := 1 })] } },
       0, 0, by decide +kernel⟩,
   ⟨{ peer1 with clock := { timebase := 10 ^ 12, mark := 20 }, peers := { ports := [(0, { link := 2 })], conns := [(0, { phase := 2, window := 100, kept := [{ seq := 0, type := 1, frame := blankFrame, sent := true }] })] } },
       0, 0, { phase := 2, window := 100, kept := [{ seq := 0, type := 1, frame := blankFrame, sent := true }] },
       { seq := 0, type := 1, frame := blankFrame, sent := true }, by decide +kernel⟩,
   ⟨{ peer1 with clock := { timebase := 20480, mark := 20 }, peers := { ports := [(0, { link := 2 })], conns := [(0, { phase := 2, ackDue := some 5 })] } },
       0, 0, by decide +kernel⟩,
   ⟨peer1, 0, { blankFrame with src := 0x22, dst := 0x11 }, 0, ⟨by decide +kernel, by decide +kernel,
       by decide +kernel⟩⟩,
   ⟨peer1, takeHeader 0 0 (({ blankFrame with src := 0x22, dst := 0x11 } : Frame).ack - 1)
       ({ blankFrame with src := 0x22, dst := 0x11 } : Frame).window (countRx 0 8
       ({ blankFrame with src := 0x22, dst := 0x11 }) peer1), 0, { blankFrame with src := 0x22, dst := 0x11 }, 0,
       ⟨⟨by decide +kernel, by decide +kernel, by decide +kernel⟩, rfl, by decide +kernel⟩⟩,
   ⟨peer1, 0, { blankFrame with src := 0x22, dst := 0x11 }, 0, ⟨by decide +kernel, by decide +kernel,
       by decide +kernel⟩⟩,
   ⟨{ peer1 with clock := { timebase := 20480, mark := 20 }, peers := { ports := [(0, { link := 2 })], conns := [(0, { phase := 1 })] } },
       0, { blankFrame with src := 0x22, dst := 0x11 }, 0, ⟨⟨by decide +kernel, by decide +kernel, by decide +kernel⟩,
       by decide +kernel⟩⟩,
   ⟨peer1, 0, { blankFrame with src := 0x22, dst := 0x11 }, by decide +kernel⟩,
   ⟨peer1, 0, by decide +kernel⟩,
   ⟨peer1, 0, 7, by decide +kernel⟩,
   ⟨{ peer1 with peers := { ports := [(0, { link := 2, paused := true, pausedUntil := 5 })] } }, 0, by decide +kernel⟩⟩

/-- Each clause of TwinEvents has a state and operands that meet what it assumes. -/
theorem witness_twin_events :
  (∃ (s : State), twinOn s = true ∧ s.clock.mark % 64 = 0 ∧ s.twin.beatMark ≤ s.clock.mark ∧ s.boot.halt = .none) ∧
  (∃ (s : State) (k : Fin 4) (f : Frame), linkUp s k.val = true ∧ twinPort s = k.val ∧
      (f.dst = portMac s k.val ∨ f.dst = broadcast) ∧ 32 ≤ f.payload.length) ∧
  (∃ (s : State) (k : Fin 128), mirrored s k.val = true ∧ lagOk s k.val = false) ∧
  (∃ (s : State) (m : Nat), s.twin.bootWaitFrom = some m ∧ m + msTicks (cfgN s 0x0C05 2 0) ≤ s.clock.timebase) ∧
  (∃ (s : State) (k : Fin 128) (c : Cmd) (d : _), (twinPartOf s k.val).takeover = some (c, d) ∧
      planned s k.val = true ∧ d ≤ s.clock.timebase) ∧
  (∃ (s : State) (k : Fin 128) (q : _), (twinPartOf s k.val).state = 2 ∧ (twinPartOf s k.val).resyncLast = some q ∧
      planned s k.val = false ∧ ((connOf s (twinPort s) twinConn).kept.any (fun e => seqLe e.seq q)) = false) :=
  ⟨⟨{ (twin1 {}) with clock := { timebase := 65536, mark := 64 } }, by decide +kernel⟩,
   ⟨twin1 {}, 3, { blankFrame with src := 0x22, dst := 0x11, payload := List.replicate 32 0 }, by decide +kernel⟩,
   ⟨{ (twin1 { state := 3, unacked := [(0, 0)] }) with clock := { timebase := 10 ^ 12, mark := 64 } }, 0,
       by decide +kernel⟩,
   ⟨{ (twin1 {}) with twin := { partner := some 0x22, bootWaitFrom := some 5 }, clock := { timebase := 10 ^ 12, mark := 64 } },
       5, by decide +kernel⟩,
   ⟨twin1 { takeover := some (pf [1], 5) }, 0, pf [1], 5, by decide +kernel⟩,
   ⟨{ (twin1 { state := 2, resyncLast := some 5 }) with clock := { timebase := 10 ^ 12, mark := 64 } }, 0, 5,
       by decide +kernel⟩⟩

/-- Each clause of EveryStepKeepsForm has a state and operands that meet what it assumes. -/
theorem witness_every_step_keeps_form :
  (∃ (s : State) (t : State), s.wf ∧ step s = .next t) :=
  ⟨ready, tick ready, ⟨by decide +kernel, rfl⟩⟩

/-- Each clause of OnlyStoringCommandsStore has a state and operands that meet what it assumes. -/
theorem witness_only_storing_commands_store :
  (∃ (i : Instr) (s : State) (t : State), mayStore i = false ∧ exec i s = .next t) :=
  ⟨Instr.repairScrubDone 9, ready, setPc 9 { pcOf ready 9 with scrub := none } ready, ⟨rfl, rfl⟩⟩

/-- Each clause of OnlyNamedCommandsChangeSystemState has a state and operands that meet what it assumes. -/
theorem witness_only_named_commands_change_system_state :
  (∃ (i : Instr) (s : State) (t : State), mayConfigure i = false ∧ exec i s = .next t) ∧
  (∃ (i : Instr) (s : State) (t : State), mayMoveTime i = false ∧ exec i s = .next t) ∧
  (∃ (i : Instr) (s : State) (t : State), mayChangeDebug i = false ∧ exec i s = .next t) ∧
  (∃ (i : Instr) (s : State) (t : State), exec i s = .next t) :=
  ⟨⟨Instr.repairScrubDone 9, ready, setPc 9 { pcOf ready 9 with scrub := none } ready, ⟨rfl, rfl⟩⟩,
   ⟨Instr.repairScrubDone 9, ready, setPc 9 { pcOf ready 9 with scrub := none } ready, ⟨rfl, rfl⟩⟩,
   ⟨Instr.repairScrubDone 9, ready, setPc 9 { pcOf ready 9 with scrub := none } ready, ⟨rfl, rfl⟩⟩,
   ⟨Instr.repairScrubDone 9, ready, setPc 9 { pcOf ready 9 with scrub := none } ready, rfl⟩⟩

/-- Each clause of OpcodesNameCommands has a state and operands that meet what it assumes. -/
theorem witness_opcodes_name_commands :
  (∃ (i : Instr) (op : Nat) (c : Cmd), opcodeOf i = some op ∧ i.cmd? = some c) ∧
  (∃ (op : Nat) (c : Cmd) (i : Instr), ofOpcode op c = some i) :=
  ⟨⟨Instr.kettleSteepLimits (pf []), 0x0801, pf [], ⟨rfl, rfl⟩⟩,
   ⟨0x0801, pf [], Instr.kettleSteepLimits (pf []), rfl⟩⟩

/-- Each clause of CommandRefusals has a state and operands that meet what it assumes. -/
theorem witness_command_refusals :
  (∃ (i : Instr) (op : Nat) (c : Cmd) (s : State), opcodeOf i = some op ∧ i.cmd? = some c ∧ taken op c s = false) ∧
  (∃ (op : Nat) (c : Cmd) (s : State), serving s = false ∧ (op ≠ 0x0809 ∨ c.issuer ≠ .oob)) ∧
  (∃ (op : Nat) (c : Cmd) (s : State), notStarted op c s = true) ∧
  (∃ (op : Nat) (c : Cmd) (s : State), s.cmds.any (execMatches op c) = false ∧ placeFor s c.issuer = false) ∧
  (∃ (i : Instr) (op : Nat) (c : Cmd) (s : State) (st : Nat), opcodeOf i = some op ∧ i.cmd? = some c ∧ taken op c s =
      true ∧ gate op c s = some st) ∧
  (∃ (op : Nat), accessOf op = none) ∧
  (∃ (op : Nat) (s : State) (a : _), accessOf op = some a ∧ s.boot.stage = .recovery ∧ a.recovery = false) ∧
  (∃ (op : Nat) (c : Cmd) (s : State) (a : _) (k : Fin 128), accessOf op = some a ∧ s.boot.stage ≠ .recovery ∧
      c.issuer = .fn k ∧ k.val ≠ 0 ∧ (a.vf = false ∨ (c.tenant ≠ 0xFFFF ∧ c.tenant.toNat ≠ k.val) ∨ (∃ b, a.perm =
      some b ∧ bitOf (permWord s k.val) b = false))) ∧
  (∃ (op : Nat) (c : Cmd) (s : State) (a : _), accessOf op = some a ∧ s.boot.stage ≠ .recovery ∧ c.issuer = .oob ∧
      (a.oob = none ∨ (∃ b, a.oob = some (some b) ∧ bitOf (permWord s 0x80) b = false))) ∧
  (∃ (op : Nat) (c : Cmd) (s : State) (a : _), accessOf op = some a ∧ s.boot.stage ≠ .recovery ∧ cmdPf c = true ∧
      a.master = false ∧ a.level1 = false ∧ (c.tenant = 0xFFFF ∨ c.tenant.toNat < 128)) ∧
  (∃ (c : Cmd) (s : State), Accepted 0x0801 c s ∧ ((bitOf (par c 20 1) 0 = true ∧ ¬(100 ≤ par c 0 4 ∧ par c 0 4 ≤
      100000)) ∨ (bitOf (par c 20 1) 2 = true ∧ ¬(700000 ≤ par c 8 4 ∧ par c 8 4 ≤ 1600000)) ∨ (bitOf (par c 20 1) 5 =
      true ∧ par c 18 2 < 64))) ∧
  (∃ (c : Cmd) (s : State), Accepted 0x0501 c s ∧ (¬((par c 0 1 < 8 ∨ par c 0 1 = 0xFF) ∧ par c 1 1 ≤ 2))) ∧
  (∃ (c : Cmd) (s : State), Accepted 0x0501 c s ∧ par c 0 1 < 8 ∧ par c 1 1 ≤ 2 ∧ ¬ Room c [(cfgKey 0x0501 0 (par c 0
      1), [par c 1 1])] s) ∧
  (∃ (c : Cmd) (s : State), Accepted 0x0401 c s ∧ (¬((par c 0 2 < 256 ∨ par c 0 2 = 0xFFFF) ∧ par c 2 1 ≤ 1))) :=
  ⟨⟨.kettleSteepLimits (pf []), 0x0801, pf [], {}, rfl, rfl, by decide +kernel⟩,
   ⟨0x0801, pf [], {}, by decide +kernel⟩,
   ⟨0x0801, pf [], { ready with cmds := [{ op := 0x0801, cmd := pf [], started := false }] }, by decide +kernel⟩,
   ⟨0x0801, vf [], { ready with cmds := List.replicate 1024 { op := 1, cmd := pf [9] } }, by decide +kernel⟩,
   ⟨.kettleSteepLimits (vf []), 0x0801, vf [], ready, stNotPermitted, rfl, rfl, by decide +kernel, by decide +kernel⟩,
   ⟨0x0FFF, by decide +kernel⟩,
   ⟨0x0801, { ready with boot := { stage := .recovery } }, (accessOf 0x0801).get (by decide), by decide +kernel⟩,
   ⟨0x0801, vf [], ready, (accessOf 0x0801).get (by decide), 127, ⟨by decide +kernel, by decide +kernel,
       by decide +kernel, by decide +kernel, .inl (by decide +kernel)⟩⟩,
   ⟨0x0202, { pf [] with issuer := .oob }, ready, (accessOf 0x0202).get (by decide), ⟨by decide +kernel,
       by decide +kernel, by decide +kernel, .inl (by decide +kernel)⟩⟩,
   ⟨0x0801, pf [], ready, (accessOf 0x0801).get (by decide), by decide +kernel⟩,
   ⟨pf ([1] ++ List.replicate 19 0 ++ [1]), ready, by decide +kernel⟩,
   ⟨pf [9], ready, by decide +kernel⟩,
   ⟨pf [0, 1], { ready with cfg := { areas := [(0, (List.range 2048).map (fun i => (i, [])))] } }, by decide +kernel⟩,
   ⟨pf [0, 0, 2], ready, by decide +kernel⟩⟩

/-- Each clause of SharedOperationFrames has a state and operands that meet what it assumes. -/
theorem witness_shared_operation_frames :
  (∃ (op : Nat) (c : Cmd) (s : State) (e : Exec), s.cmds = [e] ∧ execMatches op c e = true) :=
  ⟨0x0801, pf [], { ready with cmds := [{ op := 0x0801, cmd := pf [] }] }, { op := 0x0801, cmd := pf [] },
      by decide +kernel⟩

/-- Each clause of SequenceNumbers has a state and operands that meet what it assumes. -/
theorem witness_sequence_numbers :
  (∃ (s : State) (k : Fin 128) (slot : List Byte) (hostIn : List Byte) (c : Cmd) (f : Fn), f = fnOf s k.val ∧
      fetchTurn s = some k.val ∧ c = slotCmd (.fn k) slot hostIn) ∧
  (∃ (s : State) (k : Fin 128) (slot : List Byte), fetchTurn s = some k.val ∧ (slotCmd (.fn k) slot []).seq = (fnOf s
      k.val).expect ∧ ∀ x ∈ s.cmds, x.cmd.issuer ≠ .fn k) ∧
  (∃ (s : State) (k : Fin 128) (slot : List Byte), fetchTurn s = some k.val ∧ (slotCmd (.fn k) slot []).seq ≠ (fnOf s
      k.val).expect) :=
  ⟨⟨boxed { box with doorbell := 1 }, 127, [1], [], _, _, rfl, by decide +kernel, rfl⟩,
   ⟨boxed { box with doorbell := 1 }, 127, [1], by decide +kernel⟩,
   ⟨boxed { box with doorbell := 1 }, 127, [1, 0, 1], by decide +kernel⟩⟩

/-- Each clause of StoredSectors has a state and operands that meet what it assumes. -/
theorem witness_stored_sectors :
  (∃ (q : Nat) (q' : Nat) (i : Nat), q' ≠ q ∧ i < 64) ∧
  (∃ (n : _) (lo : _) (hi : _) (colour : BitVec 8) (poison : _) (s : State) (f : Fill) (i : _),
      f = { stack := n, lo := lo, hi := hi, mapped := (stackOf s n).mapped, colour := colour, poison := poison } ∧
      i < 64) :=
  ⟨⟨5, 6, 3, by decide +kernel⟩,
   ⟨0, 0, 256, 1, false, ready, { stack := 0, lo := 0, hi := 256, mapped := [], colour := 1, poison := false }, 3,
       by decide +kernel⟩⟩

/-- Each clause of SectorSyndromes has a state and operands that meet what it assumes. -/
theorem witness_sector_syndromes :
  (∃ (j : _), j < 4) ∧
  (∃ (k : BitVec 8) (k' : BitVec 8) (data : List Byte) (st : List Byte), st.length = 36 ∧
      ((List.range 37).filter (fun p => symbolAt k' st p != symbolAt k (encodeSector k false data) p)).length ≤ 2) :=
  ⟨⟨3, by decide +kernel⟩,
   ⟨1, 1, [], encodeSector 1 false [], by decide +kernel⟩⟩

/-- Each clause of SectorCorrection has a state and operands that meet what it assumes. -/
theorem witness_sector_correction :
  (∃ (policy : _) (i : _) (v : BitVec 8), i < 36 ∧ v ≠ 0 ∧ policy ≤ 1) ∧
  (∃ (i : _) (v : BitVec 8), i < 36 ∧ v ≠ 0) ∧
  (∃ (i : _) (j : _) (v : BitVec 8) (w : BitVec 8), i < j ∧ j < 36 ∧ v ≠ 0 ∧ w ≠ 0) ∧
  (∃ (policy : _) (i : _) (j : _) (v : BitVec 8) (w : BitVec 8), i < j ∧ j < 36 ∧ v ≠ 0 ∧ w ≠ 0 ∧
      (policy = 1 ∨ policy = 2)) ∧
  (∃ (k : BitVec 8) (k' : BitVec 8), k ≠ k') ∧
  (∃ (k : BitVec 8) (k' : BitVec 8) (i : _) (v : BitVec 8), k ≠ k' ∧ i < 36 ∧ v ≠ 0) :=
  ⟨⟨1, 35, 7, by decide +kernel⟩,
   ⟨0, 7, by decide +kernel⟩,
   ⟨0, 35, 7, 9, by decide +kernel⟩,
   ⟨2, 0, 35, 7, 9, ⟨by decide +kernel, by decide +kernel, by decide +kernel, by decide +kernel, .inr rfl⟩⟩,
   ⟨1, 2, by decide +kernel⟩,
   ⟨1, 2, 0, 7, by decide +kernel⟩⟩



end Sys2Proof.Tests
end

section
/-! What every command leaves as it was (O52), one step of the block (O1), the state after a power-on reset (O26), and
what a mailbox command is refused with (O54). -/

namespace Sys2Proof.Machine

open Sys2Proof

/-! ### The fixed part of the state

One rule an operation of the model says that it keeps `fixed τ`, what changes of the kinds τ leave alone; an operation
that makes a change of some kind asks for that kind in τ. The rules are simp lemmas, so that the rule of an operation
follows its definition and cites those of what it calls. They follow the order of the model's files. -/

/-- Kinds of change: what is stored in HBM and the pot, the configuration in force, the time, and the debug access. -/
structure Touch where
  contents : Bool := false
  config : Bool := false
  time : Bool := false
  debug : Bool := false

/-- What changes of some kinds leave as it was; a part that may change reads as its default. -/
structure FixedPart where
  pending : List Instr
  ident : Ident
  hbm : Memory
  pot : Pot
  inForce : Table (List Nat)
  clock : Clock
  dbg : Dbg

/-- The parts of s that changes of the kinds τ leave alone; the queue and the identity are among them for every τ. -/
def fixed (τ : Touch) (s : State) : FixedPart where
  pending := s.pending
  ident := s.ident
  hbm := if τ.contents then {} else s.hbm
  pot := if τ.contents then {} else s.pot
  inForce := if τ.config then [] else s.cfg.inForce
  clock := if τ.time then {} else s.clock
  dbg := if τ.debug then {} else s.dbg

variable {τ : Touch}

/-- Values that are equal unless they may change read alike where a default hides what may change. -/
theorem masked_eq {α : Type} {b : Bool} {d x y : α} (h : b = true ∨ x = y) :
    (if b then d else x) = if b then d else y := by
  rcases h with h | h
  · simp [h]
  · rw [h]

/-- An update of the state that leaves each fixed part alone. -/
@[simp] theorem fixed_update (s : State) {ident hbm pot clock dbg cfg} (pins boot flash fns cmds parts path buckets qos
    stk chans pcs kettle kb power hub dies compute infusers peers twin tele late exers doze refcode out freeCount)
    (hi : ident = s.ident) (hh : τ.contents = true ∨ hbm = s.hbm) (hp : τ.contents = true ∨ pot = s.pot)
    (hc : τ.config = true ∨ cfg.inForce = s.cfg.inForce) (ht : τ.time = true ∨ clock = s.clock)
    (hd : τ.debug = true ∨ dbg = s.dbg) :
    fixed τ (State.mk s.pending ident pins clock boot flash fns cmds cfg parts hbm pot path buckets qos stk chans pcs
      kettle kb power hub dies compute infusers peers twin tele late exers dbg doze refcode out freeCount) =
      fixed τ s := by
  simp only [fixed, hi, masked_eq hh, masked_eq hp, masked_eq hc, masked_eq ht, masked_eq hd]

@[simp] theorem fixed_ite (c : Prop) [Decidable c] (a b : State) :
    fixed τ (if c then a else b) = if c then fixed τ a else fixed τ b := apply_ite _ _ _ _

/-- A fold of operations that keep it keeps it. -/
@[simp] theorem fixed_foldl {α : Type} (f : State → α → State) (l : List α) (s : State)
    (h : ∀ s a, fixed τ (f s a) = fixed τ s) : fixed τ (l.foldl f s) = fixed τ s := by
  induction l generalizing s with
  | nil => rfl
  | cons a l ih => exact (ih _).trans (h s a)

/-- The same for a fold that carries a value beside the state. -/
@[simp] theorem fixed_foldl_snd {α β : Type} (f : β × State → α → β × State) (l : List α) (x : β × State)
    (h : ∀ x a, fixed τ (f x a).2 = fixed τ x.2) : fixed τ (l.foldl f x).2 = fixed τ x.2 := by
  induction l generalizing x with
  | nil => rfl
  | cons a l ih => exact (ih _).trans (h x a)

/-- What the shared operations on interrupts, events and the log can reach is no fixed part. -/
theorem EventFrame.fixed {s t : State} (h : EventFrame s t) : fixed τ t = fixed τ s := by
  obtain ⟨_, _, _, _, rfl⟩ := h
  simp

/-- The state that a work's answer leaves. -/
def Reply.state : Reply → State
  | .done s _ _ => s
  | .wait s => s
  | .over s => s

@[simp] theorem Reply.state_done (s : State) (st : Nat) (r : List Byte) : (Reply.done s st r).state = s := by
  rw [Reply.state]
@[simp] theorem Reply.state_wait (s : State) : (Reply.wait s).state = s := by rw [Reply.state]
@[simp] theorem Reply.state_over (s : State) : (Reply.over s).state = s := by rw [Reply.state]
@[simp] theorem Reply.state_ite (c : Prop) [Decidable c] (a b : Reply) :
    (if c then a else b).state = if c then a.state else b.state := apply_ite _ _ _ _

/-! ### The shared operations -/

@[simp] theorem fixed_hostPayload (sent : Bool) (n : Nat) (s : State) : fixed τ (hostPayload sent n s) = fixed τ s :=
  (hostPayload_frame sent n s).fixed

@[simp] theorem fixed_emit (o : Out) (s : State) : fixed τ (emit o s) = fixed τ s := (emit_eventFrame o s).fixed

@[simp] theorem fixed_freeStep (s : State) : fixed τ (freeStep s) = fixed τ s := by simp [freeStep]

@[simp] theorem fixed_setFn (k : Nat) (f : Fn) (s : State) : fixed τ (setFn k f s) = fixed τ s :=
  (setFn_frame k f s).fixed

@[simp] theorem fixed_setStack (n : Nat) (v : Stack) (s : State) : fixed τ (setStack n v s) = fixed τ s := by
  simp [setStack]

@[simp] theorem fixed_setChan (n : Nat) (v : Chan) (s : State) : fixed τ (setChan n v s) = fixed τ s := by
  simp [setChan]

@[simp] theorem fixed_setPc (n : Nat) (v : Pc) (s : State) : fixed τ (setPc n v s) = fixed τ s := by simp [setPc]

@[simp] theorem fixed_setPart (t : Nat) (v : Part) (s : State) : fixed τ (setPart t v s) = fixed τ s := by
  simp [setPart]

@[simp] theorem fixed_setDie (n : Nat) (v : Die) (s : State) : fixed τ (setDie n v s) = fixed τ s := by simp [setDie]

@[simp] theorem fixed_setList (h : Nat) (v : BrewList) (s : State) : fixed τ (setList h v s) = fixed τ s := by
  simp [setList]

@[simp] theorem fixed_dropList (h : Nat) (s : State) : fixed τ (dropList h s) = fixed τ s := by simp [dropList]

@[simp] theorem fixed_setTile (t : Nat) (v : Tile) (s : State) : fixed τ (setTile t v s) = fixed τ s := by
  simp [setTile]

@[simp] theorem fixed_setInfuser (n : Nat) (v : Infuser) (s : State) : fixed τ (setInfuser n v s) = fixed τ s := by
  simp [setInfuser]

@[simp] theorem fixed_setPort (k : Nat) (v : Port) (s : State) : fixed τ (setPort k v s) = fixed τ s := by
  simp [setPort]

@[simp] theorem fixed_setConn (k c : Nat) (v : Conn) (s : State) : fixed τ (setConn k c v s) = fixed τ s := by
  simp [setConn]

@[simp] theorem fixed_setTwinPart (t : Nat) (v : TwinPart) (s : State) : fixed τ (setTwinPart t v s) = fixed τ s := by
  simp [setTwinPart]

@[simp] theorem fixed_setExer (n : Nat) (v : Exer) (s : State) : fixed τ (setExer n v s) = fixed τ s := by
  simp [setExer]

@[simp] theorem fixed_avsWrite (r mv : Nat) (s : State) : fixed τ (avsWrite r mv s) = fixed τ s := by simp [avsWrite]

@[simp] theorem fixed_avsRead (r : Nat) (s : State) : fixed τ (avsRead r s) = fixed τ s := by simp [avsRead]

@[simp] theorem fixed_avsStatus (r : Nat) (s : State) : fixed τ (avsStatus r s) = fixed τ s := by simp [avsStatus]

@[simp] theorem fixed_countEvent (i n : Nat) (s : State) : fixed τ (countEvent i n s) = fixed τ s :=
  (countEvent_frame i n s).fixed

@[simp] theorem fixed_countVolume (i n : Nat) (s : State) : fixed τ (countVolume i n s) = fixed τ s := by
  simp [countVolume]

@[simp] theorem fixed_raiseVector (k v : Nat) (s : State) : fixed τ (raiseVector k v s) = fixed τ s :=
  (raiseVector_frame k v s).fixed

@[simp] theorem fixed_setInt (k bit : Nat) (s : State) : fixed τ (setInt k bit s) = fixed τ s :=
  (setInt_frame k bit s).fixed

@[simp] theorem fixed_setIntAll (bit : Nat) (s : State) : fixed τ (setIntAll bit s) = fixed τ s :=
  (setIntAll_frame bit s).fixed

@[simp] theorem fixed_logRecord (code tenant sev stack : Nat) (payload : List Byte) (rings : List Nat) (s : State) :
    fixed τ (logRecord code tenant sev stack payload rings s) = fixed τ s :=
  (logRecord_frame code tenant sev stack payload rings s).fixed

@[simp] theorem fixed_logEvent (code tenant sev stack : Nat) (args : List Byte) (rings : List Nat) (s : State) :
    fixed τ (logEvent code tenant sev stack args rings s) = fixed τ s :=
  (logEvent_frame code tenant sev stack args rings s).fixed

@[simp] theorem fixed_devEvent (code sev : Nat) (args : List Byte) (s : State) :
    fixed τ (devEvent code sev args s) = fixed τ s := (devEvent_frame code sev args s).fixed

@[simp] theorem fixed_assertAlert (seq : Nat) (s : State) : fixed τ (assertAlert seq s) = fixed τ s := by
  simp [assertAlert]

@[simp] theorem fixed_alertEvent (code sev : Nat) (args : List Byte) (rings : List Nat) (s : State) :
    fixed τ (alertEvent code sev args rings s) = fixed τ s := by simp [alertEvent]

@[simp] theorem fixed_dropPours (p : Cmd → Bool) (s : State) : fixed τ (dropPours p s) = fixed τ s := by
  simp [dropPours]

@[simp] theorem fixed_finish (op : Nat) (c : Cmd) (status : Nat) (result : List Byte) (s : State) :
    fixed τ (finish op c status result s) = fixed τ s := by fun_cases finish op c status result s <;> simp

@[simp] theorem fixed_hold (op : Nat) (c : Cmd) (s : State) : fixed τ (hold op c s) = fixed τ s := by simp [hold]

/-- A mailbox command changes what its work changes: the gate and the completion change only its entry. -/
@[simp] theorem fixed_mailbox (op : Nat) (c : Cmd) (work : State → Reply) (s : State)
    (h : fixed τ (work s).state = fixed τ s) : fixed τ (mailbox op c work s) = fixed τ s := by
  cases ht : taken op c s with
  | false => rw [mailbox_idle op c work s ht]
  | true =>
    cases hg : gate op c s with
    | some st => rw [mailbox_refused op c work s st ht hg, fixed_finish]
    | none =>
      rw [mailbox_taken op c work s ht hg, ← h]
      cases work s <;> simp

@[simp] theorem fixed_steep (c : Cmd) (entries : List (Nat × List Nat)) (s : State) :
    fixed τ (steep c entries s).state = fixed τ s := by simp [steep]

/-! ### Stored contents: sectors, fills and the pot -/

@[simp] theorem fixed_setSector (q : Nat) (bytes : List Byte) (s : State) (hs : τ.contents = true) :
    fixed τ (setSector q bytes s) = fixed τ s := by simp [setSector, hs]

@[simp] theorem fixed_writeSector (q : Nat) (colour : BitVec 8) (poison : Bool) (data : List Byte) (s : State)
    (hs : τ.contents = true) : fixed τ (writeSector q colour poison data s) = fixed τ s := by simp [writeSector, hs]

@[simp] theorem fixed_fillRange (n lo hi : Nat) (colour : BitVec 8) (poison : Bool) (s : State)
    (hs : τ.contents = true) : fixed τ (fillRange n lo hi colour poison s) = fixed τ s := by simp [fillRange, hs]

@[simp] theorem fixed_writeReserved (n : Nat) (s : State) (hs : τ.contents = true) :
    fixed τ (writeReserved n s) = fixed τ s := by simp [writeReserved, hs]

@[simp] theorem fixed_fillExtent (n x : Nat) (colour : BitVec 8) (s : State) (hs : τ.contents = true) :
    fixed τ (fillExtent n x colour s) = fixed τ s := by simp [fillExtent, hs]

@[simp] theorem fixed_potStore (o : Nat) (bytes : List Byte) (s : State) (hs : τ.contents = true) :
    fixed τ (potStore o bytes s) = fixed τ s := by simp [potStore, hs]

@[simp] theorem fixed_potFlag (blk : Nat) (on : Bool) (s : State) (hs : τ.contents = true) :
    fixed τ (potFlag blk on s) = fixed τ s := by simp [potFlag, hs]

@[simp] theorem fixed_potWrite (o : Nat) (bytes : List Byte) (s : State) (hs : τ.contents = true) :
    fixed τ (potWrite o bytes s) = fixed τ s := by simp [potWrite, hs]

@[simp] theorem fixed_potClearGrain (g : Nat) (s : State) (hs : τ.contents = true) :
    fixed τ (potClearGrain g s) = fixed τ s := by simp [potClearGrain, hs]

/-! ### Admin commands and the simple configuration commands -/

@[simp] theorem fixed_setBank (b : Nat) (v : Bank) (s : State) : fixed τ (setBank b v s) = fixed τ s := by
  simp [setBank]

@[simp] theorem fixed_capabilitiesWork (c : Cmd) (s : State) : fixed τ (capabilitiesWork c s).state = fixed τ s := by
  simp [capabilitiesWork]

@[simp] theorem fixed_functionSteepPermWork (c : Cmd) (s : State) :
    fixed τ (functionSteepPermWork c s).state = fixed τ s := by simp [functionSteepPermWork]

@[simp] theorem fixed_functionGetPermWork (c : Cmd) (s : State) :
    fixed τ (functionGetPermWork c s).state = fixed τ s := by simp [functionGetPermWork]

@[simp] theorem fixed_configDiscardWork (c : Cmd) (s : State) :
    fixed τ (configDiscardWork c s).state = fixed τ s := by simp [configDiscardWork]

@[simp] theorem fixed_configUndoWork (c : Cmd) (s : State) : fixed τ (configUndoWork c s).state = fixed τ s := by
  simp [configUndoWork]

/-! ### Partitions: closing, draining, opening, rinses and joins -/

@[simp] theorem fixed_endQueued (t st : Nat) (s : State) : fixed τ (endQueued t st s) = fixed τ s := by
  simp [endQueued]

@[simp] theorem fixed_closePart (t : Nat) (s : State) : fixed τ (closePart t s) = fixed τ s := by simp [closePart]

@[simp] theorem fixed_openPart (t : Nat) (s : State) : fixed τ (openPart t s) = fixed τ s := by simp [openPart]

@[simp] theorem fixed_configDrainWork (c : Cmd) (s : State) : fixed τ (configDrainWork c s).state = fixed τ s := by
  simp [configDrainWork]

@[simp] theorem fixed_configOpenWork (c : Cmd) (s : State) : fixed τ (configOpenWork c s).state = fixed τ s := by
  simp [configOpenWork]

@[simp] theorem fixed_setColour (t : Nat) (col : BitVec 8) (s : State) (hc : τ.config = true) :
    fixed τ (setColour t col s) = fixed τ s := by simp [setColour, hc]

@[simp] theorem fixed_pushJob (j : FlashJob) (s : State) : fixed τ (pushJob j s) = fixed τ s := by simp [pushJob]

@[simp] theorem fixed_recordRinse (t : Nat) (s : State) : fixed τ (recordRinse t s) = fixed τ s := by
  simp [recordRinse]

@[simp] theorem fixed_finishAll (op : Nat) (l : List (Cmd × Nat)) (status : Nat) (result : List Byte) (s : State) :
    fixed τ (finishAll op l status result s) = fixed τ s := by simp [finishAll]

@[simp] theorem fixed_drainDone (t : Nat) (s : State) : fixed τ (drainDone t s) = fixed τ s := by
  fun_cases drainDone t s <;> simp +zetaDelta

@[simp] theorem fixed_drainTimeout (t : Nat) (s : State) : fixed τ (drainTimeout t s) = fixed τ s := by
  simp [drainTimeout]

@[simp] theorem fixed_startRinse (t : Nat) (cmds : List (Cmd × Nat)) (s : State) :
    fixed τ (startRinse t cmds s) = fixed τ s := by simp [startRinse]

@[simp] theorem fixed_partitionRinseWork (c : Cmd) (s : State) :
    fixed τ (partitionRinseWork c s).state = fixed τ s := by simp [partitionRinseWork]

@[simp] theorem fixed_rinseTimeout (t : Nat) (s : State) : fixed τ (rinseTimeout t s) = fixed τ s := by
  fun_cases rinseTimeout t s <;> simp +zetaDelta

@[simp] theorem fixed_rinseRecordFailed (t : Nat) (s : State) : fixed τ (rinseRecordFailed t s) = fixed τ s := by
  fun_cases rinseRecordFailed t s <;> simp

@[simp] theorem fixed_rinseRetry (t : Nat) (s : State) : fixed τ (rinseRetry t s) = fixed τ s := by
  fun_cases rinseRetry t s <;> simp

@[simp] theorem fixed_clearGrains (t : Nat) (s : State) (hs : τ.contents = true) :
    fixed τ (clearGrains t s) = fixed τ s := by simp [clearGrains, hs]

@[simp] theorem fixed_rotateColour (t : Nat) (s : State) (hs : τ.contents = true) (hc : τ.config = true) :
    fixed τ (rotateColour t s) = fixed τ s := by fun_cases rotateColour t s <;> simp +zetaDelta [hs, hc]

@[simp] theorem fixed_rinseFinish (t : Nat) (s : State) : fixed τ (rinseFinish t s) = fixed τ s := by
  simp [rinseFinish]

@[simp] theorem fixed_joinDone (t n x : Nat) (s : State) (hs : τ.contents = true) :
    fixed τ (joinDone t n x s) = fixed τ s := by simp [joinDone, hs]

@[simp] theorem fixed_rinseControlWork (c : Cmd) (s : State) : fixed τ (rinseControlWork c s).state = fixed τ s := by
  simp [rinseControlWork]

@[simp] theorem fixed_partitionInfoWork (c : Cmd) (s : State) :
    fixed τ (partitionInfoWork c s).state = fixed τ s := by simp [partitionInfoWork]

@[simp] theorem fixed_addressTranslateWork (c : Cmd) (s : State) :
    fixed τ (addressTranslateWork c s).state = fixed τ s := by fun_cases addressTranslateWork c s <;> simp

@[simp] theorem fixed_remapReadWork (c : Cmd) (s : State) : fixed τ (remapReadWork c s).state = fixed τ s := by
  simp [remapReadWork]

@[simp] theorem fixed_setBucket (t n : Nat) (b : Bucket) (s : State) : fixed τ (setBucket t n b s) = fixed τ s := by
  simp [setBucket]

@[simp] theorem fixed_regulatorStatusWork (c : Cmd) (s : State) :
    fixed τ (regulatorStatusWork c s).state = fixed τ s := by simp [regulatorStatusWork]

/-! ### What the outcome of a sector read does beside its data -/

@[simp] theorem fixed_advise (n pc bank row cause : Nat) (s : State) :
    fixed τ (advise n pc bank row cause s) = fixed τ s := by simp [advise]

@[simp] theorem fixed_referLane (fp lane : Nat) (s : State) : fixed τ (referLane fp lane s) = fixed τ s := by
  simp [referLane]

@[simp] theorem fixed_countLanes (fp rowKey : Nat) (lanes : List Nat) (s : State) :
    fixed τ (countLanes fp rowKey lanes s).1 = fixed τ s := by simp [countLanes]

@[simp] theorem fixed_trackRow (n pc bank row : Nat) (s : State) :
    fixed τ (trackRow n pc bank row s) = fixed τ s := by simp [trackRow]

@[simp] theorem fixed_countOutcome (q : Nat) (o : SectorOutcome) (s : State) :
    fixed τ (countOutcome q o s) = fixed τ s := by fun_cases countOutcome q o s <;> simp +zetaDelta

@[simp] theorem fixed_firstOfKind (t kind : Nat) (f : State → State) (s : State) (h : ∀ s, fixed τ (f s) = fixed τ s) :
    fixed τ (firstOfKind t kind f s) = fixed τ s := by simp [firstOfKind, h]

@[simp] theorem fixed_countTenant (b : ReadBy) (o : SectorOutcome) (s : State) :
    fixed τ (countTenant b o s) = fixed τ s := by fun_cases countTenant b o s <;> simp

@[simp] theorem fixed_readOutcome (b : ReadBy) (q : Nat) (o : SectorOutcome) (s : State) :
    fixed τ (readOutcome b q o s) = fixed τ s := by
  cases o with
  | corrected bad => cases b <;> simp [readOutcome]
  | mismatch => cases b <;> simp [readOutcome]
  | _ => simp [readOutcome]

@[simp] theorem fixed_overPoisonEvent (t ta q : Nat) (s : State) :
    fixed τ (overPoisonEvent t ta q s) = fixed τ s := by simp [overPoisonEvent]

@[simp] theorem fixed_poisonedWrite (q : Nat) (s : State) : fixed τ (poisonedWrite q s) = fixed τ s := by
  simp [poisonedWrite]

@[simp] theorem fixed_integrityStatusWork (c : Cmd) (s : State) :
    fixed τ (integrityStatusWork c s).state = fixed τ s := by simp [integrityStatusWork]

@[simp] theorem fixed_retirePendingWork (c : Cmd) (s : State) :
    fixed τ (retirePendingWork c s).state = fixed τ s := by simp [retirePendingWork]

@[simp] theorem fixed_adviseMapout (ch : Nat) (s : State) : fixed τ (adviseMapout ch s) = fixed τ s := by
  simp [adviseMapout]

@[simp] theorem fixed_retirePageWork (c : Cmd) (s : State) : fixed τ (retirePageWork c s).state = fixed τ s := by
  simp [retirePageWork]

@[simp] theorem fixed_retireWritten (c : Cmd) (n : Nat) (e : RetEntry) (s : State) :
    fixed τ (retireWritten c n e s) = fixed τ s := by simp [retireWritten]

@[simp] theorem fixed_retireListWork (c : Cmd) (s : State) : fixed τ (retireListWork c s).state = fixed τ s := by
  simp [retireListWork]

/-! ### Event counts, debits and job starts -/

@[simp] theorem fixed_countEv (e : Ev) (o : Origin) (unit n : Nat) (s : State) :
    fixed τ (countEv e o unit n s) = fixed τ s := by simp [countEv]

@[simp] theorem fixed_countMoved (o : Origin) (n k : Nat) (s : State) : fixed τ (countMoved o n k s) = fixed τ s := by
  simp [countMoved]

/-- An admitted debit is taken from the governor's allowances alone. -/
theorem fixed_of_allow {unit debit : Nat} {s t : State} (h : allow unit debit s = some t) : fixed τ t = fixed τ s := by
  obtain ⟨-, rfl⟩ := allow_some h
  simp

@[simp] theorem fixed_allowanceWait (s : State) : fixed τ (allowanceWait s) = fixed τ s := by simp [allowanceWait]

@[simp] theorem fixed_jobArrive (s : State) : fixed τ (jobArrive s).2 = fixed τ s := by fun_cases jobArrive s <;> simp

/-! ### Sending peer frames, and the mirrored writes -/

@[simp] theorem fixed_sendNow (k type : Nat) (f : Frame) (s : State) : fixed τ (sendNow k type f s) = fixed τ s := by
  simp [sendNow]

@[simp] theorem fixed_emitFrame (k type : Nat) (f : Frame) (s : State) :
    fixed τ (emitFrame k type f s) = fixed τ s := by simp [emitFrame]

@[simp] theorem fixed_ackSent (k c : Nat) (s : State) : fixed τ (ackSent k c s) = fixed τ s := by simp [ackSent]

@[simp] theorem fixed_sendPlain (k c type : Nat) (f : Frame) (s : State) :
    fixed τ (sendPlain k c type f s) = fixed τ s := by simp [sendPlain]

theorem fixed_of_linkAllow {f : Frame} {s t : State} (h : linkAllow f s = some t) : fixed τ t = fixed τ s := by
  unfold linkAllow at h
  split at h
  · cases h; rfl
  · exact fixed_of_allow h

@[simp] theorem fixed_pump (n k c : Nat) (s : State) : fixed τ (pump n k c s) = fixed τ s := by
  fun_induction pump n k c s with
  | case6 n s x hx e he hm s' hl fresh f s₁ s₂ ih => rw [ih]; simp +zetaDelta [fixed_of_linkAllow hl]
  | _ => simp

@[simp] theorem fixed_pumpAll (k c : Nat) (s : State) : fixed τ (pumpAll k c s) = fixed τ s := by simp [pumpAll]

@[simp] theorem fixed_connSend (k c type : Nat) (f : Frame) (s : State) :
    fixed τ (connSend k c type f s) = fixed τ s := by simp [connSend]

@[simp] theorem fixed_sendOpen (k c : Nat) (s : State) : fixed τ (sendOpen k c s) = fixed τ s := by simp [sendOpen]

@[simp] theorem fixed_descResult (h id st : Nat) (s : State) : fixed τ (descResult h id st s) = fixed τ s := by
  fun_cases descResult h id st s <;> simp

@[simp] theorem fixed_endOp (o : PeerOpState) (st : Nat) (s : State) : fixed τ (endOp o st s) = fixed τ s := by
  fun_cases endOp o st s <;> simp +zetaDelta

@[simp] theorem fixed_doHeld (a : HeldAct) (s : State) : fixed τ (doHeld a s) = fixed τ s := by
  fun_cases doHeld a s <;> simp

@[simp] theorem fixed_releaseHeld (t : Nat) (upTo : Option (BitVec 24)) (s : State) :
    fixed τ (releaseHeld t upTo s) = fixed τ s := by simp [releaseHeld]

@[simp] theorem fixed_mirrorFrame (type t ta : Nat) (sectors : List (List Byte × Bool)) (s : State) :
    fixed τ (mirrorFrame type t ta sectors s) = fixed τ s := by simp [mirrorFrame]

@[simp] theorem fixed_mirrorSend (t ta : Nat) (sectors : List (List Byte × Bool)) (s : State) :
    fixed τ (mirrorSend t ta sectors s) = fixed τ s := by simp [mirrorSend]

@[simp] theorem fixed_copyFrame (t ta : Nat) (first last : Bool) (sectors : List (List Byte × Bool)) (s : State) :
    fixed τ (copyFrame t ta first last sectors s) = fixed τ s := by simp [copyFrame]

@[simp] theorem fixed_sendOut (t : Nat) (o : MirrorOut) (s : State) : fixed τ (sendOut t o s) = fixed τ s := by
  fun_cases sendOut t o s <;> simp

@[simp] theorem fixed_settleReplies (t : Nat) (s : State) : fixed τ (settleReplies t s) = fixed τ s := by
  simp [settleReplies]

@[simp] theorem fixed_flushOut (n t : Nat) (s : State) : fixed τ (flushOut n t s) = fixed τ s := by
  fun_induction flushOut n t s <;> simp +zetaDelta [*]

@[simp] theorem fixed_flushMirror (t : Nat) (s : State) : fixed τ (flushMirror t s) = fixed τ s := by
  simp [flushMirror]

@[simp] theorem fixed_mirrorVisible (t : Nat) (o : MirrorOut) (s : State) :
    fixed τ (mirrorVisible t o s) = fixed τ s := by simp [mirrorVisible]

@[simp] theorem fixed_mirrorKnown (t req ta : Nat) (data : List Byte) (poison : Bool) (s : State) :
    fixed τ (mirrorKnown t req ta data poison s) = fixed τ s := by simp [mirrorKnown]

@[simp] theorem fixed_mirrorDrop (t req : Nat) (s : State) : fixed τ (mirrorDrop t req s) = fixed τ s := by
  simp [mirrorDrop]

@[simp] theorem fixed_afterMirror (t : Nat) (a : HeldAct) (s : State) : fixed τ (afterMirror t a s) = fixed τ s := by
  simp [afterMirror]

@[simp] theorem fixed_staleCopy (t : Nat) (s : State) : fixed τ (staleCopy t s) = fixed τ s := by simp [staleCopy]

@[simp] theorem fixed_staleOnStack (n : Nat) (s : State) : fixed τ (staleOnStack n s) = fixed τ s := by
  simp [staleOnStack]

@[simp] theorem fixed_mirrorAcked (a : BitVec 24) (s : State) : fixed τ (mirrorAcked a s) = fixed τ s := by
  simp [mirrorAcked]

@[simp] theorem fixed_ackTo (k c : Nat) (a : BitVec 24) (s : State) : fixed τ (ackTo k c a s) = fixed τ s := by
  simp [ackTo]

@[simp] theorem fixed_unreachable (k c : Nat) (s : State) : fixed τ (unreachable k c s) = fixed τ s := by
  simp [unreachable]

@[simp] theorem fixed_failConn (k c : Nat) (s : State) : fixed τ (failConn k c s) = fixed τ s := by simp [failConn]

@[simp] theorem fixed_reopen (k c : Nat) (s : State) : fixed τ (reopen k c s) = fixed τ s := by simp [reopen]

@[simp] theorem fixed_failPort (k : Nat) (s : State) : fixed τ (failPort k s) = fixed τ s := by simp [failPort]

/-! ### Memory as tenants, engines and peers reach it -/

@[simp] theorem fixed_accessEvent (t ta st : Nat) (s : State) : fixed τ (accessEvent t ta st s) = fixed τ s := by
  simp [accessEvent]

@[simp] theorem fixed_takeTokens (t n k : Nat) (s : State) : fixed τ (takeTokens t n k s) = fixed τ s := by
  simp [takeTokens]

@[simp] theorem fixed_countPot (ta n : Nat) (s : State) : fixed τ (countPot ta n s) = fixed τ s := by simp [countPot]

@[simp] theorem fixed_potUnitWrite (base : Nat) (data : List Byte) (mask : List Bool) (poison : Bool) (s : State)
    (hs : τ.contents = true) : fixed τ (potUnitWrite base data mask poison s) = fixed τ s := by
  simp [potUnitWrite, hs]

@[simp] theorem fixed_doneAfterMirror (t op : Nat) (c : Cmd) (st : Nat) (result : List Byte) (s : State) :
    fixed τ (doneAfterMirror t op c st result s) = fixed τ s := by simp [doneAfterMirror]

/-! ### Periodic calibration as other units meet it -/

@[simp] theorem fixed_countCal (n : Nat) (timing : Bool) (s : State) : fixed τ (countCal n timing s) = fixed τ s := by
  simp [countCal]

@[simp] theorem fixed_retryPush (fp : Nat) (c : RetryCmd) (s : State) : fixed τ (retryPush fp c s) = fixed τ s := by
  simp [retryPush]

@[simp] theorem fixed_prechargeAll (fp : Nat) (s : State) : fixed τ (prechargeAll fp s) = fixed τ s := by
  simp [prechargeAll]

@[simp] theorem fixed_startCal (fp : Nat) (forced : Bool) (s : State) :
    fixed τ (startCal fp forced s) = fixed τ s := by fun_cases startCal fp forced s <;> simp +zetaDelta

@[simp] theorem fixed_abandonCal (fp t : Nat) (s : State) : fixed τ (abandonCal fp t s) = fixed τ s := by
  simp [abandonCal]

@[simp] theorem fixed_moveForced (fp ticks : Nat) (s : State) : fixed τ (moveForced fp ticks s) = fixed τ s := by
  fun_cases moveForced fp ticks s <;> simp

@[simp] theorem fixed_chanAway (ch : Nat) (s : State) : fixed τ (chanAway ch s) = fixed τ s := by simp [chanAway]

@[simp] theorem fixed_chanBack (ch : Nat) (s : State) : fixed τ (chanBack ch s) = fixed τ s := by
  fun_cases chanBack ch s <;> simp +zetaDelta

@[simp] theorem fixed_windowCounts (fp : Nat) (s : State) : fixed τ (windowCounts fp s) = fixed τ s := by
  simp [windowCounts]

@[simp] theorem fixed_windowRetrained (ch : Nat) (s : State) : fixed τ (windowRetrained ch s) = fixed τ s := by
  simp [windowRetrained]

@[simp] theorem fixed_countWindowCal (ch : Nat) (s : State) : fixed τ (countWindowCal ch s) = fixed τ s := by
  simp [countWindowCal]

/-! ### The channel exerciser -/

@[simp] theorem fixed_exerAdvance (n v : Nat) (s : State) : fixed τ (exerAdvance n v s) = fixed τ s := by
  simp [exerAdvance]

@[simp] theorem fixed_hammerStart (n v : Nat) (s : State) : fixed τ (hammerStart n v s) = fixed τ s := by
  fun_cases hammerStart n v s <;> simp

@[simp] theorem fixed_exerCheck (n q : Nat) (stored pattern : List Byte) (s : State) :
    fixed τ (exerCheck n q stored pattern s) = fixed τ s := by
  fun_cases exerCheck n q stored pattern s <;> simp +zetaDelta

@[simp] theorem fixed_needRestore (n : Nat) (s : State) : fixed τ (needRestore n s) = fixed τ s := by
  simp [needRestore]

@[simp] theorem fixed_exerEnd (n reason : Nat) (s : State) : fixed τ (exerEnd n reason s) = fixed τ s := by
  simp [exerEnd]

@[simp] theorem fixed_exerStartWork (c : Cmd) (s : State) : fixed τ (exerStartWork c s).state = fixed τ s := by
  simp [exerStartWork]

@[simp] theorem fixed_exerStopWork (c : Cmd) (s : State) : fixed τ (exerStopWork c s).state = fixed τ s := by
  simp [exerStopWork]

@[simp] theorem fixed_exerStatusWork (c : Cmd) (s : State) : fixed τ (exerStatusWork c s).state = fixed τ s := by
  simp [exerStatusWork]

@[simp] theorem fixed_exerCaptureReadWork (c : Cmd) (s : State) :
    fixed τ (exerCaptureReadWork c s).state = fixed τ s := by simp [exerCaptureReadWork]

/-! ### Sleeping channels -/

@[simp] theorem fixed_countAbort (ch : Nat) (s : State) : fixed τ (countAbort ch s) = fixed τ s := by
  simp [countAbort]

/-! ### Accesses and their requests -/

@[simp] theorem fixed_readCompletion (k tag off len : Nat) (got : List (Nat × List Byte × Bool)) (s : State) :
    fixed τ (readCompletion k tag off len got s) = fixed τ s := by simp [readCompletion]

@[simp] theorem fixed_failTlp (k tag : Nat) (write : Bool) (st : TlpStatus) (s : State) :
    fixed τ (failTlp k tag write st s) = fixed τ s := by simp [failTlp]

@[simp] theorem fixed_dropAccess (id : Nat) (s : State) : fixed τ (dropAccess id s) = fixed τ s := by
  simp [dropAccess]

@[simp] theorem fixed_modAccess (id : Nat) (f : Access → Access) (s : State) :
    fixed τ (modAccess id f s) = fixed τ s := by simp [modAccess]

@[simp] theorem fixed_dropReq (id : Nat) (s : State) : fixed τ (dropReq id s) = fixed τ s := by simp [dropReq]

@[simp] theorem fixed_modReq (id : Nat) (f : Req → Req) (s : State) : fixed τ (modReq id f s) = fixed τ s := by
  simp [modReq]

@[simp] theorem fixed_accessDone (a : Access) (s : State) : fixed τ (accessDone a s) = fixed τ s := by
  simp [accessDone]

@[simp] theorem fixed_sectorOutcome (id : Nat) (unit : Option (Nat × List Byte × Bool)) (outcome : Nat) (s : State) :
    fixed τ (sectorOutcome id unit outcome s) = fixed τ s := by fun_cases sectorOutcome id unit outcome s <;> simp

@[simp] theorem fixed_sectorServed (id : Nat) (unit : Option (Nat × List Byte × Bool)) (s : State) :
    fixed τ (sectorServed id unit s) = fixed τ s := by simp [sectorServed]

@[simp] theorem fixed_endAccess (id st : Nat) (s : State) : fixed τ (endAccess id st s) = fixed τ s := by
  fun_cases endAccess id st s <;> simp +zetaDelta

@[simp] theorem fixed_pushReq (r : Req) (s : State) : fixed τ (pushReq r s) = fixed τ s := by simp [pushReq]

@[simp] theorem fixed_takeId (s : State) : fixed τ (takeId s) = fixed τ s := by simp [takeId]

@[simp] theorem fixed_countHeldEnd (t : Nat) (s : State) : fixed τ (countHeldEnd t s) = fixed τ s := by
  simp [countHeldEnd]

@[simp] theorem fixed_bar4Access (k tag off len : Nat) (write : Bool) (data : List Byte) (ep : Bool) (s : State) :
    fixed τ (bar4Access k tag off len write data ep s) = fixed τ s := by
  fun_cases bar4Access k tag off len write data ep s <;> simp +zetaDelta

@[simp] theorem fixed_potAtomic (o n : Nat) (op : AtomicOp) (s : State) (hs : τ.contents = true) :
    fixed τ (potAtomic o n op s).2 = fixed τ s := by
  fun_cases potAtomic o n op s <;> simp +zetaDelta [hs]

@[simp] theorem fixed_potHostWrite (t off : Nat) (data : List Byte) (ep : Bool) (s : State) (hs : τ.contents = true) :
    fixed τ (potHostWrite t off data ep s) = fixed τ s := by
  refine (fixed_foldl _ _ _ fun s u => ?_).trans (fixed_countPot _ _ s)
  split <;> simp [hs]

@[simp] theorem fixed_potPerform (k tag off len : Nat) (write : Bool) (data : List Byte) (ep : Bool)
    (op : Option (AtomicOp × Nat)) (s : State) (hs : τ.contents = true) :
    fixed τ (potPerform k tag off len write data ep op s) = fixed τ s := by
  fun_cases potPerform k tag off len write data ep op s <;> simp +zetaDelta [hs]

@[simp] theorem fixed_potHold (k tag off len : Nat) (write : Bool) (data : List Byte) (ep : Bool)
    (op : Option (AtomicOp × Nat)) (place : ReqPlace) (s : State) :
    fixed τ (potHold k tag off len write data ep op place s) = fixed τ s := by simp [potHold]

@[simp] theorem fixed_pushAccess (o : Owner) (t ta len n : Nat) (write : Bool) (s : State) :
    fixed τ (pushAccess o t ta len n write s) = fixed τ s := by simp [pushAccess]

@[simp] theorem fixed_ask (a : Ask) (s : State) : fixed τ (ask a s) = fixed τ s := by simp [ask]

@[simp] theorem fixed_askAtomic (o : Owner) (t port ta n : Nat) (op : AtomicOp) (s : State) :
    fixed τ (askAtomic o t port ta n op s) = fixed τ s := by simp [askAtomic]

@[simp] theorem fixed_askReduce (o : Owner) (t port ta op srcFmt potFmt : Nat) (src : List Byte)
    (coll : Option (BitVec 32)) (s : State) :
    fixed τ (askReduce o t port ta op srcFmt potFmt src coll s) = fixed τ s := by simp [askReduce]

@[simp] theorem fixed_dropOwner (o : Owner) (s : State) : fixed τ (dropOwner o s) = fixed τ s := by simp [dropOwner]

@[simp] theorem fixed_potElement (o op srcFmt src potFmt : Nat) (s : State) (hs : τ.contents = true) :
    fixed τ (potElement o op srcFmt src potFmt s).2 = fixed τ s := by
  fun_cases potElement o op srcFmt src potFmt s <;> simp +zetaDelta [hs]

@[simp] theorem fixed_potElements (o op srcFmt potFmt : Nat) (src : List Byte) (s : State) (hs : τ.contents = true) :
    fixed τ (potElements o op srcFmt potFmt src s).2 = fixed τ s :=
  fixed_foldl_snd _ _ _ fun x i => by simp [hs]

@[simp] theorem fixed_potSector (r : Req) (o b : Nat) (s : State) (hs : τ.contents = true) :
    fixed τ (potSector r o b s) = fixed τ s := by simp [potSector, hs]

@[simp] theorem fixed_potServe (r : Req) (s : State) (hs : τ.contents = true) : fixed τ (potServe r s) = fixed τ s := by
  fun_cases potServe r s <;> simp +zetaDelta [hs]

@[simp] theorem fixed_regulatorAdmit (id : Nat) (s : State) : fixed τ (regulatorAdmit id s) = fixed τ s := by
  fun_cases regulatorAdmit id s <;> simp

@[simp] theorem fixed_heldTimeout (id : Nat) (s : State) : fixed τ (heldTimeout id s) = fixed τ s := by
  fun_cases heldTimeout id s <;> simp

/-! ### The reorder queue and the command slot -/

@[simp] theorem fixed_joinSector (b : Nat) (x : Req × State) : fixed τ (joinSector b x).2 = fixed τ x.2 := by
  fun_cases joinSector b x <;> simp +zetaDelta

@[simp] theorem fixed_enterQueue (r : Req) (s : State) : fixed τ (enterQueue r s) = fixed τ s := by simp [enterQueue]

@[simp] theorem fixed_queueEntry (id : Nat) (s : State) : fixed τ (queueEntry id s) = fixed τ s := by
  fun_cases queueEntry id s <;> simp +zetaDelta

@[simp] theorem fixed_offence (fp bank requester : Nat) (s : State) :
    fixed τ (offence fp bank requester s) = fixed τ s := by simp [offence]

@[simp] theorem fixed_countActivate (fp bank row requester : Nat) (origin : Origin) (s : State) :
    fixed τ (countActivate fp bank row requester origin s) = fixed τ s := by simp [countActivate]

@[simp] theorem fixed_activate (fp bank row requester : Nat) (origin : Origin) (s : State) :
    fixed τ (activate fp bank row requester origin s) = fixed τ s := by simp [activate]

@[simp] theorem fixed_precharge (fp bank : Nat) (s : State) : fixed τ (precharge fp bank s) = fixed τ s := by
  simp [precharge]

@[simp] theorem fixed_neighbourRefresh (fp : Nat) (s : State) : fixed τ (neighbourRefresh fp s) = fixed τ s := by
  fun_cases neighbourRefresh fp s <;> simp +zetaDelta

@[simp] theorem fixed_noteOffences (fp : Nat) (ready : List Nat) (s : State) :
    fixed τ (noteOffences fp ready s) = fixed τ s := by simp [noteOffences]

@[simp] theorem fixed_qosDone (t port n stamp target : Nat) (s : State) :
    fixed τ (qosDone t port n stamp target s) = fixed τ s := by simp [qosDone]

@[simp] theorem fixed_reqCompletes (r : Req) (s : State) : fixed τ (reqCompletes r s) = fixed τ s := by
  simp [reqCompletes]

@[simp] theorem fixed_countColumn (fp : Nat) (s : State) : fixed τ (countColumn fp s) = fixed τ s := by
  simp [countColumn]

@[simp] theorem fixed_countUser (r : Req) (write : Bool) (s : State) : fixed τ (countUser r write s) = fixed τ s := by
  simp [countUser]

@[simp] theorem fixed_issueRead (r : Req) (b : Nat) (s : State) : fixed τ (issueRead r b s) = fixed τ s := by
  simp [issueRead]

@[simp] theorem fixed_issueWrite (r : Req) (b : Nat) (s : State) (hs : τ.contents = true) :
    fixed τ (issueWrite r b s) = fixed τ s := by simp [issueWrite, hs]

@[simp] theorem fixed_issueColumn (fp : Nat) (r : Req) (s : State) (hs : τ.contents = true) :
    fixed τ (issueColumn fp r s) = fixed τ s := by simp [issueColumn, hs]

@[simp] theorem fixed_issueFor (fp : Nat) (r : Req) (s : State) (hs : τ.contents = true) :
    fixed τ (issueFor fp r s) = fixed τ s := by fun_cases issueFor fp r s <;> simp [hs]

@[simp] theorem fixed_setDirection (fp : Nat) (write : Bool) (s : State) :
    fixed τ (setDirection fp write s) = fixed τ s := by simp [setDirection]

@[simp] theorem fixed_spareAdmit (fp : Nat) (s : State) : fixed τ (spareAdmit fp s) = fixed τ s := by
  fun_cases spareAdmit fp s <;> simp

@[simp] theorem fixed_heldBack (fp bank requester : Nat) (s : State) :
    fixed τ (heldBack fp bank requester s) = fixed τ s := by simp [heldBack]

@[simp] theorem fixed_openFor (fp bank row requester : Nat) (origin : Origin) (s : State) :
    fixed τ (openFor fp bank row requester origin s).2 = fixed τ s := by
  fun_cases openFor fp bank row requester origin s <;> simp

@[simp] theorem fixed_exerColumn (fp bank : Nat) (last : Bool) (s : State) :
    fixed τ (exerColumn fp bank last s) = fixed τ s := by simp [exerColumn]

@[simp] theorem fixed_exerRetry (fp : Nat) (p : Nat × Nat × Nat × Nat) (kind : Nat) (data : List Byte) (last : Bool)
    (s : State) : fixed τ (exerRetry fp p kind data last s) = fixed τ s := by simp [exerRetry]

@[simp] theorem fixed_exerSlot (fp : Nat) (s : State) (hs : τ.contents = true) :
    fixed τ (exerSlot fp s) = fixed τ s := by
  fun_cases exerSlot fp s with
  | case4 | case8 | case11 => simp +zetaDelta [fixed_of_allow ‹allow _ _ _ = some _›, hs]
  | _ => simp +zetaDelta

@[simp] theorem fixed_cosyCount (power : Nat) (s : State) : fixed τ (cosyCount power s) = fixed τ s := by
  simp [cosyCount]

@[simp] theorem fixed_cosySlot (fp : Nat) (s : State) : fixed τ (cosySlot fp s) = fixed τ s := by simp [cosySlot]

@[simp] theorem fixed_idleSlot (fp : Nat) (exerReady cosyReady : Bool) (s : State) (hs : τ.contents = true) :
    fixed τ (idleSlot fp exerReady cosyReady s) = fixed τ s := by simp [idleSlot, hs]

@[simp] theorem fixed_ownSlot (fp : Nat) (ready : List Nat) (exerReady cosyReady : Bool) (s : State)
    (hs : τ.contents = true) : fixed τ (ownSlot fp ready exerReady cosyReady s) = fixed τ s := by
  fun_cases ownSlot fp ready exerReady cosyReady s <;> simp +zetaDelta [hs]

@[simp] theorem fixed_commandSlot (fp : Nat) (ready : List Nat) (exerReady cosyReady : Bool) (s : State)
    (hs : τ.contents = true) : fixed τ (commandSlot fp ready exerReady cosyReady s) = fixed τ s := by
  simp [commandSlot, hs]

/-! ### The return of a sector's data -/

@[simp] theorem fixed_dropFlight (id : Nat) (s : State) : fixed τ (dropFlight id s) = fixed τ s := by
  simp [dropFlight]

@[simp] theorem fixed_readLeaves (id : Nat) (s : State) : fixed τ (readLeaves id s) = fixed τ s := by
  fun_cases readLeaves id s <;> simp

@[simp] theorem fixed_writeBack (f : Flight) (stored : List Byte) (o : SectorOutcome) (s : State) :
    fixed τ (writeBack f stored o s) = fixed τ s := by fun_cases writeBack f stored o s <;> simp

@[simp] theorem fixed_deliver (f : Flight) (u : List Byte × Bool) (s : State) :
    fixed τ (deliver f u s) = fixed τ s := by simp [deliver]

@[simp] theorem fixed_userReturn (f : Flight) (stored : List Byte) (s : State) :
    fixed τ (userReturn f stored s) = fixed τ s := by simp [userReturn]

@[simp] theorem fixed_writeOver (f : Flight) (r : Req) (s : State) : fixed τ (writeOver f r s) = fixed τ s := by
  simp [writeOver]

@[simp] theorem fixed_halfReturn (f : Flight) (stored : List Byte) (s : State) :
    fixed τ (halfReturn f stored s) = fixed τ s := by
  simp only [halfReturn, fixed_readLeaves]
  split
  · simp
  · split
    · simp only [fixed_ite, fixed_writeOver, ite_self]
      split <;> simp
    · split <;> simp

@[simp] theorem fixed_cosyReturn (q : Nat) (stored : List Byte) (s : State) :
    fixed τ (cosyReturn q stored s) = fixed τ s := by fun_cases cosyReturn q stored s <;> simp +zetaDelta

theorem fixed_of_scrubOpen_open {fp bank row t : Nat} {s s' : State} (h : scrubOpen.open? fp bank row t s = some s') :
    fixed τ s' = fixed τ s := by
  unfold scrubOpen.open? at h
  split at h
  · cases h; simp
  · cases h

theorem fixed_of_scrubOpen {fp bank row t : Nat} {s s' : State} (h : scrubOpen fp bank row t s = some s') :
    fixed τ s' = fixed τ s := by
  unfold scrubOpen at h
  split at h
  · split at h
    · cases h; rfl
    · simpa using fixed_of_scrubOpen_open (τ := τ) h
  · exact fixed_of_scrubOpen_open h

@[simp] theorem fixed_scrubColumn (fp q kind : Nat) (data : List Byte) (s : State) :
    fixed τ (scrubColumn fp q kind data s) = fixed τ s := by simp [scrubColumn]

@[simp] theorem fixed_scrubReturn (q : Nat) (flips : List (Nat × Byte)) (s : State) (hs : τ.contents = true) :
    fixed τ (scrubReturn q flips s) = fixed τ s := by
  fun_cases scrubReturn q flips s with
  | case1 | case2 | case3 => rfl
  | _ => simp +zetaDelta [fixed_of_scrubOpen ‹scrubOpen _ _ _ _ _ = some _›, hs]

@[simp] theorem fixed_potTurn (w : Nat) (bits : List (Nat × Nat)) (s : State) (hs : τ.contents = true) :
    fixed τ (potTurn w bits s) = fixed τ s := by simp [potTurn, hs]

@[simp] theorem fixed_potCorrected (w : Nat) (s : State) (hs : τ.contents = true) :
    fixed τ (potCorrected w s) = fixed τ s := by simp [potCorrected, hs]

@[simp] theorem fixed_potReturn (w : Nat) (flips : List (Nat × Byte)) (s : State) (hs : τ.contents = true) :
    fixed τ (potReturn w flips s) = fixed τ s := by fun_cases potReturn w flips s <;> simp +zetaDelta [hs]

@[simp] theorem fixed_flightReturn (id : Nat) (flips : List (Nat × Byte)) (s : State) :
    fixed τ (flightReturn id flips s) = fixed τ s := by fun_cases flightReturn id flips s <;> simp +zetaDelta

@[simp] theorem fixed_readReturn (src : ReadSrc) (flips : List (Nat × Byte)) (s : State) (hs : τ.contents = true) :
    fixed τ (readReturn src flips s) = fixed τ s := by fun_cases readReturn src flips s <;> simp [hs]

@[simp] theorem fixed_poisonInjectWork (c : Cmd) (s : State) : fixed τ (poisonInjectWork c s).state = fixed τ s := by
  fun_cases poisonInjectWork c s <;> simp

@[simp] theorem fixed_injectDone (c : Cmd) (s : State) : fixed τ (injectDone c s) = fixed τ s := by
  fun_cases injectDone c s <;> simp

/-! ### Pours -/

@[simp] theorem fixed_configPourWork (c : Cmd) (s : State) : fixed τ (configPourWork c s).state = fixed τ s := by
  simp [configPourWork]

@[simp] theorem fixed_popPour (r : PourReq) (s : State) : fixed τ (popPour r s) = fixed τ s := by simp [popPour]

@[simp] theorem fixed_startPour (p : Pour) (s : State) : fixed τ (startPour p s) = fixed τ s := by simp [startPour]

@[simp] theorem fixed_acceptPour (r : PourReq) (set : Table (List Nat)) (s : State) :
    fixed τ (acceptPour r set s) = fixed τ s := by simp [acceptPour]

@[simp] theorem fixed_pourAccept (s : State) : fixed τ (pourAccept s) = fixed τ s := by
  fun_cases pourAccept s <;> simp

@[simp] theorem fixed_recordWritten (p : Pour) (s : State) : fixed τ (recordWritten p s) = fixed τ s := by
  simp [recordWritten]

@[simp] theorem fixed_recordFailed (p : Pour) (s : State) : fixed τ (recordFailed p s) = fixed τ s := by
  simp [recordFailed]

@[simp] theorem fixed_putForce (e : Nat × List Nat) (s : State) (hc : τ.config = true) :
    fixed τ (putForce e s) = fixed τ s := by simp [putForce, hc]

@[simp] theorem fixed_putForces (l : Table (List Nat)) (s : State) (hc : τ.config = true) :
    fixed τ (putForces l s) = fixed τ s := by simp [putForces, hc]

@[simp] theorem fixed_extentsSwitched (t n : Nat) (old new : List Nat) (s : State) :
    fixed τ (extentsSwitched t n old new s) = fixed τ s := by simp [extentsSwitched]

@[simp] theorem fixed_colourSwitched (t : Nat) (s : State) (hs : τ.contents = true) :
    fixed τ (colourSwitched t s) = fixed τ s := by simp [colourSwitched, hs]

@[simp] theorem fixed_classDHook (s0 : State) (e : Nat × List Nat) (s : State) (hs : τ.contents = true) :
    fixed τ (classDHook s0 e s) = fixed τ s := by fun_cases classDHook s0 e s <;> simp [hs]

@[simp] theorem fixed_heavyAll (k : Nat) (s : State) : fixed τ (heavyAll k s) = fixed τ s := by simp [heavyAll]

@[simp] theorem fixed_classDSwitch (k : Nat) (p : Pour) (s : State) (hs : τ.contents = true) (hc : τ.config = true) :
    fixed τ (classDSwitch k p s) = fixed τ s := by simp [classDSwitch, hs, hc]

@[simp] theorem fixed_dumpsCleared (e : Nat × List Nat) (s : State) : fixed τ (dumpsCleared e s) = fixed τ s := by
  simp [dumpsCleared]

@[simp] theorem fixed_ringSwitched (s : State) : fixed τ (ringSwitched s) = fixed τ s := by simp [ringSwitched]

@[simp] theorem fixed_limitsSwitched (p : Pour) (set : Table (List Nat)) (s : State) :
    fixed τ (limitsSwitched p set s) = fixed τ s := by simp [limitsSwitched]

@[simp] theorem fixed_hubSwitch (p : Pour) (s : State) (hc : τ.config = true) :
    fixed τ (hubSwitch p s) = fixed τ s := by simp [hubSwitch, hc]

@[simp] theorem fixed_unitHook (e : Nat × List Nat) (old : List Nat) (s : State) :
    fixed τ (unitHook e old s) = fixed τ s := by fun_cases unitHook e old s <;> simp

@[simp] theorem fixed_unitSwitch (p : Pour) (u : Nat) (s : State) (hc : τ.config = true) :
    fixed τ (unitSwitch p u s) = fixed τ s := by simp [unitSwitch, hc]

@[simp] theorem fixed_unitsWork (d k units : Nat) (p : Pour) (s : State) (hc : τ.config = true) :
    fixed τ (unitsWork d k units p s) = fixed τ s := by simp [unitsWork, hc]

@[simp] theorem fixed_pourWork (d k units : Nat) (s : State) (hs : τ.contents = true) (hc : τ.config = true) :
    fixed τ (pourWork d k units s) = fixed τ s := by
  unfold pourWork
  extract_lets s₁ s₂
  have h₁ : fixed τ s₁ = fixed τ s := by unfold s₁; split <;> simp [hs, hc]
  have h₂ : fixed τ s₂ = fixed τ s₁ := by unfold s₂; split <;> simp [hc]
  rw [← h₁, ← h₂]
  split <;> simp [hc]

@[simp] theorem fixed_pourFlush (s : State) (hs : τ.contents = true) (hc : τ.config = true) :
    fixed τ (pourFlush s) = fixed τ s := by
  unfold pourFlush
  extract_lets s₁ s₂
  have h₁ : fixed τ s₁ = fixed τ s := by unfold s₁; split <;> simp [hs, hc]
  have h₂ : fixed τ s₂ = fixed τ s₁ := by unfold s₂; split <;> simp [hc]
  rw [← h₁, ← h₂]
  split <;> simp [hc]

@[simp] theorem fixed_openAffected (p : Pour) (s : State) : fixed τ (openAffected p s) = fixed τ s := by
  simp [openAffected]

@[simp] theorem fixed_endPour (p : Pour) (s : State) : fixed τ (endPour p s) = fixed τ s := by simp [endPour]

@[simp] theorem fixed_pourComplete (s : State) : fixed τ (pourComplete s) = fixed τ s := by
  fun_cases pourComplete s <;> simp +zetaDelta

@[simp] theorem fixed_storeCompact (s : State) : fixed τ (storeCompact s) = fixed τ s := by simp [storeCompact]

/-! ### The kettle governor -/

@[simp] theorem fixed_makeRoom (s : State) : fixed τ (makeRoom s) = fixed τ s := by simp [makeRoom]

@[simp] theorem fixed_spreadCosy (power : Nat) (s : State) : fixed τ (spreadCosy power s) = fixed τ s := by
  simp [spreadCosy]

@[simp] theorem fixed_slewEvent (p cause : Nat) (s : State) : fixed τ (slewEvent p cause s) = fixed τ s := by
  simp [slewEvent]

@[simp] theorem fixed_countEnergy (p mand cosy user : Nat) (counts : Table Nat) (s : State) :
    fixed τ (countEnergy p mand cosy user counts s) = fixed τ s := by simp [countEnergy]

@[simp] theorem fixed_quiesceReached (level : Nat) (s : State) : fixed τ (quiesceReached level s) = fixed τ s := by
  fun_cases quiesceReached level s <;> simp

@[simp] theorem fixed_latchRequest (want : Nat) (s : State) : fixed τ (latchRequest want s) = fixed τ s := by
  simp [latchRequest]

@[simp] theorem fixed_followOld (c : Closed) (missing : List Nat) (recover : Bool) (s : State) (hc : τ.config = true) :
    fixed τ (followOld c missing recover s) = fixed τ s := by simp [followOld, hc]

@[simp] theorem fixed_setEnvelope (e fix mand user : Nat) (recover : Bool) (s : State) :
    fixed τ (setEnvelope e fix mand user recover s) = fixed τ s := by simp [setEnvelope]

@[simp] theorem fixed_noteExcess (ex : Nat) (s : State) : fixed τ (noteExcess ex s) = fixed τ s := by
  simp [noteExcess]

@[simp] theorem fixed_noteShortfall (sh : Nat) (s : State) : fixed τ (noteShortfall sh s) = fixed τ s := by
  simp [noteShortfall]

@[simp] theorem fixed_governorWork (c : Closed) (missing : List Nat) (s : State) (hc : τ.config = true) :
    fixed τ (governorWork c missing s) = fixed τ s := by simp [governorWork, hc]

/-! ### Refresh, row disturbance and self-refresh -/

@[simp] theorem fixed_refreshPc (fp : Nat) (s : State) : fixed τ (refreshPc fp s) = fixed τ s := by simp [refreshPc]

@[simp] theorem fixed_refreshInstant (fp : Nat) (ready : List Nat) (s : State) :
    fixed τ (refreshInstant fp ready s) = fixed τ s := by fun_cases refreshInstant fp ready s <;> simp +zetaDelta

@[simp] theorem fixed_srEnter (ch : Nat) (keepAll : Bool) (s : State) :
    fixed τ (srEnter ch keepAll s) = fixed τ s := by simp [srEnter]

@[simp] theorem fixed_sleepReached (n : Nat) (s : State) : fixed τ (sleepReached n s) = fixed τ s := by
  fun_cases sleepReached n s <;> simp +zetaDelta

@[simp] theorem fixed_dozeReached (s : State) : fixed τ (dozeReached s) = fixed τ s := by simp [dozeReached]

@[simp] theorem fixed_repay (fp : Nat) (s : State) : fixed τ (repay fp s) = fixed τ s := by simp [repay]

@[simp] theorem fixed_slotOrRepay (fp : Nat) (ready : List Nat) (exerReady cosyReady : Bool) (s : State)
    (hs : τ.contents = true) : fixed τ (slotOrRepay fp ready exerReady cosyReady s) = fixed τ s := by
  simp [slotOrRepay, hs]

@[simp] theorem fixed_selfRefreshEntry (ch : Nat) (s : State) : fixed τ (selfRefreshEntry ch s) = fixed τ s := by
  simp [selfRefreshEntry]

@[simp] theorem fixed_selfRefreshExit (ch : Nat) (s : State) : fixed τ (selfRefreshExit ch s) = fixed τ s := by
  simp [selfRefreshExit]

@[simp] theorem fixed_joinLost (n mask : Nat) (s : State) : fixed τ (joinLost n mask s) = fixed τ s := by
  simp [joinLost]

@[simp] theorem fixed_wakeDone (n : Nat) (s : State) : fixed τ (wakeDone n s) = fixed τ s := by simp [wakeDone]

@[simp] theorem fixed_wakeReached (n : Nat) (s : State) : fixed τ (wakeReached n s) = fixed τ s := by
  simp [wakeReached]

@[simp] theorem fixed_pcAwake (fp : Nat) (s : State) : fixed τ (pcAwake fp s) = fixed τ s := by simp [pcAwake]

@[simp] theorem fixed_chanAwake (ch : Nat) (s : State) : fixed τ (chanAwake ch s) = fixed τ s := by simp [chanAwake]

@[simp] theorem fixed_selfRefreshExitDone (ch : Nat) (s : State) :
    fixed τ (selfRefreshExitDone ch s) = fixed τ s := by simp [selfRefreshExitDone]

@[simp] theorem fixed_stackSleepWork (c : Cmd) (s : State) : fixed τ (stackSleepWork c s).state = fixed τ s := by
  fun_cases stackSleepWork c s <;> simp

@[simp] theorem fixed_stackWakeWork (c : Cmd) (s : State) : fixed τ (stackWakeWork c s).state = fixed τ s := by
  fun_cases stackWakeWork c s <;> simp +zetaDelta

@[simp] theorem fixed_refreshStatusWork (c : Cmd) (s : State) :
    fixed τ (refreshStatusWork c s).state = fixed τ s := by simp [refreshStatusWork]

@[simp] theorem fixed_disturbStatusWork (c : Cmd) (s : State) :
    fixed τ (disturbStatusWork c s).state = fixed τ s := by simp [disturbStatusWork]

@[simp] theorem fixed_lowpowerStatusWork (c : Cmd) (s : State) :
    fixed τ (lowpowerStatusWork c s).state = fixed τ s := by simp [lowpowerStatusWork]

/-! ### What resets and losses have in common -/

@[simp] theorem fixed_stackToSelfRefresh (n : Nat) (s : State) : fixed τ (stackToSelfRefresh n s) = fixed τ s := by
  simp [stackToSelfRefresh]

@[simp] theorem fixed_allToSelfRefresh (s : State) : fixed τ (allToSelfRefresh s) = fixed τ s := by
  simp [allToSelfRefresh]

@[simp] theorem fixed_forgetHeld (s : State) : fixed τ (forgetHeld s) = fixed τ s := by simp [forgetHeld]

@[simp] theorem fixed_endWork (s : State) : fixed τ (endWork s) = fixed τ s := by simp [endWork]

@[simp] theorem fixed_collapse (h : Halt) (s : State) : fixed τ (collapse h s) = fixed τ s := by simp [collapse]

@[simp] theorem fixed_recordLost (s : State) : fixed τ (recordLost s) = fixed τ s := by simp [recordLost]

/-! ### Heat -/

@[simp] theorem fixed_modColl (n : Nat) (id : BitVec 32) (f : Coll → Coll) (s : State) :
    fixed τ (modColl n id f s) = fixed τ s := by simp [modColl]

@[simp] theorem fixed_collStart (n : Nat) (id : BitVec 32) (t k : Nat) (s : State) :
    fixed τ (collStart n id t k s) = fixed τ s := by simp [collStart]

@[simp] theorem fixed_collEnd (n : Nat) (id : BitVec 32) (k : Nat) (s : State) :
    fixed τ (collEnd n id k s) = fixed τ s := by simp [collEnd]

@[simp] theorem fixed_adviceFrames (rcd : List Byte) (s : State) : fixed τ (adviceFrames rcd s) = fixed τ s := by
  simp [adviceFrames]

@[simp] theorem fixed_latenessAdvisory (n : Nat) (id : BitVec 32) (s : State) :
    fixed τ (latenessAdvisory n id s) = fixed τ s := by fun_cases latenessAdvisory n id s <;> simp +zetaDelta

@[simp] theorem fixed_noteLateness (n : Nat) (changed : Bool) (s : State) :
    fixed τ (noteLateness n changed s) = fixed τ s := by simp [noteLateness]

@[simp] theorem fixed_heatChanged (n : Nat) (s : State) : fixed τ (heatChanged n s) = fixed τ s := by
  simp [heatChanged]

@[simp] theorem fixed_setHeat (n : Nat) (heat : Heat) (step : Nat) (s : State) :
    fixed τ (setHeat n heat step s) = fixed τ s := by simp [setHeat]

@[simp] theorem fixed_scaldCut (n : Nat) (s : State) : fixed τ (scaldCut n s) = fixed τ s := by simp [scaldCut]

@[simp] theorem fixed_heatSample (n : Nat) (t : Int) (s : State) : fixed τ (heatSample n t s) = fixed τ s := by
  fun_cases heatSample n t s <;> simp +zetaDelta

@[simp] theorem fixed_setWarmNext (n : Nat) (s : State) : fixed τ (setWarmNext n s) = fixed τ s := by
  simp [setWarmNext]

@[simp] theorem fixed_validSample (n : Nat) (t : Int) (s : State) : fixed τ (validSample n t s) = fixed τ s := by
  simp [validSample]

@[simp] theorem fixed_failedSample (n : Nat) (s : State) : fixed τ (failedSample n s) = fixed τ s := by
  simp [failedSample]

@[simp] theorem fixed_thermalSample (n : Nat) (readings : List Int) (s : State) :
    fixed τ (thermalSample n readings s) = fixed τ s := by
  unfold thermalSample
  split
  · rfl
  · rw [fixed_setWarmNext]
    split <;> simp

@[simp] theorem fixed_countAborted (n : Nat) (coll : Option (BitVec 32)) (s : State) :
    fixed τ (countAborted n coll s) = fixed τ s := by fun_cases countAborted n coll s <;> simp +zetaDelta

@[simp] theorem fixed_abortAccess (n id : Nat) (s : State) : fixed τ (abortAccess n id s) = fixed τ s := by
  simp [abortAccess]

@[simp] theorem fixed_abortRequest (id : Nat) (s : State) : fixed τ (abortRequest id s) = fixed τ s := by
  fun_cases abortRequest id s <;> simp

@[simp] theorem fixed_hubTrip (s : State) : fixed τ (hubTrip s) = fixed τ s := by simp [hubTrip]

@[simp] theorem fixed_hubSample (sensors : List Int) (s : State) : fixed τ (hubSample sensors s) = fixed τ s := by
  simp [hubSample]

@[simp] theorem fixed_hubThrottleStep (s : State) : fixed τ (hubThrottleStep s) = fixed τ s := by
  simp [hubThrottleStep]

@[simp] theorem fixed_hubRecoveryStep (s : State) : fixed τ (hubRecoveryStep s) = fixed τ s := by
  fun_cases hubRecoveryStep s <;> simp

@[simp] theorem fixed_thermalStatusWork (c : Cmd) (s : State) :
    fixed τ (thermalStatusWork c s).state = fixed τ s := by simp [thermalStatusWork]

@[simp] theorem fixed_latenessStatusWork (c : Cmd) (s : State) :
    fixed τ (latenessStatusWork c s).state = fixed τ s := by simp [latenessStatusWork]

/-! ### Issuing peer operations -/

@[simp] theorem fixed_sendFrames (k c type : Nat) (fs : List Frame) (s : State) :
    fixed τ (sendFrames k c type fs s) = fixed τ s := by simp [sendFrames]

@[simp] theorem fixed_issueOp (q : OpReq) (bytes : List Byte) (poison : List Bool) (s : State) :
    fixed τ (issueOp q bytes poison s) = fixed τ s := by simp [issueOp]

@[simp] theorem fixed_collRange (id : BitVec 32) (t ta len : Nat) (s : State) :
    fixed τ (collRange id t ta len s) = fixed τ s := by simp [collRange]

/-! ### Operator descriptors -/

@[simp] theorem fixed_descRead (h t : Nat) (d : InDesc) (g : Nat × Nat) (s : State) :
    fixed τ (descRead h t d g s) = fixed τ s := by simp [descRead]

@[simp] theorem fixed_descWrite (h t : Nat) (d : InDesc) (ta : Nat) (data : List Byte) (poison : List Bool)
    (s : State) : fixed τ (descWrite h t d ta data poison s) = fixed τ s := by simp [descWrite]

@[simp] theorem fixed_writeRows (h t : Nat) (d : InDesc) (r : Rows) (bytes : List Byte) (s : State) :
    fixed τ (writeRows h t d r bytes s) = fixed τ s := by simp [writeRows]

@[simp] theorem fixed_poisonRanges (h t : Nat) (d : InDesc) (l : List (Nat × Nat)) (s : State) :
    fixed τ (poisonRanges h t d l s) = fixed τ s := by simp [poisonRanges]

@[simp] theorem fixed_writeCompute (h t : Nat) (d : InDesc) (as : List Access) (s : State) :
    fixed τ (writeCompute h t d as s).2 = fixed τ s := by
  unfold writeCompute
  split
  · simp
  · exact fixed_foldl_snd _ _ _ fun x r => by simp

@[simp] theorem fixed_writeMoved (h t : Nat) (d : InDesc) (da : Nat) (a : Access) (s : State) :
    fixed τ (writeMoved h t d da a s) = fixed τ s := by simp [writeMoved]

@[simp] theorem fixed_writeCopy (h t : Nat) (d : InDesc) (as : List Access) (s : State) :
    fixed τ (writeCopy h t d as s).2 = fixed τ s :=
  fixed_foldl _ _ _ fun s i => by split <;> simp

@[simp] theorem fixed_gatherFeed (n h t : Nat) (d : InDesc) (rows : List Nat) (s : State) :
    fixed τ (gatherFeed n h t d rows s).2 = fixed τ s := by
  fun_induction gatherFeed n h t d rows s with
  | case4 s n d ta hr hb ih => rw [ih]; simp
  | _ => rfl

@[simp] theorem fixed_writeGather (h t : Nat) (d : InDesc) (as : List Access) (s : State) :
    fixed τ (writeGather h t d as s).2 = fixed τ s := by
  fun_cases writeGather h t d as s with
  | case1 => exact fixed_foldl _ _ _ fun s i => by split <;> simp
  | _ => simp

@[simp] theorem fixed_writeReduce (h t : Nat) (d : InDesc) (as : List Access) (s : State) :
    fixed τ (writeReduce h t d as s).2 = fixed τ s := by fun_cases writeReduce h t d as s <;> simp

@[simp] theorem fixed_writeScatter (h t : Nat) (d : InDesc) (as : List Access) (s : State) :
    fixed τ (writeScatter h t d as s).2 = fixed τ s := by fun_cases writeScatter h t d as s <;> simp

@[simp] theorem fixed_descWrites (h t : Nat) (d : InDesc) (as : List Access) (s : State) :
    fixed τ (descWrites h t d as s).2 = fixed τ s := by fun_cases descWrites h t d as s <;> simp

@[simp] theorem fixed_gatherStart (h t : Nat) (d : InDesc) (as : List Access) (s : State) :
    fixed τ (gatherStart h t d as s).2 = fixed τ s := by fun_cases gatherStart h t d as s <;> simp

@[simp] theorem fixed_descNext (h t : Nat) (d : InDesc) (s : State) : fixed τ (descNext h t d s).2 = fixed τ s := by
  fun_cases descNext h t d s <;> simp +zetaDelta

@[simp] theorem fixed_sendSignal (h t : Nat) (d : InDesc) (s : State) : fixed τ (sendSignal h t d s) = fixed τ s := by
  simp [sendSignal]

/-! ### Brew lists -/

@[simp] theorem fixed_giveTile (t h : Nat) (s : State) : fixed τ (giveTile t h s) = fixed τ s := by simp [giveTile]

@[simp] theorem fixed_assignTiles (s : State) : fixed τ (assignTiles s) = fixed τ s :=
  fixed_foldl _ _ _ fun s t => by
    dsimp only
    split
    · rfl
    · split <;> simp

@[simp] theorem fixed_trimTiles (s : State) : fixed τ (trimTiles s) = fixed τ s := by simp [trimTiles]

@[simp] theorem fixed_settleTiles (s : State) : fixed τ (settleTiles s) = fixed τ s := by simp [settleTiles]

@[simp] theorem fixed_freeTiles (h : Nat) (l : BrewList) (ts : List Nat) (s : State) :
    fixed τ (freeTiles h l ts s) = fixed τ s :=
  fixed_foldl _ _ _ fun s t => by dsimp only; split <;> simp

@[simp] theorem fixed_brewEvent (h reason status ta : Nat) (l : BrewList) (s : State) :
    fixed τ (brewEvent h reason status ta l s) = fixed τ s := by simp [brewEvent]

@[simp] theorem fixed_closeList (h reason status ta : Nat) (l : BrewList) (s : State) :
    fixed τ (closeList h reason status ta l s) = fixed τ s := by simp [closeList]

@[simp] theorem fixed_endIfDone (h : Nat) (s : State) : fixed τ (endIfDone h s) = fixed τ s := by
  fun_cases endIfDone h s <;> simp

@[simp] theorem fixed_stopList (h n reason status ta : Nat) (s : State) :
    fixed τ (stopList h n reason status ta s) = fixed τ s := by fun_cases stopList h n reason status ta s <;> simp

@[simp] theorem fixed_addFetched (h : Nat) (l : BrewList) (f : Fetched) (s : State) :
    fixed τ (addFetched h l f s) = fixed τ s := by simp [addFetched]

@[simp] theorem fixed_descriptorFetch (h : Nat) (s : State) : fixed τ (descriptorFetch h s) = fixed τ s := by
  fun_cases descriptorFetch h s <;> simp

@[simp] theorem fixed_fetchDone (h : Nat) (s : State) : fixed τ (fetchDone h s) = fixed τ s := by
  fun_cases fetchDone h s <;> simp +zetaDelta

@[simp] theorem fixed_completeDesc (h i st : Nat) (s : State) : fixed τ (completeDesc h i st s) = fixed τ s := by
  fun_cases completeDesc h i st s <;> simp +zetaDelta

@[simp] theorem fixed_setResult (h i st : Nat) (s : State) : fixed τ (setResult h i st s) = fixed τ s := by
  fun_cases setResult h i st s <;> simp

@[simp] theorem fixed_settleDesc (h i st t : Nat) (s : State) : fixed τ (settleDesc h i st t s) = fixed τ s := by
  simp [settleDesc]

@[simp] theorem fixed_issueRemote (h i : Nat) (s : State) : fixed τ (issueRemote h i s) = fixed τ s := by
  fun_cases issueRemote h i s <;> simp +zetaDelta

@[simp] theorem fixed_descProgress (h i : Nat) (s : State) : fixed τ (descProgress h i s) = fixed τ s := by
  fun_cases descProgress h i s <;> simp +zetaDelta

@[simp] theorem fixed_descsProgress (s : State) : fixed τ (descsProgress s) = fixed τ s := by simp [descsProgress]

@[simp] theorem fixed_runTiles (t : Nat) (ts : List Nat) (s : State) : fixed τ (runTiles t ts s) = fixed τ s := by
  simp [runTiles]

@[simp] theorem fixed_descCollective (t : Nat) (d : List Byte) (s : State) :
    fixed τ (descCollective t d s) = fixed τ s := by fun_cases descCollective t d s <;> simp

@[simp] theorem fixed_descriptorStart (h : Nat) (s : State) : fixed τ (descriptorStart h s) = fixed τ s := by
  fun_cases descriptorStart h s with
  | case4 => split <;> simp +zetaDelta
  | _ => simp +zetaDelta

@[simp] theorem fixed_descriptorComplete (h i : Nat) (s : State) :
    fixed τ (descriptorComplete h i s) = fixed τ s := by fun_cases descriptorComplete h i s <;> simp +zetaDelta

@[simp] theorem fixed_waitSatisfied (h : Nat) (s : State) : fixed τ (waitSatisfied h s) = fixed τ s := by
  fun_cases waitSatisfied h s <;> simp

@[simp] theorem fixed_waitTimeout (h : Nat) (s : State) : fixed τ (waitTimeout h s) = fixed τ s := by
  fun_cases waitTimeout h s <;> simp

@[simp] theorem fixed_abortOwner (o : Owner) (s : State) : fixed τ (abortOwner o s) = fixed τ s := by
  simp [abortOwner]

@[simp] theorem fixed_abortDesc (h i : Nat) (s : State) : fixed τ (abortDesc h i s) = fixed τ s := by
  fun_cases abortDesc h i s <;> simp

@[simp] theorem fixed_stopTenantLists (t : Nat) (s : State) : fixed τ (stopTenantLists t s) = fixed τ s := by
  simp [stopTenantLists]

@[simp] theorem fixed_brewStartWork (c : Cmd) (s : State) : fixed τ (brewStartWork c s).state = fixed τ s := by
  fun_cases brewStartWork c s <;> simp +zetaDelta

@[simp] theorem fixed_brewStatusWork (c : Cmd) (s : State) : fixed τ (brewStatusWork c s).state = fixed τ s := by
  fun_cases brewStatusWork c s <;> simp

@[simp] theorem fixed_brewStopWork (c : Cmd) (s : State) : fixed τ (brewStopWork c s).state = fixed τ s := by
  fun_cases brewStopWork c s <;> simp

@[simp] theorem fixed_tileStatusWork (c : Cmd) (s : State) : fixed τ (tileStatusWork c s).state = fixed τ s := by
  simp [tileStatusWork]

@[simp] theorem fixed_potStatusWork (c : Cmd) (s : State) : fixed τ (potStatusWork c s).state = fixed τ s := by
  simp [potStatusWork]

/-! ### The infusers -/

@[simp] theorem fixed_admitStep (n : Nat) (s : State) : fixed τ (admitStep n s) = fixed τ s := by
  fun_cases admitStep n s with
  | case3 => simp +zetaDelta [fixed_of_allow ‹allow _ _ _ = some _›]
  | _ => simp

@[simp] theorem fixed_newHead (n : Nat) (s : State) : fixed τ (newHead n s) = fixed τ s := by simp [newHead]

@[simp] theorem fixed_endInfuser (n : Nat) (o : InfOp) (st reason phase limb : Nat) (s : State) :
    fixed τ (endInfuser n o st reason phase limb s) = fixed τ s := by simp [endInfuser]

@[simp] theorem fixed_looseScratch (o : InfOp) (s : State) (hs : τ.contents = true) :
    fixed τ (looseScratch o s) = fixed τ s :=
  fixed_foldl _ _ _ fun s g => fixed_foldl _ _ _ fun s a => by split <;> simp [hs]

@[simp] theorem fixed_poisonOutput (n : Nat) (o : InfOp) (st phase limb : Nat) (s : State) :
    fixed τ (poisonOutput n o st phase limb s) = fixed τ s := by simp [poisonOutput]

@[simp] theorem fixed_stopInfuser (n : Nat) (o : InfOp) (st : Nat) (s : State) (hs : τ.contents = true) :
    fixed τ (stopInfuser n o st s) = fixed τ s := by simp [stopInfuser, hs]

@[simp] theorem fixed_compareFault (n : Nat) (o : InfOp) (limb : Nat) (s : State) :
    fixed τ (compareFault n o limb s) = fixed τ s := by simp [compareFault]

@[simp] theorem fixed_readOperand (n : Nat) (o : InfOp) (x : Ctx) (i : Nat) (s : State) :
    fixed τ (readOperand n o x i s) = fixed τ s := by fun_cases readOperand n o x i s <;> simp

@[simp] theorem fixed_scratchAccess (n : Nat) (o : InfOp) (write : Bool) (s : State) :
    fixed τ (scratchAccess n o write s) = fixed τ s := by simp [scratchAccess]

@[simp] theorem fixed_writeOutput (n : Nat) (o : InfOp) (x : Ctx) (s : State) :
    fixed τ (writeOutput n o x s) = fixed τ s := by simp [writeOutput]

@[simp] theorem fixed_infuserRuns (n : Nat) (o : InfOp) (s : State) (hs : τ.contents = true) :
    fixed τ (infuserRuns n o s) = fixed τ s := by fun_cases infuserRuns n o s <;> simp [hs]

@[simp] theorem fixed_infuserComplete (n : Nat) (how : InfuserEnd) (s : State) (hs : τ.contents = true) :
    fixed τ (infuserComplete n how s) = fixed τ s := by fun_cases infuserComplete n how s <;> simp +zetaDelta [hs]

@[simp] theorem fixed_failHead (n : Nat) (o : InfOp) (st reason : Nat) (s : State) :
    fixed τ (failHead n o st reason s) = fixed τ s := by simp [failHead]

@[simp] theorem fixed_infRefused (o : InfOp) (e : Nat × Nat) (s : State) :
    fixed τ (infRefused o e s) = fixed τ s := by simp [infRefused]

@[simp] theorem fixed_infuserStart (n : Nat) (s : State) : fixed τ (infuserStart n s) = fixed τ s := by
  fun_cases infuserStart n s <;> simp +zetaDelta

@[simp] theorem fixed_popHead (n : Nat) (s : State) : fixed τ (popHead n s) = fixed τ s := by simp [popHead]

@[simp] theorem fixed_infuserChecked (n : Nat) (s : State) : fixed τ (infuserChecked n s) = fixed τ s := by
  fun_cases infuserChecked n s <;> simp +zetaDelta

@[simp] theorem fixed_infuserTurn (n : Nat) (s : State) (hs : τ.contents = true) :
    fixed τ (infuserTurn n s) = fixed τ s := by fun_cases infuserTurn n s <;> simp [hs]

@[simp] theorem fixed_abortInfuser (n : Nat) (s : State) (hs : τ.contents = true) :
    fixed τ (abortInfuser n s) = fixed τ s := by fun_cases abortInfuser n s <;> simp [hs]

@[simp] theorem fixed_infuseWork (op : Nat) (c : Cmd) (s : State) :
    fixed τ (infuseWork op c s).state = fixed τ s := by simp [infuseWork]

@[simp] theorem fixed_infuserPrepareWork (c : Cmd) (s : State) :
    fixed τ (infuserPrepareWork c s).state = fixed τ s := by fun_cases infuserPrepareWork c s <;> simp

@[simp] theorem fixed_prepareDone (c : Cmd) (s : State) : fixed τ (prepareDone c s) = fixed τ s := by
  fun_cases prepareDone c s <;> simp

@[simp] theorem fixed_infuserStatusWork (c : Cmd) (s : State) :
    fixed τ (infuserStatusWork c s).state = fixed τ s := by simp [infuserStatusWork]

/-! ### Kettle admission -/

@[simp] theorem fixed_tenantServed (t : Nat) (s : State) : fixed τ (tenantServed t s) = fixed τ s := by
  simp [tenantServed]

@[simp] theorem fixed_admitPot (r : Req) (s : State) (hs : τ.contents = true) : fixed τ (admitPot r s) = fixed τ s := by
  fun_cases admitPot r s with
  | case3 => simp [fixed_of_allow ‹allow _ _ _ = some _›, hs]
  | _ => simp

@[simp] theorem fixed_admitEnginePot (r : Req) (s : State) (hs : τ.contents = true) :
    fixed τ (admitEnginePot r s) = fixed τ s := by
  fun_cases admitEnginePot r s with
  | case3 => simp [fixed_of_allow ‹allow _ _ _ = some _›, hs]
  | _ => simp

@[simp] theorem fixed_admitRequest (id : Nat) (s : State) (hs : τ.contents = true) :
    fixed τ (admitRequest id s) = fixed τ s := by
  fun_cases admitRequest id s with
  | case7 => simp [fixed_of_allow ‹allow _ _ _ = some _›]
  | _ => simp [hs]

@[simp] theorem fixed_bar2Access (k tag off len : Nat) (write : Bool) (data : List Byte) (ep : Bool)
    (op : Option (AtomicOp × Nat)) (s : State) (hs : τ.contents = true) :
    fixed τ (bar2Access k tag off len write data ep op s) = fixed τ s := by
  fun_cases bar2Access k tag off len write data ep op s with
  | case11 => simp +zetaDelta [fixed_of_allow ‹allow _ _ _ = some _›, hs]
  | _ => simp +zetaDelta

@[simp] theorem fixed_bar2Atomic (k tag off width : Nat) (op : AtomicOp) (s : State) (hs : τ.contents = true) :
    fixed τ (bar2Atomic k tag off width op s) = fixed τ s := by simp [bar2Atomic, hs]

@[simp] theorem fixed_admitTile (t : Nat) (s : State) : fixed τ (admitTile t s) = fixed τ s := by
  fun_cases admitTile t s with
  | case6 => simp +zetaDelta [fixed_of_allow ‹allow _ _ _ = some _›]
  | _ => simp

@[simp] theorem fixed_admitInfuser (n : Nat) (s : State) : fixed τ (admitInfuser n s) = fixed τ s := by
  fun_cases admitInfuser n s <;> simp +zetaDelta

@[simp] theorem fixed_admitLink (port : Option Nat) (bytes : Nat) (s : State) :
    fixed τ (admitLink port bytes s) = fixed τ s := by
  fun_cases admitLink port bytes s with
  | case3 => exact fixed_of_allow ‹allow _ _ _ = some _›
  | _ => simp

@[simp] theorem fixed_kettleAdmit (w : Work) (s : State) (hs : τ.contents = true) :
    fixed τ (kettleAdmit w s) = fixed τ s := by fun_cases kettleAdmit w s <;> simp [hs]

/-! ### The kettle commands and the kettle bus -/

@[simp] theorem fixed_kettleStatusWork (c : Cmd) (s : State) : fixed τ (kettleStatusWork c s).state = fixed τ s := by
  simp only [kettleStatusWork, Reply.state_done]
  split <;> simp

@[simp] theorem fixed_kettleGetLimitsWork (c : Cmd) (s : State) :
    fixed τ (kettleGetLimitsWork c s).state = fixed τ s := by simp [kettleGetLimitsWork]

@[simp] theorem fixed_supersede (s : State) : fixed τ (supersede s) = fixed τ s := by fun_cases supersede s <;> simp

@[simp] theorem fixed_kettleQuiesceWork (c : Cmd) (s : State) :
    fixed τ (kettleQuiesceWork c s).state = fixed τ s := by simp [kettleQuiesceWork]

@[simp] theorem fixed_quiesceTimeout (s : State) : fixed τ (quiesceTimeout s) = fixed τ s := by
  fun_cases quiesceTimeout s <;> simp

@[simp] theorem fixed_jobStartRelease (s : State) : fixed τ (jobStartRelease s) = fixed τ s := by
  fun_cases jobStartRelease s <;> simp +zetaDelta

@[simp] theorem fixed_kbAccept (type credit granted : Nat) (s : State) :
    fixed τ (kbAccept type credit granted s) = fixed τ s := by simp [kbAccept]

@[simp] theorem fixed_kbCrcFailed (s : State) : fixed τ (kbCrcFailed s) = fixed τ s := by simp [kbCrcFailed]

/-- The kettle bus's own state is no fixed part. -/
theorem fixed_withKb (s : State) (kb : Kb) : fixed τ { s with kb := kb } = fixed τ s := by simp

@[simp] theorem fixed_kbMember (w : BitVec 64) (s : State) : fixed τ (kbMember w s) = fixed τ s := by
  unfold kbMember
  extract_lets sync crc valid type req p body s₁ s₂ kb₂ s₃ kb₃ s₄
  have h₂ : fixed τ s₂ = fixed τ s := by
    unfold s₂ s₁
    split <;> simp
  have h₃ : fixed τ s₃ = fixed τ s := (fixed_withKb s₂ _).trans h₂
  split
  · exact (fixed_withKb s₃ _).trans h₃
  · exact (fixed_kbAccept _ _ _ _).trans ((fixed_withKb s₃ _).trans h₃)

@[simp] theorem fixed_kbFrameReceived (w : BitVec 64) (s : State) : fixed τ (kbFrameReceived w s) = fixed τ s := by
  fun_cases kbFrameReceived w s <;> simp

@[simp] theorem fixed_kbSend (s : State) : fixed τ (kbSend s) = fixed τ s := by simp [kbSend]

@[simp] theorem fixed_kbMarkSend (s : State) : fixed τ (kbMarkSend s) = fixed τ s := by simp [kbMarkSend]

@[simp] theorem fixed_adminReturned (w : BitVec 64) (s : State) : fixed τ (adminReturned w s) = fixed τ s := by
  fun_cases adminReturned w s <;> simp +zetaDelta

@[simp] theorem fixed_kbFrameReturn (w : BitVec 64) (s : State) : fixed τ (kbFrameReturn w s) = fixed τ s := by
  unfold kbFrameReturn
  split
  · rfl
  · extract_lets s₁ s₂ ok kb₂ s₃ kb₃
    have h₁ : fixed τ s₁ = fixed τ s := by unfold s₁; split <;> simp
    have h₃ : fixed τ s₃ = fixed τ s := (fixed_withKb s₂ _).trans ((fixed_adminReturned _ _).trans h₁)
    split
    · exact (fixed_withKb s₃ _).trans h₃
    · exact h₃

@[simp] theorem fixed_kbChainOpen (s : State) : fixed τ (kbChainOpen s) = fixed τ s := by simp [kbChainOpen]

@[simp] theorem fixed_kbChainAcquire (s : State) : fixed τ (kbChainAcquire s) = fixed τ s := by simp [kbChainAcquire]

@[simp] theorem fixed_kbMasterLoss (s : State) : fixed τ (kbMasterLoss s) = fixed τ s := by simp [kbMasterLoss]

@[simp] theorem fixed_kbChainRejoin (s : State) : fixed τ (kbChainRejoin s) = fixed τ s := by simp [kbChainRejoin]

@[simp] theorem fixed_kbAdminHoldEnd (s : State) : fixed τ (kbAdminHoldEnd s) = fixed τ s := by simp [kbAdminHoldEnd]

@[simp] theorem fixed_kbSendAdminWork (c : Cmd) (s : State) : fixed τ (kbSendAdminWork c s).state = fixed τ s := by
  simp [kbSendAdminWork]

@[simp] theorem fixed_kbSendAdminTimeout (s : State) : fixed τ (kbSendAdminTimeout s) = fixed τ s := by
  fun_cases kbSendAdminTimeout s <;> simp

/-! ### Repair, map-out and stack retirement -/

@[simp] theorem fixed_openWindow (ch : Nat) (s : State) : fixed τ (openWindow ch s) = fixed τ s := by
  simp [openWindow]

@[simp] theorem fixed_closeWindow (ch : Nat) (s : State) : fixed τ (closeWindow ch s) = fixed τ s := by
  simp [closeWindow]

@[simp] theorem fixed_askRetrain (ch : Nat) (s : State) : fixed τ (askRetrain ch s) = fixed τ s := by
  simp [askRetrain]

@[simp] theorem fixed_prepareExtent (n x : Nat) (s : State) (hs : τ.contents = true) :
    fixed τ (prepareExtent n x s) = fixed τ s := by simp [prepareExtent, hs]

@[simp] theorem fixed_foldPrepDone (n x : Nat) (s : State) (hs : τ.contents = true) :
    fixed τ (foldPrepDone n x s) = fixed τ s := by simp [foldPrepDone, hs]

@[simp] theorem fixed_endMapoutCmd (m : Mapout) (n st : Nat) (s : State) :
    fixed τ (endMapoutCmd m n st s) = fixed τ s := by fun_cases endMapoutCmd m n st s <;> simp

@[simp] theorem fixed_benchFailed (ch : Nat) (s : State) : fixed τ (benchFailed ch s) = fixed τ s := by
  simp [benchFailed]

@[simp] theorem fixed_startMapout (n : Nat) (m : Mapout) (s : State) : fixed τ (startMapout n m s) = fixed τ s := by
  simp [startMapout]

@[simp] theorem fixed_startRetire (n : Nat) (m : Mapout) (s : State) : fixed τ (startRetire n m s) = fixed τ s := by
  simp [startRetire]

@[simp] theorem fixed_channelFailed (ch : Nat) (s : State) : fixed τ (channelFailed ch s) = fixed τ s := by
  simp [channelFailed]

@[simp] theorem fixed_nextFailed (n : Nat) (s : State) : fixed τ (nextFailed n s) = fixed τ s := by
  fun_cases nextFailed n s <;> simp

@[simp] theorem fixed_takeOffline (n : Nat) (s : State) : fixed τ (takeOffline n s) = fixed τ s :=
  fixed_foldl _ _ _ fun s x => by split <;> simp

@[simp] theorem fixed_mapoutRecorded (n ch : Nat) (ok : Bool) (s : State) :
    fixed τ (mapoutRecorded n ch ok s) = fixed τ s := by fun_cases mapoutRecorded n ch ok s <;> simp +zetaDelta

@[simp] theorem fixed_withdraw (ch : Nat) (s : State) : fixed τ (withdraw ch s) = fixed τ s := by simp [withdraw]

@[simp] theorem fixed_mapoutOpen (n : Nat) (s : State) : fixed τ (mapoutOpen n s) = fixed τ s := by
  fun_cases mapoutOpen n s <;> simp +zetaDelta

@[simp] theorem fixed_mapoutReadTimeout (id : Nat) (s : State) : fixed τ (mapoutReadTimeout id s) = fixed τ s := by
  fun_cases mapoutReadTimeout id s <;> simp

@[simp] theorem fixed_release (n : Nat) (s : State) : fixed τ (release n s) = fixed τ s := by simp [release]

@[simp] theorem fixed_mapoutSwitch (n ch : Nat) (s : State) (hs : τ.contents = true) :
    fixed τ (mapoutSwitch n ch s) = fixed τ s := by simp [mapoutSwitch, hs]

@[simp] theorem fixed_mapoutClose (n : Nat) (s : State) (hs : τ.contents = true) :
    fixed τ (mapoutClose n s) = fixed τ s := by fun_cases mapoutClose n s <;> simp +zetaDelta [hs]

@[simp] theorem fixed_retireRecorded (n : Nat) (ok : Bool) (s : State) :
    fixed τ (retireRecorded n ok s) = fixed τ s := by fun_cases retireRecorded n ok s <;> simp +zetaDelta

@[simp] theorem fixed_removeExtents (n : Nat) (s : State) (hc : τ.config = true) :
    fixed τ (removeExtents n s) = fixed τ s := by simp [removeExtents, hc]

@[simp] theorem fixed_endStackRequests (n : Nat) (s : State) : fixed τ (endStackRequests n s) = fixed τ s := by
  simp [endStackRequests]

@[simp] theorem fixed_retireStack (n : Nat) (s : State) (hc : τ.config = true) :
    fixed τ (retireStack n s) = fixed τ s := by simp [retireStack, hc]

@[simp] theorem fixed_retireWindow (n : Nat) (s : State) (hc : τ.config = true) :
    fixed τ (retireWindow n s) = fixed τ s := by fun_cases retireWindow n s <;> simp +zetaDelta [hc]

@[simp] theorem fixed_useLane (fp lane : Nat) (s : State) : fixed τ (useLane fp lane s) = fixed τ s := by
  simp [useLane]

@[simp] theorem fixed_laneRecorded (ch fp lane : Nat) (ok : Bool) (s : State) :
    fixed τ (laneRecorded ch fp lane ok s) = fixed τ s := by fun_cases laneRecorded ch fp lane ok s <;> simp

@[simp] theorem fixed_laneWindow (ch : Nat) (s : State) : fixed τ (laneWindow ch s) = fixed τ s := by
  fun_cases laneWindow ch s <;> simp

@[simp] theorem fixed_laneDone (ch fp lane : Nat) (s : State) : fixed τ (laneDone ch fp lane s) = fixed τ s := by
  fun_cases laneDone ch fp lane s <;> simp +zetaDelta

@[simp] theorem fixed_failRepairCmd (ch op st : Nat) (s : State) :
    fixed τ (failRepairCmd ch op st s) = fixed τ s := by fun_cases failRepairCmd ch op st s <;> simp

@[simp] theorem fixed_laneEnd (ch : Nat) (ok : Bool) (s : State) : fixed τ (laneEnd ch ok s) = fixed τ s := by
  fun_cases laneEnd ch ok s <;> simp +zetaDelta

@[simp] theorem fixed_rowRecorded (ch : Nat) (r : RowRec) (ok : Bool) (s : State) :
    fixed τ (rowRecorded ch r ok s) = fixed τ s := by fun_cases rowRecorded ch r ok s <;> simp +zetaDelta

@[simp] theorem fixed_rowMoves (fp : Nat) (s : State) : fixed τ (rowMoves fp s) = fixed τ s := by simp [rowMoves]

@[simp] theorem fixed_rowWindow (ch : Nat) (s : State) : fixed τ (rowWindow ch s) = fixed τ s := by
  fun_cases rowWindow ch s <;> simp

@[simp] theorem fixed_carrySector (q : Nat) (s : State) (hs : τ.contents = true) :
    fixed τ (carrySector q s) = fixed τ s := by fun_cases carrySector q s <;> simp [hs]

@[simp] theorem fixed_cancelSoft (r : RowRec) (s : State) : fixed τ (cancelSoft r s) = fixed τ s := by
  simp [cancelSoft]

@[simp] theorem fixed_rowRepaired (r : RowRec) (hard : Bool) (s : State) :
    fixed τ (rowRepaired r hard s) = fixed τ s := by simp [rowRepaired]

@[simp] theorem fixed_rowEnd (ch : Nat) (ok : Bool) (s : State) (hs : τ.contents = true) :
    fixed τ (rowEnd ch ok s) = fixed τ s := by fun_cases rowEnd ch ok s <;> simp +zetaDelta [hs]

@[simp] theorem fixed_repairStatusWork (c : Cmd) (s : State) : fixed τ (repairStatusWork c s).state = fixed τ s := by
  simp [repairStatusWork]

@[simp] theorem fixed_repairRowWork (c : Cmd) (s : State) : fixed τ (repairRowWork c s).state = fixed τ s := by
  fun_cases repairRowWork c s <;> simp

@[simp] theorem fixed_repairLaneWork (c : Cmd) (s : State) : fixed τ (repairLaneWork c s).state = fixed τ s := by
  fun_cases repairLaneWork c s <;> simp

@[simp] theorem fixed_mapoutChannelWork (c : Cmd) (s : State) :
    fixed τ (mapoutChannelWork c s).state = fixed τ s := by fun_cases mapoutChannelWork c s <;> simp

@[simp] theorem fixed_foldStatusWork (c : Cmd) (s : State) : fixed τ (foldStatusWork c s).state = fixed τ s := by
  simp [foldStatusWork]

@[simp] theorem fixed_foldTableReadWork (c : Cmd) (s : State) :
    fixed τ (foldTableReadWork c s).state = fixed τ s := by simp [foldTableReadWork]

/-! ### Peer ports: links, connections and received frames -/

@[simp] theorem fixed_linkCameUp (k : Nat) (s : State) : fixed τ (linkCameUp k s) = fixed τ s := by simp [linkCameUp]

@[simp] theorem fixed_linkWentDown (k : Nat) (s : State) : fixed τ (linkWentDown k s) = fixed τ s := by
  simp [linkWentDown]

@[simp] theorem fixed_openRepeat (k c : Nat) (s : State) : fixed τ (openRepeat k c s) = fixed τ s := by
  simp [openRepeat]

@[simp] theorem fixed_resendFrom (k c : Nat) (a : BitVec 24) (s : State) :
    fixed τ (resendFrom k c a s) = fixed τ s := by simp [resendFrom]

@[simp] theorem fixed_rtoExpired (k c : Nat) (s : State) : fixed τ (rtoExpired k c s) = fixed τ s := by
  fun_cases rtoExpired k c s <;> simp +zetaDelta

@[simp] theorem fixed_ackSend (k c : Nat) (s : State) : fixed τ (ackSend k c s) = fixed τ s := by simp [ackSend]

@[simp] theorem fixed_discardFrame (k : Nat) (s : State) : fixed τ (discardFrame k s) = fixed τ s := by
  simp [discardFrame]

@[simp] theorem fixed_countRx (k type : Nat) (f : Frame) (s : State) : fixed τ (countRx k type f s) = fixed τ s := by
  simp [countRx]

@[simp] theorem fixed_takeHeader (k c : Nat) (ack window : BitVec 24) (s : State) :
    fixed τ (takeHeader k c ack window s) = fixed τ s := by simp [takeHeader]

@[simp] theorem fixed_acceptSeq (k c : Nat) (s : State) : fixed τ (acceptSeq k c s) = fixed τ s := by simp [acceptSeq]

@[simp] theorem fixed_sendNak (k c : Nat) (s : State) : fixed τ (sendNak k c s) = fixed τ s := by simp [sendNak]

/-- A sequenced frame changes what its type's work changes. -/
@[simp] theorem fixed_rxSequenced (k type : Nat) (f : Frame) (body : Nat → State → State) (s : State)
    (h : ∀ c s, fixed τ (body c s) = fixed τ s) : fixed τ (rxSequenced k type f body s) = fixed τ s := by
  fun_cases rxSequenced k type f body s <;> simp +zetaDelta [h]

@[simp] theorem fixed_rxPlain (k type : Nat) (f : Frame) (body : Nat → State → State) (s : State)
    (h : ∀ c s, fixed τ (body c s) = fixed τ s) : fixed τ (rxPlain k type f body s) = fixed τ s := by
  fun_cases rxPlain k type f body s <;> simp [h]

@[simp] theorem fixed_endIncarnation (k c : Nat) (s : State) : fixed τ (endIncarnation k c s) = fixed τ s := by
  simp [endIncarnation]

@[simp] theorem fixed_nowOpen (k c : Nat) (f : Frame) (s : State) : fixed τ (nowOpen k c f s) = fixed τ s := by
  simp [nowOpen]

@[simp] theorem fixed_openReceived (k c : Nat) (f : Frame) (s : State) :
    fixed τ (openReceived k c f s) = fixed τ s := by simp [openReceived]

@[simp] theorem fixed_respond (k c : Nat) (f : Frame) (st : Nat) (s : State) :
    fixed τ (respond k c f st s) = fixed τ s := by simp [respond]

@[simp] theorem fixed_setRxOp (k c : Nat) (f : Frame) (o : Option RxOp) (s : State) :
    fixed τ (setRxOp k c f o s) = fixed τ s := by simp [setRxOp]

@[simp] theorem fixed_failRx (k c type st : Nat) (f : Frame) (s : State) :
    fixed τ (failRx k c type st f s) = fixed τ s := by simp [failRx]

@[simp] theorem fixed_writePayload (h : HeldFrame) (t ta : Nat) (exempt : Bool) (s : State) :
    fixed τ (writePayload h t ta exempt s) = fixed τ s := by simp [writePayload]

@[simp] theorem fixed_reducePayload (h : HeldFrame) (t ta : Nat) (s : State) :
    fixed τ (reducePayload h t ta s) = fixed τ s := by simp [reducePayload]

@[simp] theorem fixed_answerGet (k c : Nat) (f : Frame) (a : Access) (s : State) :
    fixed τ (answerGet k c f a s) = fixed τ s := by simp [answerGet]

@[simp] theorem fixed_issueFrame (h : HeldFrame) (o : RxOp) (s : State) : fixed τ (issueFrame h o s) = fixed τ s := by
  fun_cases issueFrame h o s <;> simp

@[simp] theorem fixed_dropHeld (id : Nat) (s : State) : fixed τ (dropHeld id s) = fixed τ s := by simp [dropHeld]

@[simp] theorem fixed_holdFrame (k type : Nat) (f : Frame) (s : State) :
    fixed τ (holdFrame k type f s).2 = fixed τ s := by simp [holdFrame]

@[simp] theorem fixed_setApplying (id : Nat) (s : State) : fixed τ (setApplying id s) = fixed τ s := by
  simp [setApplying]

theorem fixed_of_startRx {k c : Nat} {h : HeldFrame} {o : RxOp} {s s' : State} (hx : startRx k c h o s = some s') :
    fixed τ s' = fixed τ s := by
  unfold startRx at hx
  extract_lets f go at hx
  have hgo (s : State) : fixed τ (go s) = fixed τ s := by unfold go; split <;> simp
  split at hx
  · cases hx; rfl
  · split at hx
    · cases hx; exact hgo s
    · split at hx
      · cases hx
      · cases hx; exact (hgo _).trans (fixed_jobArrive s)

@[simp] theorem fixed_tryOp (c : Nat) (fresh : Bool) (h : HeldFrame) (s : State) :
    fixed τ (tryOp c fresh h s) = fixed τ s := by
  fun_cases tryOp c fresh h s with
  | case6 => simp [fixed_of_startRx ‹startRx _ _ _ _ _ = some _›]
  | _ => simp +zetaDelta

@[simp] theorem fixed_opReceived (k type : Nat) (f : Frame) (c : Nat) (s : State) :
    fixed τ (opReceived k type f c s) = fixed τ s := by simp [opReceived]

@[simp] theorem fixed_opDone (c : Nat) (h : HeldFrame) (s : State) : fixed τ (opDone c h s) = fixed τ s := by
  fun_cases opDone c h s <;> simp +zetaDelta

@[simp] theorem fixed_endOpMirrored (o : PeerOpState) (st : Nat) (s : State) :
    fixed τ (endOpMirrored o st s) = fixed τ s := by fun_cases endOpMirrored o st s <;> simp +zetaDelta

@[simp] theorem fixed_tryGetData (c : Nat) (h : HeldFrame) (s : State) : fixed τ (tryGetData c h s) = fixed τ s := by
  fun_cases tryGetData c h s <;> simp

@[simp] theorem fixed_getDone (c : Nat) (h : HeldFrame) (s : State) : fixed τ (getDone c h s) = fixed τ s := by
  fun_cases getDone c h s <;> simp +zetaDelta

@[simp] theorem fixed_getData (k : Nat) (f : Frame) (c : Nat) (s : State) :
    fixed τ (getData k f c s) = fixed τ s := by simp [getData]

@[simp] theorem fixed_retryFrom (l : List HeldFrame) (s : State) : fixed τ (retryFrom l s) = fixed τ s := by
  fun_induction retryFrom l s <;> simp [*]

@[simp] theorem fixed_retryHeld (s : State) : fixed τ (retryHeld s) = fixed τ s := by simp [retryHeld]

@[simp] theorem fixed_frameDone (h : HeldFrame) (s : State) : fixed τ (frameDone h s) = fixed τ s := by
  fun_cases frameDone h s <;> simp

@[simp] theorem fixed_failHeld (h : HeldFrame) (st : Nat) (s : State) : fixed τ (failHeld h st s) = fixed τ s := by
  fun_cases failHeld h st s <;> simp +zetaDelta

@[simp] theorem fixed_heldFrameTimeout (id : Nat) (s : State) : fixed τ (heldFrameTimeout id s) = fixed τ s := by
  fun_cases heldFrameTimeout id s <;> simp

@[simp] theorem fixed_advisoryReceived (k : Nat) (f : Frame) (s : State) :
    fixed τ (advisoryReceived k f s) = fixed τ s := by simp [advisoryReceived]

@[simp] theorem fixed_endPause (k : Nat) (s : State) : fixed τ (endPause k s) = fixed τ s := by simp [endPause]

@[simp] theorem fixed_pauseReceived (k quanta : Nat) (classes : Option Byte) (s : State) :
    fixed τ (pauseReceived k quanta classes s) = fixed τ s := by simp [pauseReceived]

@[simp] theorem fixed_shutConn (k c : Nat) (s : State) : fixed τ (shutConn k c s) = fixed τ s := by simp [shutConn]

@[simp] theorem fixed_peerAfterSwitch (old s : State) : fixed τ (peerAfterSwitch old s) = fixed τ s := by
  simp [peerAfterSwitch]

@[simp] theorem fixed_peerStatusWork (c : Cmd) (s : State) : fixed τ (peerStatusWork c s).state = fixed τ s := by
  simp [peerStatusWork]

@[simp] theorem fixed_peerConnStatusWork (c : Cmd) (s : State) :
    fixed τ (peerConnStatusWork c s).state = fixed τ s := by simp [peerConnStatusWork]

@[simp] theorem fixed_peerOpWork (c : Cmd) (s : State) : fixed τ (peerOpWork c s).state = fixed τ s := by
  fun_cases peerOpWork c s <;> simp

@[simp] theorem fixed_peerOpRead (c : Cmd) (s : State) : fixed τ (peerOpRead c s) = fixed τ s := by
  fun_cases peerOpRead c s <;> simp +zetaDelta

/-! ### The twin pair -/

@[simp] theorem fixed_twinEvent (kind t : Nat) (s : State) : fixed τ (twinEvent kind t s) = fixed τ s := by
  simp [twinEvent]

@[simp] theorem fixed_noteBeat (f : MuxPort → MuxPort) (s : State) (hd : τ.debug = true) :
    fixed τ (noteBeat f s) = fixed τ s := by simp [noteBeat, hd]

@[simp] theorem fixed_sendHeartbeat (s : State) (hd : τ.debug = true) : fixed τ (sendHeartbeat s) = fixed τ s := by
  simp [sendHeartbeat, hd]

@[simp] theorem fixed_sendState (s : State) : fixed τ (sendState s) = fixed τ s := by simp [sendState]

@[simp] theorem fixed_stopMirror (t st : Nat) (s : State) : fixed τ (stopMirror t st s) = fixed τ s := by
  simp [stopMirror]

@[simp] theorem fixed_endBootHold (t : Nat) (s : State) : fixed τ (endBootHold t s) = fixed τ s := by
  simp [endBootHold]

@[simp] theorem fixed_startResync (t : Nat) (s : State) : fixed τ (startResync t s) = fixed τ s := by
  simp [startResync]

@[simp] theorem fixed_copyNext (t : Nat) (s : State) : fixed τ (copyNext t s) = fixed τ s := by
  fun_cases copyNext t s <;> simp

@[simp] theorem fixed_copyRead (t : Nat) (a : Access) (s : State) : fixed τ (copyRead t a s) = fixed τ s := by
  simp [copyRead]

@[simp] theorem fixed_copyDone (t : Nat) (s : State) : fixed τ (copyDone t s) = fixed τ s := by simp [copyDone]

@[simp] theorem fixed_resyncWork (mark : Nat) (s : State) : fixed τ (resyncWork mark s) = fixed τ s := by
  simp [resyncWork]

@[simp] theorem fixed_askEpoch (t : Nat) (s : State) : fixed τ (askEpoch t s) = fixed τ s := by simp [askEpoch]

@[simp] theorem fixed_endTakeover (t st : Nat) (s : State) : fixed τ (endTakeover t st s) = fixed τ s := by
  fun_cases endTakeover t st s <;> simp

@[simp] theorem fixed_epochWritten (t : Nat) (ok : Bool) (s : State) : fixed τ (epochWritten t ok s) = fixed τ s := by
  simp [epochWritten]

@[simp] theorem fixed_rinseStandby (t : Nat) (s : State) : fixed τ (rinseStandby t s) = fixed τ s := by
  simp [rinseStandby]

@[simp] theorem fixed_partnerLost (s : State) : fixed τ (partnerLost s) = fixed τ s := by simp [partnerLost]

@[simp] theorem fixed_heartbeatMiss (s : State) : fixed τ (heartbeatMiss s) = fixed τ s := by simp [heartbeatMiss]

@[simp] theorem fixed_heartbeatMark (s : State) (hd : τ.debug = true) : fixed τ (heartbeatMark s) = fixed τ s := by
  simp [heartbeatMark, hd]

@[simp] theorem fixed_roleConflict (s : State) : fixed τ (roleConflict s) = fixed τ s := by simp [roleConflict]

@[simp] theorem fixed_heartbeat (k : Nat) (f : Frame) (s : State) (hd : τ.debug = true) :
    fixed τ (heartbeat k f s) = fixed τ s := by simp [heartbeat, hd]

@[simp] theorem fixed_heartbeatReceived (k : Nat) (f : Frame) (s : State) (hd : τ.debug = true) :
    fixed τ (heartbeatReceived k f s) = fixed τ s := by simp [heartbeatReceived, hd]

@[simp] theorem fixed_settleHome (t : Nat) (fresh : Bool) (v : TwinView) (s : State) :
    fixed τ (settleHome t fresh v s) = fixed τ s := by simp [settleHome]

@[simp] theorem fixed_judgePairing (t : Nat) (before : Option Bool) (s : State) :
    fixed τ (judgePairing t before s) = fixed τ s := by simp [judgePairing]

@[simp] theorem fixed_settleView (t : Nat) (v : Option TwinView) (s : State) :
    fixed τ (settleView t v s) = fixed τ s := by
  simp only [settleView, fixed_startResync, fixed_endBootHold, fixed_ite, fixed_judgePairing, ite_self]
  split <;> simp

@[simp] theorem fixed_stateReceived (f : Frame) (s : State) : fixed τ (stateReceived f s) = fixed τ s := by
  simp [stateReceived]

@[simp] theorem fixed_twinSequenced (k type : Nat) (f : Frame) (body : State → State) (s : State)
    (h : ∀ s, fixed τ (body s) = fixed τ s) : fixed τ (twinSequenced k type f body s) = fixed τ s := by
  simp [twinSequenced, h]

@[simp] theorem fixed_copyEnds (type t : Nat) (f : Frame) (s : State) :
    fixed τ (copyEnds type t f s) = fixed τ s := by simp [copyEnds]

@[simp] theorem fixed_mirrorApply (k type : Nat) (f : Frame) (s : State) :
    fixed τ (mirrorApply k type f s) = fixed τ s := by simp [mirrorApply]

@[simp] theorem fixed_mirrorDone (h : HeldFrame) (s : State) : fixed τ (mirrorDone h s) = fixed τ s := by
  simp [mirrorDone]

@[simp] theorem fixed_mirrorReceived (k type : Nat) (f : Frame) (s : State) :
    fixed τ (mirrorReceived k type f s) = fixed τ s := by simp [mirrorReceived]

@[simp] theorem fixed_handoverReceived (f : Frame) (s : State) : fixed τ (handoverReceived f s) = fixed τ s := by
  simp [handoverReceived]

@[simp] theorem fixed_tryHandover (t : Nat) (s : State) : fixed τ (tryHandover t s) = fixed τ s := by
  simp [tryHandover]

@[simp] theorem fixed_resyncComplete (t : Nat) (s : State) : fixed τ (resyncComplete t s) = fixed τ s := by
  fun_cases resyncComplete t s <;> simp

@[simp] theorem fixed_takeoverTimeout (t : Nat) (s : State) : fixed τ (takeoverTimeout t s) = fixed τ s := by
  fun_cases takeoverTimeout t s <;> simp

@[simp] theorem fixed_twinTakeoverWork (c : Cmd) (s : State) : fixed τ (twinTakeoverWork c s).state = fixed τ s := by
  simp [twinTakeoverWork]

@[simp] theorem fixed_lagExpired (t : Nat) (s : State) : fixed τ (lagExpired t s) = fixed τ s := by simp [lagExpired]

@[simp] theorem fixed_bootWaitExpired (s : State) : fixed τ (bootWaitExpired s) = fixed τ s := by
  fun_cases bootWaitExpired s <;> simp +zetaDelta

@[simp] theorem fixed_twinAtBoot (s : State) : fixed τ (twinAtBoot s) = fixed τ s := by simp [twinAtBoot]

@[simp] theorem fixed_twinTenantSwitch (old : State) (t : Nat) (s : State) :
    fixed τ (twinTenantSwitch old t s) = fixed τ s := by simp [twinTenantSwitch]

@[simp] theorem fixed_twinAfterSwitch (old s : State) : fixed τ (twinAfterSwitch old s) = fixed τ s := by
  simp [twinAfterSwitch]

@[simp] theorem fixed_twinStatusWork (c : Cmd) (s : State) : fixed τ (twinStatusWork c s).state = fixed τ s := by
  simp [twinStatusWork]

/-! ### The steps of the sector path -/

@[simp] theorem fixed_collSync (s : State) : fixed τ (collSync s) = fixed τ s := by simp [collSync]

@[simp] theorem fixed_benchChan (ch : Nat) (s : State) : fixed τ (benchChan ch s) = fixed τ s := by simp [benchChan]

@[simp] theorem fixed_benchEnterWork (c : Cmd) (s : State) : fixed τ (benchEnterWork c s).state = fixed τ s := by
  simp [benchEnterWork]

@[simp] theorem fixed_benchTurn (s : State) : fixed τ (benchTurn s) = fixed τ s :=
  fixed_foldl _ _ _ fun s e => by
    have h : fixed τ (benchEnterWork e.cmd s).state = fixed τ s := fixed_benchEnterWork e.cmd s
    split
    · next hw => simpa [hw] using h
    · rfl

@[simp] theorem fixed_commandTurn (op : Nat) (c : Cmd) (s : State) : fixed τ (commandTurn op c s) = fixed τ s := by
  simp [commandTurn]

@[simp] theorem fixed_frameTurn (id : Nat) (s : State) : fixed τ (frameTurn id s) = fixed τ s := by
  fun_cases frameTurn id s <;> simp

@[simp] theorem fixed_ownerTurn (o : Owner) (s : State) : fixed τ (ownerTurn o s) = fixed τ s := by
  fun_cases ownerTurn o s <;> simp

@[simp] theorem fixed_engineTurn (s : State) (hs : τ.contents = true) : fixed τ (engineTurn s) = fixed τ s := by
  simp [engineTurn, hs]

/-! ### The end of a scald -/

@[simp] theorem fixed_resumeWaiting (s : State) : fixed τ (resumeWaiting s) = fixed τ s := by simp [resumeWaiting]

@[simp] theorem fixed_scaldExit (n : Nat) (s : State) : fixed τ (scaldExit n s) = fixed τ s := by simp [scaldExit]

@[simp] theorem fixed_abortCommand (issuer : Issuer) (seq : BitVec 16) (s : State) :
    fixed τ (abortCommand issuer seq s) = fixed τ s := by fun_cases abortCommand issuer seq s <;> simp

/-! ### Bench mode and test access -/

@[simp] theorem fixed_endBenchRun (ch : Nat) (s : State) : fixed τ (endBenchRun ch s) = fixed τ s := by
  simp [endBenchRun]

@[simp] theorem fixed_endTestAccess (ch : Nat) (s : State) : fixed τ (endTestAccess ch s) = fixed τ s := by
  simp [endTestAccess]

@[simp] theorem fixed_benchExitWork (c : Cmd) (s : State) : fixed τ (benchExitWork c s).state = fixed τ s := by
  simp [benchExitWork]

@[simp] theorem fixed_testNonceWork (c : Cmd) (s : State) (hd : τ.debug = true) :
    fixed τ (testNonceWork c s).state = fixed τ s := by simp [testNonceWork, hd]

@[simp] theorem fixed_testUnlockWork (c : Cmd) (s : State) (hd : τ.debug = true) :
    fixed τ (testUnlockWork c s).state = fixed τ s := by simp [testUnlockWork, hd]

@[simp] theorem fixed_readResources (fp : Nat) (s : State) : fixed τ (readResources fp s) = fixed τ s := by
  simp [readResources]

@[simp] theorem fixed_testStackAccessWork (c : Cmd) (dataOut : List Byte) (s : State) :
    fixed τ (testStackAccessWork c dataOut s).state = fixed τ s := by simp [testStackAccessWork]

/-! ### The flash after boot -/

@[simp] theorem fixed_fwBankEraseWork (c : Cmd) (s : State) : fixed τ (fwBankEraseWork c s).state = fixed τ s := by
  fun_cases fwBankEraseWork c s <;> simp

@[simp] theorem fixed_fwBankWriteWork (c : Cmd) (s : State) : fixed τ (fwBankWriteWork c s).state = fixed τ s := by
  fun_cases fwBankWriteWork c s <;> simp

@[simp] theorem fixed_fwBankActivateWork (c : Cmd) (s : State) :
    fixed τ (fwBankActivateWork c s).state = fixed τ s := by fun_cases fwBankActivateWork c s <;> simp

@[simp] theorem fixed_fwBootNextWork (c : Cmd) (s : State) : fixed τ (fwBootNextWork c s).state = fixed τ s := by
  simp [fwBootNextWork]

@[simp] theorem fixed_flashInfoWork (s : State) : fixed τ (flashInfoWork s).state = fixed τ s := by
  fun_cases flashInfoWork s <;> simp

@[simp] theorem fixed_rinseRecorded (t : Nat) (colour : BitVec 8) (s : State) :
    fixed τ (rinseRecorded t colour s) = fixed τ s := by fun_cases rinseRecorded t colour s <;> simp

@[simp] theorem fixed_storeRecord (n : Nat) (s : State) : fixed τ (storeRecord n s) = fixed τ s := by
  simp [storeRecord]

@[simp] theorem fixed_chunkWritten (c : Cmd) (b off : Nat) (data : List Byte) (s : State) :
    fixed τ (chunkWritten c b off data s) = fixed τ s := by simp [chunkWritten]

@[simp] theorem fixed_headerWritten (c : Cmd) (b : Nat) (h : BankHeader) (s : State) :
    fixed τ (headerWritten c b h s) = fixed τ s := by simp [headerWritten]

@[simp] theorem fixed_bankIdle (s : State) : fixed τ (bankIdle s) = fixed τ s := by simp [bankIdle]

@[simp] theorem fixed_jobDone (j : FlashJob) (ok : Bool) (s : State) : fixed τ (jobDone j ok s) = fixed τ s := by
  fun_cases jobDone j ok s <;> simp +zetaDelta

@[simp] theorem fixed_programComplete_resumeErase (s : State) :
    fixed τ (programComplete.resumeErase s) = fixed τ s := by
  fun_cases programComplete.resumeErase s <;> simp

@[simp] theorem fixed_programComplete (ok : Bool) (s : State) : fixed τ (programComplete ok s) = fixed τ s := by
  fun_cases programComplete ok s <;> simp

@[simp] theorem fixed_bankErased (ok : Bool) (s : State) : fixed τ (bankErased ok s) = fixed τ s := by
  fun_cases bankErased ok s <;> simp +zetaDelta

@[simp] theorem fixed_storeErased (ok : Bool) (s : State) : fixed τ (storeErased ok s) = fixed τ s := by
  simp [storeErased]

/-! ### Snapshots, the spout and the event log -/

@[simp] theorem fixed_turnRings (s : State) : fixed τ (turnRings s) = fixed τ s :=
  fixed_foldl _ _ _ fun s e => by split <;> simp

@[simp] theorem fixed_skipDevice (s : State) : fixed τ (skipDevice s) = fixed τ s := by simp [skipDevice]

@[simp] theorem fixed_skipAll (s : State) : fixed τ (skipAll s) = fixed τ s := by simp [skipAll]

@[simp] theorem fixed_latchMark (m : Nat) (s : State) : fixed τ (latchMark m s) = fixed τ s := by simp [latchMark]

@[simp] theorem fixed_answerSnapshot (l : Latch) (c : Cmd) (s : State) :
    fixed τ (answerSnapshot l c s) = fixed τ s := by simp [answerSnapshot]

@[simp] theorem fixed_answerCounters (l : Latch) (first count : Nat) (s : State) :
    fixed τ (answerCounters l first count s) = fixed τ s := by simp [answerCounters]

@[simp] theorem fixed_closeLatch (l : Latch) (s : State) : fixed τ (closeLatch l s) = fixed τ s := by
  simp [closeLatch]

@[simp] theorem fixed_closeLatches (k : Nat) (s : State) : fixed τ (closeLatches k s) = fixed τ s := by
  simp [closeLatches]

@[simp] theorem fixed_writeRecord (l : Latch) (tenant : Option Nat) (r : DumpRing) (s : State) :
    fixed τ (writeRecord l tenant r s) = fixed τ s := by simp [writeRecord]

@[simp] theorem fixed_dumpDevice (l : Latch) (consumer : Nat) (s : State) :
    fixed τ (dumpDevice l consumer s) = fixed τ s := by simp [dumpDevice]

@[simp] theorem fixed_dumpTenant (l : Latch) (t consumer : Nat) (s : State) :
    fixed τ (dumpTenant l t consumer s) = fixed τ s := by simp [dumpTenant]

@[simp] theorem fixed_dumpMark (consumers : List (Nat × Nat)) (s : State) :
    fixed τ (dumpMark consumers s) = fixed τ s := by fun_cases dumpMark consumers s <;> simp +zetaDelta

@[simp] theorem fixed_spoutRingFault (ring : Option Nat) (fault : Nat) (s : State) :
    fixed τ (spoutRingFault ring fault s) = fixed τ s := by fun_cases spoutRingFault ring fault s <;> simp

@[simp] theorem fixed_spoutStatusWork (c : Cmd) (s : State) : fixed τ (spoutStatusWork c s).state = fixed τ s := by
  simp [spoutStatusWork]

@[simp] theorem fixed_telemetrySnapshotWork (c : Cmd) (s : State) :
    fixed τ (telemetrySnapshotWork c s).state = fixed τ s := by simp [telemetrySnapshotWork]

@[simp] theorem fixed_tenantDumpAttachWork (c : Cmd) (s : State) :
    fixed τ (tenantDumpAttachWork c s).state = fixed τ s := by simp [tenantDumpAttachWork]

@[simp] theorem fixed_alertRead (read : List LogEntry) (s : State) : fixed τ (alertRead read s) = fixed τ s := by
  simp [alertRead]

@[simp] theorem fixed_eventLogReadWork (c : Cmd) (s : State) : fixed τ (eventLogReadWork c s).state = fixed τ s := by
  simp [eventLogReadWork]

@[simp] theorem fixed_eventLogClearWork (s : State) : fixed τ (eventLogClearWork s).state = fixed τ s := by
  simp [eventLogClearWork]

@[simp] theorem fixed_mctpBad (s : State) : fixed τ (mctpBad s) = fixed τ s := by simp [mctpBad]

@[simp] theorem fixed_mctpCounters (first count : Nat) (s : State) :
    fixed τ (mctpCounters first count s) = fixed τ s := by fun_cases mctpCounters first count s <;> simp

@[simp] theorem fixed_mctpLog (first : BitVec 32) (count : Nat) (s : State) :
    fixed τ (mctpLog first count s) = fixed τ s := by simp [mctpLog]

@[simp] theorem fixed_mctpSpoutStatus (s : State) : fixed τ (mctpSpoutStatus s) = fixed τ s := by
  simp [mctpSpoutStatus]

/-! ### The BAR0 window and the mailbox transport -/

@[simp] theorem fixed_mbxFault (k fault : Nat) (stop : Bool) (s : State) :
    fixed τ (mbxFault k fault stop s) = fixed τ s := by simp [mbxFault]

@[simp] theorem fixed_doorbellWrite (k : Nat) (v : BitVec 32) (s : State) :
    fixed τ (doorbellWrite k v s) = fixed τ s := by simp [doorbellWrite]

@[simp] theorem fixed_mbxEnable (k : Nat) (on : Bool) (s : State) : fixed τ (mbxEnable k on s) = fixed τ s := by
  simp [mbxEnable]

@[simp] theorem fixed_mbxEvents (k : Nat) (on : Bool) (s : State) : fixed τ (mbxEvents k on s) = fixed τ s := by
  simp [mbxEvents]

@[simp] theorem fixed_dropMailbox (k : Nat) (s : State) : fixed τ (dropMailbox k s) = fixed τ s := by
  simp [dropMailbox]

@[simp] theorem fixed_askWarmReset (s : State) : fixed τ (askWarmReset s) = fixed τ s := by simp [askWarmReset]

@[simp] theorem fixed_mailboxReset (k : Nat) (s : State) : fixed τ (mailboxReset k s) = fixed τ s := by
  simp [mailboxReset]

@[simp] theorem fixed_mbxReset (k : Nat) (s : State) : fixed τ (mbxReset k s) = fixed τ s := by simp [mbxReset]

@[simp] theorem fixed_intStatusClear (k : Nat) (v : BitVec 32) (s : State) :
    fixed τ (intStatusClear k v s) = fixed τ s := by simp [intStatusClear]

@[simp] theorem fixed_kettleFlagsClear (k : Nat) (v : BitVec 32) (s : State) :
    fixed τ (kettleFlagsClear k v s) = fixed τ s := by simp [kettleFlagsClear]

@[simp] theorem fixed_timebaseLatch (k off width : Nat) (s : State) :
    fixed τ (timebaseLatch k off width s) = fixed τ s := by simp [timebaseLatch]

@[simp] theorem fixed_bar0Read (k off width : Nat) (s : State) : fixed τ (bar0Read k off width s) = fixed τ s := by
  simp [bar0Read]

@[simp] theorem fixed_msixWrite (k i : Nat) (v : BitVec 32) (s : State) :
    fixed τ (msixWrite k i v s) = fixed τ s := by simp [msixWrite]

@[simp] theorem fixed_regWrite32 (k off : Nat) (v : BitVec 32) (s : State) :
    fixed τ (regWrite32 k off v s) = fixed τ s := by fun_cases regWrite32 k off v s <;> simp

@[simp] theorem fixed_registerWrite (k off width : Nat) (v : BitVec 64) (s : State) :
    fixed τ (registerWrite k off width v s) = fixed τ s := by simp [registerWrite]

@[simp] theorem fixed_takePlace (op : BitVec 16) (c : Cmd) (s : State) : fixed τ (takePlace op c s) = fixed τ s := by
  simp [takePlace]

@[simp] theorem fixed_fetched (k : Nat) (op : BitVec 16) (c : Cmd) (s : State) :
    fixed τ (fetched k op c s) = fixed τ s := by simp [fetched]

@[simp] theorem fixed_commandFetch (k : Fin 128) (slot hostIn : List Byte) (s : State) :
    fixed τ (commandFetch k slot hostIn s) = fixed τ s := by simp [commandFetch]

@[simp] theorem fixed_orderedStart (issuer : Issuer) (seq : BitVec 16) (s : State) :
    fixed τ (orderedStart issuer seq s) = fixed τ s := by fun_cases orderedStart issuer seq s <;> simp

@[simp] theorem fixed_signalCompletions (k : Nat) (s : State) : fixed τ (signalCompletions k s) = fixed τ s := by
  simp [signalCompletions]

@[simp] theorem fixed_noteCompletion (k : Nat) (s : State) : fixed τ (noteCompletion k s) = fixed τ s := by
  simp [noteCompletion]

@[simp] theorem fixed_warmAfter (e : Exec) (s : State) : fixed τ (warmAfter e s) = fixed τ s := by simp [warmAfter]

@[simp] theorem fixed_writeCompletion (k : Nat) (e : Exec) (s : State) :
    fixed τ (writeCompletion k e s) = fixed τ s := by simp [writeCompletion]

@[simp] theorem fixed_completionWrite (issuer : Issuer) (idx : Nat) (s : State) :
    fixed τ (completionWrite issuer idx s) = fixed τ s := by fun_cases completionWrite issuer idx s <;> simp

@[simp] theorem fixed_coalesceTimeout (k : Nat) (s : State) : fixed τ (coalesceTimeout k s) = fixed τ s := by
  fun_cases coalesceTimeout k s <;> simp

@[simp] theorem fixed_ringFault (k : Nat) (which : RingAccess) (s : State) :
    fixed τ (ringFault k which s) = fixed τ s := by simp [ringFault]

@[simp] theorem fixed_mctpCommand (message hostIn : List Byte) (s : State) :
    fixed τ (mctpCommand message hostIn s) = fixed τ s := by simp [mctpCommand]

/-! ### Calibration, retraining and parity -/

@[simp] theorem fixed_fallDue (fp d : Nat) (s : State) : fixed τ (fallDue fp d s) = fixed τ s := by
  fun_cases fallDue fp d s <;> simp

@[simp] theorem fixed_calibrationDue (fp : Nat) (s : State) : fixed τ (calibrationDue fp s) = fixed τ s := by
  fun_cases calibrationDue fp s <;> simp

@[simp] theorem fixed_calibrationForced (fp : Nat) (s : State) : fixed τ (calibrationForced fp s) = fixed τ s := by
  simp [calibrationForced]

@[simp] theorem fixed_calibrationEnd (fp : Nat) (r : CalResult) (s : State) :
    fixed τ (calibrationEnd fp r s) = fixed τ s := by fun_cases calibrationEnd fp r s <;> simp +zetaDelta

@[simp] theorem fixed_rrefMeasured (code : Nat) (s : State) : fixed τ (rrefMeasured code s) = fixed τ s := by
  simp [rrefMeasured]

@[simp] theorem fixed_rrefPeriodic (code : Nat) (s : State) : fixed τ (rrefPeriodic code s) = fixed τ s := by
  simp [rrefPeriodic]

@[simp] theorem fixed_retrainWindow (ch : Nat) (s : State) : fixed τ (retrainWindow ch s) = fixed τ s := by
  simp [retrainWindow]

@[simp] theorem fixed_benchExitFailed (ch : Nat) (s : State) : fixed τ (benchExitFailed ch s) = fixed τ s := by
  fun_cases benchExitFailed ch s <;> simp

@[simp] theorem fixed_retrainFailed (ch : Nat) (s : State) : fixed τ (retrainFailed ch s) = fixed τ s := by
  simp [retrainFailed]

@[simp] theorem fixed_retrained (ch : Nat) (r0 r1 : CalResult) (s : State) :
    fixed τ (retrained ch r0 r1 s) = fixed τ s := by fun_cases retrained ch r0 r1 s <;> simp +zetaDelta

@[simp] theorem fixed_retrainEnd (ch : Nat) (fail : List (Nat × Nat)) (r0 r1 : CalResult) (s : State) :
    fixed τ (retrainEnd ch fail r0 r1 s) = fixed τ s := by fun_cases retrainEnd ch fail r0 r1 s <;> simp

@[simp] theorem fixed_replayOne (c : RetryCmd) (s : State) : fixed τ (replayOne c s) = fixed τ s := by
  fun_cases replayOne c s <;> simp +zetaDelta

@[simp] theorem fixed_reopenRows (ch : Nat) (s : State) : fixed τ (reopenRows ch s) = fixed τ s := by
  simp [reopenRows]

@[simp] theorem fixed_parityAlert (ch : Nat) (s : State) : fixed τ (parityAlert ch s) = fixed τ s := by
  simp [parityAlert]

@[simp] theorem fixed_calStatusWork (c : Cmd) (s : State) : fixed τ (calStatusWork c s).state = fixed τ s := by
  simp [calStatusWork]

@[simp] theorem fixed_calStackSummaryWork (c : Cmd) (s : State) :
    fixed τ (calStackSummaryWork c s).state = fixed τ s := by simp [calStackSummaryWork]

/-! ### The reports of channel scheduling -/

@[simp] theorem fixed_latencyGetTargetsWork (c : Cmd) (s : State) :
    fixed τ (latencyGetTargetsWork c s).state = fixed τ s := by simp [latencyGetTargetsWork]

@[simp] theorem fixed_qosStatusWork (c : Cmd) (s : State) : fixed τ (qosStatusWork c s).state = fixed τ s := by
  simp [qosStatusWork]

@[simp] theorem fixed_pcStatusWork (c : Cmd) (s : State) : fixed τ (pcStatusWork c s).state = fixed τ s := by
  simp [pcStatusWork]

@[simp] theorem fixed_schedStatusWork (c : Cmd) (s : State) : fixed τ (schedStatusWork c s).state = fixed τ s := by
  simp [schedStatusWork]

/-! ### The debug-mux ports -/

@[simp] theorem fixed_setMuxPort (i : Nat) (p : MuxPort) (s : State) (hd : τ.debug = true) :
    fixed τ (setMuxPort i p s) = fixed τ s := by simp [setMuxPort, hd]

@[simp] theorem fixed_muxBoundary (i t : Nat) (s : State) (hd : τ.debug = true) :
    fixed τ (muxBoundary i t s) = fixed τ s := by simp [muxBoundary, hd]

@[simp] theorem fixed_muxPassed (i old new : Nat) (s : State) (hd : τ.debug = true) :
    fixed τ (muxPassed i old new s) = fixed τ s := by simp [muxPassed, hd]

@[simp] theorem fixed_muxWords (old : Nat) (s : State) (hd : τ.debug = true) :
    fixed τ (muxWords old s) = fixed τ s := by simp [muxWords, hd]

/-! ### The writes of a rinse in a period's work -/

@[simp] theorem fixed_extentActivates (t n x : Nat) (s : State) : fixed τ (extentActivates t n x s) = fixed τ s := by
  simp [extentActivates]

@[simp] theorem fixed_extentRinsed (t n x : Nat) (s : State) (hs : τ.contents = true) :
    fixed τ (extentRinsed t n x s) = fixed τ s := by simp [extentRinsed, hs]

@[simp] theorem fixed_writeOn (t n extents k : Nat) (s : State) (hs : τ.contents = true) :
    fixed τ (writeOn t n extents k s).2 = fixed τ s := by
  fun_induction writeOn t n extents k s with
  | case4 k s e x hx need hn hr ih => rw [ih]; simp [hs]
  | _ => simp +zetaDelta

@[simp] theorem fixed_rinseMoves (n k : Nat) (l : List Nat) (s : State) (hs : τ.contents = true) :
    fixed τ (rinseMoves n k l s).2 = fixed τ s :=
  fixed_foldl_snd _ _ _ fun x t => fixed_writeOn t n 256 x.1 x.2 hs

@[simp] theorem fixed_prepActivates (n x : Nat) (s : State) : fixed τ (prepActivates n x s) = fixed τ s := by
  simp [prepActivates]

@[simp] theorem fixed_prepMove (n k : Nat) (s : State) : fixed τ (prepMove n k s) = fixed τ s := by
  fun_cases prepMove n k s <;> simp +zetaDelta

@[simp] theorem fixed_rinsePeriod (n : Nat) (s : State) (hs : τ.contents = true) :
    fixed τ (rinsePeriod n s) = fixed τ s := by
  have ha (d : Nat) : fixed τ ((allow n d (freeStep s)).getD s) = fixed τ s := by
    cases h : allow n d (freeStep s) with
    | none => rfl
    | some t => exact (fixed_of_allow h).trans (fixed_freeStep s)
  fun_cases rinsePeriod n s <;> simp +zetaDelta [ha, hs]

/-! ### The brew period -/

@[simp] theorem fixed_channelsMark (m : Nat) (s : State) : fixed τ (channelsMark m s) = fixed τ s := by
  simp [channelsMark]

@[simp] theorem fixed_stackMark (n : Nat) (s : State) : fixed τ (stackMark n s) = fixed τ s := by simp [stackMark]

@[simp] theorem fixed_unitsMark (s : State) : fixed τ (unitsMark s) = fixed τ s := by simp [unitsMark]

@[simp] theorem fixed_windowMark (s : State) : fixed τ (windowMark s) = fixed τ s := by simp [windowMark]

@[simp] theorem fixed_periodMark (sensors : List Int) (s : State) (ht : τ.time = true) (hd : τ.debug = true) :
    fixed τ (periodMark sensors s) = fixed τ s := by simp [periodMark, ht, hd]

@[simp] theorem fixed_refillDie (n : Nat) (s : State) : fixed τ (refillDie n s) = fixed τ s := by simp [refillDie]

@[simp] theorem fixed_dropDummies (s : State) : fixed τ (dropDummies s) = fixed τ s := by simp [dropDummies]

@[simp] theorem fixed_governorTurn (k : Nat) (missing : List Nat) (s : State) (hc : τ.config = true) :
    fixed τ (governorTurn k missing s) = fixed τ s := by fun_cases governorTurn k missing s <;> simp [hc]

@[simp] theorem fixed_followLimits (d units : Nat) (s : State) : fixed τ (followLimits d units s) = fixed τ s := by
  simp [followLimits]

@[simp] theorem fixed_hubWork (k units : Nat) (missing : List Nat) (s : State) (hs : τ.contents = true)
    (hc : τ.config = true) : fixed τ (hubWork k units missing s) = fixed τ s := by simp [hubWork, hs, hc]

@[simp] theorem fixed_dieWork (d k units : Nat) (missing : List Nat) (s : State) (hs : τ.contents = true)
    (hc : τ.config = true) : fixed τ (dieWork d k units missing s) = fixed τ s := by simp [dieWork, hs, hc]

@[simp] theorem fixed_noteDebt (s : State) : fixed τ (noteDebt s) = fixed τ s := by simp [noteDebt]

@[simp] theorem fixed_periodWork (d dur units : Nat) (missing : List Nat) (s : State) (hs : τ.contents = true)
    (hc : τ.config = true) : fixed τ (periodWork d dur units missing s) = fixed τ s := by simp [periodWork, hs, hc]

/-! ### Core rails, power domains and doze -/

@[simp] theorem fixed_vcoreStep (r : Nat) (s : State) : fixed τ (vcoreStep r s) = fixed τ s := by simp [vcoreStep]

@[simp] theorem fixed_readRegulators (s : State) : fixed τ (readRegulators s) = fixed τ s := by simp [readRegulators]

@[simp] theorem fixed_vcoreStatusWork (c : Cmd) (s : State) : fixed τ (vcoreStatusWork c s).state = fixed τ s := by
  simp [vcoreStatusWork]

@[simp] theorem fixed_pdStatusWork (c : Cmd) (s : State) : fixed τ (pdStatusWork c s).state = fixed τ s := by
  simp [pdStatusWork]

@[simp] theorem fixed_switchDomain (d : Nat) (on : Bool) (s : State) : fixed τ (switchDomain d on s) = fixed τ s := by
  simp [switchDomain]

@[simp] theorem fixed_portTrains (k : Nat) (s : State) : fixed τ (portTrains k s) = fixed τ s := by simp [portTrains]

@[simp] theorem fixed_domainPowerOn (d : Nat) (s : State) : fixed τ (domainPowerOn d s) = fixed τ s := by
  simp [domainPowerOn]

@[simp] theorem fixed_domainLoses (d : Nat) (s : State) : fixed τ (domainLoses d s) = fixed τ s := by
  simp [domainLoses]

@[simp] theorem fixed_domainPowerOff (d : Nat) (s : State) : fixed τ (domainPowerOff d s) = fixed τ s := by
  simp [domainPowerOff]

@[simp] theorem fixed_potClearDone (q : Nat) (s : State) (hs : τ.contents = true) :
    fixed τ (potClearDone q s) = fixed τ s := by simp [potClearDone, hs]

@[simp] theorem fixed_portsDoze (s : State) : fixed τ (portsDoze s) = fixed τ s := by simp [portsDoze]

@[simp] theorem fixed_dozeEnterWork (c : Cmd) (s : State) : fixed τ (dozeEnterWork c s).state = fixed τ s := by
  simp [dozeEnterWork]

@[simp] theorem fixed_hostLinkL2 (s : State) : fixed τ (hostLinkL2 s) = fixed τ s := by
  fun_cases hostLinkL2 s <;> simp

@[simp] theorem fixed_dozeL2Timeout (s : State) : fixed τ (dozeL2Timeout s) = fixed τ s := by
  fun_cases dozeL2Timeout s <;> simp +zetaDelta

/-! ### The reset kinds -/

@[simp] theorem fixed_startRom (s : State) : fixed τ (startRom s) = fixed τ s := by simp [startRom]

@[simp] theorem fixed_owedRestores (s : State) : fixed τ (owedRestores s) = fixed τ s := by simp [owedRestores]

@[simp] theorem fixed_warmState (last : Nat) (kept : Bool) (s : State) (hs : τ.contents = true) (hc : τ.config = true)
    (hd : τ.debug = true) : fixed τ (warmState last kept s) = fixed τ s := by simp [warmState, hs, hc, hd]

@[simp] theorem fixed_warmReset (last : Nat) (s : State) (hs : τ.contents = true) (hc : τ.config = true)
    (hd : τ.debug = true) : fixed τ (warmReset last s) = fixed τ s := by simp [warmReset, hs, hc, hd]

@[simp] theorem fixed_powerOn (straps : BitVec 6) (s : State) (hs : τ.contents = true) (hc : τ.config = true)
    (ht : τ.time = true) (hd : τ.debug = true) : fixed τ (powerOn straps s) = fixed τ s := by
  simp [powerOn, hs, hc, ht, hd]

@[simp] theorem fixed_perstLow (s : State) (hs : τ.contents = true) (hc : τ.config = true) (hd : τ.debug = true) :
    fixed τ (perstLow s) = fixed τ s := by simp [perstLow, hs, hc, hd]

@[simp] theorem fixed_hotReset (s : State) (hs : τ.contents = true) (hc : τ.config = true) (hd : τ.debug = true) :
    fixed τ (hotReset s) = fixed τ s := by simp [hotReset, hs, hc, hd]

@[simp] theorem fixed_warmResetWork (c : Cmd) (s : State) : fixed τ (warmResetWork c s).state = fixed τ s := by
  simp [warmResetWork]

@[simp] theorem fixed_warmResetDue (s : State) (hs : τ.contents = true) (hc : τ.config = true) (hd : τ.debug = true) :
    fixed τ (warmResetDue s) = fixed τ s := by fun_cases warmResetDue s <;> simp [hs, hc, hd]

@[simp] theorem fixed_resetMailboxes (s : State) : fixed τ (resetMailboxes s) = fixed τ s := by simp [resetMailboxes]

@[simp] theorem fixed_dropStaged (s : State) : fixed τ (dropStaged s) = fixed τ s := by simp [dropStaged]

@[simp] theorem fixed_lockBanks (s : State) : fixed τ (lockBanks s) = fixed τ s := by simp [lockBanks]

@[simp] theorem fixed_watchdogExpired (s : State) : fixed τ (watchdogExpired s) = fixed τ s := by
  simp [watchdogExpired]

@[simp] theorem fixed_reloadDone (ok : Bool) (s : State) : fixed τ (reloadDone ok s) = fixed τ s := by
  simp [reloadDone]

@[simp] theorem fixed_stopWaiting (t : Nat) (s : State) : fixed τ (stopWaiting t s) = fixed τ s := by
  simp [stopWaiting]

@[simp] theorem fixed_stopTenant (t : Nat) (s : State) : fixed τ (stopTenant t s) = fixed τ s := by simp [stopTenant]

@[simp] theorem fixed_partitionResetWork (c : Cmd) (s : State) :
    fixed τ (partitionResetWork c s).state = fixed τ s := by simp [partitionResetWork]

@[simp] theorem fixed_detachRing (t : Nat) (s : State) : fixed τ (detachRing t s) = fixed τ s := by simp [detachRing]

@[simp] theorem fixed_resetFunction (k : Nat) (s : State) : fixed τ (resetFunction k s) = fixed τ s := by
  simp [resetFunction]

@[simp] theorem fixed_functionReset (k : Nat) (s : State) : fixed τ (functionReset k s) = fixed τ s := by
  simp [functionReset]

/-! ### Supplies, boot and the TAP -/

@[simp] theorem fixed_pgCoreRise (s : State) : fixed τ (pgCoreRise s) = fixed τ s := by simp [pgCoreRise]

@[simp] theorem fixed_pgCoreFall (s : State) : fixed τ (pgCoreFall s) = fixed τ s := by simp [pgCoreFall]

@[simp] theorem fixed_pgCoreTimeout (s : State) : fixed τ (pgCoreTimeout s) = fixed τ s := by
  fun_cases pgCoreTimeout s <;> simp

@[simp] theorem fixed_refclkLoss (s : State) : fixed τ (refclkLoss s) = fixed τ s := by simp [refclkLoss]

@[simp] theorem fixed_vauxLoss (s : State) : fixed τ (vauxLoss s) = fixed τ s := by simp [vauxLoss]

@[simp] theorem fixed_railLost (s : State) (hs : τ.contents = true) : fixed τ (railLost s) = fixed τ s := by
  simp [railLost, hs]

@[simp] theorem fixed_regulatorFault (r : Nat) (s : State) : fixed τ (regulatorFault r s) = fixed τ s := by
  simp [regulatorFault]

@[simp] theorem fixed_perstRise (s : State) (hd : τ.debug = true) : fixed τ (perstRise s) = fixed τ s := by
  simp [perstRise, hd]

@[simp] theorem fixed_cfgSpaceLoaded (s : State) : fixed τ (cfgSpaceLoaded s) = fixed τ s := by simp [cfgSpaceLoaded]

@[simp] theorem fixed_configRequest (k tag : Nat) (req : CfgReq) (s : State) :
    fixed τ (configRequest k tag req s) = fixed τ s := by fun_cases configRequest k tag req s <;> simp +zetaDelta

@[simp] theorem fixed_recover (s : State) : fixed τ (recover s) = fixed τ s := by simp [recover]

@[simp] theorem fixed_nextBank (s : State) : fixed τ (nextBank s) = fixed τ s := by fun_cases nextBank s <;> simp

@[simp] theorem fixed_romRref (code : Nat) (s : State) : fixed τ (romRref code s) = fixed τ s := by simp [romRref]

@[simp] theorem fixed_romCheckDone (code : Nat) (sfdp : Option Sfdp) (s : State) :
    fixed τ (romCheckDone code sfdp s) = fixed τ s := by simp [romCheckDone]

@[simp] theorem fixed_imageLoaded (ok : Bool) (s : State) : fixed τ (imageLoaded ok s) = fixed τ s := by
  simp [imageLoaded]

@[simp] theorem fixed_markIncomplete (t : Nat) (s : State) : fixed τ (markIncomplete t s) = fixed τ s := by
  simp [markIncomplete]

@[simp] theorem fixed_restoreConfig (s : State) (hc : τ.config = true) : fixed τ (restoreConfig s) = fixed τ s := by
  simp [restoreConfig, hc]

@[simp] theorem fixed_recordedRetired (s : State) (hc : τ.config = true) :
    fixed τ (recordedRetired s) = fixed τ s := by simp [recordedRetired, hc]

@[simp] theorem fixed_startGovernor (s : State) : fixed τ (startGovernor s) = fixed τ s := by simp [startGovernor]

@[simp] theorem fixed_regulatorsAtBoot (avs : Bool) (s : State) : fixed τ (regulatorsAtBoot avs s) = fixed τ s := by
  simp [regulatorsAtBoot]

@[simp] theorem fixed_yareskDone (avs : Bool) (s : State) (hs : τ.contents = true) (hc : τ.config = true) :
    fixed τ (yareskDone avs s) = fixed τ s := by simp [yareskDone, hs, hc]

@[simp] theorem fixed_steepOver (s : State) : fixed τ (steepOver s) = fixed τ s := by
  fun_cases steepOver s <;> simp +zetaDelta

@[simp] theorem fixed_retireAtBoot (n : Nat) (s : State) (hc : τ.config = true) :
    fixed τ (retireAtBoot n s) = fixed τ s := by simp [retireAtBoot, hc]

@[simp] theorem fixed_mapoutAtBoot (n ch : Nat) (s : State) : fixed τ (mapoutAtBoot n ch s) = fixed τ s := by
  simp [mapoutAtBoot]

@[simp] theorem fixed_bootRepairs (n : Nat) (r : TrainResult) (s : State) :
    fixed τ (bootRepairs n r s) = fixed τ s := by simp [bootRepairs]

@[simp] theorem fixed_bootCodes (n : Nat) (r : TrainResult) (s : State) : fixed τ (bootCodes n r s) = fixed τ s := by
  simp [bootCodes]

@[simp] theorem fixed_prepareAtBoot (n : Nat) (s : State) (hs : τ.contents = true) :
    fixed τ (prepareAtBoot n s) = fixed τ s := by simp [prepareAtBoot, hs]

@[simp] theorem fixed_goOnline (n : Nat) (i : StackIdent) (s : State) : fixed τ (goOnline n i s) = fixed τ s := by
  simp [goOnline]

@[simp] theorem fixed_wakeLost (n : Nat) (s : State) : fixed τ (wakeLost n s) = fixed τ s := by simp [wakeLost]

@[simp] theorem fixed_trainedCold (n : Nat) (r : TrainResult) (s : State) (hs : τ.contents = true)
    (hc : τ.config = true) : fixed τ (trainedCold n r s) = fixed τ s := by simp [trainedCold, hs, hc]

@[simp] theorem fixed_warmChannel (n ch : Nat) (s : State) : fixed τ (warmChannel n ch s) = fixed τ s := by
  simp [warmChannel]

@[simp] theorem fixed_resumeRepair (ch : Nat) (s : State) (hs : τ.contents = true) :
    fixed τ (resumeRepair ch s) = fixed τ s := by fun_cases resumeRepair ch s <;> simp +zetaDelta [hs]

@[simp] theorem fixed_trainedWarm (n : Nat) (r : TrainResult) (s : State) (hs : τ.contents = true) :
    fixed τ (trainedWarm n r s) = fixed τ s := by simp [trainedWarm, hs]

@[simp] theorem fixed_trainingDone (n : Nat) (r : TrainResult) (s : State) (hs : τ.contents = true)
    (hc : τ.config = true) : fixed τ (trainingDone n r s) = fixed τ s := by simp [trainingDone, hs, hc]

@[simp] theorem fixed_mirrorColour (t : Nat) (s : State) (hc : τ.config = true) :
    fixed τ (mirrorColour t s) = fixed τ s := by fun_cases mirrorColour t s <;> simp [hc]

@[simp] theorem fixed_lostContents (s : State) (hs : τ.contents = true) (hc : τ.config = true) :
    fixed τ (lostContents s) = fixed τ s := by simp [lostContents, hs, hc]

@[simp] theorem fixed_fillBuckets (s : State) : fixed τ (fillBuckets s) = fixed τ s := by simp [fillBuckets]

@[simp] theorem fixed_bootReady (s : State) (hs : τ.contents = true) (hc : τ.config = true) :
    fixed τ (bootReady s) = fixed τ s := by simp [bootReady, hs, hc]

@[simp] theorem fixed_tapUpdate (i : TapInstr) (s : State) (hs : τ.contents = true) (hc : τ.config = true)
    (hd : τ.debug = true) : fixed τ (tapUpdate i s) = fixed τ s := by simp [tapUpdate, hs, hc, hd]

/-! ### The steep commands -/

@[simp] theorem fixed_kettleSteepLimitsWork (c : Cmd) (s : State) :
    fixed τ (kettleSteepLimitsWork c s).state = fixed τ s := by simp [kettleSteepLimitsWork]

@[simp] theorem fixed_kettleSteepTrimWork (c : Cmd) (s : State) :
    fixed τ (kettleSteepTrimWork c s).state = fixed τ s := by simp [kettleSteepTrimWork]

@[simp] theorem fixed_kbSteepMasterWork (c : Cmd) (s : State) :
    fixed τ (kbSteepMasterWork c s).state = fixed τ s := by simp [kbSteepMasterWork]

@[simp] theorem fixed_pdSteepGateWork (c : Cmd) (s : State) : fixed τ (pdSteepGateWork c s).state = fixed τ s := by
  simp [pdSteepGateWork]

@[simp] theorem fixed_vcoreSteepTargetWork (c : Cmd) (s : State) :
    fixed τ (vcoreSteepTargetWork c s).state = fixed τ s := by simp [vcoreSteepTargetWork]

@[simp] theorem fixed_partitionSteepExtentsWork (c : Cmd) (s : State) :
    fixed τ (partitionSteepExtentsWork c s).state = fixed τ s := by simp [partitionSteepExtentsWork]

@[simp] theorem fixed_partitionSteepColourWork (c : Cmd) (s : State) :
    fixed τ (partitionSteepColourWork c s).state = fixed τ s := by simp [partitionSteepColourWork]

@[simp] theorem fixed_partitionSteepPotWork (c : Cmd) (s : State) :
    fixed τ (partitionSteepPotWork c s).state = fixed τ s := by simp [partitionSteepPotWork]

@[simp] theorem fixed_hashSteepMasksWork (c : Cmd) (s : State) :
    fixed τ (hashSteepMasksWork c s).state = fixed τ s := by simp [hashSteepMasksWork]

@[simp] theorem fixed_regulatorSteepWork (c : Cmd) (s : State) :
    fixed τ (regulatorSteepWork c s).state = fixed τ s := by simp [regulatorSteepWork]

@[simp] theorem fixed_latencySteepTargetsWork (c : Cmd) (s : State) :
    fixed τ (latencySteepTargetsWork c s).state = fixed τ s := by simp [latencySteepTargetsWork]

@[simp] theorem fixed_schedSteepPolicyWork (c : Cmd) (s : State) :
    fixed τ (schedSteepPolicyWork c s).state = fixed τ s := by simp [schedSteepPolicyWork]

@[simp] theorem fixed_disturbSteepModeWork (c : Cmd) (s : State) :
    fixed τ (disturbSteepModeWork c s).state = fixed τ s := by simp [disturbSteepModeWork]

@[simp] theorem fixed_disturbSteepLimitsWork (c : Cmd) (s : State) :
    fixed τ (disturbSteepLimitsWork c s).state = fixed τ s := by simp [disturbSteepLimitsWork]

@[simp] theorem fixed_integritySteepPolicyWork (c : Cmd) (s : State) :
    fixed τ (integritySteepPolicyWork c s).state = fixed τ s := by simp [integritySteepPolicyWork]

@[simp] theorem fixed_thermalSteepAdvisoryWork (c : Cmd) (s : State) :
    fixed τ (thermalSteepAdvisoryWork c s).state = fixed τ s := by simp [thermalSteepAdvisoryWork]

@[simp] theorem fixed_tileSteepPolicyWork (c : Cmd) (s : State) :
    fixed τ (tileSteepPolicyWork c s).state = fixed τ s := by simp [tileSteepPolicyWork]

@[simp] theorem fixed_peerSteepPortWork (c : Cmd) (s : State) :
    fixed τ (peerSteepPortWork c s).state = fixed τ s := by simp [peerSteepPortWork]

@[simp] theorem fixed_peerSteepConnWork (c : Cmd) (s : State) :
    fixed τ (peerSteepConnWork c s).state = fixed τ s := by simp [peerSteepConnWork]

@[simp] theorem fixed_peerSteepHandleWork (c : Cmd) (s : State) :
    fixed τ (peerSteepHandleWork c s).state = fixed τ s := by simp [peerSteepHandleWork]

@[simp] theorem fixed_twinSteepWork (c : Cmd) (s : State) : fixed τ (twinSteepWork c s).state = fixed τ s := by
  simp [twinSteepWork]

@[simp] theorem fixed_twinSteepPartitionWork (c : Cmd) (s : State) :
    fixed τ (twinSteepPartitionWork c s).state = fixed τ s := by simp [twinSteepPartitionWork]

@[simp] theorem fixed_spoutSteepWork (c : Cmd) (s : State) : fixed τ (spoutSteepWork c s).state = fixed τ s := by
  simp [spoutSteepWork]

@[simp] theorem fixed_debugSteepMuxWork (c : Cmd) (s : State) :
    fixed τ (debugSteepMuxWork c s).state = fixed τ s := by simp [debugSteepMuxWork]

/-! ### A failed access of host memory -/

@[simp] theorem fixed_failOutputs (s s' : State) : fixed τ (failOutputs s s') = fixed τ s' := by simp [failOutputs]

@[simp] theorem fixed_failWrite (s : State) (r : Reply) : fixed τ (failWrite s r).state = fixed τ r.state := by
  fun_cases failWrite s r <;> simp

theorem fixed_of_writingWork {op : Nat} {c : Cmd} {work : State → Reply} (h : writingWork op c = some work) (s : State)
    (hd : τ.debug = true) : fixed τ (work s).state = fixed τ s := by
  unfold writingWork at h
  split at h
  case h_13 => cases h
  all_goals
    obtain rfl := Option.some.inj h
    simp [hd]

@[simp] theorem fixed_snapshotFault (c : Cmd) (s : State) : fixed τ (snapshotFault c s) = fixed τ s := by
  simp [snapshotFault]

@[simp] theorem fixed_writeFault (op : Nat) (c : Cmd) (s : State) (hd : τ.debug = true) :
    fixed τ (writeFault op c s) = fixed τ s := by
  fun_cases writeFault op c s with
  | case2 => simp [fixed_of_writingWork ‹writingWork _ _ = some _›, hd]
  | _ => simp

/-- A read that fails leaves the state as it was, or as the refusal of its command left it. -/
theorem fixed_failRead (s : State) (result : List Byte) (r : Reply) (h : fixed τ r.state = fixed τ s) :
    fixed τ (failRead s result r).state = fixed τ s := by
  fun_cases failRead s result r <;> simp_all

@[simp] theorem fixed_pagesWritten (c : Cmd) (pages : Nat) (s : State) :
    fixed τ (pagesWritten c pages s) = fixed τ s := by simp [pagesWritten]

@[simp] theorem fixed_bankWriteFault (c : Cmd) (pages : Nat) (s : State) :
    fixed τ (bankWriteFault c pages s) = fixed τ s := by
  fun_cases bankWriteFault c pages s with
  | case1 => simp +zetaDelta
  | case2 =>
    refine fixed_mailbox _ _ _ _ ?_
    have h := fixed_fwBankWriteWork (τ := τ) c s
    split
    · simp
    · exact h

@[simp] theorem fixed_unlockFault (c : Cmd) (s : State) (hd : τ.debug = true) :
    fixed τ (unlockFault c s).state = fixed τ s := by
  have h := fixed_testUnlockWork c s hd
  fun_cases unlockFault c s <;> simp_all

@[simp] theorem fixed_prepareFault (c : Cmd) (s : State) : fixed τ (prepareFault c s).state = fixed τ s := by
  fun_cases prepareFault c s <;> simp

@[simp] theorem fixed_readFault (op : Nat) (c : Cmd) (pages : Nat) (s : State) (hd : τ.debug = true) :
    fixed τ (readFault op c pages s) = fixed τ s := by
  fun_cases readFault op c pages s <;> simp [fixed_failRead, hd]

/-! ### Every command -/

/-- The kinds of change that a command may make. -/
def touchOf (i : Instr) : Touch where
  contents := mayStore i
  config := mayConfigure i
  time := mayMoveTime i
  debug := mayChangeDebug i

/-- Every command answers a next state that has the fixed part of its kinds. The commands that may change some of it are
listed; every other one is an operation that keeps all of it. -/
theorem exec_fixed (i : Instr) (s : State) :
    ∃ t, exec i s = .next t ∧ fixed (touchOf i) t = fixed (touchOf i) s := by
  cases i with
  | testNonce c => exact ⟨_, rfl, fixed_mailbox _ c _ s (fixed_testNonceWork c s rfl)⟩
  | testUnlock c => exact ⟨_, rfl, fixed_mailbox _ c _ s (fixed_testUnlockWork c s rfl)⟩
  | hostAccessFault op c write n =>
    cases write with
    | true => exact ⟨_, rfl, fixed_writeFault _ c s rfl⟩
    | false => exact ⟨_, rfl, fixed_readFault _ c n s rfl⟩
  | porNRise straps => exact ⟨_, rfl, fixed_powerOn straps s rfl rfl rfl rfl⟩
  | perstNLow => exact ⟨_, rfl, fixed_perstLow s rfl rfl rfl⟩
  | hostHotReset => exact ⟨_, rfl, fixed_hotReset s rfl rfl rfl⟩
  | warmResetDelayExpiry => exact ⟨_, rfl, fixed_warmResetDue s rfl rfl rfl⟩
  | stackRailOutOfRange => exact ⟨_, rfl, fixed_railLost s rfl⟩
  | perstNRise => exact ⟨_, rfl, fixed_perstRise s rfl⟩
  | tapInstructionUpdate op => exact ⟨_, rfl, fixed_tapUpdate op s rfl rfl rfl⟩
  | tapTestLogicReset => exact ⟨_, rfl, fixed_tapUpdate .idcode s rfl rfl rfl⟩
  | yareskStartDone avs => exact ⟨_, rfl, fixed_yareskDone avs s rfl rfl⟩
  | stackTrainingDone n r => exact ⟨_, rfl, fixed_trainingDone n.val r s rfl rfl⟩
  | bootReady => exact ⟨_, rfl, fixed_bootReady s rfl rfl⟩
  | periodMark sensors => exact ⟨_, rfl, fixed_periodMark sensors s rfl rfl⟩
  | periodWork die dur w => exact ⟨_, rfl, fixed_periodWork die.val dur w.units w.missing s rfl rfl⟩
  | potClearDone q => exact ⟨_, rfl, fixed_potClearDone q.val s rfl⟩
  | bar2Read k tag off len => exact ⟨_, rfl, fixed_bar2Access k.val tag off len false [] false none s rfl⟩
  | bar2Write k off data ep => exact ⟨_, rfl, fixed_bar2Access k.val 0 off data.length true data ep none s rfl⟩
  | bar2Atomic k tag off width op => exact ⟨_, rfl, fixed_bar2Atomic k.val tag off width op s rfl⟩
  | regulatorAdmit id => exact ⟨_, rfl, (fixed_engineTurn _ rfl).trans (fixed_regulatorAdmit id s)⟩
  | kettleAdmit w => exact ⟨_, rfl, (fixed_engineTurn _ rfl).trans (fixed_kettleAdmit w s rfl)⟩
  | queueEntry id => exact ⟨_, rfl, (fixed_engineTurn _ rfl).trans (fixed_queueEntry id s)⟩
  | commandSlot fp ready exer cosy =>
    exact ⟨_, rfl, (fixed_engineTurn _ rfl).trans (fixed_slotOrRepay fp.val ready exer cosy s rfl)⟩
  | readDataReturn src flips => exact ⟨_, rfl, (fixed_engineTurn _ rfl).trans (fixed_readReturn src flips s rfl)⟩
  | scaldAbortTimeout w =>
    refine ⟨_, rfl, (fixed_engineTurn _ rfl).trans ?_⟩
    cases w with
    | infuser n => exact fixed_abortInfuser n.val s rfl
    | _ => simp
  | infuserOpComplete n how => exact ⟨_, rfl, fixed_infuserComplete n.val how s rfl⟩
  | rowRepairEnd ch ok => exact ⟨_, rfl, fixed_rowEnd ch.val ok s rfl⟩
  | mapoutWindowClose n => exact ⟨_, rfl, fixed_mapoutClose n.val s rfl⟩
  | stackRetireWindow n => exact ⟨_, rfl, fixed_retireWindow n.val s rfl⟩
  | foldPrepDone n x => exact ⟨_, rfl, fixed_foldPrepDone n.val x s rfl⟩
  | extentJoinDone t n x => exact ⟨_, rfl, fixed_joinDone t.val n.val x s rfl⟩
  | rinseColourRotate t =>
    refine ⟨_, rfl, ?_⟩
    split
    · exact (fixed_staleCopy _ _).trans (fixed_rotateColour t.val s rfl rfl)
    · rfl
  | exerRestoreDone n =>
    refine ⟨_, rfl, ?_⟩
    split
    · simpa using fixed_writeReserved n.val s rfl
    · rfl
  | heartbeatFrame k f => exact ⟨_, rfl, fixed_heartbeatReceived k.val f s rfl⟩
  | twinHeartbeatMark => exact ⟨_, rfl, fixed_heartbeatMark s rfl⟩
  | responseFrame k f =>
    refine ⟨_, rfl, fixed_rxSequenced _ _ f _ s fun c s => ?_⟩
    split <;> simp
  | badPeerFrame k why => exact ⟨if linkUp s k.val then discardFrame k.val s else s, rfl, by simp⟩
  | _ => exact ⟨_, rfl, by simp⟩

/-- What a command's next state has of the state before it. -/
theorem fixed_of_exec {i : Instr} {s t : State} (h : exec i s = .next t) :
    fixed (touchOf i) t = fixed (touchOf i) s := by
  obtain ⟨u, hu, hf⟩ := exec_fixed i s
  obtain rfl : u = t := Host.Outcome.next.inj (hu.symm.trans h)
  exact hf

section
variable {s t : State} (h : fixed τ t = fixed τ s)
include h

theorem pending_of_fixed : t.pending = s.pending := congrArg FixedPart.pending h

theorem ident_of_fixed : t.ident = s.ident := congrArg FixedPart.ident h

theorem hbm_of_fixed (hs : τ.contents = false) : t.hbm = s.hbm := by
  simpa [fixed, hs] using congrArg FixedPart.hbm h

theorem pot_of_fixed (hs : τ.contents = false) : t.pot = s.pot := by
  simpa [fixed, hs] using congrArg FixedPart.pot h

theorem inForce_of_fixed (hc : τ.config = false) : t.cfg.inForce = s.cfg.inForce := by
  simpa [fixed, hc] using congrArg FixedPart.inForce h

theorem clock_of_fixed (ht : τ.time = false) : t.clock = s.clock := by
  simpa [fixed, ht] using congrArg FixedPart.clock h

theorem dbg_of_fixed (hd : τ.debug = false) : t.dbg = s.dbg := by
  simpa [fixed, hd] using congrArg FixedPart.dbg h

end

/-- Settles O52: a command that is not named for a part has that part among its fixed ones, and every command has the
identity. -/
theorem onlyNamedCommandsChangeSystemState : Obligations.OnlyNamedCommandsChangeSystemState := by
  unfold Obligations.OnlyNamedCommandsChangeSystemState
  exact ⟨fun i s t hi h => inForce_of_fixed (fixed_of_exec h) hi, fun i s t hi h => clock_of_fixed (fixed_of_exec h) hi,
    fun i s t hi h => dbg_of_fixed (fixed_of_exec h) hi, fun i s t h => ident_of_fixed (fixed_of_exec h)⟩

/-! ### One step: the front command, or a tick (R9, R24) -/

/-- t differs from s at most in the words of the debug-mux ports and in how many free values they have used. -/
def MuxFrame (s t : State) : Prop :=
  ∃ m₀ m₁ n, t = { s with dbg := { s.dbg with mux0 := m₀, mux1 := m₁ }, freeCount := n }

theorem MuxFrame.refl (s : State) : MuxFrame s s := ⟨_, _, _, rfl⟩

theorem MuxFrame.trans {a b c : State} (h : MuxFrame a b) (g : MuxFrame b c) : MuxFrame a c := by
  obtain ⟨_, _, _, rfl⟩ := h
  obtain ⟨_, _, _, rfl⟩ := g
  exact ⟨_, _, _, rfl⟩

/-- What the frame says, with the ports' words and the free values read off the later state. -/
theorem MuxFrame.eq {s t : State} (h : MuxFrame s t) :
    t = { s with dbg := { s.dbg with mux0 := t.dbg.mux0, mux1 := t.dbg.mux1 }, freeCount := t.freeCount } := by
  obtain ⟨_, _, _, rfl⟩ := h
  rfl

theorem setMuxPort_frame (i : Nat) (p : MuxPort) (s : State) : MuxFrame s (setMuxPort i p s) := by
  unfold setMuxPort
  split
  · exact ⟨_, _, _, rfl⟩
  · exact ⟨_, _, _, rfl⟩

/-- A word boundary of a port forms its next word (R470). -/
theorem muxBoundary_frame (i t : Nat) (s : State) : MuxFrame s (muxBoundary i t s) := by
  unfold muxBoundary
  extract_lets p clk at_ s₁
  have h : MuxFrame s s₁ := setMuxPort_frame i _ s
  split
  · exact h.trans ⟨_, _, _, rfl⟩
  · exact h

theorem muxBoundary_ite_frame (c : Prop) [Decidable c] (i t : Nat) (s : State) :
    MuxFrame s (if c then muxBoundary i t s else s) := by
  split
  · exact muxBoundary_frame i t s
  · exact .refl s

theorem muxPassed_frame (i old new : Nat) (s : State) : MuxFrame s (muxPassed i old new s) :=
  ((muxBoundary_ite_frame _ i _ s).trans (muxBoundary_ite_frame _ i _ _)).trans (muxBoundary_ite_frame _ i _ _)

theorem muxWords_frame (old : Nat) (s : State) : MuxFrame s (muxWords old s) := by
  unfold muxWords
  split
  · exact (muxPassed_frame 0 _ _ s).trans (muxPassed_frame 1 _ _ _)
  · exact .refl s

/-- A mark takes the timebase to its multiple of 1024 and is the period number, whatever else it does (R24). -/
theorem periodMark_clock (sensors : List Int) {s : State} (hr : s.pins.refclk = true) (hv : s.pins.vaux = true) :
    (periodMark sensors s).clock = { timebase := 1024 * nextMark s % 2 ^ 64, mark := nextMark s } := by
  let τ : Touch := { debug := true }
  let s₀ : State := { s with clock := { timebase := 1024 * nextMark s % 2 ^ 64, mark := nextMark s } }
  have h : fixed τ (periodMark sensors s) = fixed τ s₀ := by simp [periodMark, hr, hv, τ, s₀]
  have hc : (periodMark sensors s).clock = s₀.clock := clock_of_fixed h rfl
  exact hc

/-- The timebase stands still without REFCLK (R103). -/
theorem tick_of_no_refclk {s : State} (h : s.pins.refclk = false) : tick s = s := by simp [tick, h]

theorem tick_of_mark {s : State} (hr : s.pins.refclk = true) (hv : s.pins.vaux = true)
    (hm : (s.clock.timebase + 1) % 1024 = 0) : tick s = periodMark (lastSensors s) s := by
  simp [tick, now, hr, hv, hm]

theorem tick_of_no_mark {s : State} (hr : s.pins.refclk = true)
    (h : s.pins.vaux = false ∨ (s.clock.timebase + 1) % 1024 ≠ 0) :
    tick s = muxWords (now s) { s with clock := { s.clock with timebase := (s.clock.timebase + 1) % 2 ^ 64 } } := by
  have hc : ¬((decide ((now s + 1) % 1024 = 0) && s.pins.vaux) = true) := by
    rcases h with h | h <;> simp [now, h]
  simp only [tick, hr, Bool.not_true, Bool.false_eq_true, if_false, if_neg hc]

/-- The mark that a tick reaches is the next one. -/
theorem mul_nextMark_of_mark {s : State} (hm : (s.clock.timebase + 1) % 1024 = 0) :
    1024 * nextMark s = s.clock.timebase + 1 ∧ nextMark s = (s.clock.timebase + 1) / 1024 := by
  unfold nextMark now
  omega

/-- Settles O1: a step runs the front command by definition; a tick is a mark, or the timebase's next count with the
words of the debug-mux ports. -/
theorem stepRunsFrontCommand : Obligations.StepRunsFrontCommand := by
  unfold Obligations.StepRunsFrontCommand
  refine ⟨fun c s rest => rfl, fun s => rfl, ?_, ?_, fun s => tick_of_no_refclk, fun nbits w s => ⟨rfl, rfl⟩⟩
  · intro s hr h
    rw [tick_of_no_mark hr h]
    exact (muxWords_frame _ _).eq
  · intro s hr hv hm
    obtain ⟨hmul, hmark⟩ := mul_nextMark_of_mark hm
    have hclock := periodMark_clock (lastSensors s) hr hv
    rw [tick_of_mark hr hv hm]
    exact ⟨rfl, by rw [hclock, hmul], by rw [hclock, hmark]⟩

/-! ### The state after a power-on reset (R9, R98, R106, R107, R185) -/

/-- At reset tenant Tk has the colour k + 1 of its reset value (R185; log entry 36). -/
theorem colourOf_reset (t : Fin 128) : (colourOf State.reset t.val).toNat = t.val + 1 := by
  have h : cfgN State.reset 0x0201 0 t.val = t.val + 1 := rfl
  rw [colourOf, h, BitVec.toNat_ofNat, Nat.mod_eq_of_lt (by omega)]

/-- At reset no tenant has a grain of the pot or an extent. -/
theorem hasMemory_reset (t : Nat) : hasMemory State.reset t = false := by
  have hg : grainsOf State.reset t = [] := rfl
  have he (n : Nat) : extentsOf State.reset t n = [] := rfl
  simp [hasMemory, hg, he]

/-- Settles O26: nothing is in force or listed at reset, so that each field reads its reset value. -/
theorem resetValues : Obligations.ResetValues := by
  unfold Obligations.ResetValues
  have hfn (k : Nat) : fnOf State.reset k = {} := rfl
  refine ⟨rfl, rfl, rfl, rfl, rfl, rfl, rfl, rfl, rfl, fun k => ?_, fun t => ⟨colourOf_reset t, hasMemory_reset t.val⟩,
    rfl, rfl, rfl, reset_form⟩
  rw [hfn]
  exact ⟨rfl, rfl, rfl⟩

/-! ### Mailbox commands: what the gate and the steeps refuse (R19, R117, R134, R137, R145, R146, R165, R167) -/

/-- A command that has an opcode is that mailbox command as a whole, whatever its work. -/
theorem exec_eq_mailbox {i : Instr} {op : Nat} {c : Cmd} (ho : opcodeOf i = some op) (hc : i.cmd? = some c) :
    ∃ work, ∀ s, exec i s = .next (mailbox op c work s) := by
  cases i <;> cases ho <;> cases hc <;> exact ⟨_, fun _ => rfl⟩

/-- A command that is not served is not taken. -/
theorem taken_of_not_servesCmd {op : Nat} {c : Cmd} {s : State} (h : servesCmd op c.issuer s = false) :
    taken op c s = false := by simp [taken, h]

theorem servesCmd_of_not_serving {op : Nat} {i : Issuer} {s : State} (hs : serving s = false)
    (h : op ≠ 0x0809 ∨ i ≠ .oob) : servesCmd op i s = false := by
  rcases h with h | h <;> simp [servesCmd, hs, h]

theorem taken_of_notStarted {op : Nat} {c : Cmd} {s : State} (h : notStarted op c s = true) : taken op c s = false := by
  simp [taken, h]

theorem taken_of_no_place {op : Nat} {c : Cmd} {s : State} (hm : s.cmds.any (execMatches op c) = false)
    (hp : placeFor s c.issuer = false) : taken op c s = false := by
  simp [taken, hasPlace, hm, hp]

/-- An undefined opcode is refused (R134). -/
theorem gate_badOpcode {op : Nat} (c : Cmd) (s : State) (h : accessOf op = none) : gate op c s = some stBadOpcode := by
  simp [gate, h]

/-- Outside the recovery-only stage the out-of-band channel's permission word is the one in force (R167). -/
theorem oobWord_of_not_recovery {s : State} (hs : s.boot.stage ≠ .recovery) : oobWord s = permWord s 0x80 := by
  simp [oobWord, hs]

section
variable {op : Nat} {c : Cmd} {s : State} {a : AccessRow} (ha : accessOf op = some a)
include ha

/-- The recovery-only stage refuses what its mark does not allow (R117). -/
theorem gate_recoveryOnly (hs : s.boot.stage = .recovery) (hr : a.recovery = false) :
    gate op c s = some stRecoveryOnly := by
  simp [gate, ha, hs, hr]

/-- A virtual function is refused a command that is not its to send, a tenant other than its own, and a command whose
permission bit it lacks (R19, R165). -/
theorem gate_vf_notPermitted (hs : s.boot.stage ≠ .recovery) {k : Fin 128} (hi : c.issuer = .fn k) (hk : k.val ≠ 0)
    (h : a.vf = false ∨ (c.tenant ≠ 0xFFFF ∧ c.tenant.toNat ≠ k.val) ∨
      ∃ b, a.perm = some b ∧ bitOf (permWord s k.val) b = false) : gate op c s = some stNotPermitted := by
  rcases h with h | ⟨ht, hn⟩ | ⟨b, hp, hb⟩
  · simp [gate, ha, hs, hi, hk, h]
  · have ht : c.tenant ≠ 65535#16 := ht
    simp [gate, ha, hs, hi, hk, ht, hn]
  · simp [gate, ha, hs, hi, hk, hp, hb]

/-- The out-of-band channel is refused a command with no out-of-band mark, and one whose bit it lacks (R167). -/
theorem gate_oob_notPermitted (hs : s.boot.stage ≠ .recovery) (hi : c.issuer = .oob)
    (h : a.oob = none ∨ ∃ b, a.oob = some (some b) ∧ bitOf (permWord s 0x80) b = false) :
    gate op c s = some stNotPermitted := by
  rcases h with h | ⟨b, ho, hb⟩
  · simp [gate, ha, hs, hi, h]
  · simp [gate, ha, hs, hi, ho, oobWord_of_not_recovery hs, hb]

/-- The PF passes the gate for every tenant there is, but for a command with the master or the lock mark. -/
theorem gate_pf (hs : s.boot.stage ≠ .recovery) (hp : cmdPf c = true) (hm : a.master = false) (hl : a.level1 = false)
    (ht : c.tenant = 0xFFFF ∨ c.tenant.toNat < 128) : gate op c s = none := by
  obtain ⟨k, hi, hk⟩ : ∃ k, c.issuer = .fn k ∧ k = 0 := by
    unfold cmdPf at hp
    split at hp
    · exact ⟨_, ‹_›, by simpa using hp⟩
    · cases hp
  rcases ht with ht | ht
  · simp [gate, ha, hs, hi, hk, hm, hl, ht]
  · simp [gate, ha, hs, hi, hk, hm, hl, ht]

end

/-- An accepted command that its work ends does what the work did, then completes. -/
theorem mailbox_done {op : Nat} {c : Cmd} {work : State → Reply} {s t : State} {st : Nat} {r : List Byte}
    (h : Accepted op c s) (hw : work s = .done t st r) : mailbox op c work s = finish op c st r t := by
  rw [mailbox_taken op c work s h.1 h.2, hw]

/-- A steep whose entries the area has no room for stages nothing (R145). -/
theorem steep_of_not_room {c : Cmd} {es : List (Nat × List Nat)} {s : State} (h : ¬ Room c es s) :
    steep c es s = .done s stSteepFull [] :=
  if_pos (Nat.lt_of_not_le h)

/-- A limits steep with a selected field outside its range answers BAD_PARAM (Table 2.3). -/
theorem kettleSteepLimitsWork_badParam {c : Cmd} (s : State) {i : Nat} (hi : i < 6) (hb : bitOf (par c 20 1) i = true)
    (hv : limitOk i ([par c 0 4, par c 4 4, par c 8 4, par c 12 4, par c 16 2, par c 18 2].getD i 0) = false) :
    kettleSteepLimitsWork c s = .done s stBadParam [] := by
  refine if_neg fun hall => ?_
  have hok := List.all_eq_true.mp hall i (List.mem_filter.mpr ⟨List.mem_range.mpr hi, hb⟩)
  rw [hv] at hok
  cases hok

theorem integritySteepPolicyWork_badParam {c : Cmd} (s : State)
    (h : ¬((par c 0 1 < 8 ∨ par c 0 1 = 0xFF) ∧ par c 1 1 ≤ 2)) :
    integritySteepPolicyWork c s = .done s stBadParam [] :=
  if_pos (by simp only [Bool.or_eq_true, Bool.and_eq_true, decide_eq_true_eq, bne_iff_ne]; omega)

theorem integritySteepPolicyWork_eq_steep {c : Cmd} (s : State) (hn : par c 0 1 < 8) (hp : par c 1 1 ≤ 2) :
    integritySteepPolicyWork c s = steep c [(cfgKey 0x0501 0 (par c 0 1), [par c 1 1])] s := by
  have hb : ¬(8 ≤ par c 0 1) := by omega
  have hf : par c 0 1 ≠ 0xFF := by omega
  simp [integritySteepPolicyWork, stackField, entry, hb, hf, hp]

theorem disturbSteepModeWork_badParam {c : Cmd} (s : State)
    (h : ¬((par c 0 2 < 256 ∨ par c 0 2 = 0xFFFF) ∧ par c 2 1 ≤ 1)) :
    disturbSteepModeWork c s = .done s stBadParam [] :=
  if_neg (by simpa only [unitField, bcast, Bool.or_eq_true, Bool.and_eq_true, decide_eq_true_eq, beq_iff_eq] using h)

/-- Settles O54: an opcode's command is `mailbox` of that opcode, so that what is not taken does nothing and what the
gate refuses completes with the gate's status; the gate's clauses follow its branches, and a steep's work ends before
staging. -/
theorem commandRefusals : Obligations.CommandRefusals := by
  unfold Obligations.CommandRefusals
  refine ⟨?_, ?_, ?_, ?_, ?_, ?_, ?_, ?_, ?_, ?_, ?_, ?_, ?_, ?_⟩
  · intro i op c s ho hc ht
    obtain ⟨work, hx⟩ := exec_eq_mailbox ho hc
    rw [hx, mailbox_idle op c work s ht]
  · intro op c s hs h
    exact taken_of_not_servesCmd (servesCmd_of_not_serving hs h)
  · intro op c s h
    exact taken_of_notStarted h
  · intro op c s hm hp
    exact taken_of_no_place hm hp
  · intro i op c s st ho hc ht hg
    obtain ⟨work, hx⟩ := exec_eq_mailbox ho hc
    rw [hx, mailbox_refused op c work s st ht hg]
  · intro op c s h
    exact gate_badOpcode c s h
  · intro op c s a ha hs hr
    exact gate_recoveryOnly ha hs hr
  · intro op c s a k ha hs hi hk h
    exact gate_vf_notPermitted ha hs hi hk h
  · intro op c s a ha hs hi h
    exact gate_oob_notPermitted ha hs hi h
  · intro op c s a ha hs hp hm hl ht
    exact gate_pf ha hs hp hm hl ht
  · intro c s h hbad
    refine congrArg _ (mailbox_done h ?_)
    rcases hbad with ⟨hb, hv⟩ | ⟨hb, hv⟩ | ⟨hb, hv⟩
    · exact kettleSteepLimitsWork_badParam (i := 0) s (by decide) hb (by simpa [limitOk] using hv)
    · exact kettleSteepLimitsWork_badParam (i := 2) s (by decide) hb (by simpa [limitOk] using hv)
    · exact kettleSteepLimitsWork_badParam (i := 5) s (by decide) hb (by simp [limitOk]; omega)
  · intro c s h hbad
    exact congrArg _ (mailbox_done h (integritySteepPolicyWork_badParam s hbad))
  · intro c s h hn hp hroom
    exact congrArg _ (mailbox_done h ((integritySteepPolicyWork_eq_steep s hn hp).trans (steep_of_not_room hroom)))
  · intro c s h hbad
    exact congrArg _ (mailbox_done h (disturbSteepModeWork_badParam s hbad))

end Sys2Proof.Machine
end

section
/-! What a mark and a die's period work do (O31): admission closes until the next allowance, and a foot die refills its
regulators. -/

namespace Sys2Proof.Machine

open Sys2Proof

/-! ### Folds -/

/-- What each step of a fold keeps, the fold keeps. -/
theorem foldl_keeps {σ α β : Type} {f : σ → α → σ} (g : σ → β) (h : ∀ s a, g (f s a) = g s) (l : List α) (s : σ) :
    g (l.foldl f s) = g s := by
  induction l generalizing s with
  | nil => rfl
  | cons a l ih => exact (ih _).trans (h s a)

/-! ### The governor apart from its counts

What a mark does after its window closes counts events and payload, and changes nothing else of the governor, except
where the hub trips. -/

/-- The governor's state apart from the counts of the period. -/
def governor (s : State) : Kettle := { s.kettle with counts := [] }

theorem governor_of_kettle {s t : State} (h : t.kettle = s.kettle) : governor t = governor s := by
  rw [governor, h, governor]

theorem allowance_of_governor {s t : State} (h : governor t = governor s) : t.kettle.allowance = s.kettle.allowance :=
  (congrArg Kettle.allowance h :)

theorem closed_of_governor {s t : State} (h : governor t = governor s) : t.kettle.closed = s.kettle.closed :=
  (congrArg Kettle.closed h :)

theorem running_of_governor {s t : State} (h : governor t = governor s) : t.kettle.running = s.kettle.running :=
  (congrArg Kettle.running h :)

@[simp] theorem governor_ite (c : Prop) [Decidable c] (a b : State) :
    governor (if c then a else b) = if c then governor a else governor b := apply_ite _ _ _ _

@[simp] theorem governor_hostPayload (sent : Bool) (n : Nat) (s : State) :
    governor (hostPayload sent n s) = governor s := by
  unfold hostPayload
  split <;> rfl

@[simp] theorem governor_emit (o : Out) (s : State) : governor (emit o s) = governor s :=
  governor_hostPayload _ _ _

@[simp] theorem governor_setFn (k : Nat) (f : Fn) (s : State) : governor (setFn k f s) = governor s := rfl

@[simp] theorem governor_countEvent (i n : Nat) (s : State) : governor (countEvent i n s) = governor s := rfl

@[simp] theorem governor_raiseVector (k v : Nat) (s : State) : governor (raiseVector k v s) = governor s := by
  simp [raiseVector]

@[simp] theorem governor_setInt (k bit : Nat) (s : State) : governor (setInt k bit s) = governor s := by
  simp [setInt]

@[simp] theorem governor_loseEvent (k : Nat) (full : Bool) (s : State) :
    governor (loseEvent k full s) = governor s := by simp [loseEvent]

@[simp] theorem governor_ringEvent (k : Nat) (bytes : List Byte) (s : State) :
    governor (ringEvent k bytes s) = governor s := by simp [ringEvent]

@[simp] theorem governor_logRecord (code tenant sev stack : Nat) (payload : List Byte) (rings : List Nat) (s : State) :
    governor (logRecord code tenant sev stack payload rings s) = governor s :=
  foldl_keeps governor (fun s k => governor_ringEvent k _ s) rings s

@[simp] theorem governor_alertEvent (code sev : Nat) (args : List Byte) (rings : List Nat) (s : State) :
    governor (alertEvent code sev args rings s) = governor s := governor_logRecord _ _ _ _ _ _ s

/-! ### A mark closes the window of its period -/

theorem governor_turnRings (s : State) : governor (turnRings s) = governor s :=
  foldl_keeps governor (fun s e => by
    split
    · exact governor_emit _ s
    · rfl) _ s

theorem governor_skipAll (s : State) : governor (skipAll s) = governor s := by
  have h : governor (skipDevice s) = governor s := by
    unfold skipDevice
    split <;> rfl
  exact h

/-- Latching the counters of a mark turns the dump rings and counts the dumps it skips, which is telemetry (R447). -/
theorem governor_latchMark (m : Nat) (s : State) : governor (latchMark m s) = governor s := by
  unfold latchMark
  extract_lets dump tele s₁ late s₂
  have h₁ : governor s₁ = governor s := by
    unfold s₁
    split
    · exact governor_turnRings _
    · rfl
  have h₂ : governor s₂ = governor s₁ := by
    unfold s₂
    split
    · exact governor_skipAll _
    · rfl
  split
  · rfl
  · exact h₂.trans h₁

/-- The kettle bus's own state is no part of the governor. -/
theorem governor_kbMarkSend (kb : Kb) (s : State) : governor (kbMarkSend { s with kb := kb }) = governor s := by
  unfold kbMarkSend
  split
  · exact governor_emit _ _
  · rfl

theorem kettle_channelsMark (m : Nat) (s : State) : (channelsMark m s).kettle = s.kettle := by
  unfold channelsMark
  extract_lets busy s₁ s₂
  calc _
    _ = s₂.kettle := foldl_keeps State.kettle (fun _ _ => by rfl) _ _
    _ = s₁.kettle := foldl_keeps State.kettle (fun _ _ => by rfl) _ _
    _ = s.kettle := foldl_keeps State.kettle (fun _ _ => by rfl) _ _

theorem kettle_stackMark (n : Nat) (s : State) : (stackMark n s).kettle = s.kettle := by
  simp [stackMark, apply_ite State.kettle]

theorem kettle_unitsMark (s : State) : (unitsMark s).kettle = s.kettle := by
  unfold unitsMark
  extract_lets s₁ s₂
  calc _
    _ = s₂.kettle := foldl_keeps State.kettle (fun _ _ => by rfl) _ _
    _ = s₁.kettle := foldl_keeps State.kettle (fun _ _ => by rfl) _ _
    _ = s.kettle := foldl_keeps State.kettle (fun _ _ => by rfl) _ _

theorem MuxFrame.kettle {s t : State} (h : MuxFrame s t) : t.kettle = s.kettle := by
  obtain ⟨_, _, _, rfl⟩ := h
  rfl

/-- In a running governor the window that ends is closed, and nothing is admitted until the next allowance (R24, R41). -/
theorem windowMark_of_running {s : State} (h : s.kettle.running = true) :
    (windowMark s).kettle.allowance = 0 ∧ (windowMark s).kettle.closed.length = s.kettle.closed.length + 1 := by
  simp [windowMark, h, countEv]

/-! ### The hub's readings at a mark (R334, R345) -/

theorem highest_concat (l : List Int) (a : Int) : highest (l ++ [a]) = some ((highest l).elim a (max · a)) := by
  simp only [highest, List.foldl_append, List.foldl_cons, List.foldl_nil]
  split <;> simp [*]

theorem mem_of_highest {l : List Int} {v : Int} (h : highest l = some v) : v ∈ l := by
  induction l using List.reverseRecOn generalizing v with
  | nil => cases h
  | append_singleton l a ih =>
    rw [highest_concat] at h
    cases hl : highest l with
    | none => simp_all
    | some u =>
      have hu := ih hl
      have hv : max u a = v := by simpa [hl] using h
      rcases max_choice u a with hm | hm <;> simp_all

/-- A hub junction of 115 degrees is the reading of a sensor. -/
theorem exists_sensor_of_trip {sensors : List Int}
    (h : 460 ≤ (highest (sensors.map (fun x => x / 250))).getD 420) : ∃ x ∈ sensors, 115000 ≤ x := by
  cases hr : highest (sensors.map (fun x => x / 250)) with
  | none => simp [hr] at h
  | some v =>
    obtain ⟨x, hx, rfl⟩ := List.mem_map.mp (mem_of_highest hr)
    rw [hr, Option.getD_some] at h
    exact ⟨x, hx, by omega⟩

/-- A trip leaves no allowance (R345). -/
theorem hubTrip_allowance (s : State) : (hubTrip s).kettle.allowance = 0 := by
  simp only [hubTrip, collapse]

/-- The hub's sample leaves the governor alone, or a sensor has reached 115 degrees and the hub trips. -/
theorem hubSample_cases (sensors : List Int) (s : State) :
    governor (hubSample sensors s) = governor s ∨
      (∃ x ∈ sensors, 115000 ≤ x) ∧ (hubSample sensors s).kettle.allowance = 0 := by
  unfold hubSample
  extract_lets r failed tj s₁ h st₀ cool st h' s₂ s₃
  have h₁ : governor s₁ = governor s := by
    unfold s₁
    split
    · exact governor_alertEvent _ _ _ _ _
    · rfl
  have h₃ : governor s₃ = governor s₁ := by
    unfold s₃
    split <;> rfl
  split
  next hc =>
    simp only [Bool.and_eq_true, decide_eq_true_eq] at hc
    exact .inr ⟨exists_sensor_of_trip hc.1, hubTrip_allowance s₃⟩
  next => exact .inl (h₃.trans h₁)

/-- After the window closes, a mark reaches the governor only by the hub's sample. -/
theorem periodMark_kettle (sensors : List Int) {s : State} (hr : s.pins.refclk = true) (hv : s.pins.vaux = true) :
    ∃ u v, governor u = governor s ∧ governor v = governor (windowMark u) ∧
      (periodMark sensors s).kettle = (hubSample sensors v).kettle := by
  have hp : ¬((!s.pins.refclk || !s.pins.vaux) = true) := by simp [hr, hv]
  unfold periodMark
  rw [if_neg hp]
  extract_lets m old s₀ u w b k v
  have hu : governor u = governor s := (governor_latchMark m s₀).trans (governor_of_kettle rfl)
  refine ⟨u, unitsMark (channelsMark m k), hu, ?_, (muxWords_frame _ _).kettle⟩
  calc governor (unitsMark (channelsMark m k))
      = governor k := governor_of_kettle ((kettle_unitsMark _).trans (kettle_channelsMark m k))
    _ = governor b := governor_of_kettle (foldl_keeps State.kettle (fun s n => kettle_stackMark n s) _ b)
    _ = governor w := governor_kbMarkSend _ w

/-- A mark closes the period's window in a running governor; the window stays unless the hub trips (R24, R41). -/
theorem periodMark_admission (sensors : List Int) {s : State} (hr : s.pins.refclk = true) (hv : s.pins.vaux = true)
    (hk : s.kettle.running = true) :
    (periodMark sensors s).kettle.allowance = 0 ∧
      ((∀ x ∈ sensors, x < 115000) →
        (periodMark sensors s).kettle.closed.length = s.kettle.closed.length + 1) := by
  obtain ⟨u, v, hu, hw, ht⟩ := periodMark_kettle sensors hr hv
  obtain ⟨ha, hc⟩ := windowMark_of_running ((running_of_governor hu).trans hk)
  rw [ht]
  rcases hubSample_cases sensors v with h | ⟨⟨x, hx, hhot⟩, h0⟩
  · have hg := h.trans hw
    exact ⟨(allowance_of_governor hg).trans ha, fun _ => by rw [closed_of_governor hg, hc, closed_of_governor hu]⟩
  · exact ⟨h0, fun hcool => absurd (hcool x hx) (by omega)⟩

/-! ### The regulators of a foot die in its period work (R24, R194) -/

theorem EventFrame.buckets {s t : State} (h : EventFrame s t) : t.buckets = s.buckets := by
  obtain ⟨_, _, _, _, rfl⟩ := h
  rfl

theorem EventFrame.dies {s t : State} (h : EventFrame s t) : t.dies = s.dies := by
  obtain ⟨_, _, _, _, rfl⟩ := h
  rfl

theorem noteDebt_frame (s : State) : EventFrame s (noteDebt s) :=
  .foldl _ (fun s k => by
    split
    · exact setFn_frame _ _ s
    · exact .refl s) _ s

theorem buckets_extentActivates (t n x : Nat) (s : State) : (extentActivates t n x s).buckets = s.buckets :=
  foldl_keeps State.buckets (fun _ _ => by rfl) _ s

theorem buckets_extentRinsed (t n x : Nat) (s : State) : (extentRinsed t n x s).buckets = s.buckets :=
  buckets_extentActivates t n x (fillExtent n x (colourOf s t) s)

theorem buckets_writeOn (t n extents k : Nat) (s : State) : (writeOn t n extents k s).2.buckets = s.buckets := by
  fun_induction writeOn t n extents k s with
  | case4 k s e x hx need hn hr ih => exact ih.trans (buckets_extentRinsed t n x s)
  | case5 k s e x hx need move hn hr =>
    split
    · rfl
    · exact buckets_extentActivates t n x _
  | _ => rfl

theorem buckets_rinseMoves (n k : Nat) (l : List Nat) (s : State) : (rinseMoves n k l s).2.buckets = s.buckets :=
  foldl_keeps (fun x : Nat × State => x.2.buckets) (fun x t => buckets_writeOn t n 256 x.1 x.2) l (k, s)

theorem buckets_prepMove (n k : Nat) (s : State) : (prepMove n k s).buckets = s.buckets := by
  have ha (x : Nat) (s : State) : (prepActivates n x s).buckets = s.buckets :=
    foldl_keeps State.buckets (fun _ _ => by rfl) _ s
  unfold prepMove
  split
  · rfl
  · simp only
    split
    · exact ha _ _
    · rfl

/-- The rinse's writes are user work: their admission is the governor's, and no regulator counts them (R188). -/
theorem buckets_rinsePeriod (n : Nat) (s : State) : (rinsePeriod n s).buckets = s.buckets := by
  have ha (d : Nat) : ((allow n d (freeStep s)).getD s).buckets = s.buckets := by
    cases h : allow n d (freeStep s) with
    | none => rfl
    | some t =>
      obtain ⟨-, rfl⟩ := allow_some h
      rfl
  unfold rinsePeriod
  extract_lets l k s₁ r
  split
  · rfl
  · have hc : (countMoved .user n k (countEv .sectorWrite .user n k s₁)).buckets = s₁.buckets := by
      simp only [countMoved, countEv]
    exact (buckets_prepMove n r.1 r.2).trans ((buckets_rinseMoves n k l _).trans (hc.trans (ha _)))

/-- Without a pour no unit switches. -/
theorem pourWork_of_no_pour {s : State} (d k units : Nat) (h : s.cfg.pour = none) : pourWork d k units s = s := by
  simp [pourWork, h]

/-- Refills regulator t of stack n up to its depth. -/
def refill (n : Nat) (s : State) (t : Nat) : State :=
  setBucket t n { bucketOf s t n with
    tokens := min (regDepth s t n) ((bucketOf s t n).tokens + regRate s t n) } s

theorem refillDie_eq (n : Nat) (s : State) :
    refillDie n s = ((List.range 128).filter (fun t => regOn s t n)).foldl (refill n) s := rfl

theorem bucketOf_refill_ne {n t k : Nat} (s : State) (h : k ≠ t) :
    bucketOf (refill n s t) k n = bucketOf s k n :=
  tget_tset_ne _ _ _ (by unfold regKey; omega)

theorem bucketOf_foldl_refill_of_notMem {n k : Nat} {l : List Nat} (s : State) (h : k ∉ l) :
    bucketOf (l.foldl (refill n) s) k n = bucketOf s k n := by
  induction l generalizing s with
  | nil => rfl
  | cons t l ih =>
    obtain ⟨ht, hl⟩ := not_or.mp (fun hm => h (List.mem_cons.mpr hm))
    exact (ih _ hl).trans (bucketOf_refill_ne s ht)

/-- Each listed regulator is refilled once: a refill changes neither another bucket nor a rate or a depth. -/
theorem tokens_foldl_refill {n k : Nat} {l : List Nat} (s : State) (hd : l.Nodup) (h : k ∈ l) :
    (bucketOf (l.foldl (refill n) s) k n).tokens =
      min (regDepth s k n) ((bucketOf s k n).tokens + regRate s k n) := by
  induction l generalizing s with
  | nil => cases h
  | cons t l ih =>
    obtain ⟨htl, hl⟩ := List.nodup_cons.mp hd
    rw [List.foldl_cons]
    rcases List.mem_cons.mp h with rfl | hk
    · rw [bucketOf_foldl_refill_of_notMem _ htl, refill, bucketOf_setBucket]
    · rw [ih _ hl hk, bucketOf_refill_ne s (by rintro rfl; exact htl hk)]
      rfl

theorem tokens_refillDie {n k : Nat} {s : State} (hk : k < 128) (hon : regOn s k n = true) :
    (bucketOf (refillDie n s) k n).tokens =
      min (regDepth s k n) ((bucketOf s k n).tokens + regRate s k n) := by
  rw [refillDie_eq]
  exact tokens_foldl_refill s (List.nodup_range.filter _) (List.mem_filter.mpr ⟨List.mem_range.mpr hk, hon⟩)

/-- A foot die's work with no pour under way leaves each enabled regulator refilled. -/
theorem tokens_dieWork {d k i units : Nat} {missing : List Nat} {s : State} (hd : d < 8) (hp : s.cfg.pour = none)
    (hi : i < 128) (hon : regOn s i d = true) :
    (bucketOf (dieWork d k units missing s) i d).tokens =
      min (regDepth s i d) ((bucketOf s i d).tokens + regRate s i d) := by
  have hw : dieWork d k units missing s = rinsePeriod d (refillDie d (followLimits d units s)) := by
    rw [dieWork, if_neg (by omega), pourWork_of_no_pour d k units (s := followLimits d units s) hp]
  rw [hw, bucketOf, buckets_rinsePeriod]
  exact tokens_refillDie (s := followLimits d units s) hi hon

/-! ### A die's period work (R26, R212, R213) -/

theorem workBound_le (old s : State) (d k : Nat) : workBound old s d k ≤ 2816 := by
  unfold workBound
  split <;> omega

/-- When a die's next mark is due, PERIOD_WORK is that mark's work, then the die's record of it, apart from events. -/
theorem periodWork_of_due {d : Nat} {s : State} (dur units : Nat) (missing : List Nat) (hr : s.kettle.running = true)
    (hh : s.boot.halt = .none) (hm : (dieOf s d).workMark < s.clock.mark)
    (ht : workStart (dieOf s d) ((dieOf s d).workMark + 1) ≤ s.clock.timebase) :
    ∃ v x, EventFrame (dieWork d ((dieOf s d).workMark + 1) units missing s) v ∧
      EventFrame (setDie d x v) (periodWork d dur units missing s) ∧ x.workMark = (dieOf s d).workMark + 1 ∧
      x.start = workStart (dieOf s d) ((dieOf s d).workMark + 1) ∧ x.finish ≤ x.start + 2816 := by
  have hg : ¬((!s.kettle.running || s.boot.halt != .none || decide (s.clock.mark ≤ (dieOf s d).workMark) ||
      decide (now s < workStart (dieOf s d) ((dieOf s d).workMark + 1))) = true) := by
    simp [hr, hh, hm, Nat.not_lt.mpr ht, now]
  unfold periodWork
  extract_lets x k start short s₁ s₂
  rw [if_neg hg]
  refine ⟨s₂, _, ?_, noteDebt_frame _, rfl, rfl, ?_⟩
  · unfold s₂
    split
    · exact countEvent_frame _ _ s₁
    · exact .refl s₁
  · exact Nat.add_le_add_left ((Nat.min_le_right _ _).trans (workBound_le _ _ _ _)) start

/-! ### Job starts (R52) -/

/-- At its mark the release ends, and no list and no queued operation is held any longer. -/
theorem jobStartRelease_of_due {s : State} {m : Nat} (hm : s.kettle.jobRelease = some m)
    (hdue : m ≤ s.clock.timebase) :
    (jobStartRelease s).kettle.jobRelease = none ∧ (∀ e ∈ (jobStartRelease s).compute.lists, e.2.held = false) ∧
      (∀ e ∈ (jobStartRelease s).infusers, ∀ o ∈ e.2.queue, o.held = false) := by
  have hd : due s m = true := decide_eq_true hdue
  simp only [jobStartRelease, hm, hd, if_true, countEvent_kettle, countEvent_compute, countEvent_infusers]
  refine ⟨trivial, fun e he => ?_, fun e he o ho => ?_⟩
  · obtain ⟨l, -, rfl⟩ := List.mem_map.mp he
    rfl
  · obtain ⟨i, -, rfl⟩ := List.mem_map.mp he
    obtain ⟨p, -, rfl⟩ := List.mem_map.mp ho
    rfl

/-- Settles O31: a mark's window closes before what can only count events or trip the hub; a die's work that is due is
recorded after it is done, and its refill is the last that reaches its regulators; the release is one update. -/
theorem periodEvents : Obligations.PeriodEvents := by
  unfold Obligations.PeriodEvents
  refine ⟨?_, ?_, ?_⟩
  · intro s sensors hr hv
    exact ⟨_, rfl, periodMark_clock sensors hr hv, periodMark_admission sensors hr hv⟩
  · intro s d dur w hr hh hm ht
    obtain ⟨v, x, hv, ht, hmark, hstart, hfinish⟩ := periodWork_of_due dur w.units w.missing hr hh hm ht
    have hx : dieOf (periodWork d.val dur w.units w.missing s) d.val = x := by
      rw [dieOf, ht.dies]
      exact dieOf_setDie_self d.val x v
    refine ⟨_, rfl, ?_, ?_, ?_, ?_⟩
    · rw [hx, hmark]
    · rw [hx, hstart, workStart]
    · rw [hx]
      exact hfinish
    · intro hd hp k hk hon
      rw [bucketOf, ht.buckets, setDie_buckets, hv.buckets]
      exact tokens_dieWork hd hp hk hon
  · intro s m hm hdue
    exact ⟨_, rfl, jobStartRelease_of_due hm hdue⟩

end Sys2Proof.Machine
end

section
/-! What an accepted mailbox command ends with, and the kettle, power and partition steeps (O6). -/

namespace Sys2Proof.Machine

open Sys2Proof

/-! ### What an accepted command ends with -/

/-- An accepted command whose work waits goes on executing. -/
theorem mailbox_wait {op : Nat} {c : Cmd} {work : State → Reply} {s t : State} (h : Accepted op c s)
    (hw : work s = .wait t) : mailbox op c work s = hold op c t := by
  rw [mailbox_taken op c work s h.1 h.2, hw]

/-- Entries that the area has room for are staged (R145). -/
theorem steep_of_room {c : Cmd} {es : List (Nat × List Nat)} {s : State} (h : Room c es s) :
    steep c es s = .done (afterSteep c es s) stOK [] :=
  if_neg (Nat.not_lt.mpr h)

/-- An accepted command that stages entries there is room for answers OK with the entries staged. -/
theorem mailbox_of_steep {op : Nat} {c : Cmd} {work : State → Reply} {s : State} {es : List (Nat × List Nat)}
    (h : Accepted op c s) (hroom : Room c es s) (hw : work s = steep c es s) :
    mailbox op c work s = finish op c stOK [] (afterSteep c es s) :=
  mailbox_done h (hw.trans (steep_of_room hroom))

/-! ### The kettle and power steeps stage the fields that are in range (R37, R38, R72, R87, R92) -/

/-- Every field that the field mask names is in the range of Table 2.3. -/
theorem limitOk_of_ranges {c : Cmd}
    (h0 : bitOf (par c 20 1) 0 = true → 100 ≤ par c 0 4 ∧ par c 0 4 ≤ 100000)
    (h1 : bitOf (par c 20 1) 1 = true → 100 ≤ par c 4 4 ∧ par c 4 4 ≤ 100000)
    (h2 : bitOf (par c 20 1) 2 = true → 700000 ≤ par c 8 4 ∧ par c 8 4 ≤ 1600000)
    (h3 : bitOf (par c 20 1) 3 = true → par c 12 4 ≤ 1600000)
    (h4 : bitOf (par c 20 1) 4 = true → par c 16 2 ≤ 65535)
    (h5 : bitOf (par c 20 1) 5 = true → 64 ≤ par c 18 2 ∧ par c 18 2 ≤ 65535) {i : Nat} (hi : i < 6)
    (hb : bitOf (par c 20 1) i = true) :
    limitOk i ([par c 0 4, par c 4 4, par c 8 4, par c 12 4, par c 16 2, par c 18 2].getD i 0) = true := by
  match i, hi, hb with
  | 0, _, hb => simpa [limitOk] using h0 hb
  | 1, _, hb => simpa [limitOk] using h1 hb
  | 2, _, hb => simpa [limitOk] using h2 hb
  | 3, _, hb => simpa [limitOk] using h3 hb
  | 4, _, hb => simpa [limitOk] using h4 hb
  | 5, _, hb => simpa [limitOk] using h5 hb

theorem kettleSteepLimitsWork_eq_steep {c : Cmd} (s : State)
    (h : ∀ i < 6, bitOf (par c 20 1) i = true →
      limitOk i ([par c 0 4, par c 4 4, par c 8 4, par c 12 4, par c 16 2, par c 18 2].getD i 0) = true) :
    kettleSteepLimitsWork c s = steep c (((List.range 6).filter (fun i => bitOf (par c 20 1) i)).map (fun i =>
      (cfgKey 0x0801 i 0, [[par c 0 4, par c 4 4, par c 8 4, par c 12 4, par c 16 2, par c 18 2].getD i 0]))) s := by
  unfold kettleSteepLimitsWork
  rw [if_pos, entries, List.map_map]
  · rfl
  · refine List.all_eq_true.mpr fun i hi => ?_
    obtain ⟨hi, hb⟩ := List.mem_filter.mp hi
    exact h i (List.mem_range.mp hi) hb

theorem kettleSteepTrimWork_eq_steep {c : Cmd} (s : State)
    (h : ∀ i < 8, 2048 ≤ par c (2 * i) 2 ∧ par c (2 * i) 2 ≤ 8192) :
    kettleSteepTrimWork c s = steep c [(cfgKey 0x0803 0 0, (List.range 8).map (fun i => par c (2 * i) 2))] s :=
  if_pos (by simpa using h)

theorem kbSteepMasterWork_eq_steep {c : Cmd} (s : State) (h0 : par c 0 4 ≤ 1048575) (h4 : par c 4 4 ≤ 1048575)
    (hp : ∀ i < 8, bitsOf (par c 8 2) (2 * i) 2 ≠ 3) :
    kbSteepMasterWork c s = steep c
      [(cfgKey 0x0806 0 0, [par c 0 4]), (cfgKey 0x0806 1 0, [par c 4 4]), (cfgKey 0x0806 2 0, [par c 8 2])] s :=
  if_pos (by simpa [h0, h4] using hp)

theorem pdSteepGateWork_eq_steep {c : Cmd} (s : State)
    (hg : ∀ d < 96, (par c 0 12).testBit d = true → mayGate d = true)
    (ht : ∀ t < 16, (par c 0 12).testBit (2 * t) = (par c 0 12).testBit (2 * t + 1)) :
    pdSteepGateWork c s = steep c [(cfgKey 0x080A 0 0, [par c 0 12])] s := by
  have hall : (List.range 96).all (fun d => !(par c 0 12).testBit d || mayGate d) = true := by
    refine List.all_eq_true.mpr fun d hd => ?_
    cases hb : (par c 0 12).testBit d with
    | false => rfl
    | true => exact hg d (List.mem_range.mp hd) hb
  exact if_pos (by simpa [hall, tilePairsAgree] using ht)

theorem vcoreSteepTargetWork_eq_steep {c : Cmd} {s : State} (ha : s.power.avsAbsent = false)
    (h : ∀ i < 5, bitOf (par c 10 1) i = true →
      600 ≤ par c (2 * i) 2 ∧ par c (2 * i) 2 ≤ 850 ∧ par c (2 * i) 2 % 5 = 0) :
    vcoreSteepTargetWork c s = steep c (((List.range 5).filter (fun i => bitOf (par c 10 1) i)).map
      (fun i => (cfgKey 0x080C i 0, [par c (2 * i) 2]))) s := by
  have hok : ((List.range 5).filter (fun i => bitOf (par c 10 1) i)).all
      (fun i => targetOk (par c (2 * i) 2)) = true := by
    refine List.all_eq_true.mpr fun i hi => ?_
    obtain ⟨hi, hb⟩ := List.mem_filter.mp hi
    simpa [targetOk, and_assoc] using h i (List.mem_range.mp hi) hb
  unfold vcoreSteepTargetWork
  rw [if_neg (by simp [ha]), if_pos hok, entries, List.map_map]
  rfl

/-! ### The partition steeps (R165, R174, R179 to R185, R194, R196) -/

theorem functionSteepPermWork_eq_steep {c : Cmd} (s : State) (h1 : 1 ≤ par c 0 2) (h80 : par c 0 2 ≤ 0x80)
    (hw : par c 4 4 < 2 ^ 19) :
    functionSteepPermWork c s = steep c [(cfgKey 0x0004 0 (par c 0 2), [par c 4 4])] s :=
  if_neg (by simpa [permTargetOk, h1, h80] using hw)

theorem partitionSteepExtentsWork_eq_steep {c : Cmd} {s : State} (hn : par c 0 1 < 8) (hk : par c 2 2 ≤ 256)
    (hr : rinseIncomplete s (cmdTarget c) = false) :
    partitionSteepExtentsWork c s = steep c
      [(cfgKey 0x0200 0 (cmdTarget c * 8 + par c 0 1),
        (List.range (par c 2 2)).map (fun i => hostAt c (2 * i) 2))] s := by
  simp [partitionSteepExtentsWork, Nat.not_le.mpr hn, Nat.not_lt.mpr hk, hr]

theorem partitionSteepColourWork_eq_steep {c : Cmd} {s : State} (hc : par c 0 1 ≠ 0)
    (hr : rinseIncomplete s (cmdTarget c) = false) :
    partitionSteepColourWork c s = steep c [(cfgKey 0x0201 0 (cmdTarget c), [par c 0 1])] s := by
  simp [partitionSteepColourWork, hc, hr, entry]

theorem partitionSteepPotWork_eq_steep {c : Cmd} {s : State} (hk : par c 0 2 ≤ 128)
    (hg : ∀ i < par c 0 2, hostAt c i 1 < 128) (hr : rinseIncomplete s (cmdTarget c) = false) :
    partitionSteepPotWork c s = steep c
      [(cfgKey 0x0202 0 (cmdTarget c), (List.range (par c 0 2)).map (fun i => hostAt c i 1))] s := by
  have hall : ((List.range (par c 0 2)).map (fun i => hostAt c i 1)).all (fun g => g < 128) = true := by
    simpa using hg
  unfold partitionSteepPotWork
  rw [if_neg (by simp [Nat.not_lt.mpr hk, hall]), if_neg (by simp [hr])]

theorem hashSteepMasksWork_eq_steep {c : Cmd} (s : State) (hn : par c 0 1 < 8) :
    hashSteepMasksWork c s = steep c
      [(cfgKey 0x0203 0 (par c 0 1), (List.range 10).map (fun i => par c (4 + 4 * i) 4 % 2 ^ 26 * 1024))] s :=
  if_neg (Nat.not_le.mpr hn)

theorem regulatorSteepWork_eq_steep {c : Cmd} (s : State) (hn : par c 0 1 < 8 ∨ par c 0 1 = 0xFF) (h1 : 1 ≤ par c 4 4)
    (hr : par c 4 4 ≤ 131072) (h64 : 64 ≤ par c 8 4) (hd : par c 8 4 ≤ 16777216) :
    regulatorSteepWork c s = steep c ((if par c 0 1 = 0xFF then List.range 8 else [par c 0 1]).flatMap (fun n =>
      [(cfgKey 0x0204 0 (cmdTarget c * 8 + n), [par c 1 1 % 4]), (cfgKey 0x0204 1 (cmdTarget c * 8 + n), [par c 4 4]),
       (cfgKey 0x0204 2 (cmdTarget c * 8 + n), [par c 8 4])])) s :=
  if_neg (by simp only [Bool.or_eq_true, Bool.and_eq_true, decide_eq_true_eq, bne_iff_ne]; omega)

/-- Settles O6: each work's checks pass, so that it stages what `steep` is given, and there is room for it. -/
theorem powerAndPartitionSteeps : Obligations.PowerAndPartitionSteeps := by
  unfold Obligations.PowerAndPartitionSteeps
  refine ⟨?_, ?_, ?_, ?_, ?_, ?_, ?_, ?_, ?_, ?_, ?_⟩
  · rintro c s _ h h0 h1 h2 h3 h4 h5 rfl hroom
    exact congrArg _ (mailbox_of_steep h hroom
      (kettleSteepLimitsWork_eq_steep s fun i hi hb => limitOk_of_ranges h0 h1 h2 h3 h4 h5 hi hb))
  · rintro c s _ h hv rfl hroom
    exact congrArg _ (mailbox_of_steep h hroom (kettleSteepTrimWork_eq_steep s hv))
  · rintro c s _ h h0 h4 hp rfl hroom
    exact congrArg _ (mailbox_of_steep h hroom (kbSteepMasterWork_eq_steep s h0 h4 hp))
  · rintro c s _ h hg ht rfl hroom
    exact congrArg _ (mailbox_of_steep h hroom (pdSteepGateWork_eq_steep s hg ht))
  · rintro c s _ h ha hv rfl hroom
    exact congrArg _ (mailbox_of_steep h hroom (vcoreSteepTargetWork_eq_steep ha hv))
  · rintro c s _ h h1 h80 hw rfl hroom
    exact congrArg _ (mailbox_of_steep h hroom (functionSteepPermWork_eq_steep s h1 h80 hw))
  · rintro c s _ h hn hk hr rfl hroom
    exact congrArg _ (mailbox_of_steep h hroom (partitionSteepExtentsWork_eq_steep hn hk hr))
  · rintro c s _ h hc hr rfl hroom
    exact congrArg _ (mailbox_of_steep h hroom (partitionSteepColourWork_eq_steep hc hr))
  · rintro c s _ h hk hg hr rfl hroom
    exact congrArg _ (mailbox_of_steep h hroom (partitionSteepPotWork_eq_steep hk hg hr))
  · rintro c s _ h hn rfl hroom
    exact congrArg _ (mailbox_of_steep h hroom (hashSteepMasksWork_eq_steep s hn))
  · rintro c s _ h hn h1 hr h64 hd rfl hroom
    exact congrArg _ (mailbox_of_steep h hroom (regulatorSteepWork_eq_steep s hn h1 hr h64 hd))

end Sys2Proof.Machine
end

section
/-! The reports of channel scheduling, of the kettle, and of domains and rails (O11). -/

namespace Sys2Proof.Machine

open Sys2Proof

/-! ### Bits of a byte of flags -/

theorem bitOf_flags (a b c d : Bool) :
    bitOf (flag a 0 + flag b 1 + flag c 2 + flag d 3) 0 = a ∧ bitOf (flag a 0 + flag b 1 + flag c 2 + flag d 3) 1 = b ∧
      bitOf (flag a 0 + flag b 1 + flag c 2 + flag d 3) 2 = c ∧
      bitOf (flag a 0 + flag b 1 + flag c 2 + flag d 3) 3 = d := by
  revert a b c d
  decide

theorem bitOf_one_two_flags (a b : Bool) : bitOf (flag a 0 + flag b 1) 1 = b := by
  revert a b
  decide

/-! ### The reports of channel scheduling (R221) -/

theorem latencyGetTargetsWork_eq {c : Cmd} (s : State) (hp : par c 0 1 < 26) (hs : par c 1 1 ≤ 1) :
    latencyGetTargetsWork c s = .done s stOK (leBytes 4
      (if par c 1 1 = 0 then cfgN s 0x0300 0 (cmdTarget c * 32 + par c 0 1)
        else (stagedOr s c 0x0300 0 (cmdTarget c * 32 + par c 0 1)).headD 0)) :=
  if_neg (by simp [Nat.not_le.mpr hp, Nat.not_lt.mpr hs])

theorem qosStatusWork_eq {c : Cmd} (s : State) (hp : par c 0 1 < 26 ∨ par c 0 1 = 0xFF)
    (hn : par c 1 1 < 8 ∨ par c 1 1 = 0xFF) {ks : List Nat} (hk : ks = qosKeys (cmdTarget c) (par c 0 1) (par c 1 1)) :
    qosStatusWork c s = .done
      (if bitOf (par c 2 1) 0 = true then { s with qos := ks.foldl (fun t k => tset {} t k {}) s.qos } else s) stOK
      (qosResult s ks) := by
  subst hk
  exact if_neg (by simp only [Bool.or_eq_true, Bool.and_eq_true, decide_eq_true_eq, bne_iff_ne]; omega)

theorem pcStatusWork_eq {c : Cmd} (s : State) (hv : par c 0 2 < 512) :
    pcStatusWork c s = .done s stOK (pcStatusResult s (par c 0 2)) :=
  if_neg (Nat.not_le.mpr hv)

theorem schedStatusWork_eq {c : Cmd} (s : State) (hv : par c 0 1 ≤ 8) {d : Die}
    (hd : d = dieOf s (dieField (par c 0 1))) :
    schedStatusWork c s =
      .done s stOK (leBytes 4 d.debt ++ leBytes 4 d.maxDebt ++ leBytes 4 d.shortened ++ leBytes 4 d.heavyMarks) := by
  subst hd
  exact if_neg (Nat.not_lt.mpr hv)

/-! ### The reports of the kettle (R76, Table 2.10) -/

/-- Byte 13 of KETTLE_STATUS for a reader that has seen `seen` slew events. -/
def kettleStatusBits (s : State) (seen : Nat) : Nat :=
  flag (steepRuns s) 0 + flag s.kettle.quiesce.isSome 1 + flag (chainFault s) 2 + flag (decide (seen < slewMisses s)) 3

/-- KETTLE_STATUS's result (Table 2.10). -/
def kettleStatusResult (s : State) (seen : Nat) : List Byte :=
  leBytes 4 (toMw s.kettle.e) ++ leBytes 4 (toMw s.kettle.pest) ++ leBytes 4 (toMw s.kettle.cosyLast) ++
    leBytes 1 (kbMode s) ++ leBytes 1 (kettleStatusBits s seen) ++ leBytes 2 (chainPosition s)

/-- A function's KETTLE_STATUS tells of the slew events since it read last, and notes that it has read (Table 2.10). -/
theorem kettleStatusWork_of_fn {c : Cmd} {k : Fin 128} (s : State) (hi : c.issuer = .fn k) :
    kettleStatusWork c s = .done (modFn k.val (fun f => { f with slewSeen := slewMisses s }) s) stOK
      (kettleStatusResult s (fnOf s k.val).slewSeen) := by
  unfold kettleStatusWork
  rw [show readerFn c = some k.val by simp [readerFn, hi]]
  rfl

/-- The out-of-band channel's reads note nothing (log entry 72). -/
theorem kettleStatusWork_of_oob {c : Cmd} (s : State) (hi : c.issuer = .oob) :
    kettleStatusWork c s = .done s stOK (kettleStatusResult s 0) := by
  unfold kettleStatusWork
  rw [show readerFn c = none by simp [readerFn, hi]]
  rfl

theorem kettleGetLimitsWork_inForce {c : Cmd} (s : State) (hs : par c 0 1 = 0) :
    kettleGetLimitsWork c s = .done s stOK (leBytes 4 (cfgN s 0x0801 0 0) ++ leBytes 4 (cfgN s 0x0801 1 0) ++
      leBytes 4 (cfgN s 0x0801 2 0) ++ leBytes 4 (cfgN s 0x0801 3 0)) := by
  simp [kettleGetLimitsWork, hs, List.range_succ]

theorem kettleGetLimitsWork_staged {c : Cmd} (s : State) (hs : par c 0 1 = 1) :
    kettleGetLimitsWork c s =
      .done s stOK ((List.range 4).flatMap (fun i => leBytes 4 ((stagedOr s c 0x0801 i 0).headD 0))) := by
  simp [kettleGetLimitsWork, hs]

/-! ### The reports of domains and rails (R87, R92, R105) -/

/-- PD_STATUS shows the domains that are on, or those that the gate map in force or staged leaves on. -/
theorem pdStatusWork_eq {c : Cmd} (s : State) (hs : par c 0 1 ≤ 2) :
    pdStatusWork c s = .done s stOK (leBytes 12 (if par c 0 1 = 0 then s.power.on.toNat
        else 2 ^ 96 - 1 - (if par c 0 1 = 1 then cfgN s 0x080A 0 0 else (stagedOr s c 0x080A 0 0).headD 0) % 2 ^ 96) ++
      leBytes 1 s.pins.straps.toNat ++
      leBytes 1 (flag s.pins.pgCore 0 + flag s.pins.enCore 1 + flag s.pins.refclkFault 2 + flag s.pins.rrefFault 3 +
        flag s.power.avsAbsent 4 + flag s.power.regFault 5)) :=
  if_neg (Nat.not_lt.mpr hs)

/-- A rail below its target waits for room in E (Table 3.9). -/
def railHeld (s : State) : Bool := s.power.stepHeld.any (fun r => decide (railMv s r < railTarget s r) && railMoves s r)

/-- A rail is on its way to its target (Table 3.9). -/
def railStepping (s : State) : Bool := (List.range 5).any (fun r => railMv s r != railTarget s r && railMoves s r)

/-- VCORE_STATUS shows the rails' setpoints, or their targets in force or staged. -/
theorem vcoreStatusWork_eq {c : Cmd} (s : State) (hs : par c 0 1 ≤ 2) :
    vcoreStatusWork c s = .done s stOK ((List.range 5).flatMap (fun r => leBytes 2 (if par c 0 1 = 0 then railMv s r
        else if par c 0 1 = 1 then cfgN s 0x080C r 0 else (stagedOr s c 0x080C r 0).headD 0)) ++
      leBytes 1 (flag (railStepping s) 0 + flag (railHeld s) 1)) := by
  unfold vcoreStatusWork
  generalize par c 0 1 = sel at hs
  match sel, hs with
  | 0, _ => rfl
  | 1, _ => rfl
  | 2, _ => rfl

/-- With selector 3 VCORE_STATUS reads the regulators, whose five readings the spec leaves open. -/
theorem vcoreStatusWork_readings {c : Cmd} (s : State) (hs : par c 0 1 = 3) :
    ∃ b : List Byte, b.length = 11 ∧
      vcoreStatusWork c s = .done (readRegulators { s with freeCount := s.freeCount + 5 }) stOK b := by
  unfold vcoreStatusWork
  rw [hs]
  exact ⟨_, by simp [List.range_succ, Laws.leBytes_length], rfl⟩

/-- Settles O11: each work's selectors are in their ranges, so that it ends with its report. -/
theorem schedulingAndKettleReports : Obligations.SchedulingAndKettleReports := by
  unfold Obligations.SchedulingAndKettleReports
  refine ⟨?_, ?_, ?_, ?_, ?_, ?_, ?_, ?_, ?_, ?_, ?_, ?_⟩
  · intro c s h hp hs
    exact congrArg _ (mailbox_done h (latencyGetTargetsWork_eq s hp hs))
  · rintro c s ks q h hp hn hk rfl
    exact congrArg _ (mailbox_done h (qosStatusWork_eq s hp hn hk))
  · intro c s h hv
    exact congrArg _ (mailbox_done h (pcStatusWork_eq s hv))
  · intro c s d h hv hd
    exact congrArg _ (mailbox_done h (schedStatusWork_eq s hv hd))
  · intro c s h
    cases hi : c.issuer with
    | fn k =>
      obtain ⟨h0, h1, h2, h3⟩ := bitOf_flags (steepRuns s) s.kettle.quiesce.isSome (chainFault s)
        (decide ((fnOf s k.val).slewSeen < slewMisses s))
      refine ⟨_, _, congrArg _ (mailbox_done h (kettleStatusWork_of_fn s hi)), rfl, h0, h1, h2, ?_⟩
      rintro _ ⟨⟩
      exact h3
    | oob =>
      obtain ⟨h0, h1, h2, -⟩ := bitOf_flags (steepRuns s) s.kettle.quiesce.isSome (chainFault s)
        (decide (0 < slewMisses s))
      exact ⟨_, _, congrArg _ (mailbox_done h (kettleStatusWork_of_oob s hi)), rfl, h0, h1, h2, fun _ => nofun⟩
  · intro c s h hs
    exact congrArg _ (mailbox_done h (kettleGetLimitsWork_inForce s hs))
  · intro c s h hs
    exact congrArg _ (mailbox_done h (kettleGetLimitsWork_staged s hs))
  · intro c s h
    exact congrArg _ (mailbox_done h rfl)
  · intro c s h
    exact congrArg _ (mailbox_done h rfl)
  · intro c s h hs
    exact congrArg _ (mailbox_done h (pdStatusWork_eq s hs))
  · intro c s h hs
    exact ⟨_, congrArg _ (mailbox_done h (vcoreStatusWork_eq s hs)), bitOf_one_two_flags _ _⟩
  · intro c s h hs
    obtain ⟨b, hb, hw⟩ := vcoreStatusWork_readings s hs
    exact ⟨b, congrArg _ (mailbox_done h hw), hb⟩

end Sys2Proof.Machine
end

section
/-! The infusers' commands (O15). -/

namespace Sys2Proof.Machine

open Sys2Proof

/-! ### The infusers' commands (R52, R386, R389, R390, R407) -/

/-- The status byte of INFUSER_STATUS (R407). -/
def infuserState (s : State) (n : Nat) : Nat :=
  if (stackOf s n).retired then 4 else if (infuserOf s n).faulted then 3 else if (infuserOf s n).running.isSome then 1
    else if gatedOff s (51 + 6 * n) then 2 else 0

theorem infuserState_eq_four_iff (s : State) (n : Nat) : infuserState s n = 4 ↔ (stackOf s n).retired = true := by
  unfold infuserState
  split
  · simp [*]
  · simp only [*]
    split_ifs <;> simp

theorem infuserStatusWork_eq {c : Cmd} {s : State} {i : Infuser} (hn : par c 0 1 < 8)
    (hi : i = infuserOf s (par c 0 1)) :
    infuserStatusWork c s = .done s stOK (leBytes 1 (infuserState s (par c 0 1)) ++ leBytes 1 i.queue.length ++
      leBytes 2 ((i.running.map (fun o => o.tenant)).getD 0xFFFF) ++ leBytes 4 i.completed ++
      leBytes 2 i.compareFaults ++ leBytes 2 i.keyMismatches ++ leBytes 4 (i.multiplies / 2 ^ 20)) := by
  subst hi
  exact if_neg (Nat.not_le.mpr hn)

/-- A PREPARE that passes its checks asks to write the new context. -/
theorem infuserPrepareWork_wait {c : Cmd} {s : State} (hn : par c 0 1 < 8) (hg : infGated s (par c 0 1) = false)
    (h1 : infCheck1 0x0B01 c (par c 0 1) s = none) (hf : prepareFields c = true)
    (hr : recordsFault (par c 2 1) (par c 24 8) 0 [] (prepareRecords c) = none)
    (ha : infRanges s (cmdTarget c) (par c 0 1) [(pageTa c 8, ctxBytes)] = none) :
    infuserPrepareWork c s = .wait (ask
      { owner := .command 0x0B01 c, tenant := cmdTarget c, port := 21, ta := pageTa c 8, len := ctxBytes, write := true,
        data := prepareContext c } s) := by
  simp [infuserPrepareWork, Nat.not_le.mpr hn, hg, h1, hf, hr, ha]

/-- A job's arrival reaches only the governor (R52). -/
theorem jobArrive_frame (s : State) : (jobArrive s).2 = { s with kettle := (jobArrive s).2.kettle } := by
  fun_cases jobArrive s <;> rfl

/-- The queued operation of an infuser command; `held` tells that a job start holds it (R52, R386). -/
def queuedOp (op : Nat) (c : Cmd) (held : Bool) (s : State) : InfOp :=
  { op := BitVec.ofNat 16 op, cmd := c, tenant := cmdTarget c, held := held, since := s.clock.timebase }

/-- An operation command joins the end of its infuser's queue (R386). -/
def joinQueue (op : Nat) (c : Cmd) (s : State) : State :=
  modInfuser (opStack c) (fun i => { i with queue := i.queue ++ [queuedOp op c (jobArrive s).1 s] }) (jobArrive s).2

theorem infuserOf_joinQueue (op : Nat) (c : Cmd) (s : State) : (infuserOf (joinQueue op c s) (opStack c)).queue =
    (infuserOf s (opStack c)).queue ++ [queuedOp op c (jobArrive s).1 s] := by
  have hi (n : Nat) : infuserOf (jobArrive s).2 n = infuserOf s n := by rw [jobArrive_frame]; rfl
  rw [joinQueue, modInfuser_eq, infuserOf_setInfuser_self, hi]

theorem joinQueue_frame (op : Nat) (c : Cmd) (s : State) :
    joinQueue op c s = { s with infusers := (joinQueue op c s).infusers, kettle := (joinQueue op c s).kettle } := by
  unfold joinQueue
  rw [jobArrive_frame]
  rfl

theorem infuseWork_wait {c : Cmd} {s : State} (op : Nat) (hr : rinseIncomplete s (cmdTarget c) = false)
    (hc : (partOf s (cmdTarget c)).closed = false) (hn : opStack c < 8) (hg : infGated s (opStack c) = false)
    (hf : (infuserOf s (opStack c)).faulted = false) (hq : (infuserOf s (opStack c)).queue.length < 64) :
    infuseWork op c s = .wait (joinQueue op c s) := by
  simp [infuseWork, hr, hc, Nat.not_le.mpr hn, hg, hf, Nat.not_le.mpr hq, joinQueue, queuedOp, now]

/-- Every operation command is `infuseWork` of its opcode. -/
theorem exec_infuse {op : Nat} {i : Cmd → Instr}
    (h : (op, i) ∈ [(0x0B02, Instr.infuseNtt), (0x0B03, .infuseIntt), (0x0B04, .infusePointwise),
      (0x0B05, .infuseAutomorph), (0x0B06, .infuseRescale), (0x0B07, .infuseBaseconv), (0x0B08, .infuseKeyswitch)])
    (c : Cmd) (s : State) :
    exec (i c) s = .next (mailbox op c (infuseWork op c) s) := by
  simp only [List.mem_cons, List.not_mem_nil, or_false, Prod.mk.injEq] at h
  rcases h with ⟨rfl, rfl⟩ | ⟨rfl, rfl⟩ | ⟨rfl, rfl⟩ | ⟨rfl, rfl⟩ | ⟨rfl, rfl⟩ | ⟨rfl, rfl⟩ | ⟨rfl, rfl⟩ <;> rfl

/-- Settles O15: the checks pass, so that the report ends its command, and a PREPARE or an operation waits. -/
theorem infuserCommands : Obligations.InfuserCommands := by
  unfold Obligations.InfuserCommands
  refine ⟨?_, ?_, ?_⟩
  · intro c s i h hn hi
    exact ⟨_, congrArg _ (mailbox_done h (infuserStatusWork_eq hn hi)), infuserState_eq_four_iff s _⟩
  · intro c s h hn hg h1 hf hr ha
    exact congrArg _ (mailbox_wait h (infuserPrepareWork_wait hn hg h1 hf hr ha))
  · intro op i hop c s h hr hc hn hg hf hq
    refine ⟨joinQueue op c s, (jobArrive s).1, ?_, infuserOf_joinQueue op c s, joinQueue_frame op c s⟩
    rw [exec_infuse hop, mailbox_wait h (infuseWork_wait op hr hc hn hg hf hq)]

end Sys2Proof.Machine
end

section
/-! The procedures that quiesce, doze, chain, warm-reset and stack sleep commands start (O20). -/

namespace Sys2Proof.Machine

open Sys2Proof

/-! ### Ending a command or keeping it executing changes only the list of commands -/

theorem finish_frame (op : Nat) (c : Cmd) (st : Nat) (r : List Byte) (s : State) :
    finish op c st r s = { s with cmds := (finish op c st r s).cmds } := by
  fun_cases finish op c st r s <;> rfl

@[simp] theorem finish_kettle (op : Nat) (c : Cmd) (st : Nat) (r : List Byte) (s : State) :
    (finish op c st r s).kettle = s.kettle := by rw [finish_frame]

theorem finish_timebase (op : Nat) (c : Cmd) (st : Nat) (r : List Byte) (s : State) :
    (finish op c st r s).clock.timebase = s.clock.timebase := by rw [finish_frame]

/-! ### KETTLE_QUIESCE (R76) -/

/-- s with a quiesce that the command c asks for. -/
def quiesceAsked (c : Cmd) (s : State) : State :=
  { s with kettle := { s.kettle with
      quiesce := some { ignoreFloor := bitOf (par c 0 1) 1, deadline := s.clock.timebase + msTicks (par c 2 2),
                        cmd := some c } } }

theorem kettleQuiesceWork_of_ask {c : Cmd} (s : State) (hm : par c 2 2 ≠ 0) (hb : bitOf (par c 0 1) 0 = false) :
    kettleQuiesceWork c s = .wait (quiesceAsked c (supersede s)) := by
  simp [kettleQuiesceWork, hm, hb, quiesceAsked, now]

theorem kettleQuiesceWork_of_release {c : Cmd} (s : State) (hm : par c 2 2 ≠ 0) (hb : bitOf (par c 0 1) 0 = true) :
    kettleQuiesceWork c s =
      .done { supersede s with kettle := { (supersede s).kettle with quiesce := none } } stOK [] := by
  simp [kettleQuiesceWork, hm, hb]

theorem supersede_of_no_quiesce {s : State} (h : s.kettle.quiesce = none) : supersede s = s := by
  simp [supersede, h]

theorem supersede_of_no_cmd {s : State} {q : Quiesce} (h : s.kettle.quiesce = some q) (hc : q.cmd = none) :
    supersede s = s := by
  obtain ⟨_, _, _⟩ := q
  cases hc
  simp [supersede, h]

theorem supersede_of_cmd {s : State} {q : Quiesce} {d : Cmd} (h : s.kettle.quiesce = some q) (hc : q.cmd = some d) :
    supersede s = finish 0x0804 d stDeferred [] s := by
  obtain ⟨_, _, _⟩ := q
  cases hc
  simp [supersede, h]

/-! ### DOZE_ENTER, KB_SEND_ADMIN and WARM_RESET (R72, R143, R251) -/

/-- Taking the peer ports down takes no time. -/
theorem portsDoze_clock (s : State) : (portsDoze s).clock = s.clock :=
  clock_of_fixed (τ := {}) (fixed_portsDoze s) rfl

theorem dozeEnterWork_done {c : Cmd} {s : State} (h1 : 1 ≤ par c 0 2) (hm : par c 0 2 ≤ 60000) (hb : dozeBusy s = false)
    (ht : twinLinkUp s = false) :
    dozeEnterWork c s =
      .done { portsDoze s with doze := .pending (s.clock.timebase + msTicks (par c 0 2)) } stOK [] := by
  have h0 : ¬ par c 0 2 = 0 := by omega
  simp [dozeEnterWork, h0, Nat.not_lt.mpr hm, hb, ht, now]

theorem kbSendAdminWork_wait {c : Cmd} (s : State) (h : par c 0 1 ≤ 3) :
    kbSendAdminWork c s = .wait { s with kb := { s.kb with admins := s.kb.admins ++ [(c, par c 0 1, par c 2 2)] } } :=
  if_neg (Nat.not_lt.mpr h)

/-- A warm reset follows the completion that is to be written (R143). -/
theorem warmResetWork_asked {c : Cmd} {s : State} (h : quiescedFully s = true ∨ bitOf (par c 0 1) 0 = true)
    (hg : completionGone 0x0040 c s = false) :
    warmResetWork c s = .done { s with boot := { s.boot with warmAsked := true } } stOK [] := by
  rcases h with h | h <;> simp [warmResetWork, h, hg]

/-- Where a mailbox reset has discarded the completion, the warm reset follows the command (R142). -/
theorem warmResetWork_gone {c : Cmd} {s : State} (h : quiescedFully s = true ∨ bitOf (par c 0 1) 0 = true)
    (hg : completionGone 0x0040 c s = true) :
    warmResetWork c s = .done { s with boot := { s.boot with
      warmAsked := false, warmResetAt := some (s.clock.timebase + usTicks 100) } } stOK [] := by
  rcases h with h | h <;> simp [warmResetWork, h, hg, askWarmReset, now]

/-! ### STACK_SLEEP (R247 to R249) -/

/-- The checks of R249 that a STACK_SLEEP passes, on a stack that is awake or in light sleep. -/
structure MaySleep (c : Cmd) (s : State) : Prop where
  stack : par c 0 1 < 8
  keep : keepOk s (par c 0 1) (par c 2 2) = true
  live : (stackOf s (par c 0 1)).retired = false
  online : (stackOf s (par c 0 1)).online = true
  unmirrored : holdsMirrored s (par c 0 1) = false
  settled : stackUnsettled s (par c 0 1) = false
  noSimmer : (stackOf s (par c 0 1)).thermal.heat ≠ .simmer
  noScald : (stackOf s (par c 0 1)).thermal.heat ≠ .scald
  kind : (stackOf s (par c 0 1)).sleep.kind = .awake ∨ (stackOf s (par c 0 1)).sleep.kind = .light

/-- A sleep that keeps every segment is light at once; another one is entered channel by channel. -/
theorem stackSleepWork_eq {c : Cmd} {s : State} (h : MaySleep c s) :
    stackSleepWork c s =
      if keepsAll s (par c 2 2) then
        .done (modStack (par c 0 1) (fun k => { k with sleep := { k.sleep with kind := .light } }) s) stOK
          (leBytes 2 (unkeptExtents s (par c 0 1) (par c 2 2)).length)
      else
        .wait (modStack (par c 0 1) (fun k => { k with sleep := { k.sleep with
          kind := .entering, keep := par c 2 2, lost := false, cmd := some c } }) s) := by
  obtain ⟨hn, hk, hr, ho, hm, hu, hs, hc, hkind⟩ := h
  rcases hkind with hkind | hkind <;>
    simp [stackSleepWork, changing, Nat.not_le.mpr hn, hk, hr, ho, hm, hu, hs, hc, hkind]

/-! ### STACK_WAKE (R249, R250) -/

/-- c joins those that the wake of stack n completes. -/
def addWaker (n : Nat) (c : Cmd) (s : State) : State :=
  modStack n (fun k => { k with sleep := { k.sleep with wakers := k.sleep.wakers ++ [c] } }) s

/-- The wake of stack n from partial sleep begins, for c. -/
def startWake (n : Nat) (c : Cmd) (s : State) : State :=
  modStack n (fun k => { k with sleep := { k.sleep with kind := .waking, wakers := k.sleep.wakers ++ [c] } }) s

/-- A change of a stack's sleep changes neither whether a channel serves nor its state. -/
theorem chanServes_modSleep (n ch : Nat) (f : Sleep → Sleep) (s : State) :
    chanServes (modStack n (fun k => { k with sleep := f k.sleep }) s) ch = chanServes s ch := by
  unfold chanServes
  rw [modStack_eq, stackOf_setStack]
  split
  · rw [‹ch / 32 = n›]
  · rfl

section
variable {c : Cmd} {s : State} (hn : par c 0 1 < 8) (hr : (stackOf s (par c 0 1)).retired = false)
  (ho : (stackOf s (par c 0 1)).online = true)
include hn hr ho

theorem stackWakeWork_of_awake (hk : (stackOf s (par c 0 1)).sleep.kind = .awake) :
    stackWakeWork c s = .done s stOK (leBytes 2 0) := by
  simp [stackWakeWork, Nat.not_le.mpr hn, hr, ho, hk]

/-- From partial sleep the wake waits for the channels that are still asleep. -/
theorem stackWakeWork_of_partialSleep (hk : (stackOf s (par c 0 1)).sleep.kind = .partialSleep)
    (hch : ∃ ch ∈ stackChans (par c 0 1), chanServes s ch = true ∧ (chanOf s ch).sr ≠ .awake) :
    stackWakeWork c s = .wait (startWake (par c 0 1) c s) := by
  have hall : ¬ ((stackChans (par c 0 1)).all (fun ch => !chanServes (startWake (par c 0 1) c s) ch ||
      (chanOf (startWake (par c 0 1) c s) ch).sr == .awake)) = true := by
    obtain ⟨ch, hmem, hserves, hasleep⟩ := hch
    intro hall
    have hs' : chanServes (startWake (par c 0 1) c s) ch = true := 
      (chanServes_modSleep _ ch (fun x => { x with kind := .waking, wakers := x.wakers ++ [c] }) s).trans hserves
    have ha' : (chanOf (startWake (par c 0 1) c s) ch).sr ≠ .awake := hasleep
    have h := List.all_eq_true.mp hall ch hmem
    simp [hs', ha'] at h
  unfold stackWakeWork
  simp only [Nat.not_le.mpr hn, hr, ho, hk, if_false, Bool.not_true, Bool.or_false, Bool.false_eq_true]
  exact if_neg hall

/-- A wake that is under way completes this command too. -/
theorem stackWakeWork_of_waking
    (hk : (stackOf s (par c 0 1)).sleep.kind = .waking ∨ (stackOf s (par c 0 1)).sleep.kind = .wakingLight) :
    stackWakeWork c s = .wait (addWaker (par c 0 1) c s) := by
  rcases hk with hk | hk <;> simp [stackWakeWork, addWaker, Nat.not_le.mpr hn, hr, ho, hk]

end

/-- Settles O20: the checks of each command pass, so that its work ends or waits as stated. -/
theorem powerAndSleepProcedures : Obligations.PowerAndSleepProcedures := by
  unfold Obligations.PowerAndSleepProcedures
  refine ⟨?_, ?_, ?_, ?_, ?_, ?_, ?_, ?_, ?_, ?_, ?_, ?_⟩
  · intro c s h hm hq hb
    have hw := kettleQuiesceWork_of_ask s hm hb
    rw [supersede_of_no_quiesce hq] at hw
    exact congrArg _ (mailbox_wait h hw)
  · intro c s q d h hm hq hd hb
    refine ⟨_, rfl, ?_⟩
    have hw := kettleQuiesceWork_of_ask s hm hb
    rw [supersede_of_cmd hq hd, quiesceAsked, finish_kettle, finish_timebase] at hw
    exact congrArg _ (mailbox_wait h hw)
  · intro c s q h hm hq hd hb
    have hw := kettleQuiesceWork_of_release s hm hb
    rw [supersede_of_no_cmd hq hd] at hw
    exact congrArg _ (mailbox_done h hw)
  · intro c s h h1 hm hb ht
    refine ⟨_, congrArg _ (mailbox_done h (dozeEnterWork_done h1 hm hb ht)), ?_⟩
    rw [portsDoze_clock]
  · intro c s h ha
    exact congrArg _ (mailbox_wait h (kbSendAdminWork_wait s ha))
  · intro c s h hq hg
    exact congrArg _ (mailbox_done h (warmResetWork_asked hq hg))
  · intro c s h hq hg
    exact congrArg _ (mailbox_done h (warmResetWork_gone hq hg))
  · intro c s h hn hk hr ho hm hu hs hc hkind hall
    have hw := stackSleepWork_eq ⟨hn, hk, hr, ho, hm, hu, hs, hc, hkind⟩
    rw [if_pos hall] at hw
    exact ⟨_, congrArg _ (mailbox_done h hw), by simp, rfl⟩
  · intro c s h hn hk hr ho hm hu hs hc hkind hall
    have hw := stackSleepWork_eq ⟨hn, hk, hr, ho, hm, hu, hs, hc, hkind⟩
    rw [if_neg (by simp [hall])] at hw
    exact ⟨_, congrArg _ (mailbox_wait h hw), by simp, by simp, rfl⟩
  · intro c s h hn hr ho hk
    exact congrArg _ (mailbox_done h (stackWakeWork_of_awake hn hr ho hk))
  · intro c s h hn hr ho hk hch
    exact ⟨_, congrArg _ (mailbox_wait h (stackWakeWork_of_partialSleep hn hr ho hk hch)), by simp [startWake],
      by simp [startWake], rfl⟩
  · intro c s h hn hr ho hk
    exact ⟨_, congrArg _ (mailbox_wait h (stackWakeWork_of_waking hn hr ho hk)), by simp [addWaker], rfl⟩

end Sys2Proof.Machine
end

section
/-! The timeouts of the governor's commands, the steps of core rails and the switching of power domains (O33). -/

namespace Sys2Proof.Machine

open Sys2Proof

/-! ### The power state under sending, completions and failing ports

What a peer port does when its connections fail reaches no rail and no domain. The rules follow the order of the model's
files. -/

@[simp] theorem power_ite (c : Prop) [Decidable c] (a b : State) :
    (if c then a else b).power = if c then a.power else b.power := apply_ite _ _ _ _

@[simp] theorem power_foldl {α : Type} (f : State → α → State) (l : List α) (s : State)
    (h : ∀ s a, (f s a).power = s.power) : (l.foldl f s).power = s.power := foldl_keeps State.power h l s

theorem EventFrame.power {s t : State} (h : EventFrame s t) : t.power = s.power := by
  obtain ⟨_, _, _, _, rfl⟩ := h
  rfl

@[simp] theorem emit_power (o : Out) (s : State) : (emit o s).power = s.power := (emit_eventFrame o s).power

@[simp] theorem finish_power (op : Nat) (c : Cmd) (st : Nat) (r : List Byte) (s : State) :
    (finish op c st r s).power = s.power := by rw [finish_frame]

@[simp] theorem sendNow_power (k type : Nat) (f : Frame) (s : State) : (sendNow k type f s).power = s.power := by
  simp [sendNow, countEv]

@[simp] theorem emitFrame_power (k type : Nat) (f : Frame) (s : State) : (emitFrame k type f s).power = s.power := by
  simp [emitFrame]

theorem power_of_linkAllow {f : Frame} {s t : State} (h : linkAllow f s = some t) : t.power = s.power := by
  unfold linkAllow at h
  split at h
  · cases h; rfl
  · rw [(allow_some h).2]

@[simp] theorem allowanceWait_power (s : State) : (allowanceWait s).power = s.power := by simp [allowanceWait]

@[simp] theorem pump_power (n k c : Nat) (s : State) : (pump n k c s).power = s.power := by
  fun_induction pump n k c s with
  | case6 n s x hx e he hm s' hl fresh f s₁ s₂ ih => rw [ih]; simp +zetaDelta [ackSent, power_of_linkAllow hl]
  | _ => simp

@[simp] theorem connSend_power (k c type : Nat) (f : Frame) (s : State) : (connSend k c type f s).power = s.power := by
  simp [connSend, pumpAll]

@[simp] theorem descResult_power (h id st : Nat) (s : State) : (descResult h id st s).power = s.power := by
  fun_cases descResult h id st s <;> simp

@[simp] theorem endOp_power (o : PeerOpState) (st : Nat) (s : State) : (endOp o st s).power = s.power := by
  fun_cases endOp o st s <;> simp +zetaDelta

@[simp] theorem doHeld_power (a : HeldAct) (s : State) : (doHeld a s).power = s.power := by
  fun_cases doHeld a s <;> simp

@[simp] theorem releaseHeld_power (t : Nat) (upTo : Option (BitVec 24)) (s : State) :
    (releaseHeld t upTo s).power = s.power := by simp [releaseHeld]

@[simp] theorem staleCopy_power (t : Nat) (s : State) : (staleCopy t s).power = s.power := by simp [staleCopy]

@[simp] theorem unreachable_power (k c : Nat) (s : State) : (unreachable k c s).power = s.power := by
  simp [unreachable]

@[simp] theorem failConn_power (k c : Nat) (s : State) : (failConn k c s).power = s.power := by simp [failConn]

@[simp] theorem failPort_power (k : Nat) (s : State) : (failPort k s).power = s.power := by simp [failPort]

@[simp] theorem makeRoom_power (s : State) : (makeRoom s).power = s.power := rfl

@[simp] theorem dozeReached_power (s : State) : (dozeReached s).power = s.power := by simp [dozeReached]

@[simp] theorem portTrains_power (k : Nat) (s : State) : (portTrains k s).power = s.power := by simp [portTrains]

/-- A domain that goes off loses what it holds, and switches no other (Table 3.5). -/
@[simp] theorem domainLoses_power (d : Nat) (s : State) : (domainLoses d s).power = s.power := by simp [domainLoses]

/-! ### Timeouts (R72, R76) -/

theorem quiesceTimeout_of_due {s : State} {c : Cmd} {f : Bool} {d : Nat}
    (hq : s.kettle.quiesce = some { cmd := some c, ignoreFloor := f, deadline := d }) (hd : d ≤ s.clock.timebase) :
    quiesceTimeout s = finish 0x0804 c stDeferred []
      { s with kettle := { s.kettle with quiesce := some { cmd := none, ignoreFloor := f, deadline := d } } } := by
  simp [quiesceTimeout, hq, due, now, hd]

theorem kbSendAdminTimeout_of_due {s : State} {c : Cmd} {e : BitVec 6} {m : Nat} {r : List (Cmd × BitVec 6 × Nat)}
    (hk : s.kb.adminSent = (c, e, m) :: r) (hm : m + 64 ≤ s.clock.mark) :
    kbSendAdminTimeout s = finish 0x0807 c stOK [0, 0, 1] { s with kb := { s.kb with adminSent := r } } := by
  simp only [kbSendAdminTimeout, hk, if_pos hm]
  rfl

/-! ### Rail steps (R87) -/

/-- What is sent joins the output. -/
theorem mem_out_emit (o : Out) (s : State) : o ∈ (emit o s).out := by
  unfold emit hostPayload
  split <;> exact List.mem_cons_self

theorem mem_insertNat (l : List Nat) (n : Nat) : n ∈ insertNat l n := by
  induction l with
  | nil => exact List.mem_cons_self
  | cons a l ih =>
    unfold insertNat
    split_ifs with hlt heq
    · exact List.mem_cons_self
    · exact heq ▸ List.mem_cons_self
    · exact List.mem_cons_of_mem a ih

/-- Rail r moves to v (R87). -/
def railStep (r v : Nat) (s : State) : State :=
  avsWrite r v { s with power := { s.power with
    rails := s.power.rails.set r v, railMark := tset 0 s.power.railMark r (s.clock.mark + 1),
    stepHeld := s.power.stepHeld.filter (· != r) } }

theorem railStep_rails (r v : Nat) (s : State) : (railStep r v s).power.rails = s.power.rails.set r v := by
  simp [railStep, avsWrite]

theorem mem_out_railStep (r v : Nat) (s : State) : Out.avsWrite (avsBus r) (avsSel r) v ∈ (railStep r v s).out :=
  mem_out_emit _ _

/-- At a mark for rail steps, a rail that has not stepped and is off its target steps down, or up where E has room. -/
theorem vcoreStep_of_due {r : Nat} {s : State} (hm : s.clock.mark % 4 = 0)
    (hs : tget 0 s.power.railMark r ≠ s.clock.mark + 1) (hk : s.kettle.running = true) (hr : railMoves s r = true)
    (ht : railMv s r ≠ railTarget s r) :
    vcoreStep r s =
      if railTarget s r < railMv s r then railStep r (railMv s r - 5) s
      else if hasRoom s (stepRise s r) then makeRoom (railStep r (railMv s r + 5) s)
      else { s with power := { s.power with stepHeld := insertNat s.power.stepHeld r } } :=
  if_neg (by simp [hm, hs, hk, hr, ht])

/-! ### Domains (R92) -/

theorem getLsbD_bit {d i : Nat} (hi : i < 96) : (BitVec.ofNat 96 (2 ^ d)).getLsbD i = decide (d = i) := by
  rw [BitVec.getLsbD_ofNat, Nat.testBit_two_pow, decide_eq_true hi, Bool.true_and]

/-- A switched domain has its new state, and every other domain the one it had. -/
theorem switchDomain_on {d i : Nat} (on : Bool) (s : State) (hi : i < 96) :
    (switchDomain d on s).power.on.getLsbD i = if i = d then on else s.power.on.getLsbD i := by
  have hset : (s.power.on ||| BitVec.ofNat 96 (2 ^ d)).getLsbD i = (s.power.on.getLsbD i || decide (d = i)) := by
    rw [BitVec.getLsbD_or, getLsbD_bit hi]
  have hclear : (s.power.on &&& ~~~ BitVec.ofNat 96 (2 ^ d)).getLsbD i = (s.power.on.getLsbD i && !decide (d = i)) := by
    rw [BitVec.getLsbD_and, BitVec.getLsbD_not, getLsbD_bit hi, decide_eq_true hi, Bool.true_and]
  cases on with
  | true => exact hset.trans (by by_cases h : i = d <;> simp [h, Ne.symm])
  | false => exact hclear.trans (by by_cases h : i = d <;> simp [h, Ne.symm])

theorem domainPowerOn_power {d : Nat} {s : State} (hw : wantsOn s d = true) (hr : hasRoom s (domainShare s d) = true) :
    (domainPowerOn d s).power = (switchDomain d true s).power := by
  simp [domainPowerOn, hw, hr]

/-- Outside doze a domain that is to go off goes off at once. -/
theorem domainPowerOff_power {d : Nat} {s : State} (hz : s.doze = .none) (hw : wantsOff s d = true) :
    (domainPowerOff d s).power = (switchDomain d false s).power := by
  have hd : (domainPowerOff d s).power = (switchDomain d false (domainLoses d s)).power := by
    simp [domainPowerOff, hz, hw]
  rw [hd, switchDomain, switchDomain, domainLoses_power]

/-- Settles O33: each event's condition holds, so that it does its one update. -/
theorem kettleAndDomainEvents : Obligations.KettleAndDomainEvents := by
  unfold Obligations.KettleAndDomainEvents
  refine ⟨?_, ?_, ?_, ?_, ?_, ?_, ?_⟩
  · intro s c f d hq hd
    exact congrArg _ (quiesceTimeout_of_due hq hd)
  · intro s c e m r hk hm
    exact congrArg _ (kbSendAdminTimeout_of_due hk hm)
  · intro s r hm hs hk hr ht
    have hv := vcoreStep_of_due hm hs hk hr (Nat.ne_of_gt ht)
    rw [if_pos ht] at hv
    exact ⟨_, congrArg Host.Outcome.next hv, railStep_rails _ _ s, mem_out_railStep _ _ s⟩
  · intro s r hm hs hk hr ht
    have hv := vcoreStep_of_due hm hs hk hr (Nat.ne_of_lt ht)
    rw [if_neg (Nat.lt_asymm ht)] at hv
    refine ⟨_, congrArg Host.Outcome.next hv, fun hroom => ?_, fun hroom => ?_⟩
    · rw [if_pos hroom]
      exact ⟨railStep_rails _ _ s, mem_out_railStep _ _ s⟩
    · rw [if_neg (by simp [hroom])]
      exact ⟨mem_insertNat _ _, rfl⟩
  · intro s d hw hr
    refine ⟨_, rfl, ?_, fun i hi hne => ?_⟩
    · rw [domainPowerOn_power hw hr, switchDomain_on true s d.isLt, if_pos rfl]
    · rw [domainPowerOn_power hw hr, switchDomain_on true s hi, if_neg hne]
  · intro s d hz hw
    refine ⟨_, rfl, ?_, fun i hi hne => ?_⟩
    · rw [domainPowerOff_power hz hw, switchDomain_on false s d.isLt, if_pos rfl]
    · rw [domainPowerOff_power hz hw, switchDomain_on false s hi, if_neg hne]
  · exact fun s q => rfl

end Sys2Proof.Machine
end

section
/-! The kettle bus: what passing a frame does on a member, and the chain's events (O34). -/

namespace Sys2Proof.Machine

open Sys2Proof

theorem EventFrame.kb {s t : State} (h : EventFrame s t) : t.kb = s.kb := by
  obtain ⟨_, _, _, _, rfl⟩ := h
  rfl

@[simp] theorem emit_kb (o : Out) (s : State) : (emit o s).kb = s.kb := (emit_eventFrame o s).kb

/-! ### Passing a frame (R64 to R68) -/

/-- A running member of the chain puts its latched request to a grant frame. -/
theorem requestFor_of_member {s : State} {r : Nat} (hk : s.kettle.running = true) (hm : kbStrap s = 0)
    (ha : s.kb.acquired = true) (hr : s.kb.request = some (Int.ofNat r)) : requestFor s 0 = r := by
  simp [requestFor, chained, hk, hm, ha, hr]

/-- A request that the credit covers is granted and taken from it (R65). -/
theorem kbPass_of_le {credit r : Nat} (hc : credit < 2 ^ 20) (h : r ≤ credit) :
    kbPass 0 credit false r = { credit := credit - r, overdraw := false, granted := r } := by
  have hm : (credit + 2 ^ 20 - r) % 2 ^ 20 = credit - r := by omega
  simp only [kbPass, hm, Nat.not_lt.mpr h, decide_false, Bool.or_self]
  rfl

/-- A borrow marks an overdraw and denies the request (R65). -/
theorem kbPass_of_lt {credit r : Nat} (h : credit < r) :
    kbPass 0 credit false r = { credit := credit + 2 ^ 20 - r, overdraw := true, granted := 0 } := by
  have hm : (credit + 2 ^ 20 - r) % 2 ^ 20 = credit + 2 ^ 20 - r := Nat.mod_eq_of_lt (by omega)
  simp only [kbPass, hm, h, decide_true, Bool.or_true]
  rfl

theorem kbCredit_lt (w : BitVec 64) : kbCredit w < 2 ^ 20 := Nat.mod_lt _ (by decide)

/-- What passing frame w does to its credit on s. -/
def kbPassing (w : BitVec 64) (s : State) : KbPass :=
  kbPass (kbType w) (kbCredit w) (kbOverdraw w) (requestFor s (kbType w))

/-- The frame as it leaves s where it came valid, with a fresh CRC (R67). -/
def kbForwarded (w : BitVec 64) (s : State) : BitVec 64 :=
  kbFrame (kbBody 0xA7 (kbType w) (kbEpoch w) (kbPassing w s).credit (min (kbCount w + 1) 4095)
    (kbPassing w s).overdraw 0) false

/-- The port's state once a valid frame has passed, but for what it grants. -/
def kbCounted (w : BitVec 64) (req : Nat) (p : KbPass) (kb : Kb) : Kb :=
  kbEpochSeen (kbEpoch w) { kbShown (kbType w) req p { kb with request := none, frameSeen := true } with
    goodRun := kb.goodRun + 1, badRun := 0, sinceValid := 0, position := kbCount w + 1 }

/-- A valid frame is sent on, counted, and takes effect. -/
theorem kbMember_of_valid {w : BitVec 64} {s u : State} (hs : kbSync w = 0xA7) (hc : kbCrcOk w = true)
    (hr : kbReserved w = 0) (hu : u = emit (.kbOut (kbForwarded w s)) s) :
    kbMember w s = kbAccept (kbType w) (kbCredit w) (kbPassing w s).granted
      { u with kb := kbCounted w (requestFor s (kbType w)) (kbPassing w s) u.kb } := by
  subst hu
  unfold kbMember kbForwarded kbCounted kbPassing
  rw [hc, hs, hr]
  rfl

/-- An epoch changes only what counts epochs, and restarts the accrued counts where it is a skip (R71). -/
theorem kbEpochSeen_frame (epoch : Nat) (kb : Kb) : ∃ last run skips up down, kbEpochSeen epoch kb =
    { kb with lastEpoch := last, epochRun := run, skips := skips, accUp := up, accDown := down } := by
  unfold kbEpochSeen
  extract_lets e
  split
  · exact ⟨_, _, _, _, _, rfl⟩
  · split <;> exact ⟨_, _, _, _, _, rfl⟩

theorem kbCounted_fields (w : BitVec 64) (req : Nat) (p : KbPass) (kb : Kb) :
    (kbCounted w req p kb).request = none ∧ (kbCounted w req p kb).position = kbCount w + 1 ∧
      (kbCounted w req p kb).goodRun = kb.goodRun + 1 ∧ (kbCounted w req p kb).badRun = 0 ∧
      (kbCounted w req p kb).grantUp = kb.grantUp := by
  obtain ⟨_, _, _, _, _, h⟩ := kbEpochSeen_frame (kbEpoch w)
    { kbShown (kbType w) req p { kb with request := none, frameSeen := true } with
      goodRun := kb.goodRun + 1, badRun := 0, sinceValid := 0, position := kbCount w + 1 }
  rw [kbCounted, h]
  exact ⟨rfl, rfl, rfl, rfl, rfl⟩

/-- A grant frame adds what it grants to what the next mark applies (R41). -/
theorem kbAccept_grantFrame (credit granted : Nat) (s : State) :
    kbAccept 0 credit granted s = { s with kb := { s.kb with
      grantUp := s.kb.grantUp + granted * mw, usedUp := max 1 s.kb.accUp, accUp := 0 } } := rfl

/-- A valid grant frame on a member: its request is used, the frame counts it, and what was granted is noted. -/
theorem kbMember_grantFrame {w : BitVec 64} (s : State) (hs : kbSync w = 0xA7) (hc : kbCrcOk w = true)
    (hr : kbReserved w = 0) (ht : kbType w = 0) :
    (kbMember w s).kb.request = none ∧ (kbMember w s).kb.position = kbCount w + 1 ∧
      (kbMember w s).kb.goodRun = s.kb.goodRun + 1 ∧ (kbMember w s).kb.badRun = 0 ∧
      (kbMember w s).kb.grantUp = s.kb.grantUp + (kbPassing w s).granted * mw ∧
      Out.kbOut (kbForwarded w s) ∈ (kbMember w s).out := by
  have hm := kbMember_of_valid hs hc hr (s := s) rfl
  rw [ht, kbAccept_grantFrame, emit_kb] at hm
  obtain ⟨hreq, hpos, hgood, hbad, hup⟩ := kbCounted_fields w (requestFor s 0) (kbPassing w s) s.kb
  rw [hm]
  exact ⟨hreq, hpos, hgood, hbad, congrArg (· + _) hup, mem_out_emit _ s⟩

/-- A grant frame whose CRC fails counts against the chain, and denies the request (R68, R70). -/
theorem kbMember_crcFailed {w : BitVec 64} (s : State) (hc : kbCrcOk w = false) (ht : kbType w = 0) :
    (kbMember w s).kb.request = none ∧ (kbMember w s).kb.grantUp = s.kb.grantUp ∧ (kbMember w s).kb.accUp = 0 ∧
      (kbMember w s).kb.goodRun = 0 ∧ (kbMember w s).kb.badRun = s.kb.badRun + 1 ∧
      (kbMember w s).kb.crcFails = s.kb.crcFails + 1 := by
  unfold kbMember
  rw [hc, ht]
  simp [kbShown, kbDenied, kbCrcFailed]

/-! ### Frames at the port (R61, R72) -/

section
variable {s : State} (w : BitVec 64) (hv : s.pins.vaux = true)
include hv

theorem kbFrameReceived_of_member (hm : kbStrap s = 0) : kbFrameReceived w s = kbMember w s := by
  simp [kbFrameReceived, hv, hm]

/-- A port that is off forwards a frame unchanged (Table 2.4). -/
theorem kbFrameReceived_of_off (h0 : kbStrap s ≠ 0) (h1 : kbStrap s ≠ 1) :
    kbFrameReceived w s = emit (.kbOut w) s := by
  unfold kbFrameReceived
  rw [if_neg (by simp [hv])]
  split
  · contradiction
  · contradiction
  · rfl

theorem kbFrameReturn_of_valid (hm : kbStrap s = 1) (ha : s.kb.adminSent = []) (hs : kbSync w = 0xA7)
    (hc : kbCrcOk w = true) :
    kbFrameReturn w s = { s with kb := { s.kb with
      unreturned := 0, chainOpen := false, sinceValid := 0, lastEpoch := some (BitVec.ofNat 6 (kbEpoch w)),
      lastCount := kbCount w, lastCredit := kbCredit w, lastOverdraw := kbOverdraw w, lastType := kbType w,
      overdrawSeen := kbOverdraw w } } := by
  unfold kbFrameReturn
  rw [hc]
  simp [adminReturned, hm, hv, ha, hs]

end

/-! ### The chain's events (R70 to R72) -/

theorem devEvent_kb (code sev : Nat) (args : List Byte) (s : State) : (devEvent code sev args s).kb = s.kb :=
  (devEvent_frame code sev args s).kb

/-- An event changes nothing of the governor but its counts. -/
theorem governor_devEvent (code sev : Nat) (args : List Byte) (s : State) :
    governor (devEvent code sev args s) = governor s := governor_logRecord _ _ _ _ _ _ s

theorem kbChainOpen_of_missing {s : State} (hm : kbStrap s = 1) (hu : 8 ≤ s.kb.unreturned)
    (ho : s.kb.chainOpen = false) :
    kbChainOpen s = devEvent 0x0801 2 [] { s with kb := { s.kb with chainOpen := true } } :=
  if_pos (by simp [hm, hu, ho])

theorem kbChainAcquire_of_good {s : State} (hm : kbStrap s = 0) (ha : s.kb.acquired = false) (hl : s.kb.lost = false)
    (hg : 3 ≤ s.kb.goodRun) (hb : s.boot.stage = .ready) :
    kbChainAcquire s = { s with kb := { s.kb with acquired := true } } :=
  if_pos (by simp [hm, ha, hl, hg, hb])

theorem kbMasterLoss_of_bad {s : State} (hm : kbStrap s = 0) (ha : s.kb.acquired = true) (hb : 8 ≤ s.kb.badRun) :
    kbMasterLoss s = devEvent 0x0801 2 [] { countEvent (devCtr 22) 1 s with kb := { s.kb with
      acquired := false, lost := true, cap := none, losses := s.kb.losses + 1, grantUp := 0, grantDown := 0,
      request := none } } :=
  if_pos (by simp [hm, ha, hb])

theorem kbChainRejoin_of_run {s : State} (hm : kbStrap s = 0) (hl : s.kb.lost = true) (hr : 16 ≤ s.kb.epochRun) :
    kbChainRejoin s =
      { s with kb := { s.kb with acquired := true, lost := false, accUp := 0, accDown := 0 } } :=
  if_pos (by simp [hm, hl, hr])

/-- Settles O34: a valid frame is passed, counted and accepted; where the request is covered the pass grants it, and
otherwise it borrows. The chain's events are one update each. -/
theorem kettleBusFrames : Obligations.KettleBusFrames := by
  unfold Obligations.KettleBusFrames
  refine ⟨?_, ?_, ?_, ?_, ?_, ?_, ?_, ?_, ?_⟩
  · intro s w r hv hm ha hk hreq hs hc hr ht ho
    obtain ⟨hnone, hpos, hgood, hbad, hup, hout⟩ := kbMember_grantFrame s hs hc hr ht
    have hp : kbPassing w s = kbPass 0 (kbCredit w) false r := by
      rw [kbPassing, ht, ho, requestFor_of_member hk hm ha hreq]
    rw [kbForwarded, ht, hp] at hout
    rw [hp] at hup
    refine ⟨_, congrArg Host.Outcome.next (kbFrameReceived_of_member w hv hm), hnone, hpos, hgood, hbad, ?_, ?_⟩
    · intro hle
      rw [kbPass_of_le (kbCredit_lt w) hle] at hup hout
      exact ⟨hup, hout⟩
    · intro hlt _
      rw [kbPass_of_lt hlt] at hup hout
      exact ⟨hup.trans (by simp), hout⟩
  · intro s w hv hm hc ht
    exact ⟨_, congrArg Host.Outcome.next (kbFrameReceived_of_member w hv hm), kbMember_crcFailed s hc ht⟩
  · intro s w hv h0 h1
    exact congrArg Host.Outcome.next (kbFrameReceived_of_off w hv h0 h1)
  · intro s w hv hm ha hs hc
    exact congrArg Host.Outcome.next (kbFrameReturn_of_valid w hv hm ha hs hc)
  · intro s hm hu ho
    exact ⟨_, congrArg Host.Outcome.next (kbChainOpen_of_missing hm hu ho), devEvent_kb _ _ _ _⟩
  · intro s hm ha hl hg hb
    exact congrArg Host.Outcome.next (kbChainAcquire_of_good hm ha hl hg hb)
  · intro s hm ha hb
    refine ⟨_, congrArg Host.Outcome.next (kbMasterLoss_of_bad hm ha hb), devEvent_kb _ _ _ _, ?_⟩
    exact (congrArg Kettle.e (governor_devEvent _ _ _ _) :)
  · intro s hm hl hr
    exact congrArg Host.Outcome.next (kbChainRejoin_of_run hm hl hr)
  · intro s hh
    exact congrArg Host.Outcome.next (if_pos hh)

end Sys2Proof.Machine
end

section
/-! The gates of the sector path, and the engines' turn after each (O37). -/

namespace Sys2Proof.Machine

open Sys2Proof

/-! ### The engines' turn changes nothing while no engine waits (R200) -/

/-- A fold whose every step leaves the state as it is leaves it as it is. -/
theorem foldl_of_idle {σ α : Type} {f : σ → α → σ} {s : σ} {l : List α} (h : ∀ a ∈ l, f s a = s) : l.foldl f s = s := by
  induction l with
  | nil => rfl
  | cons a l ih => rw [List.foldl_cons, h a List.mem_cons_self, ih fun b hb => h b (List.mem_cons_of_mem a hb)]

/-- The host has no turn: its accesses complete as they are served. -/
theorem ownerTurn_host (s : State) : ownerTurn .host s = s := by
  unfold ownerTurn
  split <;> rfl

theorem infuserTurn_of_none {s : State} (h : s.infusers = []) (n : Nat) : infuserTurn n s = s := by
  have hi : infuserOf s n = {} := by rw [infuserOf, h]; rfl
  rw [infuserTurn, hi]
  rfl

theorem engineTurn_of_idle {s : State} (h : EnginesIdle s) : engineTurn s = s := by
  obtain ⟨hown, hlists, hinf, hheld, htwin, hcolls, hbench⟩ := h
  have howners : ((s.path.accesses.map (·.owner)).eraseDups).foldl (fun s o => ownerTurn o s) s = s := by
    refine foldl_of_idle fun o ho => ?_
    obtain ⟨a, ha, rfl⟩ := List.mem_map.mp (List.mem_eraseDups.mp ho)
    rw [hown a ha, ownerTurn_host]
  have hinfusers : (List.range 8).foldl (fun s n => infuserTurn n s) s = s :=
    foldl_of_idle fun n _ => infuserTurn_of_none hinf n
  have hb : benchTurn s = s := by rw [benchTurn, hbench]; rfl
  have hd : descsProgress s = s := by rw [descsProgress, hlists]; rfl
  have hr : retryHeld s = s := by rw [retryHeld, hheld]; rfl
  have hc : collSync s = s := by rw [collSync, hcolls]; rfl
  unfold engineTurn
  simp only [howners, htwin, List.map_nil, List.foldl_nil, hinfusers, hb, hd, hr, hc]

/-! ### A request after an update of it -/

theorem find?_modFirst {α : Type} {p : α → Bool} {f : α → α} {l : List α} {a : α} (h : l.find? p = some a)
    (hp : p (f a) = true) : (modFirst l p f).find? p = some (f a) := by
  induction l with
  | nil => cases h
  | cons b l ih =>
    cases hb : p b with
    | true =>
      obtain rfl : b = a := by simpa [hb] using h
      simp [modFirst, hb, hp]
    | false => simpa [modFirst, hb] using ih (by simpa [hb] using h)

theorem id_of_reqOf {s : State} {id : Nat} {r : Req} (h : reqOf s id = some r) : r.id = id := by
  simpa using List.find?_some h

theorem reqOf_modReq {s : State} {id : Nat} {r : Req} {f : Req → Req} (h : reqOf s id = some r)
    (hf : (f r).id = r.id) : reqOf (modReq id f s) id = some (f r) :=
  find?_modFirst h (by simpa [id_of_reqOf h] using hf)

/-! ### The regulator's gate (R194, R195, R200) -/

/-- A request that stands before its regulator, with none of its stream before it, and that its checks let through. -/
structure AtRegulator (s : State) (id : Nat) (r : Req) : Prop where
  req : reqOf s id = some r
  place : r.place = .regulator ∨ (r.place = .stem ∧ storeRoom s r.stack = true)
  kind : r.kind ≠ .pot
  first : earlierWaits s r = false
  served : gateStatus s r = none

/-- The request's tokens are taken, where it is not exempt. -/
def tokensTaken (s : State) (r : Req) : State :=
  if r.exempt then s else takeTokens r.tenant r.stack (reqSectors r) s

theorem regulatorAdmit_of_atRegulator {s : State} {id : Nat} {r : Req} (h : AtRegulator s id r) :
    regulatorAdmit id s =
      if !tokensCover s r then
        setBucket r.tenant r.stack
          { bucketOf s r.tenant r.stack with waits := (bucketOf s r.tenant r.stack).waits + 1, waited := true }
          (modReq id (fun x => { x with place := .regulator }) s)
      else if regulatorFirst s r then s
      else modReq id (fun x => { x with place := .kettle, target := takeTarget s r }) (tokensTaken s r) := by
  obtain ⟨hreq, hplace, hkind, hfirst, hserved⟩ := h
  have hp : ¬((!(r.place == .regulator || (r.place == .stem && storeRoom s r.stack)) || earlierWaits s r) = true) := by
    rcases hplace with hp | ⟨hp, hs⟩
    · simp [hp, hfirst]
    · simp [hp, hs, hfirst]
  unfold regulatorAdmit
  simp only [hreq]
  rw [if_neg hp, if_neg (by simpa using hkind)]
  simp only [hserved]
  rfl

/-- Taking tokens reaches only the buckets. -/
theorem tokensTaken_frame (s : State) (r : Req) :
    tokensTaken s r = { s with buckets := (tokensTaken s r).buckets } := by
  unfold tokensTaken takeTokens
  split
  · rfl
  · split <;> rfl

theorem tokens_tokensTaken {s : State} {r : Req} (he : r.exempt = false) (ho : regOn s r.tenant r.stack = true) :
    (bucketOf (tokensTaken s r) r.tenant r.stack).tokens = (bucketOf s r.tenant r.stack).tokens - reqSectors r := by
  simp only [tokensTaken, he, takeTokens, ho, if_true, Bool.false_eq_true, if_false, bucketOf_setBucket]

/-! ### The kettle's gate (R42, R43) -/

/-- A request that stands at admission, first of its stream and of the tenants' turns, and that its checks let
through. -/
structure AtKettle (s : State) (id : Nat) (r : Req) : Prop where
  req : reqOf s id = some r
  place : r.place = .kettle
  kind : r.kind ≠ .pot
  first : earlierWaits s r = false
  turn : kettleFirst s (reqRank s r) r.tenant = false
  served : gateStatus s r = none
  admitting : quiesced s = false

theorem allow_of_le {unit debit : Nat} {s : State} (hq : quiesced s = false) (h : debit ≤ allowanceOf s unit) :
    allow unit debit s = some { s with kettle := { s.kettle with
      allowance := s.kettle.allowance - debit, altAllowance := s.kettle.altAllowance - debit } } := by
  simp [allow, hq, h]

theorem allow_of_lt {unit debit : Nat} {s : State} (h : allowanceOf s unit < debit) : allow unit debit s = none := by
  simp [allow, Nat.not_le.mpr h]

/-- Work that the allowance alone holds back is noted as waiting (R41). -/
theorem allowanceWait_eq {s : State} (hq : quiesced s = false) :
    allowanceWait s = { s with kettle := { s.kettle with userWaits := true } } := by
  simp [allowanceWait, hq]

theorem admitRequest_of_atKettle {s : State} {id d : Nat} {r : Req} (h : AtKettle s id r)
    (hd : d = hbmDebit s r.stack (reqSectors r) r.write + linkDebit s r 1) :
    admitRequest id s = (allow r.stack d s).elim (allowanceWait s)
      (fun t => modReq id (fun r => { r with place := .gate }) (tenantServed r.tenant t)) := by
  obtain ⟨hreq, hplace, hkind, hfirst, hturn, hserved, -⟩ := h
  unfold admitRequest
  simp only [hreq]
  rw [if_neg (by simp [hplace, waitsClear, hkind, hfirst, hturn]), if_neg (by simpa using hkind)]
  simp only [hserved, ← hd]
  cases allow r.stack d s <;> rfl

/-- s with debit d taken by a request of tenant t. -/
def debitTaken (t d : Nat) (s : State) : State :=
  { s with kettle := { s.kettle with
      allowance := s.kettle.allowance - d, altAllowance := s.kettle.altAllowance - d, lastTenant := t } }

section
variable {s : State} {id d : Nat} {r : Req} (h : AtKettle s id r)
  (hd : d = hbmDebit s r.stack (reqSectors r) r.write + linkDebit s r 1)
include h hd

theorem admitRequest_of_le (hle : d ≤ allowanceOf s r.stack) :
    admitRequest id s = modReq id (fun r => { r with place := .gate }) (debitTaken r.tenant d s) := by
  rw [admitRequest_of_atKettle h hd, allow_of_le h.admitting hle]
  rfl

theorem admitRequest_of_lt (hlt : allowanceOf s r.stack < d) :
    admitRequest id s = { s with kettle := { s.kettle with userWaits := true } } := by
  rw [admitRequest_of_atKettle h hd, allow_of_lt hlt]
  exact allowanceWait_eq h.admitting

end

/-- Host-port payload that the hub's allowance covers takes its debit. -/
theorem admitLink_of_le {s : State} {bytes : Nat} (hq : quiesced s = false)
    (h : evPower s .host 8 (units64 bytes) ≤ allowanceOf s hubUnit) :
    admitLink none bytes s = { s with kettle := { s.kettle with
      allowance := s.kettle.allowance - evPower s .host 8 (units64 bytes),
      altAllowance := s.kettle.altAllowance - evPower s .host 8 (units64 bytes) } } := by
  simp only [admitLink, allow_of_le hq h]

/-! ### The queue's gate (R202) -/

/-- r with the place of its line under the map in force. -/
def placedReq (s : State) (r : Req) : Req :=
  let p := placeAt s r.stack r.offset
  { r with pc := p.pc, bank := p.bank, row := p.row, line := p.line }

/-- A read joins no write. -/
theorem joinSector_of_read {r : Req} (s : State) (b : Nat) (h : r.write = false) : joinSector b (r, s) = (r, s) := by
  simp [joinSector, h]

/-- A read that stands before its queue, first of its stream and of those that may enter, and that nothing holds. -/
structure ReadAtQueue (s : State) (id : Nat) (r : Req) : Prop where
  req : reqOf s id = some r
  place : r.place = .gate
  read : r.write = false
  mask : r.mask ≠ 0
  first : earlierWaits s r = false
  noMapout : mapoutHolds s r = false
  noFetch : fetchHeld s r = false
  served : queueStatus s r = none
  room : mayEnter s (placedReq s r) = true
  turn : entersFirst s (placedReq s r) = false

theorem queueEntry_of_read {s : State} {id : Nat} {r : Req} (h : ReadAtQueue s id r) :
    queueEntry id s = enterQueue (placedReq s r) s := by
  obtain ⟨hreq, hplace, hw, hm, hfirst, hmap, hfetch, hserved, hmay, hturn⟩ := h
  have hpw : (placedReq s r).write = false := hw
  have hpm : (placedReq s r).mask ≠ 0 := hm
  unfold queueEntry
  simp only [hreq]
  rw [if_neg (by simp [hplace, hfirst, hmap, hfetch])]
  simp only [hserved]
  change (if !mayEnter s (placedReq s r) || entersFirst s (placedReq s r) ||
      ((placedReq s r).write && !mirrorGate s (placedReq s r).tenant) then s
    else
      let j := joinSector 1 (joinSector 0 (placedReq s r, s))
      if j.1.mask = 0 then dropReq id j.2 else enterQueue j.1 j.2) = _
  rw [if_neg (by simp [hmay, hturn, hpw]), joinSector_of_read s 0 hpw, joinSector_of_read s 1 hpw]
  exact if_neg hpm

/-- r as it stands in its queue, with the next sequence. -/
def queuedReq (s : State) (r : Req) : Req := { r with rmw := false, place := .queued, seq := s.path.nextSeq }

/-- The next sequence has been given. -/
def seqTaken (s : State) : State := { s with path := { s.path with nextSeq := s.path.nextSeq + 1 } }

/-- A read becomes queued; beside it only its pseudo-channel's round robin and the next sequence change. -/
theorem enterQueue_of_read {r : Req} (s : State) (hw : r.write = false) :
    ∃ pcs, enterQueue r s = seqTaken (modReq r.id (fun _ => queuedReq s r) { s with pcs := pcs }) := by
  unfold enterQueue queuedReq seqTaken
  simp only [hw, Bool.false_and, Bool.false_eq_true, if_false]
  exact ⟨_, rfl⟩

/-- Settles O37: each gate's conditions hold, so that the request goes through it, or waits where it is not covered. -/
theorem sectorPathGates : Obligations.SectorPathGates := by
  unfold Obligations.SectorPathGates
  refine ⟨fun s => engineTurn_of_idle, ?_, ?_, ?_, ?_, ?_⟩
  · intro s id r hreq hplace hkind hfirst hserved hcover hturn
    have ha := regulatorAdmit_of_atRegulator ⟨hreq, hplace, hkind, hfirst, hserved⟩
    rw [if_neg (by simp [hcover]), if_neg (by simp [hturn])] at ha
    have hf := tokensTaken_frame s r
    refine ⟨_, congrArg (fun u => Host.Outcome.next (engineTurn u)) ha, ?_, ?_, ?_, ?_, ?_⟩
    · exact reqOf_modReq (r := r) (by rw [hf]; exact hreq) rfl
    · exact fun he ho => tokens_tokensTaken he ho
    · rw [modReq_hbm, hf]
    · rw [modReq_pot, hf]
    · rw [modReq_kettle, hf]
  · intro s id r hreq hplace hkind hfirst hserved hcover
    have ha := regulatorAdmit_of_atRegulator ⟨hreq, hplace, hkind, hfirst, hserved⟩
    rw [if_pos (by simp [hcover])] at ha
    exact congrArg (fun u => Host.Outcome.next (engineTurn u)) ha
  · intro s id r d hreq hplace hkind hfirst hturn hserved hq hd
    have ha : AtKettle s id r := ⟨hreq, hplace, hkind, hfirst, hturn, hserved, hq⟩
    refine ⟨_, rfl, fun hle => ?_, fun hlt => admitRequest_of_lt ha hd hlt⟩
    have hu := admitRequest_of_le ha hd hle
    rw [kettleAdmit, hu]
    exact ⟨reqOf_modReq hreq rfl, rfl, rfl, rfl, rfl⟩
  · rintro s bytes d hq rfl hle
    exact congrArg (fun u => Host.Outcome.next (engineTurn u)) (admitLink_of_le hq hle)
  · rintro s id r p hreq hplace hw hm hfirst hmap hfetch hserved rfl hmay hturn
    have ha := queueEntry_of_read ⟨hreq, hplace, hw, hm, hfirst, hmap, hfetch, hserved, hmay, hturn⟩
    obtain ⟨pcs, he⟩ := enterQueue_of_read (r := placedReq s r) s hw
    rw [he] at ha
    refine ⟨_, congrArg (fun u => Host.Outcome.next (engineTurn u)) ha, ?_, rfl, rfl, rfl⟩
    have hid := id_of_reqOf hreq
    subst hid
    exact reqOf_modReq (s := s) hreq rfl

end Sys2Proof.Machine
end

section
/-! The envelope of the kettle governor over one mark's work (O32). -/

namespace Sys2Proof.Machine

open Sys2Proof

/-! ### One step of the envelope (R40, R41, R72) -/

/-- No want is above CEILING. -/
theorem wantOf_le_ceiling (s : State) (fix mand user : Nat) : wantOf s fix mand user ≤ ceiling s :=
  Nat.min_le_right _ _

/-- The envelope does not go past what is wanted. -/
theorem envelopeStep_le_max (s : State) (c : Closed) (e want : Nat) : envelopeStep s c e want ≤ max e want := by
  unfold envelopeStep
  split
  · exact Nat.le_max_left _ _
  · split
    · extract_lets room step
      omega
    · extract_lets room step
      omega

theorem envelopeStep_of_hold {s : State} (c : Closed) (e want : Nat) (h : 0 < s.kb.holdPeriods) :
    envelopeStep s c e want = e := if_pos h

/-- Off the chain the envelope moves by no more than the slew of one period (R41). -/
theorem envelopeStep_slew {s : State} (c : Closed) (e want : Nat) (h : chained s = false) :
    envelopeStep s c e want ≤ e + perPeriod (slewOf s true) ∧
      e ≤ envelopeStep s c e want + perPeriod (slewOf s false) := by
  unfold envelopeStep
  simp only [h, Bool.false_eq_true, if_false]
  generalize perPeriod (slewOf s true) = up
  generalize perPeriod (slewOf s false) = down
  split_ifs <;> omega

/-! ### What the governor rules by

Counting events, spreading cosy load and the kettle bus's request leave it alone. -/

/-- The envelope, the allowance, the counts of the last window, whether user work waits, and the stacks cut by scald. -/
structure Ruling where
  e : Nat
  allowance : Nat
  lastCounts : Table Nat
  userWaits : Bool
  scaldDrop : List Nat

/-- The part of the governor's state that it rules by. -/
def Kettle.ruling (k : Kettle) : Ruling where
  e := k.e
  allowance := k.allowance
  lastCounts := k.lastCounts
  userWaits := k.userWaits
  scaldDrop := k.scaldDrop

/-- What the governor of s rules by. -/
def ruling (s : State) : Ruling := s.kettle.ruling

theorem ruling_of_kettle {s t : State} (h : t.kettle = s.kettle) : ruling t = ruling s := by rw [ruling, h, ruling]

theorem ruling_of_governor {s t : State} (h : governor t = governor s) : ruling t = ruling s :=
  (congrArg Kettle.ruling h :)

theorem ruling_devEvent (code sev : Nat) (args : List Byte) (s : State) :
    ruling (devEvent code sev args s) = ruling s :=
  ruling_of_governor (governor_devEvent code sev args s)

/-- Whether job work was admitted is no part of it (R52). -/
theorem ruling_jobIdle (k : Kettle) : (jobIdle k).ruling = k.ruling := by
  unfold jobIdle
  split <;> rfl

theorem ruling_countEvent (i n : Nat) (s : State) : ruling (countEvent i n s) = ruling s := rfl

theorem ruling_slewEvent (p cause : Nat) (s : State) : ruling (slewEvent p cause s) = ruling s :=
  ruling_devEvent _ _ _ { s with kettle := { s.kettle with slewEvents := s.kettle.slewEvents + 1 } }

theorem ruling_noteExcess (ex : Nat) (s : State) : ruling (noteExcess ex s) = ruling s := by
  unfold noteExcess
  split
  · rfl
  · exact ruling_slewEvent _ _ _

theorem ruling_noteShortfall (sh : Nat) (s : State) : ruling (noteShortfall sh s) = ruling s := by
  unfold noteShortfall
  extract_lets s₁ k₁ s₂
  split
  · rfl
  · exact ruling_slewEvent _ _ _

theorem kettle_countEnergy (p mand cosy user : Nat) (counts : Table Nat) (s : State) :
    (countEnergy p mand cosy user counts s).kettle = s.kettle := by
  unfold countEnergy
  extract_lets s₁ s₂
  rw [foldl_keeps State.kettle fun s n => countVolume_kettle _ _ s]
  simp only [s₂, s₁, countVolume_kettle]

/-- The old limits' envelope is another (R39). -/
theorem ruling_followOld (c : Closed) (missing : List Nat) (recover : Bool) (s : State) :
    ruling (followOld c missing recover s) = ruling s := by
  unfold followOld
  split <;> rfl

theorem ruling_withCosy (share : Nat) (set : List Nat) (spent blocks : Nat) (s : State) :
    ruling { s with kettle := { s.kettle with
      cosyShare := share, cosySet := set, cosySpent := spent, dummyBlocks := blocks } } = ruling s := rfl

theorem ruling_spreadCosy (power : Nat) (s : State) : ruling (spreadCosy power s) = ruling s := by
  unfold spreadCosy
  extract_lets pcs caps line level rest tiles d blocks k s₁
  have h₁ : ruling s₁ = ruling s := ruling_withCosy _ _ _ _ s
  split
  · exact h₁
  · exact (foldl_keeps ruling (fun _ _ => by rfl) _ _).trans h₁

theorem ruling_latchRequest (want : Nat) (s : State) : ruling (latchRequest want s) = ruling s := rfl

theorem ruling_quiesceReached (level : Nat) (s : State) : ruling (quiesceReached level s) = ruling s := by
  unfold quiesceReached
  split
  · split
    · exact ruling_of_kettle (finish_kettle _ _ _ _ _) |>.trans rfl
    · rfl
  · rfl

/-! ### Counting reaches no limit and no port -/

theorem withKettle_frame (k : Kettle) (s : State) : EventFrame s { s with kettle := k } := ⟨_, _, _, _, rfl⟩

theorem countVolume_frame (i n : Nat) (s : State) : EventFrame s (countVolume i n s) := ⟨_, _, _, _, rfl⟩

theorem countEnergy_frame (p mand cosy user : Nat) (counts : Table Nat) (s : State) :
    EventFrame s (countEnergy p mand cosy user counts s) :=
  have device : EventFrame s (countVolume (devCtr 3) user (countVolume (devCtr 2) cosy
      (countVolume (devCtr 1) mand (countVolume (devCtr 0) p s)))) :=
    .trans (.trans (.trans (countVolume_frame _ _ s) (countVolume_frame _ _ _)) (countVolume_frame _ _ _))
      (countVolume_frame _ _ _)
  .trans device (.foldl _ (fun s _ => countVolume_frame _ _ s) _ _)

theorem slewEvent_frame (p cause : Nat) (s : State) : EventFrame s (slewEvent p cause s) :=
  .trans ⟨_, _, _, _, rfl⟩
    (devEvent_frame _ _ _ { s with kettle := { s.kettle with slewEvents := s.kettle.slewEvents + 1 } })

theorem noteExcess_frame (ex : Nat) (s : State) : EventFrame s (noteExcess ex s) := by
  unfold noteExcess
  split
  · exact .refl s
  · exact .trans ⟨_, _, _, _, rfl⟩ (slewEvent_frame _ _ _)

theorem EventFrame.ceiling {s t : State} (h : EventFrame s t) : ceiling t = ceiling s := by
  obtain ⟨_, _, _, _, rfl⟩ := h
  rfl

theorem EventFrame.chained {s t : State} (h : EventFrame s t) : chained t = chained s := by
  obtain ⟨_, _, _, _, rfl⟩ := h
  rfl

theorem EventFrame.slewOf {s t : State} (h : EventFrame s t) (up : Bool) : slewOf t up = slewOf s up := by
  obtain ⟨_, _, _, _, rfl⟩ := h
  rfl

/-! ### The governor's work (R24, R41, R44, R55) -/

/-- The window's powers and counts join the governor's state. -/
theorem ruling_withWindow (k : Kettle) (p cosy : Nat) (counts powers : Table Nat) (s : State) :
    ruling { s with kettle := { k with pest := p, cosyLast := cosy, lastCounts := counts, lastPower := powers } } =
      { k.ruling with lastCounts := counts } := rfl

theorem ruling_setEnvelope (e fix mand user : Nat) (recover : Bool) (s : State) :
    ruling (setEnvelope e fix mand user recover s) =
      { ruling s with e := e, allowance := if recover then 0 else e - fix - mand } := rfl

theorem ruling_withBreaks (n : Nat) (s : State) :
    ruling { s with kettle := { s.kettle with breaks := n } } = ruling s := rfl

theorem ruling_withoutDrop (s : State) :
    ruling { s with kettle := { s.kettle with scaldDrop := [] } } = { ruling s with scaldDrop := [] } := rfl

theorem ruling_withWaits (waits : Bool) (kb : Kb) (s : State) :
    ruling { s with kettle := { s.kettle with userWaits := waits }, kb := kb } =
      { ruling s with userWaits := waits } := rfl

/-- The governor's new envelope, from the state whose window is counted: a step toward what is wanted, or a drop of the
load of the stacks that scald cut, with a slew break (R41, R55). -/
def envelopeSet (c : Closed) (fix mand cosy user : Nat) (recover : Bool) (s : State) : State :=
  if s.kettle.scaldDrop.isEmpty then
    setEnvelope (envelopeStep s c s.kettle.e (wantOf s fix mand user)) fix mand user recover s
  else
    let e := scaldDropTo fix mand cosy user c.counts s
    let t := slewEvent (s.kettle.e - e) 0 { s with kettle := { s.kettle with breaks := s.kettle.breaks + 1 } }
    setEnvelope e fix mand user recover { t with kettle := { t.kettle with scaldDrop := [] } }

theorem ruling_envelopeSet_of_step {c : Closed} {s : State} (fix mand cosy user : Nat) (recover : Bool)
    (h : s.kettle.scaldDrop = []) :
    ruling (envelopeSet c fix mand cosy user recover s) = { ruling s with
      e := envelopeStep s c s.kettle.e (wantOf s fix mand user),
      allowance := if recover then 0 else envelopeStep s c s.kettle.e (wantOf s fix mand user) - fix - mand } := by
  rw [envelopeSet, if_pos (by simp [h]), ruling_setEnvelope]

theorem ruling_envelopeSet_of_drop {c : Closed} {s : State} (fix mand cosy user : Nat) (recover : Bool)
    (h : s.kettle.scaldDrop ≠ []) :
    ruling (envelopeSet c fix mand cosy user recover s) = { ruling s with
      e := scaldDropTo fix mand cosy user c.counts s,
      allowance := if recover then 0 else scaldDropTo fix mand cosy user c.counts s - fix - mand,
      scaldDrop := [] } := by
  rw [envelopeSet, if_neg (by simpa using h)]
  simp only [ruling_setEnvelope, ruling_withoutDrop, ruling_slewEvent, ruling_withBreaks]

/-- The rest of the governor's work leaves its rulings, but that user work waits no longer where none stands at
admission. -/
def governorRest (c : Closed) (missing : List Nat) (fix mand want : Nat) (recover : Bool) (s : State) : State :=
  let s := followOld c missing recover s
  let s := { s with
    kettle := { s.kettle with userWaits := s.kettle.userWaits && atKettle s },
    kb := { s.kb with holdPeriods := if 1 < s.kb.holdPeriods then s.kb.holdPeriods - 1 else s.kb.holdPeriods } }
  let sh := shortfallOf s c.counts s.kettle.cosyTarget
  let s := latchRequest want (spreadCosy (s.kettle.cosyTarget - sh) (noteShortfall sh s))
  quiesceReached (quiesceLevel s fix mand) s

theorem ruling_governorRest (c : Closed) (missing : List Nat) (fix mand want : Nat) (recover : Bool) (s : State) :
    ∃ waits, ruling (governorRest c missing fix mand want recover s) =
      { ruling s with userWaits := s.kettle.userWaits && waits } := by
  unfold governorRest
  extract_lets s₁ k₁ kb₁ s₂ sh s₃
  refine ⟨atKettle s₁, ?_⟩
  have h₁ : ruling s₁ = ruling s := ruling_followOld c missing recover s
  have hw : s₁.kettle.userWaits = s.kettle.userWaits := congrArg Ruling.userWaits h₁
  have h₂ : ruling s₂ = { ruling s₁ with userWaits := s₁.kettle.userWaits && atKettle s₁ } := ruling_withWaits _ _ s₁
  have h₃ : ruling s₃ = ruling s₂ :=
    (ruling_latchRequest _ _).trans ((ruling_spreadCosy _ _).trans (ruling_noteShortfall _ _))
  rw [ruling_quiesceReached, h₃, h₂, h₁, hw]

/-- The governor counts the window of a mark, sets the new envelope, and then does what follows from it. -/
theorem governorWork_stages (c : Closed) (missing : List Nat) (s : State) :
    ∃ u fix mand cosy user want, ∃ recover : Bool,
      EventFrame s u ∧ ruling u = { ruling s with lastCounts := c.counts } ∧
      governorWork c missing s =
        governorRest c missing fix mand want recover (envelopeSet c fix mand cosy user recover u) := by
  unfold governorWork
  extract_lets r counts fix mand cosy user p s₁ s₂ ex s₃ k₃ s₄ want drop k₄ t k' s₅
  have hf₁ : EventFrame s s₁ := countEnergy_frame _ _ _ _ _ s
  have hr₁ : ruling s₁ = ruling s := ruling_of_kettle (kettle_countEnergy _ _ _ _ _ s)
  have h₂ : EventFrame s₁ s₂ ∧ ruling s₂ = ruling s₁ := by
    unfold s₂
    split
    · exact ⟨countEvent_frame _ _ s₁, ruling_countEvent _ _ s₁⟩
    · exact ⟨.refl s₁, rfl⟩
  have hf₃ : EventFrame s₂ s₃ := noteExcess_frame ex s₂
  have hr₃ : ruling s₃ = ruling s₂ := ruling_noteExcess ex s₂
  have hf₄ : EventFrame s₃ s₄ := withKettle_frame _ s₃
  have hr₄ : ruling s₄ = { k₃.ruling with lastCounts := counts } := ruling_withWindow k₃ _ _ _ _ s₃
  have hk₃ : k₃.ruling = ruling s := (ruling_jobIdle _).trans (hr₃.trans (h₂.2.trans hr₁))
  rw [hk₃] at hr₄
  have h₅ : s₅ = envelopeSet c fix mand cosy user (ex != 0) s₄ := by
    clear_value fix mand cosy user ex s₄
    rfl
  refine ⟨s₄, fix, mand, cosy, user, want, ex != 0, hf₁.trans (h₂.1.trans (hf₃.trans hf₄)), hr₄, ?_⟩
  rw [← h₅]
  clear_value fix mand want ex s₅
  rfl

/-- e is the new envelope of s: a step toward what is wanted of u, which is s with its window counted; or, where scald
has cut stacks, a drop. -/
def NewEnvelope (c : Closed) (s u : State) (e : Nat) : Prop :=
  (s.kettle.scaldDrop = [] ∧ ∃ fix mand user, e = envelopeStep u c s.kettle.e (wantOf u fix mand user)) ∨
    (s.kettle.scaldDrop ≠ [] ∧ e ≤ s.kettle.e)

theorem kettle_of_ruling {s : State} {r : Ruling} (h : ruling s = r) :
    s.kettle.e = r.e ∧ s.kettle.allowance = r.allowance ∧ s.kettle.lastCounts = r.lastCounts ∧
      s.kettle.userWaits = r.userWaits ∧ s.kettle.scaldDrop = r.scaldDrop := by
  subst h
  exact ⟨rfl, rfl, rfl, rfl, rfl⟩

/-- What envelopeSet gives is a new envelope of s, with the allowance that is left of it. -/
theorem envelopeSet_kettle {c : Closed} {s u : State} (fix mand cosy user : Nat) (recover : Bool)
    (hu : ruling u = { ruling s with lastCounts := c.counts }) :
    NewEnvelope c s u (envelopeSet c fix mand cosy user recover u).kettle.e ∧
      (envelopeSet c fix mand cosy user recover u).kettle.allowance ≤
        (envelopeSet c fix mand cosy user recover u).kettle.e ∧
      (envelopeSet c fix mand cosy user recover u).kettle.lastCounts = c.counts ∧
      (envelopeSet c fix mand cosy user recover u).kettle.userWaits = s.kettle.userWaits := by
  obtain ⟨he, -, hc, hw, hd⟩ := kettle_of_ruling hu
  have ha (e : Nat) : (if recover then 0 else e - fix - mand) ≤ e := by split <;> omega
  by_cases h : s.kettle.scaldDrop = []
  · obtain ⟨he', ha', hc', hw', -⟩ :=
      kettle_of_ruling (ruling_envelopeSet_of_step (c := c) fix mand cosy user recover (hd.trans h))
    rw [he', ha', hc', hw']
    exact ⟨.inl ⟨h, fix, mand, user, congrArg (fun e => envelopeStep u c e _) he⟩, ha _, hc, hw⟩
  · obtain ⟨he', ha', hc', hw', -⟩ :=
      kettle_of_ruling (ruling_envelopeSet_of_drop (c := c) fix mand cosy user recover fun hz => h (hd.symm.trans hz))
    rw [he', ha', hc', hw']
    exact ⟨.inr ⟨h, (Nat.min_le_left _ _).trans_eq he⟩, ha _, hc, hw⟩

/-- The governor's work sets a new envelope, and the allowance to what is left of it. -/
theorem governorWork_kettle (c : Closed) (missing : List Nat) (s : State) :
    ∃ u, EventFrame s u ∧ NewEnvelope c s u (governorWork c missing s).kettle.e ∧
      (governorWork c missing s).kettle.allowance ≤ (governorWork c missing s).kettle.e ∧
      (governorWork c missing s).kettle.lastCounts = c.counts ∧
      (s.kettle.userWaits = false → (governorWork c missing s).kettle.userWaits = false) := by
  obtain ⟨u, fix, mand, cosy, user, want, recover, hf, hu, hwork⟩ := governorWork_stages c missing s
  obtain ⟨hnew, hleft, hcounts, hwaits⟩ := envelopeSet_kettle fix mand cosy user recover hu
  obtain ⟨waits, hr⟩ := ruling_governorRest c missing fix mand want recover (envelopeSet c fix mand cosy user recover u)
  obtain ⟨he, ha, hc, hw, -⟩ := kettle_of_ruling hr
  rw [hwork, he, ha, hc, hw]
  exact ⟨u, hf, hnew, hleft, hcounts, fun hs => by rw [hwaits, hs, Bool.false_and]⟩

/-- Settles O32: the new envelope is a step from the old one, or a drop; the step is bounded by the slew, and by CEILING
where the old envelope is. -/
theorem envelopeSlew : Obligations.EnvelopeSlew := by
  unfold Obligations.EnvelopeSlew
  refine ⟨?_, ?_, ?_, ?_, ?_⟩
  · intro c m s hc hd
    obtain ⟨u, hf, ⟨-, fix, mand, user, he⟩ | ⟨hd', -⟩, -⟩ := governorWork_kettle c m s
    · have hstep := envelopeStep_slew c s.kettle.e (wantOf u fix mand user) (hf.chained.trans hc)
      rwa [← he, hf.slewOf, hf.slewOf] at hstep
    · exact absurd hd hd'
  · intro c m s hle
    obtain ⟨u, hf, ⟨-, fix, mand, user, he⟩ | ⟨-, he⟩, -⟩ := governorWork_kettle c m s
    · have hmax := envelopeStep_le_max u c s.kettle.e (wantOf u fix mand user)
      rw [← he] at hmax
      exact hmax.trans (max_le hle (hf.ceiling ▸ wantOf_le_ceiling u fix mand user))
    · exact he.trans hle
  · intro c m s hd hh
    obtain ⟨u, hf, ⟨-, fix, mand, user, he⟩ | ⟨hd', -⟩, -⟩ := governorWork_kettle c m s
    · exact he.trans (envelopeStep_of_hold c _ _ (by rwa [hf.kb]))
    · exact absurd hd hd'
  · intro c m s
    obtain ⟨u, -, -, ha, -⟩ := governorWork_kettle c m s
    exact ha
  · intro c m s
    obtain ⟨u, -, -, -, hcounts, hwaits⟩ := governorWork_kettle c m s
    exact ⟨hcounts, hwaits⟩

end Sys2Proof.Machine
end

section
/-! HKP restart, function-level reset, and the events of the supplies and clocks (O28). -/

namespace Sys2Proof.Machine

open Sys2Proof

/-! ### Pins, boot, doze and power under an event -/

section
variable {s t : State} (h : EventFrame s t)
include h

theorem EventFrame.pins : t.pins = s.pins := by
  obtain ⟨_, _, _, _, rfl⟩ := h
  rfl

theorem EventFrame.boot : t.boot = s.boot := by
  obtain ⟨_, _, _, _, rfl⟩ := h
  rfl

theorem EventFrame.doze : t.doze = s.doze := by
  obtain ⟨_, _, _, _, rfl⟩ := h
  rfl

end

section
variable (code sev : Nat) (args : List Byte) (rings : List Nat) (s : State)

/-- An event that asserts DEV_ALERT_N changes no other pin than that one (R502). -/
@[simp] theorem alertEvent_pins : (alertEvent code sev args rings s).pins =
    { s.pins with devAlert := true, alertSeq := s.tele.logSeq.toNat } := by
  rw [alertEvent_eq, assertAlert_pins, (logEvent_frame _ _ _ _ _ _ s).pins]

@[simp] theorem alertEvent_boot : (alertEvent code sev args rings s).boot = s.boot := by
  rw [alertEvent_eq, assertAlert_boot, (logEvent_frame _ _ _ _ _ _ s).boot]

@[simp] theorem alertEvent_doze : (alertEvent code sev args rings s).doze = s.doze := by
  rw [alertEvent_eq, assertAlert_doze, (logEvent_frame _ _ _ _ _ _ s).doze]

@[simp] theorem alertEvent_power : (alertEvent code sev args rings s).power = s.power := by
  rw [alertEvent_eq, assertAlert_power, (logEvent_frame _ _ _ _ _ _ s).power]

end

/-! ### HKP restart (R123) -/

/-- Every command of the list executes on, its completion discarded (R142). -/
def AllDiscarded (l : List Exec) : Prop := ∀ e ∈ l, e.discard = true ∧ e.done = none

theorem AllDiscarded.filter {l : List Exec} (h : AllDiscarded l) (p : Exec → Bool) : AllDiscarded (l.filter p) :=
  fun e he => h e (List.mem_of_mem_filter he)

/-- Discarding the completions of commands that are executing leaves only such commands. -/
theorem allDiscarded_map_discard (l : List Exec) :
    AllDiscarded ((l.filter (fun e => e.started && e.done.isNone)).map (fun e => { e with discard := true })) := by
  intro e he
  obtain ⟨e', he', rfl⟩ := List.mem_map.mp he
  have hrun := List.of_mem_filter he'
  simp only [Bool.and_eq_true, Option.isNone_iff_eq_none] at hrun
  exact ⟨rfl, hrun.2⟩

theorem AllDiscarded.dropMailbox {s : State} (h : AllDiscarded s.cmds) (k : Nat) :
    AllDiscarded (dropMailbox k s).cmds := by
  intro e he
  obtain ⟨e', he', rfl⟩ := List.mem_map.mp he
  obtain ⟨hdis, hdone⟩ := h e' (List.mem_of_mem_filter he')
  split
  · exact ⟨rfl, hdone⟩
  · exact ⟨hdis, hdone⟩

theorem AllDiscarded.dropPours {s : State} (h : AllDiscarded s.cmds) (p : Cmd → Bool) :
    AllDiscarded (dropPours p s).cmds := h.filter _

theorem AllDiscarded.mailboxReset {s : State} (h : AllDiscarded s.cmds) (k : Nat) :
    AllDiscarded (mailboxReset k s).cmds := by
  have hs : AllDiscarded (if k = 0 && s.boot.warmAsked then askWarmReset s else s).cmds := by
    split <;> exact h
  exact (hs.dropPours fun c => cmdArea c == k).dropMailbox k

theorem allDiscarded_resetMailboxes (s : State) : AllDiscarded (resetMailboxes s).cmds :=
  List.foldlRecOn (motive := fun t : State => AllDiscarded t.cmds) (s.fns.map Prod.fst) _
    (allDiscarded_map_discard s.cmds) fun _ h k _ => h.mailboxReset k

theorem dropStaged_areas (s : State) : (dropStaged s).cfg.areas = [] := rfl

theorem dropStaged_waiting (s : State) : (dropStaged s).cfg.waiting = [] := by simp [dropStaged, dropPours]

/-- The state in which the HKP's restart is reported: it reloads, its mailboxes are reset and nothing is staged. -/
def hkpRestarted (s : State) : State :=
  let u := dropStaged (resetMailboxes s)
  lockBanks { u with boot := { u.boot with
    hkpReloading := true, hkpRestarts := (u.boot.hkpRestarts + 1) % 65536, lastReset := 3 } }

/-- The watchdog's expiry restarts a running HKP; the report reaches only the functions and the log. -/
theorem watchdogExpired_frame {s : State} (hr : hkpRuns s = true) (hh : s.boot.halt = .none)
    (hl : s.boot.hkpReloading = false) : EventFrame (hkpRestarted s) (watchdogExpired s) := by
  have he : watchdogExpired s =
      setIntAll 5 (devEvent 0x0007 2 (leBytes 1 (hkpRestarted s).boot.bootedBank) (hkpRestarted s)) :=
    if_neg (by simp [hr, hh, hl])
  rw [he]
  exact (devEvent_frame _ _ _ _).trans (setIntAll_frame _ _)

/-- The bytes stored follow from the memory, the pot and the identity, which the fixed part holds. -/
theorem sameContents_of_fixed {τ : Touch} {s t : State} (h : fixed τ t = fixed τ s) (hs : τ.contents = false) :
    SameContents s t := by
  have hpot := pot_of_fixed h hs
  refine ⟨fun q i => ?_, fun o => ?_, congrArg Pot.flagged hpot⟩
  · rw [stored, stored, hbm_of_fixed h hs, ident_of_fixed h]
  · rw [potByte, potByte, hpot]

theorem not_serving_of_hkpReloading {s : State} (h : s.boot.hkpReloading = true) : serving s = false := by
  simp [serving, h]

/-- The end of a restart (R123). -/
theorem reloadDone_of_reloading (ok : Bool) {s : State} (h : s.boot.hkpReloading = true) :
    reloadDone ok s = { s with
      boot := { s.boot with hkpReloading := false, stage := if ok = true then s.boot.stage else .stopped },
      flash := { s.flash with erase := s.flash.erase.map fun e => { e with between := !s.flash.jobs.isEmpty } } } :=
  if_neg (by simp [h])

/-! ### Function-level reset (R110)

What stops the tenant's work reports to the function's event ring, but leaves its other registers and the configuration
as the reset left them. -/

/-- The registers of a function, with those that events and interrupts write as at reset. -/
def quiet (f : Fn) : Fn :=
  { f with intStatus := 0, msixPending := 0, evtLost := 0, evtTail := 0, heldEvents := [] }

/-- The quiet registers of function k, and the configuration. -/
def registers (k : Nat) (s : State) : Fn × Cfg := (quiet (fnOf s k), s.cfg)

section
variable {k : Nat}

/-- An update of the state that leaves the functions and the configuration alone. -/
@[simp] theorem registers_update (s : State) (pending ident pins clock boot flash cmds parts hbm pot path buckets qos
    stk chans pcs kettle kb power hub dies compute infusers peers twin tele late exers dbg doze refcode out freeCount) :
    registers k (State.mk pending ident pins clock boot flash s.fns cmds s.cfg parts hbm pot path buckets qos stk chans
      pcs kettle kb power hub dies compute infusers peers twin tele late exers dbg doze refcode out freeCount) =
      registers k s := rfl

@[simp] theorem registers_ite (c : Prop) [Decidable c] (a b : State) :
    registers k (if c then a else b) = if c then registers k a else registers k b := apply_ite _ _ _ _

@[simp] theorem registers_foldl {α : Type} (f : State → α → State) (l : List α) (s : State)
    (h : ∀ s a, registers k (f s a) = registers k s) : registers k (l.foldl f s) = registers k s :=
  foldl_keeps (registers k) h l s

theorem registers_setFn {j : Nat} {f : Fn} {s : State} (h : quiet f = quiet (fnOf s j)) :
    registers k (setFn j f s) = registers k s := by
  rw [registers, registers, fnOf_setFn, setFn_cfg]
  split_ifs with hk
  · rw [h, hk]
  · rfl

theorem emit_fns (o : Out) (s : State) : (emit o s).fns = s.fns := by
  unfold emit hostPayload
  split <;> rfl

theorem fnOf_emit (o : Out) (s : State) : fnOf (emit o s) k = fnOf s k := by rw [fnOf, emit_fns, ← fnOf]

@[simp] theorem registers_emit (o : Out) (s : State) : registers k (emit o s) = registers k s := by
  rw [registers, fnOf_emit, (emit_eventFrame o s).cfg, ← registers]

@[simp] theorem registers_raiseVector (j v : Nat) (s : State) : registers k (raiseVector j v s) = registers k s := by
  unfold raiseVector
  dsimp only
  split
  · exact registers_setFn rfl
  · exact registers_emit _ s

@[simp] theorem registers_setInt (j bit : Nat) (s : State) : registers k (setInt j bit s) = registers k s := by
  unfold setInt
  dsimp only
  split
  · rfl
  · split
    · exact (registers_raiseVector j _ _).trans (registers_setFn rfl)
    · exact registers_setFn rfl

@[simp] theorem registers_countEvent (i n : Nat) (s : State) : registers k (countEvent i n s) = registers k s := rfl

@[simp] theorem registers_loseEvent (j : Nat) (full : Bool) (s : State) :
    registers k (loseEvent j full s) = registers k s := by
  simp only [loseEvent, modFn_eq, registers_ite, registers_countEvent, registers_setInt, ite_self]
  exact registers_setFn rfl

/-- An event for a ring moves the ring's tail, is held or is counted as lost, and sets an interrupt bit (R133, R140). -/
@[simp] theorem registers_ringEvent (j : Nat) (bytes : List Byte) (s : State) :
    registers k (ringEvent j bytes s) = registers k s := by
  fun_cases ringEvent j bytes s with
  | case1 => exact registers_loseEvent j false s
  | case2 => exact registers_setFn rfl
  | case3 => exact registers_loseEvent j true s
  | case4 =>
    simp +zetaDelta only [registers_setInt, registers_countEvent]
    exact (registers_setFn (by rw [fnOf_emit]; rfl)).trans (registers_emit _ s)

@[simp] theorem registers_logEvent (code tenant sev stack : Nat) (args : List Byte) (rings : List Nat) (s : State) :
    registers k (logEvent code tenant sev stack args rings s) = registers k s := by
  simp [logEvent, logRecord]

@[simp] theorem registers_finish (op : Nat) (c : Cmd) (st : Nat) (r : List Byte) (s : State) :
    registers k (finish op c st r s) = registers k s := by
  rw [finish_frame]
  rfl

@[simp] theorem registers_setTile (t : Nat) (v : Tile) (s : State) : registers k (setTile t v s) = registers k s := by
  simp [registers, fnOf]

@[simp] theorem registers_setInfuser (n : Nat) (v : Infuser) (s : State) :
    registers k (setInfuser n v s) = registers k s := by simp [registers, fnOf]

@[simp] theorem registers_setList (h : Nat) (l : BrewList) (s : State) : registers k (setList h l s) = registers k s :=
  rfl

@[simp] theorem registers_dropList (h : Nat) (s : State) : registers k (dropList h s) = registers k s := rfl

@[simp] theorem registers_dropOwner (o : Owner) (s : State) : registers k (dropOwner o s) = registers k s := rfl

@[simp] theorem registers_assignTiles (s : State) : registers k (assignTiles s) = registers k s :=
  registers_foldl _ _ _ fun s t => by
    dsimp only
    split
    · rfl
    · split <;> simp [giveTile]

@[simp] theorem registers_trimTiles (s : State) : registers k (trimTiles s) = registers k s := by simp [trimTiles]

@[simp] theorem registers_settleTiles (s : State) : registers k (settleTiles s) = registers k s := by
  simp [settleTiles]

@[simp] theorem registers_closeList (h reason status ta : Nat) (l : BrewList) (s : State) :
    registers k (closeList h reason status ta l s) = registers k s := by simp [closeList, brewEvent]

@[simp] theorem registers_endIfDone (h : Nat) (s : State) : registers k (endIfDone h s) = registers k s := by
  fun_cases endIfDone h s <;> simp

@[simp] theorem registers_stopList (h n reason status ta : Nat) (s : State) :
    registers k (stopList h n reason status ta s) = registers k s := by
  fun_cases stopList h n reason status ta s <;> simp

@[simp] theorem registers_endQueued (t st : Nat) (s : State) : registers k (endQueued t st s) = registers k s := by
  simp [endQueued]

theorem registers_stopTenant (t : Nat) (s : State) : registers k (stopTenant t s) = registers k s := by
  simp [stopTenant, stopWaiting, stopTenantLists]

theorem registers_detachRing (t : Nat) (s : State) : registers k (detachRing t s) = registers k s := by
  simp [detachRing]

end

/-- Fields that no event writes are read off the quiet registers. -/
theorem fields_of_registers {k : Nat} {t : State} {f : Fn} {c : Cfg} (h : registers k t = (f, c)) :
    (fnOf t k).bar4Log2 = f.bar4Log2 ∧ (fnOf t k).enabled = f.enabled ∧ (fnOf t k).cmdBase = f.cmdBase ∧
      (fnOf t k).intEnable = f.intEnable ∧ (fnOf t k).expect = f.expect ∧ t.cfg = c := by
  cases h
  exact ⟨rfl, rfl, rfl, rfl, rfl, rfl⟩

/-- A mailbox reset leaves the function's configuration space, and so the size of its BAR4. -/
theorem mailboxReset_bar4Log2 (k : Nat) (s : State) :
    (fnOf (mailboxReset k s) k).bar4Log2 = (fnOf s k).bar4Log2 := by
  have hfn : fnOf (if k = 0 && s.boot.warmAsked then askWarmReset s else s) k = fnOf s k := by split <;> rfl
  simp only [mailboxReset, modFn_eq, fnOf_setFn_self]
  exact congrArg Fn.bar4Log2 hfn

/-- The reset function has its reset values but for its BAR4's size, and nothing staged. -/
theorem registers_resetFunction (k : Nat) (s : State) :
    registers k (resetFunction k s) =
      ({ bar4Log2 := (fnOf s k).bar4Log2 },
        { (mailboxReset k s).cfg with
          areas := tset [] (mailboxReset k s).cfg.areas k []
          areaPersist := tset false (mailboxReset k s).cfg.areaPersist k false }) := by
  rw [resetFunction, registers_detachRing, registers_stopTenant, ← mailboxReset_bar4Log2 k s]
  exact Prod.ext (congrArg quiet (fnOf_setFn_self k _ (mailboxReset k s))) rfl

theorem functionReset_of_vf {k : Nat} {s : State} (ho : barOpen s k = true) (hk : k ≠ 0) :
    functionReset k s = resetFunction k (lockBanks s) := by
  simp [functionReset, ho, hk]

/-! ### A collapse (R96, R103): what it ends and sends to sleep drives no pin -/

theorem abandonCal_pins (fp t : Nat) (s : State) : (abandonCal fp t s).pins = s.pins := by
  unfold abandonCal
  dsimp only
  split <;> rfl

theorem srEnter_pins (ch : Nat) (keepAll : Bool) (s : State) : (srEnter ch keepAll s).pins = s.pins := by
  simp only [srEnter, countEvent_pins, modChan_eq, setChan_pins]
  exact foldl_keeps State.pins (fun _ _ => rfl) (chanPcs ch) (chanAway ch s)

theorem stackToSelfRefresh_pins (n : Nat) (s : State) : (stackToSelfRefresh n s).pins = s.pins := by
  unfold stackToSelfRefresh
  rw [foldl_keeps State.pins (fun s ch => srEnter_pins ch true s),
    foldl_keeps State.pins (fun s fp => abandonCal_pins fp _ s)]

theorem allToSelfRefresh_pins (s : State) : (allToSelfRefresh s).pins = s.pins :=
  foldl_keeps State.pins (fun s n => stackToSelfRefresh_pins n s) _ s

theorem forgetHeld_pins (s : State) : (forgetHeld s).pins = s.pins := by
  simp only [forgetHeld]
  rw [foldl_keeps State.pins, foldl_keeps State.pins, foldl_keeps State.pins, foldl_keeps State.pins]
  all_goals exact fun _ _ => rfl

theorem endWork_pins (s : State) : (endWork s).pins = s.pins := by
  simp only [endWork]
  rw [foldl_keeps State.pins, forgetHeld_pins]
  exact fun _ _ => rfl

theorem recordLost_pins (s : State) : (recordLost s).pins = s.pins := by
  refine foldl_keeps State.pins (fun s n => ?_) (List.range 8) s
  dsimp only
  split <;> rfl

theorem collapse_pins (h : Halt) (s : State) : (collapse h s).pins = { s.pins with hostLink := .down } := by
  rw [← allToSelfRefresh_pins s, ← endWork_pins (allToSelfRefresh s)]
  rfl

theorem collapse_halt (h : Halt) (s : State) : (collapse h s).boot.halt = h := rfl

/-! ### Core supply and clock (R96, R103) -/

theorem startRom_of_pgCore {s : State} (hp : s.pins.pgCore = true) (ht : tapHolds s = false) :
    startRom s = { s with boot := { s.boot with stage := .romCheck, romStart := s.clock.timebase, enRise := none } } :=
  if_pos (by simp [hp, ht])

theorem pgCoreRise_of_awaited {s : State} (hp : s.pins.pgCore = false) (he : s.pins.enCore = true)
    (hh : s.boot.halt = .none) (hb : s.boot.stage = .romCheck) :
    pgCoreRise s = startRom { s with pins := { s.pins with pgCore := true } } := by
  simp [pgCoreRise, hp, he, hh, hb]

theorem pgCoreFall_of_enCore_low {s : State} (hp : s.pins.pgCore = true) (he : s.pins.enCore = false) :
    pgCoreFall s = { s with pins := { s.pins with pgCore := false } } := by
  simp [pgCoreFall, hp, he]

/-- The collapse of a device whose core supply is lost. -/
def coreLost (s : State) : State := collapse .coreLost (recordLost { s with pins := { s.pins with pgCore := false } })

theorem pgCoreFall_of_enCore_high {s : State} (hp : s.pins.pgCore = true) (he : s.pins.enCore = true) :
    pgCoreFall s = alertEvent 0x0006 3 (leBytes 1 pgCoreName) [0]
      { coreLost s with pins := { (coreLost s).pins with enCore := false } } := by
  simp [pgCoreFall, hp, he, coreLost]

theorem coreLost_pgCore (s : State) : (coreLost s).pins.pgCore = false := by
  rw [coreLost, collapse_pins, recordLost_pins]

theorem coreLost_halt (s : State) : (coreLost s).boot.halt = .coreLost := collapse_halt _ _

theorem pgCoreTimeout_of_due {s : State} {t : Nat} (ht : s.boot.enRise = some t) (hp : s.pins.pgCore = false)
    (hd : t + msTicks 20 ≤ s.clock.timebase) :
    pgCoreTimeout s = alertEvent 0x0006 2 (leBytes 1 pgCoreName) [0] { s with
      boot := { s.boot with enRise := none, stage := .warm }, doze := .asleep,
      pins := { s.pins with enCore := false } } := by
  simp [pgCoreTimeout, ht, hp, due, now, hd]

theorem refclkLoss_of_running {s : State} (hr : s.pins.refclk = true) (hv : s.pins.vaux = true)
    (hh : s.boot.halt = .none) :
    refclkLoss s = alertEvent 0x0001 3 [] [0]
      (collapse .refclkLost { s with pins := { s.pins with refclk := false, refclkFault := true } }) := by
  simp [refclkLoss, hr, hv, hh]

/-! ### Stack rails and core regulators (R88, R97) -/

/-- A stack whose contents are recorded as lost, unless it is retired. -/
def loseContents (k : Stack) : Stack := { k with contentsLost := !k.retired }

/-- The stacks of a list are recorded as lost, each once or more, which is the same; the others are as they were. -/
theorem stackOf_foldl_loseContents (l : List Nat) (n : Nat) (s : State) :
    stackOf (l.foldl (fun s n => modStack n loseContents s) s) n =
      if n ∈ l then loseContents (stackOf s n) else stackOf s n := by
  induction l generalizing s with
  | nil => rfl
  | cons m l ih =>
    have hidem : loseContents (loseContents (stackOf s m)) = loseContents (stackOf s m) := rfl
    rw [List.foldl_cons, ih, modStack_eq, stackOf_setStack]
    by_cases hm : n = m
    · simp [hm, hidem]
    · simp [hm]

theorem foldl_modStack_frame (f : Stack → Stack) (l : List Nat) (s : State) :
    l.foldl (fun s n => modStack n f s) s = { s with stk := (l.foldl (fun s n => modStack n f s) s).stk } := by
  induction l generalizing s with
  | nil => rfl
  | cons n l ih => exact ih (modStack n f s)

theorem railLost_frame (s : State) : railLost s = { s with hbm := {}, stk := (railLost s).stk } :=
  foldl_modStack_frame loseContents (List.range 8) { s with hbm := {} }

theorem stackOf_railLost {n : Nat} (s : State) (hn : n < 8) : stackOf (railLost s) n = loseContents (stackOf s n) :=
  (stackOf_foldl_loseContents (List.range 8) n { s with hbm := {} }).trans (if_pos (List.mem_range.mpr hn))

theorem regulatorFault_of_answering {r : Nat} {s : State} (ha : s.power.avsAbsent = false)
    (hc : s.power.heldRails.contains r = false) :
    regulatorFault r s = alertEvent 0x0006 2 (leBytes 1 r) [0]
      { s with power := { s.power with heldRails := insertNat s.power.heldRails r, regFault := true } } := by
  simp only [regulatorFault, ha, hc, Bool.or_self, Bool.false_eq_true, if_false]

/-- Settles O28: each event's condition holds, so that it does its one update; what an event logs, what a function's
reset stops and what a collapse ends leave the named parts as that update set them. -/
theorem partialResetsAndSupplies : Obligations.PartialResetsAndSupplies := by
  unfold Obligations.PartialResetsAndSupplies
  refine ⟨?_, ?_, ?_, ?_, ?_, ?_, ?_, ?_, fun s => rfl, ?_, fun s => rfl, ?_, ?_⟩
  · intro s hr hh hl
    have hf := watchdogExpired_frame hr hh hl
    have hfix := fixed_watchdogExpired (τ := {}) s
    have hload : (watchdogExpired s).boot.hkpReloading = true := congrArg Boot.hkpReloading hf.boot
    have hcmds : AllDiscarded (watchdogExpired s).cmds := by
      rw [hf.cmds]
      exact (allDiscarded_resetMailboxes s).dropPours _
    exact ⟨_, rfl, hload, congrArg Boot.lastReset hf.boot, (congrArg Cfg.areas hf.cfg).trans (dropStaged_areas _),
      (congrArg Cfg.waiting hf.cfg).trans (dropStaged_waiting _), inForce_of_fixed hfix rfl, hcmds,
      not_serving_of_hkpReloading hload, sameContents_of_fixed hfix rfl⟩
  · intro s ok h
    exact ⟨_, congrArg Host.Outcome.next (reloadDone_of_reloading ok h), by simp [Function.comp_def]⟩
  · intro s k ho hk
    have hr := registers_resetFunction k.val (lockBanks s)
    rw [← functionReset_of_vf ho hk] at hr
    obtain ⟨hbar, hen, hbase, hint, hexp, hcfg⟩ := fields_of_registers hr
    refine ⟨_, rfl, hbar, hen, hbase, hint, hexp, ?_, inForce_of_fixed (fixed_functionReset (τ := {}) _ s) rfl⟩
    simp [staged, hcfg]
  · intro s hp he hh hb ht
    exact congrArg Host.Outcome.next ((pgCoreRise_of_awaited hp he hh hb).trans (startRom_of_pgCore rfl ht))
  · intro s hp he
    exact congrArg Host.Outcome.next (pgCoreFall_of_enCore_low hp he)
  · intro s hp he
    refine ⟨_, congrArg Host.Outcome.next (pgCoreFall_of_enCore_high hp he), ?_⟩
    simp [coreLost_pgCore, coreLost_halt]
  · intro s t ht hp hd
    refine ⟨_, congrArg Host.Outcome.next (pgCoreTimeout_of_due ht hp hd), ?_⟩
    simp
  · intro s hr hv hh
    refine ⟨_, congrArg Host.Outcome.next (refclkLoss_of_running hr hv hh), ?_⟩
    simp [collapse_pins, collapse_halt]
  · exact fun s => ⟨_, rfl, rfl, rfl, rfl, rfl⟩
  · intro s
    refine ⟨_, rfl, fun n hn hr => ?_, railLost_frame s⟩
    simp [stackOf_railLost s hn, loseContents, hr]
  · intro s r ha hc
    refine ⟨_, congrArg Host.Outcome.next (regulatorFault_of_answering ha hc), ?_⟩
    simp [mem_insertNat]

end Sys2Proof.Machine
end

section
/-! The reports of identification, capabilities, firmware, configuration and boot (O2). -/

namespace Sys2Proof.Machine

open Sys2Proof

/-! ### The admin reports (R3, R165, R168, Tables 5.7, 5.8) -/

/-- The variant byte of IDENTIFY: 2 is the large variant. -/
theorem ofNat_variantByte (s : State) : BitVec.ofNat 8 (variantByte s) = if s.ident.big then 2 else 1 := by
  unfold variantByte
  split <;> rfl

theorem identifyResult_eq (s : State) : identifyResult s =
    [if s.ident.big then 2 else 1, 0x21, 0x12, 0x00] ++ leBytes 4 (runningRelease s) ++
      leBytes 8 s.ident.serial.toNat := by
  rw [identifyResult, ofNat_variantByte]

theorem capabilitiesWork_done {c : Cmd} (s : State) (ha : par c 0 8 % 64 = 0) (h1 : 1 ≤ par c 8 2)
    (hm : par c 8 2 ≤ 256) :
    capabilitiesWork c s = .done (emit (.hostWrite (cmdFn c) (par c 0 8) ((capabilityBytes s).take (par c 8 2))) s)
      stOK (leBytes 2 (par c 8 2)) := by
  have h0 : par c 8 2 ≠ 0 := by omega
  simp [capabilitiesWork, ha, h0, Nat.not_lt.mpr hm]

/-- The PF reads the permission word in force of any function and of the out-of-band channel (R165). -/
theorem functionGetPermWork_of_pf {c : Cmd} (s : State) (hp : cmdPf c = true) (h1 : 1 ≤ par c 0 2)
    (h80 : par c 0 2 ≤ 0x80) (hs : par c 2 1 = 0) :
    functionGetPermWork c s = .done s stOK (leBytes 4 (permWord s (par c 0 2))) := by
  obtain ⟨k, hi, hk⟩ : ∃ k : Fin 128, c.issuer = .fn k ∧ k.val = 0 := by
    unfold cmdPf at hp
    split at hp
    · exact ⟨_, ‹_›, by simpa using hp⟩
    · cases hp
  simp [functionGetPermWork, permTargetOk, hi, hk, h1, h80, hs]

theorem flashInfoWork_of_sfdp {s : State} {f : Sfdp} (h : s.flash.sfdp = some f) :
    flashInfoWork s = .done s stOK (leBytes 3 f.jedec.toNat ++ [0] ++ leBytes 4 f.sizeMiB ++
      leBytes 1 (min 104 f.quadMHz) ++ leBytes 1 (flag f.suspend 0) ++ [0, 0] ++ leBytes 4 f.blockEraseMs) := by
  simp only [flashInfoWork, h]

/-- Settles O2: the work of each command ends with its report, whose layout is the one stated. -/
theorem adminReads : Obligations.AdminReads := by
  unfold Obligations.AdminReads
  refine ⟨?_, ?_, ?_, ?_, ?_, ?_, ?_, ?_⟩
  · intro c s h
    rw [← identifyResult_eq]
    exact congrArg Host.Outcome.next (mailbox_done h rfl)
  · intro c s h ha h1 hm
    exact congrArg Host.Outcome.next (mailbox_done h (capabilitiesWork_done s ha h1 hm))
  · intro c s h
    exact congrArg Host.Outcome.next (mailbox_done h rfl)
  · intro c s h hp h1 h80 hs
    exact congrArg Host.Outcome.next (mailbox_done h (functionGetPermWork_of_pf s hp h1 h80 hs))
  · intro c s h
    exact congrArg Host.Outcome.next (mailbox_done h rfl)
  · intro c s h
    exact congrArg Host.Outcome.next (mailbox_done h rfl)
  · intro c s h
    exact congrArg Host.Outcome.next (mailbox_done h rfl)
  · intro c s f h hf
    exact congrArg Host.Outcome.next (mailbox_done h (flashInfoWork_of_sfdp hf))

end Sys2Proof.Machine
end

section
/-! Mailbox opcodes and mailbox commands name each other (O53), and every command answers a next state (O49). -/

namespace Sys2Proof.Machine

open Sys2Proof

/-! ### Opcodes (R134, R505, Table 20.2) -/

/-- A row as the slot of its command spells it: without the data that a stack's test port returns. -/
def asSlot : Instr → Instr
  | .testStackAccess c _ => .testStackAccess c []
  | i => i

/-- A row's opcode names the row that its command's slot spells. -/
theorem ofOpcode_opcodeOf {i : Instr} {op : Nat} {c : Cmd} (ho : opcodeOf i = some op) (hc : i.cmd? = some c) :
    ofOpcode op c = some (asSlot i) := by
  cases i <;> cases ho <;> cases hc <;> rfl

theorem opcodeOf_asSlot (i : Instr) : opcodeOf (asSlot i) = opcodeOf i := by
  unfold asSlot
  split <;> rfl

theorem cmd?_asSlot (i : Instr) : (asSlot i).cmd? = i.cmd? := by
  unfold asSlot
  split <;> rfl

theorem asSlot_eq_self {i : Instr} {c : Cmd} (hc : i.cmd? = some c) (h : ∀ d, i ≠ .testStackAccess c d) :
    asSlot i = i := by
  unfold asSlot
  split
  · cases hc
    exact absurd rfl (h _)
  · rfl

/-- The row that an opcode names has that opcode and carries the command. -/
theorem opcodeOf_of_ofOpcode {op : Nat} {c : Cmd} {i : Instr} (h : ofOpcode op c = some i) :
    opcodeOf i = some op ∧ i.cmd? = some c := by
  unfold ofOpcode at h
  split at h <;> cases h <;> exact ⟨rfl, rfl⟩

/-- The opcode of a row has an access row. -/
theorem accessOf_isSome_of_opcodeOf {i : Instr} {op : Nat} (h : opcodeOf i = some op) :
    (accessOf op).isSome = true := by
  cases i <;> cases h <;> rfl

/-- An opcode with an access row names a command. -/
theorem ofOpcode_isSome_of_accessOf {op : Nat} (c : Cmd) (h : (accessOf op).isSome = true) :
    (ofOpcode op c).isSome = true := by
  unfold accessOf at h
  split at h
  case h_120 => cases h
  all_goals rfl

theorem opcodeOf_isSome (i : Instr) : (opcodeOf i).isSome = i.cmd?.isSome := by cases i <;> rfl

/-- Settles O53: the opcode of a row names it, but for what its slot does not hold; the named row has its opcode, and
Table 20.2 has an access row for just these opcodes. -/
theorem opcodesNameCommands : Obligations.OpcodesNameCommands := by
  unfold Obligations.OpcodesNameCommands
  refine ⟨?_, ?_, ?_, opcodeOf_isSome⟩
  · intro i op c ho hc
    exact ⟨asSlot i, ofOpcode_opcodeOf ho hc, (opcodeOf_asSlot i).trans ho, (cmd?_asSlot i).trans hc, asSlot_eq_self hc⟩
  · intro op c i h
    exact opcodeOf_of_ofOpcode h
  · intro op c
    refine Bool.eq_iff_iff.mpr ⟨fun h => ?_, ofOpcode_isSome_of_accessOf c⟩
    obtain ⟨i, hi⟩ := Option.isSome_iff_exists.mp h
    exact accessOf_isSome_of_opcodeOf (opcodeOf_of_ofOpcode hi).1

/-! ### Every command (R29, R112) -/

/-- Settles O49: the queue is among the parts that every command keeps. -/
theorem everyCommandCompletes : Obligations.EveryCommandCompletes := by
  unfold Obligations.EveryCommandCompletes
  intro i s
  obtain ⟨t, ht, hf⟩ := exec_fixed i s
  exact ⟨t, ht, pending_of_fixed hf⟩

end Sys2Proof.Machine
end

section
/-! What the operations that every command shares change: ending a command, keeping it executing, sending and staging
(O55). -/

namespace Sys2Proof.Machine

open Sys2Proof

/-! ### The first entry of a list that a predicate holds for -/

section
variable {α : Type} {l : List α} {p : α → Bool} {a : α}

theorem mem_dropFirst_of_not (ha : a ∈ l) (hp : p a = false) : a ∈ dropFirst l p := by
  induction l with
  | nil => exact ha
  | cons b r ih =>
    rw [dropFirst]
    rcases List.mem_cons.mp ha with rfl | hr
    · simp [hp]
    · split
      · exact hr
      · exact List.mem_cons_of_mem _ (ih hr)

theorem mem_modFirst_of_not (f : α → α) (ha : a ∈ l) (hp : p a = false) : a ∈ modFirst l p f := by
  induction l with
  | nil => exact ha
  | cons b r ih =>
    rw [modFirst]
    rcases List.mem_cons.mp ha with rfl | hr
    · simp [hp]
    · split
      · exact List.mem_cons_of_mem _ hr
      · exact List.mem_cons_of_mem _ (ih hr)

/-- Where the predicate holds for some entry, one such entry is changed. -/
theorem exists_mem_modFirst (f : α → α) (h : l.any p = true) : ∃ b, p b = true ∧ f b ∈ modFirst l p f := by
  induction l with
  | nil => cases h
  | cons b r ih =>
    rw [modFirst]
    split
    · exact ⟨b, ‹_›, List.mem_cons_self⟩
    · obtain ⟨b', hb', hm⟩ := ih (by simpa [‹¬p b = true›] using h)
      exact ⟨b', hb', List.mem_cons_of_mem _ hm⟩

end

/-! ### Ending a command (R135) and keeping it executing -/

section
variable {op : Nat} {c : Cmd} {s : State}

theorem find?_execMatches_of_not_any (h : s.cmds.any (execMatches op c) = false) :
    s.cmds.find? (execMatches op c) = none := by
  simpa using h

/-- A command that holds no place ends with an entry of its own. -/
theorem finish_of_no_match (st : Nat) (r : List Byte) (h : s.cmds.any (execMatches op c) = false) :
    finish op c st r s = { s with cmds := s.cmds ++
      [{ op := BitVec.ofNat 16 op, cmd := c, done := some (BitVec.ofNat 16 st, padTo 16 r) }] } := by
  rw [finish, find?_execMatches_of_not_any h]

/-- Ending a command leaves the entries of other commands. -/
theorem mem_finish_of_not_match (st : Nat) (r : List Byte) {e : Exec} (he : e ∈ s.cmds)
    (hm : execMatches op c e = false) : e ∈ (finish op c st r s).cmds := by
  fun_cases finish op c st r s with
  | case1 => exact List.mem_append_left _ he
  | case2 => exact mem_dropFirst_of_not he hm
  | case3 => exact mem_modFirst_of_not _ he hm

/-- The entry of the command is what its completion will carry, or is gone where its mailbox was reset (R142). -/
theorem finish_cmds_of_single (st : Nat) (r : List Byte) {e : Exec} (hs : s.cmds = [e])
    (hm : execMatches op c e = true) : (finish op c st r s).cmds =
      if e.discard = true then [] else [{ e with done := some (BitVec.ofNat 16 st, padTo 16 r), started := true }] := by
  unfold finish
  simp only [hs, List.find?_cons, hm]
  split <;> simp [dropFirst, modFirst, hm]

theorem hold_frame (op : Nat) (c : Cmd) (s : State) : hold op c s = { s with cmds := (hold op c s).cmds } := by
  fun_cases hold op c s <;> rfl

/-- Keeping a command executing leaves the entries of other commands. -/
theorem mem_hold_of_not_match {e : Exec} (he : e ∈ s.cmds) (hm : execMatches op c e = false) :
    e ∈ (hold op c s).cmds := by
  fun_cases hold op c s with
  | case1 => exact mem_modFirst_of_not _ he hm
  | case2 => exact List.mem_append_left _ he

/-- The command holds a place from now on. -/
theorem exists_mem_hold (op : Nat) (c : Cmd) (s : State) :
    ∃ e ∈ (hold op c s).cmds, e.cmd.tag = c.tag ∧ e.started = true ∧ e.done = none ∧ e.since = s.clock.timebase := by
  fun_cases hold op c s with
  | case1 h =>
    obtain ⟨e, hm, he⟩ := exists_mem_modFirst (fun e : Exec => { e with started := true, since := now s }) h
    simp only [execMatches, Bool.and_eq_true, beq_iff_eq, Option.isNone_iff_eq_none] at hm
    obtain ⟨⟨-, htag⟩, hdone⟩ := hm
    exact ⟨_, he, htag, rfl, hdone, rfl⟩
  | case2 => exact ⟨_, List.mem_append_right _ List.mem_cons_self, rfl, rfl, rfl, rfl⟩

end

/-! ### Sending -/

/-- Sending reaches the output and the two counts of host payload (Tables 2.1, 16.4). -/
theorem emit_frame (o : Out) (s : State) : emit o s = { s with
    out := o :: s.out, tele := { s.tele with volumes := (emit o s).tele.volumes },
    kettle := { s.kettle with counts := (emit o s).kettle.counts } } := by
  unfold emit hostPayload
  split <;> rfl

theorem emit_out (o : Out) (s : State) : (emit o s).out = o :: s.out := by rw [emit_frame]

theorem emit_events (o : Out) (s : State) : (emit o s).tele.events = s.tele.events := by rw [emit_frame]

/-- What carries no payload is counted nowhere. -/
theorem emit_of_no_payload {o : Out} (h : outPayload o = 0) (s : State) : emit o s = { s with out := o :: s.out } := by
  simp [emit, hostPayload, h]

/-! ### Staging (R145) -/

theorem staged_afterSteep (c : Cmd) (es : List (Nat × List Nat)) (s : State) (a : Nat) :
    staged (afterSteep c es s) a = if a = cmdArea c then stagedWith c es s else staged s a :=
  tget_tset _ _ _ _ _

/-- Settles O55: each operation is its update; only its command's entry, the output or the issuer's area changes. -/
theorem sharedOperationFrames : Obligations.SharedOperationFrames := by
  unfold Obligations.SharedOperationFrames
  refine ⟨?_, ?_, ?_, emit_frame, ?_, ?_⟩
  · intro op c st r s
    refine ⟨finish_frame op c st r s, fun e he hm => mem_finish_of_not_match st r he hm, fun h => ?_⟩
    rw [finish_of_no_match st r h]
  · intro op c st r s e hs hm
    exact finish_cmds_of_single st r hs hm
  · intro op c s
    exact ⟨hold_frame op c s, fun e he hm => mem_hold_of_not_match he hm, exists_mem_hold op c s⟩
  · intro c es s
    exact ⟨rfl, by rw [staged_afterSteep, if_pos rfl], fun a ha => by rw [staged_afterSteep, if_neg ha]⟩
  · intro c k v s
    exact ⟨tfind_tput_self _ k v, fun j hj => tfind_tput_ne _ v hj⟩

end Sys2Proof.Machine
end

section
/-! Fetching, ordered start and completion of commands (O24), and their sequence numbers (O56). -/

namespace Sys2Proof.Machine

open Sys2Proof

/-! ### The fields of a slot (R134, Table 4.8) -/

theorem slotByte_map_range (b : Nat → Byte) {i : Nat} (hi : i < 64) : slotByte ((List.range 64).map b) i = b i := by
  simp [slotByte, List.getD_eq_getElem?_getD, List.getElem?_range hi]

theorem slotHalf_map_range (b : Nat → Byte) {i : Nat} (hi : i + 1 < 64) :
    slotHalf ((List.range 64).map b) i = b (i + 1) ++ b i := by
  rw [slotHalf, slotByte_map_range b hi, slotByte_map_range b (Nat.lt_of_succ_lt hi)]

/-- The eight bytes of a tag, least significant first (R7). -/
theorem slotTag_map_range (b : Nat → Byte) : slotTag ((List.range 64).map b) =
    b 15 ++ b 14 ++ b 13 ++ b 12 ++ b 11 ++ b 10 ++ b 9 ++ b 8 := by
  rw [slotTag, slotHalf_map_range b (by decide), slotHalf_map_range b (by decide), slotHalf_map_range b (by decide),
    slotHalf_map_range b (by decide)]
  apply BitVec.eq_of_toNat_eq
  simp only [BitVec.toNat_append, Nat.shiftLeft_or_distrib, ← Nat.shiftLeft_add, Nat.lor_assoc]

/-- Table 4.8's parameter bytes. -/
theorem slotCmd_params_map_range (b : Nat → Byte) (issuer : Issuer) (hostIn : List Byte) :
    (slotCmd issuer ((List.range 64).map b) hostIn).params = (List.range 48).map (fun i => b (16 + i)) :=
  List.map_congr_left fun i hi => slotByte_map_range b (by have := List.mem_range.mp hi; omega)

/-! ### Taking a place (R136, R137) -/

/-- A command takes a place; it starts where nothing of its issuer is before it. -/
theorem takePlace_eq (op : BitVec 16) (c : Cmd) (s : State) : ∃ e : Exec,
    takePlace op c s = { s with cmds := s.cmds ++ [e] } ∧ e.op = op ∧ e.cmd = c ∧
      ((∀ x ∈ s.cmds, x.cmd.issuer ≠ c.issuer) → e = startedExec s op c) := by
  refine ⟨_, rfl, ?_, ?_, fun h => ?_⟩
  · split <;> rfl
  · split <;> rfl
  · have hnone : s.cmds.filter (fun e => e.cmd.issuer == c.issuer) = [] := by simpa using h
    simp [hnone, orderMet]

/-- The first command of an issuer starts (R137). -/
theorem takePlace_of_first {op : BitVec 16} {c : Cmd} {s : State} (h : ∀ x ∈ s.cmds, x.cmd.issuer ≠ c.issuer) :
    takePlace op c s = { s with cmds := s.cmds ++ [startedExec s op c] } := by
  obtain ⟨e, he, -, -, hfirst⟩ := takePlace_eq op c s
  rw [he, hfirst h]

/-- A command whose opcode is defined executes until its work ends it. -/
theorem startedExec_of_ofOpcode {op : BitVec 16} {c : Cmd} (s : State) (h : (ofOpcode op.toNat c).isSome = true) :
    startedExec s op c = { op := op, cmd := c, started := true, since := s.clock.timebase } := by
  have hn : (ofOpcode op.toNat c).isNone = false := by rw [Option.isNone_eq_false_iff]; exact h
  simp [startedExec, hn, now]

/-- A fetched command that starts is what it was while it waited, but for the time since which it executes. -/
theorem startedExec_of_waiting {e : Exec} (s : State) (h : (ofOpcode e.op.toNat e.cmd).isSome = true)
    (hd : e.done = none) :
    startedExec s e.op e.cmd = { e with started := true, since := s.clock.timebase, discard := false } := by
  rw [startedExec_of_ofOpcode s h, hd]

/-! ### Fetching (R132, R136, R137) -/

/-- The function whose turn it is has a command to fetch and a place for it. -/
theorem canFetch_of_fetchTurn {s : State} {k : Nat} (h : fetchTurn s = some k) : canFetch s k = true :=
  List.find?_some h

section
variable {s : State} {k : Fin 128} {slot hostIn : List Byte} {c : Cmd} {f : Fn} (hf : f = fnOf s k.val)
  (hc : c = slotCmd (.fn k) slot hostIn) (ht : fetchTurn s = some k.val)
include hf hc ht

/-- A command with the expected sequence takes a place, and the expected value advances. -/
theorem commandFetch_of_expected (hq : c.seq = f.expect) : commandFetch k slot hostIn s =
    takePlace (slotOp slot) c (setFn k.val { f with cmdHead := f.cmdHead + 1, expect := f.expect + 1 }
      { s with boot := { s.boot with lastFetch := k.val } }) := by
  subst hf hc
  rw [commandFetch, if_pos ht]
  exact if_pos hq

/-- A command with another sequence ends with STALE_SEQUENCE. -/
theorem commandFetch_of_stale (hq : c.seq ≠ f.expect) : commandFetch k slot hostIn s =
    { setFn k.val { f with cmdHead := f.cmdHead + 1 } { s with boot := { s.boot with lastFetch := k.val } } with
      cmds := s.cmds ++ [staleExec s f.expect (slotOp slot) c] } := by
  subst hf hc
  rw [commandFetch, if_pos ht]
  exact if_neg hq

end

/-- A sequence is older than the expected one when it is 1 to 32,768 behind it. -/
theorem not_newer_iff_older {q expect : BitVec 16} (h : q ≠ expect) :
    ¬ (q - expect).toNat < 2 ^ 15 ↔ 1 ≤ (expect - q).toNat ∧ (expect - q).toNat ≤ 32768 := by
  have hne : q.toNat ≠ expect.toNat := fun he => h (BitVec.eq_of_toNat_eq he)
  rw [BitVec.toNat_sub, BitVec.toNat_sub]
  omega

/-- Settles O56: a fetched command takes a place or ends as stale, and the head of its ring goes on either way. -/
theorem sequenceNumbers : Obligations.SequenceNumbers := by
  unfold Obligations.SequenceNumbers
  intro s k slot hostIn c f hf ht hc
  have hi : c.issuer = .fn k := congrArg Cmd.issuer hc
  refine ⟨fun hq => ?_, fun hq => ?_⟩
  · obtain ⟨e, he, hop, hcmd, hfirst⟩ := takePlace_eq (slotOp slot) c
      (setFn k.val { f with cmdHead := f.cmdHead + 1, expect := f.expect + 1 }
        { s with boot := { s.boot with lastFetch := k.val } })
    have hx := (commandFetch_of_expected hf hc ht hq).trans he
    rw [hi] at hfirst
    exact ⟨_, e, congrArg Host.Outcome.next hx, rfl, hop, hcmd, fun h => congrArg Exec.started (hfirst h),
      fnOf_setFn_self _ _ _, rfl⟩
  · refine ⟨_, _, _, congrArg Host.Outcome.next (commandFetch_of_stale hf hc ht hq), rfl, rfl, ?_, ?_,
      fnOf_setFn_self _ _ _, rfl⟩
    · rw [← not_newer_iff_older hq]
      simp
    · split <;> simp

/-! ### Ordered start (R137) and the out-of-band channel (R166) -/

/-- A command that is alone in its list and waits for its turn starts. -/
theorem orderedStart_of_single {i : Issuer} {q : BitVec 16} {s : State} {e : Exec} (hs : s.cmds = [e])
    (hi : e.cmd.issuer = i) (hq : e.cmd.seq = q) (hw : e.started = false) (hd : e.done = none) :
    orderedStart i q s = { s with cmds := [startedExec s e.op e.cmd] } := by
  have hturn : waitsTurn i q e = true := by simp [waitsTurn, hi, hq, hw, hd]
  simp [orderedStart, hs, hturn, orderMet, modFirst]

/-- With nothing executing there is a place for a command of any issuer. -/
theorem placeFor_of_no_cmds {s : State} (h : s.cmds = []) (i : Issuer) : placeFor s i = true := by
  cases i <;> simp [placeFor, placeFree, oobFree, h]

theorem mctpCommand_of_no_cmds {message : List Byte} (hostIn : List Byte) {s : State}
    (hs : servesCmd (slotOp message).toNat .oob s = true) (h : s.cmds = []) :
    mctpCommand message hostIn s = takePlace (slotOp message) (slotCmd .oob message hostIn) s := by
  simp [mctpCommand, hs, placeFor_of_no_cmds h]

/-! ### Completions (R133, R135, R139, R143, R166) -/

theorem finishedEntry_of_single {s : State} {i : Issuer} {e : Exec} (hs : s.cmds = [e]) (hi : e.cmd.issuer = i)
    (hd : e.done.isSome = true) : finishedEntry s i 0 = some e := by
  simp [finishedEntry, hs, hi, hd]

theorem completionWrite_of_finished {s : State} {k : Fin 128} {e : Exec} (h : finishedEntry s (.fn k) 0 = some e) :
    completionWrite (.fn k) 0 s = writeCompletion k.val e s := by
  rw [completionWrite, h]

theorem completionWrite_oob_of_finished {s : State} {e : Exec} (h : finishedEntry s .oob 0 = some e) :
    completionWrite .oob 0 s =
      emit (mctpOut 2 (completionBytes e)) (warmAfter e { s with cmds := s.cmds.erase e }) := by
  rw [completionWrite, h]

theorem warmAfter_of_other {e : Exec} (s : State) (h : e.op ≠ 0x0040) : warmAfter e s = s :=
  if_neg (by simpa using fun h' => absurd h' h)

/-- The completion of the WARM_RESET that asked lets the reset follow in 100 µs (R143). -/
theorem warmAfter_of_asked {e : Exec} {s : State} {r : List Byte} (ho : e.op = 0x0040) (hd : e.done = some (0, r))
    (h : s.boot.warmAsked = true) : warmAfter e s = askWarmReset s := by
  simp [warmAfter, ho, hd, h]

/-- s with e's completion in the next slot of function k's completion ring, and e's entry gone. -/
def completed (k : Nat) (e : Exec) (s : State) : State :=
  let f := fnOf s k
  countEvent (devCtr 13) 1 (setFn k { f with cplTail := f.cplTail + 1 }
    (emit (.ringWrite k (f.cplBase.toNat + 32 * (f.cplTail.toNat % 256))
      (withPhase f.cplTail.toNat 256 (completionBytes e))) (warmAfter e { s with cmds := s.cmds.erase e })))

/-- A completion is written where its ring runs and the host has consumed a slot (R133). -/
theorem writeCompletion_of_room {k : Nat} {s : State} (e : Exec) (he : (fnOf s k).enabled = true)
    (hs : (fnOf s k).stopped = false) (hr : ((fnOf s k).cplTail - (fnOf s k).cplHead).toNat < 256) :
    writeCompletion k e s =
      if e.cmd.flags.getLsbD 0 then noteCompletion k (completed k e s) else completed k e s := by
  have hc : ¬ (!(fnOf s k).enabled || (fnOf s k).stopped ||
      256 ≤ ((fnOf s k).cplTail - (fnOf s k).cplHead).toNat : Bool) = true := by
    simpa [he, hs] using hr
  exact if_neg hc

/-- A completion with its interrupt flag set reaches what events reach. -/
theorem noteCompletion_frame (k : Nat) (s : State) : EventFrame s (noteCompletion k s) := by
  unfold noteCompletion signalCompletions
  dsimp only
  split
  · exact (setFn_frame _ _ s).trans ((setFn_frame _ _ _).trans (raiseVector_frame _ _ _))
  · exact setFn_frame _ _ s

theorem writeCompletion_frame {k : Nat} {s : State} (e : Exec) (he : (fnOf s k).enabled = true)
    (hs : (fnOf s k).stopped = false) (hr : ((fnOf s k).cplTail - (fnOf s k).cplHead).toNat < 256) :
    EventFrame (completed k e s) (writeCompletion k e s) := by
  rw [writeCompletion_of_room e he hs hr]
  split
  · exact noteCompletion_frame k _
  · exact .refl _

section
variable (k : Nat) (e : Exec) (s : State)

theorem completed_cmds : (completed k e s).cmds = s.cmds.erase e := by
  simp only [completed, countEvent_cmds, setFn_cmds, (emit_eventFrame _ _).cmds]
  unfold warmAfter
  split <;> rfl

theorem completed_boot : (completed k e s).boot = (warmAfter e { s with cmds := s.cmds.erase e }).boot := by
  simp only [completed, countEvent_boot, setFn_boot, (emit_eventFrame _ _).boot]

theorem fnOf_completed : fnOf (completed k e s) k = { fnOf s k with cplTail := (fnOf s k).cplTail + 1 } :=
  fnOf_setFn_self _ _ _

theorem completed_out : (completed k e s).out =
    .ringWrite k ((fnOf s k).cplBase.toNat + 32 * ((fnOf s k).cplTail.toNat % 256))
      (withPhase (fnOf s k).cplTail.toNat 256 (completionBytes e)) :: s.out := by
  simp only [completed, countEvent_out, setFn_out, emit_out]
  unfold warmAfter
  split <;> rfl

theorem cget_countEvent (i n : Nat) :
    cget (countEvent i n s).tele.events i = (cget s.tele.events i + n) % 2 ^ 64 := tget_tset_self _ _ _ _

/-- Completions are counted by device counter 13 (Table 16.4). -/
theorem cget_completed : cget (completed k e s).tele.events (devCtr 13) =
    (cget s.tele.events (devCtr 13) + 1) % 2 ^ 64 := by
  simp only [completed, cget_countEvent, setFn_tele, emit_events]
  unfold warmAfter
  split <;> rfl

end

/-- The delay of the oldest unsignalled completion is over (R139). -/
theorem coalesceTimeout_of_due {s : State} {k t : Nat} (ho : (fnOf s k).oldestAt = some t)
    (hc : (fnOf s k).coalesceUs ≠ 0) (hi : (fnOf s k).intEnable.getLsbD 0 = true)
    (ht : t + 1000 * (fnOf s k).coalesceUs.toNat ≤ s.clock.timebase) :
    coalesceTimeout k s = raiseVector k 0 (setFn k { fnOf s k with unsignalled := 0, oldestAt := none } s) := by
  have hc' : (fnOf s k).coalesceUs ≠ 0#16 := hc
  simp [coalesceTimeout, ho, hc', hi, due, now, ht]

/-- Settles O24: the turn is what lets a command be fetched; each command here is alone in its list, so that it starts
or its completion is the one written. -/
theorem commandTransport : Obligations.CommandTransport := by
  unfold Obligations.CommandTransport
  refine ⟨?_, ?_, ?_, ?_, ?_, ?_, ?_, ?_, ?_, ?_⟩
  · intro s k slot hostIn op c f hf hop hc ht hq hd hfirst
    subst hop
    have hi : c.issuer = .fn k := congrArg Cmd.issuer hc
    have hx := commandFetch_of_expected hf hc ht hq
    rw [takePlace_of_first (by rw [hi]; exact hfirst), startedExec_of_ofOpcode _ hd] at hx
    exact congrArg Host.Outcome.next hx
  · intro s k ht
    have h := canFetch_of_fetchTurn ht
    simp only [canFetch, Bool.and_eq_true, Bool.not_eq_true', bne_iff_ne] at h
    obtain ⟨⟨⟨⟨⟨hready, hopen⟩, henabled⟩, hstopped⟩, hbell⟩, hplace⟩ := h
    exact ⟨hready, hopen, henabled, hstopped, hbell, hplace⟩
  · intro s k slot hostIn c f hf hc ht hq
    have hfn := fnOf_setFn_self k.val { f with cmdHead := f.cmdHead + 1 }
      { s with boot := { s.boot with lastFetch := k.val } }
    exact ⟨_, _, _, congrArg Host.Outcome.next (commandFetch_of_stale hf hc ht hq), rfl, rfl, rfl,
      (congrArg Fn.cmdHead hfn :), (congrArg Fn.expect hfn :)⟩
  · rintro b issuer hostIn slot c rfl rfl
    exact ⟨slotHalf_map_range b (by decide), slotHalf_map_range b (by decide),
      slotByte_map_range b (i := 4) (by decide), slotHalf_map_range b (by decide), slotTag_map_range b,
      slotCmd_params_map_range b issuer hostIn⟩
  · intro s i q e _ _ hi hq hw hd ho hs
    have hx := orderedStart_of_single hs hi hq hw hd
    rw [startedExec_of_waiting s ho hd] at hx
    exact congrArg Host.Outcome.next hx
  · intro s message hostIn op c hop hc hs hn ho
    subst hop hc
    have hx := mctpCommand_of_no_cmds hostIn hs hn
    rw [takePlace_of_first (by simp [hn]), startedExec_of_ofOpcode s ho, hn] at hx
    exact congrArg Host.Outcome.next hx
  · rintro s k e f rfl hs hi hd hen hst hroom hflag hasked
    have hx := completionWrite_of_finished (finishedEntry_of_single hs hi hd)
    rw [writeCompletion_of_room e hen hst hroom, hflag, if_neg Bool.false_ne_true] at hx
    refine ⟨_, congrArg Host.Outcome.next hx, ?_, completed_out _ _ _, ?_, cget_completed _ _ _⟩
    · rw [completed_cmds, hs, List.erase_cons_head]
    · exact (congrArg Fn.cplTail (fnOf_completed _ _ _) :)
  · rintro s k e f r rfl hs hi hop hd hen hst hroom hasked
    have hx := completionWrite_of_finished (finishedEntry_of_single hs hi (by simp [hd]))
    have hframe := writeCompletion_frame e hen hst hroom
    have hboot : (completed k.val e s).boot = (askWarmReset { s with cmds := s.cmds.erase e }).boot := by
      rw [completed_boot, warmAfter_of_asked (s := { s with cmds := s.cmds.erase e }) hop hd hasked]
    refine ⟨_, congrArg Host.Outcome.next hx, ?_, ?_, ?_⟩
    · rw [hframe.cmds, completed_cmds, hs, List.erase_cons_head]
    · rw [hframe.boot, hboot, askWarmReset]
    · rw [hframe.boot, hboot]
      rfl
  · intro s e hs hi hd ho
    have hx := completionWrite_oob_of_finished (finishedEntry_of_single hs hi hd)
    rw [warmAfter_of_other _ ho, hs, List.erase_cons_head] at hx
    exact congrArg Host.Outcome.next hx
  · intro s k t ho hc hi ht
    exact congrArg Host.Outcome.next (coalesceTimeout_of_due ho hc hi ht)

end Sys2Proof.Machine
end

section
/-! The host link and the configuration space in boot, and the TAP (O29). -/

namespace Sys2Proof.Machine

open Sys2Proof

/-! ### The host link and configuration requests (R110, R117, R119) -/

theorem perstRise_of_not_held {s : State} (hp : s.pins.perstN = false) (hv : s.pins.vaux = true)
    (hh : s.boot.halt = .none) (ht : tapHolds s = false) :
    perstRise s = { s with pins := { s.pins with perstN := true, hostLink := .up } } := by
  simp [perstRise, hp, hv, hh, ht]

theorem cfgSpaceLoaded_of_running {s : State} (hp : s.pins.pgCore = true) (hs : s.boot.stage ≠ .warm)
    (hh : s.boot.halt = .none) : cfgSpaceLoaded s = { s with boot := { s.boot with cfgLoaded := true } } := by
  simp [cfgSpaceLoaded, hp, hs, hh]

theorem fnPresent_pf (s : State) : fnPresent s 0 = true := rfl

/-- A VF that is not enabled, or that the device does not have, is no function. -/
theorem fnPresent_of_no_vf {s : State} {k : Nat} (hk : k ≠ 0) (h : s.boot.vfEnable = false ∨ s.ident.vfs < k) :
    fnPresent s k = false := by
  rcases h with h | h <;> simp [fnPresent, hk, h]

section
variable {s : State} {k tag : Nat} (hl : s.pins.hostLink = .up)
include hl

/-- A request before the configuration space is loaded is to be retried. -/
theorem configRequest_of_not_loaded (r : CfgReq) (hc : s.boot.cfgLoaded = false) :
    configRequest k tag r s = emit (.tlp k tag .retry false []) s := by
  simp [configRequest, hl, hc]

variable (hc : s.boot.cfgLoaded = true)
include hc

theorem configRequest_of_absent (r : CfgReq) (hk : fnPresent s k = false) :
    configRequest k tag r s = emit (.tlp k tag .unsupported false []) s := by
  simp [configRequest, hl, hc, hk]

variable (hk : fnPresent s k = true)
include hk

theorem configRequest_read :
    configRequest k tag .read s = freeStep (emit (.tlp k tag .success false (leBytes 4 (freeNat s))) s) := by
  simp [configRequest, hl, hc, hk]

theorem configRequest_totalVfs :
    configRequest k tag .totalVfs s = emit (.tlp k tag .success false (leBytes 2 (totalVfs s))) s := by
  simp [configRequest, hl, hc, hk]

theorem configRequest_setBar4 {g : Nat} (h3 : 3 ≤ g) (h9 : g ≤ 9) : configRequest k tag (.setBar4 g) s =
    emit (.tlp k tag .success false []) (setFn k { fnOf s k with bar4Log2 := some (30 + g) } s) := by
  have hg : between 3 9 g = true := by simp [between, h3, h9]
  simp [configRequest, hl, hc, hk, hg]

end

theorem totalVfs_eq (s : State) : totalVfs s = if s.boot.stage = .recovery then 0 else s.ident.vfs := by
  simp [totalVfs]

/-- The PF's VF Enable takes effect where the device has VFs. -/
theorem configRequest_vfEnable {s : State} {tag : Nat} (on : Bool) (hl : s.pins.hostLink = .up)
    (hc : s.boot.cfgLoaded = true) (hv : totalVfs s ≠ 0) : configRequest 0 tag (.vfEnable on) s =
      emit (.tlp 0 tag .success false []) { s with boot := { s.boot with vfEnable := on } } := by
  simp [configRequest, hl, hc, hv, fnPresent_pf]

/-! ### The TAP (R480 to R482) -/

/-- No boundary-scan instruction is in effect while PERST_N is high (R481). -/
theorem tapHolds_of_perstN {s : State} (h : s.pins.perstN = true) : tapHolds s = false := by simp [tapHolds, h]

theorem tapEffect_bypass (s : State) : tapEffect s .bypass = .bypass := rfl

theorem tapEffect_idcode (s : State) : tapEffect s .idcode = .idcode := rfl

/-- A private instruction selects BYPASS unless the debug level is 1 (R482). -/
theorem tapEffect_private (s : State) (n : Nat) :
    tapEffect s (.privateInstr n) = if s.dbg.level = 0 then .bypass else .privateInstr n := rfl

/-- A boundary-scan instruction selects BYPASS while PERST_N is high (R481). -/
theorem tapEffect_extest_of_perstN {s : State} (h : s.pins.perstN = true) : tapEffect s .extest = .bypass := if_pos h

/-- An instruction that holds no pin, after one that held none, leaves the boot alone. -/
theorem tapUpdate_of_not_held {s : State} {i j : TapInstr} (he : tapEffect s i = j) (hs : tapHolds s = false)
    (ht : tapHolds { s with dbg := { s.dbg with tap := j } } = false) :
    tapUpdate i s = { s with dbg := { s.dbg with tap := j } } := by
  subst he
  simp [tapUpdate, hs, ht]

/-- Settles O29: each request is answered by the first branch whose condition it meets, and no TAP instruction here
holds a pin. -/
theorem hostLinkAndTap : Obligations.HostLinkAndTap := by
  unfold Obligations.HostLinkAndTap
  refine ⟨?_, ?_, ?_, ?_, ?_, ?_, ?_, ?_, ?_, ?_, ?_, ?_, ?_⟩
  · intro s hp hv hh ht
    exact congrArg Host.Outcome.next (perstRise_of_not_held hp hv hh ht)
  · intro s hp hs hh
    exact congrArg Host.Outcome.next (cfgSpaceLoaded_of_running hp hs hh)
  · intro s k tag r hl hc
    exact congrArg Host.Outcome.next (configRequest_of_not_loaded hl r hc)
  · intro s k tag g hl hc hk h3 h9
    exact congrArg Host.Outcome.next (configRequest_setBar4 hl hc hk h3 h9)
  · intro s k tag r hl hc hk h
    exact congrArg Host.Outcome.next (configRequest_of_absent hl hc r (fnPresent_of_no_vf hk h))
  · intro s tag hl hc
    rw [← totalVfs_eq]
    exact congrArg Host.Outcome.next (configRequest_totalVfs hl hc (fnPresent_pf s))
  · intro s tag on hl hc hs hv
    exact congrArg Host.Outcome.next (configRequest_vfEnable on hl hc (by rwa [totalVfs_eq, if_neg hs]))
  · intro s k tag hl hc hk
    exact ⟨_, Laws.leBytes_length 4 _, _, congrArg Host.Outcome.next (configRequest_read hl hc hk), emit_out _ s⟩
  · intro s ht
    exact congrArg Host.Outcome.next (tapUpdate_of_not_held (tapEffect_bypass s) ht (by simp [tapHolds]))
  · intro s n ht hl
    have he := (tapEffect_private s n).trans (if_pos hl)
    exact congrArg Host.Outcome.next (tapUpdate_of_not_held he ht (by simp [tapHolds]))
  · intro s n ht hl
    have he := (tapEffect_private s n).trans (if_neg hl)
    exact congrArg Host.Outcome.next (tapUpdate_of_not_held he ht (by simp [tapHolds]))
  · intro s hp
    have he := tapEffect_extest_of_perstN hp
    exact congrArg Host.Outcome.next (tapUpdate_of_not_held he (tapHolds_of_perstN hp) (tapHolds_of_perstN hp))
  · intro s ht
    exact congrArg Host.Outcome.next (tapUpdate_of_not_held (tapEffect_idcode s) ht (by simp [tapHolds]))

end Sys2Proof.Machine
end

section
/-! The registers of BAR0: doorbell, enables and reset of a mailbox, and the other registers written and read (O23). -/

namespace Sys2Proof.Machine

open Sys2Proof

/-! ### Doorbell (R132) -/

section
variable {s : State} {k : Nat} {v : BitVec 32} (hb : barOpen s k = true) (he : (fnOf s k).enabled = true)
include hb he

/-- A value within 256 of the head that is ahead of the one kept is taken. -/
theorem doorbellWrite_of_ahead (hw : (v.setWidth 16 - (fnOf s k).cmdHead).toNat ≤ 256)
    (ha : ((fnOf s k).doorbell - (fnOf s k).cmdHead).toNat < (v.setWidth 16 - (fnOf s k).cmdHead).toNat) :
    doorbellWrite k v s = setFn k { fnOf s k with doorbell := v.setWidth 16 } s := by
  unfold doorbellWrite
  simp only [hb, he, Bool.not_true, Bool.or_self, Bool.false_eq_true, if_false, if_neg (Nat.not_lt.mpr hw), if_pos ha]

theorem doorbellWrite_of_outside (hw : 256 < (v.setWidth 16 - (fnOf s k).cmdHead).toNat) :
    doorbellWrite k v s = mbxFault k 4 false s := by
  unfold doorbellWrite
  simp only [hb, he, Bool.not_true, Bool.or_self, Bool.false_eq_true, if_false, if_pos hw]

end

/-- A mailbox fault sets its code and, where it says so, stops the mailbox; an interrupt bit may follow. -/
theorem registers_mbxFault (k fault : Nat) (stop : Bool) (s : State) : registers k (mbxFault k fault stop s) =
    (quiet { fnOf s k with fault := BitVec.ofNat 8 fault, stopped := (fnOf s k).stopped || stop }, s.cfg) := by
  simp only [mbxFault, registers_ite, registers_setInt, ite_self, modFn_eq]
  rw [registers, fnOf_setFn_self, setFn_cfg]

/-! ### Enables and reset (R131, R142) -/

section
variable {s : State} {k : Nat} (hc : ctrlOpen s k = true)
include hc

section
variable (hr : (fnOf s k).resetBusy = false)
include hr

/-- Enabling a mailbox whose bases are set clears its pointers (R131). -/
theorem mbxEnable_on (he : (fnOf s k).enabled = false) (hv : (fnOf s k).events = false)
    (hcmd : (fnOf s k).cmdBase ≠ 0) (hcpl : (fnOf s k).cplBase ≠ 0) : mbxEnable k true s =
      setFn k { fnOf s k with
        enabled := true, doorbell := 0, cmdHead := 0, cplTail := 0, cplHead := 0, evtTail := 0, evtHead := 0,
        expect := 0, unsignalled := 0, oldestAt := none } s := by
  have hcmd' : (fnOf s k).cmdBase ≠ 0#64 := hcmd
  have hcpl' : (fnOf s k).cplBase ≠ 0#64 := hcpl
  simp [mbxEnable, hc, hr, he, hv, hcmd', hcpl']

theorem mbxEnable_off : mbxEnable k false s = setFn k { fnOf s k with enabled := false } s := by
  simp [mbxEnable, hc, hr]

theorem mbxEvents_on (hb : (fnOf s k).evtBase ≠ 0) :
    mbxEvents k true s = setFn k { fnOf s k with events := true } s := by
  have hb' : (fnOf s k).evtBase ≠ 0#64 := hb
  simp [mbxEvents, hc, hr, hb']

end

theorem mbxReset_of_open : mbxReset k s =
    setFn k { fnOf (mailboxReset k s) k with resetBusy := true } (mailboxReset k s) := by
  simp [mbxReset, hc]

end

/-- What a mailbox reset leaves of the function's commands executes on with its completion discarded (R142). -/
theorem discarded_of_mem_mailboxReset {s : State} {k : Fin 128} {e : Exec} (he : e ∈ (mailboxReset k.val s).cmds)
    (hi : e.cmd.issuer = .fn k) : e.started = true ∧ e.done = none ∧ e.discard = true := by
  obtain ⟨e', he', rfl⟩ := List.mem_map.mp he
  have hof : ofFn k.val e' = true := by
    have hi' : e'.cmd.issuer = .fn k := by
      split at hi <;> exact hi
    simp [ofFn, hi']
  have hrun := List.of_mem_filter he'
  simp only [hof, Bool.not_true, Bool.false_or, Bool.and_eq_true, Option.isNone_iff_eq_none] at hrun
  rw [if_pos hof]
  exact ⟨hrun.1, hrun.2, rfl⟩

/-- A mailbox reset clears the registers that show the mailbox's state. -/
theorem fnOf_mailboxReset (k : Nat) (s : State) :
    (fnOf (mailboxReset k s) k).enabled = false ∧ (fnOf (mailboxReset k s) k).fault = 0 ∧
      (fnOf (mailboxReset k s) k).cmdHead = 0 ∧ (fnOf (mailboxReset k s) k).expect = 0 := by
  simp [mailboxReset]

/-! ### Registers read (R130, Tables 4.6, 4.7) -/

/-- What a read latches is the function's own (Table 4.7). -/
theorem timebaseLatch_frame (k off width : Nat) (s : State) :
    timebaseLatch k off width s = { s with fns := (timebaseLatch k off width s).fns } := by
  unfold timebaseLatch
  split
  · rfl
  · split <;> rfl

theorem timebaseLatch_of_wide (k off : Nat) (s : State) : timebaseLatch k off 64 s = s := by simp [timebaseLatch]

theorem bar0Read_of_open {s : State} {k : Nat} (off width : Nat) (h : barOpen s k = true) :
    bar0Read k off width s = { timebaseLatch k off width s with
      out := .regRead k (BitVec.ofNat 64 (bar0Value s k off width)) :: (timebaseLatch k off width s).out } := by
  rw [bar0Read, h, emit_of_no_payload rfl]
  rfl

/-- No register stands past the pending bits of MSI-X. -/
theorem bar0Value_of_unlisted (s : State) (k width : Nat) {off : Nat} (h : 0x9008 ≤ off) :
    bar0Value s k off width = 0 := by
  have hdword : bar0Dword s k off = 0 := by
    unfold bar0Dword
    split
    case h_29 => rw [if_neg (by simp; omega), if_neg (by omega)]
    all_goals omega
  have hwide : wideReg off = false := by
    simp [wideReg]
    omega
  have h0c : off ≠ 0x0C := by omega
  simp [bar0Value, hdword, hwide, h0c]

/-- A 64-bit read of TIMEBASE is the whole count. -/
theorem bar0Value_timebase_wide {s : State} (k : Nat) (h : s.clock.timebase < 2 ^ 64) :
    bar0Value s k 0x08 64 = s.clock.timebase := by
  have hv : bar0Value s k 0x08 64 = now s % 2 ^ 32 + now s / 2 ^ 32 % 2 ^ 32 * 2 ^ 32 := rfl
  rw [hv, now]
  omega

theorem bar0Value_timebase_low (s : State) (k : Nat) : bar0Value s k 0x08 32 = s.clock.timebase % 2 ^ 32 := rfl

/-- A read of TIMEBASE's high half takes what the read of its low half latched (R130). -/
theorem bar0Value_timebase_latched {s : State} {k : Nat} {h : BitVec 32} (hh : (fnOf s k).tbLatch = some h) :
    bar0Value s k 0x0C 32 = h.toNat := by
  simp [bar0Value, wideReg, hh]

theorem timebaseLatch_low (k : Nat) (s : State) : timebaseLatch k 0x08 32 s =
    setFn k { fnOf s k with tbLatch := some (BitVec.ofNat 32 (s.clock.timebase / 2 ^ 32)) } s := rfl

theorem timebaseLatch_high (k : Nat) (s : State) :
    timebaseLatch k 0x0C 32 s = setFn k { fnOf s k with tbLatch := none } s := rfl

/-! ### Registers written (R130) -/

theorem extractLsb'_append_setWidth (v : BitVec 64) : v.extractLsb' 32 32 ++ v.setWidth 32 = v := by
  rw [BitVec.setWidth_eq_extractLsb' (by decide)]
  exact (BitVec.extractLsb'_append_extractLsb'_eq_extractLsb' (by decide)).trans BitVec.extractLsb'_eq_self

/-- A base register written in halves takes the value written, but for its bits 11:0. -/
theorem baseHalf_halves (old v : BitVec 64) :
    baseHalf (baseHalf old false (v.setWidth 32)) true (v.extractLsb' 32 32) = v &&& ~~~ 0xFFF := by
  have hmask : (~~~ 0xFFF : BitVec 64) = BitVec.allOnes 32 ++ 0xFFFFF000#32 := by decide
  calc v.extractLsb' 32 32 ++ (old.extractLsb' 32 32 ++ (v.setWidth 32 &&& 0xFFFFF000#32)).setWidth 32
      = (v.extractLsb' 32 32 &&& BitVec.allOnes 32) ++ (v.setWidth 32 &&& 0xFFFFF000#32) := by
        rw [BitVec.setWidth_append_eq_right, BitVec.and_allOnes]
    _ = (v.extractLsb' 32 32 ++ v.setWidth 32) &&& (BitVec.allOnes 32 ++ 0xFFFFF000#32) := BitVec.and_append.symm
    _ = v &&& ~~~ 0xFFF := by rw [extractLsb'_append_setWidth, hmask]

/-- A 64-bit write of a base register writes its two halves. -/
theorem registerWrite_cmdBase {s : State} {k : Nat} (v : BitVec 64) (h : barOpen s k = true) :
    registerWrite k 0x40 64 v s = regWrite32 k 0x44 (v.extractLsb' 32 32) (regWrite32 k 0x40 (v.setWidth 32) s) := by
  simp [registerWrite, h, wideReg]

theorem regWrite32_frame_of_cmdBase (k : Nat) (lo hi : BitVec 32) (s : State) :
    regWrite32 k 0x44 hi (regWrite32 k 0x40 lo s) =
      { s with fns := (regWrite32 k 0x44 hi (regWrite32 k 0x40 lo s)).fns } := rfl

theorem fnOf_regWrite32_cmdBase (k : Nat) (lo hi : BitVec 32) (s : State) :
    (fnOf (regWrite32 k 0x44 hi (regWrite32 k 0x40 lo s)) k).cmdBase =
      baseHalf (baseHalf (fnOf s k).cmdBase false lo) true hi := by
  simp [regWrite32]

theorem registerWrite_intEnable {s : State} {k : Nat} (v : BitVec 64) (h : barOpen s k = true) :
    registerWrite k 0x84 32 v s = setFn k { fnOf s k with intEnable := v.setWidth 6 } s := by
  simp [registerWrite, h, regWrite32]

/-- A 32-bit write between the mailbox registers and the MSI-X table is ignored. -/
theorem regWrite32_of_unlisted (k : Nat) (v : BitVec 32) (s : State) {off : Nat} (h : 0x100 ≤ off) (h' : off < 0x8000) :
    regWrite32 k off v s = s := by
  unfold regWrite32
  split
  case h_12 => rw [if_neg (by simp; omega)]
  all_goals omega

/-- A 32-bit write of an offset that lists no register has no effect, whether the function's BARs are open or not. -/
theorem registerWrite_of_unlisted (k : Nat) (v : BitVec 64) (s : State) {off : Nat} (h : 0x100 ≤ off)
    (h' : off < 0x8000) : registerWrite k off 32 v s = s := by
  simp [registerWrite, regWrite32_of_unlisted k _ s h h']

/-- Settles O23: each access meets the condition under which its register is written or read; a fault's interrupt and a
read's latch leave the registers named here. -/
theorem mailboxRegisters : Obligations.MailboxRegisters := by
  unfold Obligations.MailboxRegisters
  refine ⟨?_, ?_, ?_, ?_, ?_, ?_, ?_, ?_, ?_, ?_, ?_, ?_, ?_, ?_, ?_, ?_⟩
  · rintro s k v f rfl hb he hw ha
    exact congrArg Host.Outcome.next (doorbellWrite_of_ahead hb he hw ha)
  · rintro s k v f rfl hb he hw
    have hr := registers_mbxFault k.val 4 false s
    rw [← doorbellWrite_of_outside hb he hw] at hr
    have hf := congrArg Prod.fst hr
    exact ⟨_, rfl, (congrArg Fn.fault hf :), (congrArg Fn.doorbell hf :),
      (congrArg Fn.stopped hf).trans (Bool.or_false _)⟩
  · rintro s k f rfl hc hr he hv hcmd hcpl
    exact congrArg Host.Outcome.next (mbxEnable_on hc hr he hv hcmd hcpl)
  · intro s k hc hr
    exact congrArg Host.Outcome.next (mbxEnable_off hc hr)
  · intro s k hc hr hb
    exact congrArg Host.Outcome.next (mbxEvents_on hc hr hb)
  · intro s k hc
    obtain ⟨hen, hfault, hhead, hexp⟩ := fnOf_mailboxReset k.val s
    refine ⟨_, congrArg Host.Outcome.next (mbxReset_of_open hc), ?_, ?_, ?_, ?_, ?_, ?_⟩
    · rw [fnOf_setFn_self, hen]
    · rw [fnOf_setFn_self]
    · rw [fnOf_setFn_self, hfault]
    · rw [fnOf_setFn_self, hhead]
    · rw [fnOf_setFn_self, hexp]
    · rw [setFn_cmds]
      exact fun e he hi => discarded_of_mem_mailboxReset he hi
  · exact fun s k => rfl
  · intro s k v hb
    exact congrArg Host.Outcome.next (if_pos hb)
  · intro s k v hb hv
    exact congrArg Host.Outcome.next (if_pos (by rw [hb, hv]; rfl))
  · intro s k off w hb
    refine ⟨_, congrArg Host.Outcome.next (bar0Read_of_open off.toNat w hb), ?_, ?_, bar0Value_of_unlisted s k.val w⟩
    · rw [timebaseLatch_frame]
    · rw [timebaseLatch_frame]
  · intro s k hb ht
    have hx := bar0Read_of_open 0x08 64 hb
    rw [timebaseLatch_of_wide, bar0Value_timebase_wide k.val ht] at hx
    rw [emit_of_no_payload rfl]
    exact congrArg Host.Outcome.next hx
  · intro s k hb
    have hx := bar0Read_of_open 0x08 32 hb
    rw [bar0Value_timebase_low, timebaseLatch_low] at hx
    exact ⟨_, congrArg Host.Outcome.next hx, rfl, congrArg Fn.tbLatch (fnOf_setFn_self k.val _ s)⟩
  · intro s k h hb hh
    have hx := bar0Read_of_open 0x0C 32 hb
    rw [bar0Value_timebase_latched hh, timebaseLatch_high, BitVec.ofNat_toNat] at hx
    exact ⟨_, congrArg Host.Outcome.next hx, rfl, congrArg Fn.tbLatch (fnOf_setFn_self k.val _ s)⟩
  · intro s k v hb
    refine ⟨_, congrArg Host.Outcome.next (registerWrite_cmdBase v hb), ?_, regWrite32_frame_of_cmdBase k.val _ _ s⟩
    rw [fnOf_regWrite32_cmdBase, baseHalf_halves]
  · intro s k v hb
    exact congrArg Host.Outcome.next (registerWrite_intEnable v hb)
  · intro s k off v h h'
    exact congrArg Host.Outcome.next (registerWrite_of_unlisted k.val v s h h')

end Sys2Proof.Machine
end

section
/-! POISON_INJECT and PARTITION_RESET (O22). -/

namespace Sys2Proof.Machine

open Sys2Proof

/-! ### POISON_INJECT (R183, R199, R285) -/

/-- The access that a POISON_INJECT asks for: its sectors are written as poison, through port 24. -/
def poisonAsk (c : Cmd) : Ask :=
  { owner := .command 0x0505 c, tenant := cmdTarget c, port := 24, ta := par c 0 5, len := 32 * par c 6 2,
    write := true, bytes := false, poison := List.replicate (par c 6 2) true }

theorem poisonInjectWork_wait {c : Cmd} {s : State} (ha : par c 0 5 % 32 = 0) (h1 : 1 ≤ par c 6 2)
    (h64 : par c 6 2 ≤ 64) (hta : par c 0 5 < 2 ^ 39) (hc : (partOf s (cmdTarget c)).closed = false)
    (hr : rangeStatus s (cmdTarget c) (par c 0 5) (32 * par c 6 2) = none) :
    poisonInjectWork c s = .wait (ask (poisonAsk c) s) := by
  have hfields : ¬ (par c 0 5 % 32 ≠ 0 || par c 6 2 = 0 || 64 < par c 6 2 || 2 ^ 39 ≤ par c 0 5 : Bool) = true := by
    simp only [Bool.or_eq_true, decide_eq_true_eq]
    omega
  unfold poisonInjectWork
  simp only [if_neg hfields, hc, Bool.false_and, Bool.false_eq_true, if_false, hr]
  rfl

/-! ### PARTITION_RESET (R111) -/

theorem partitionResetWork_of_no_rinse {c : Cmd} (s : State) (hb : bitOf (par c 0 1) 0 = false) :
    partitionResetWork c s = .done (lockBanks (stopTenant (cmdTarget c) s)) stOK
      (leBytes 4 (droppedDescriptors s (cmdTarget c)) ++ leBytes 4 (unstartedOps s (cmdTarget c))) := by
  simp [partitionResetWork, hb]

theorem partitionResetWork_of_rinse {c : Cmd} {s : State} (hb : bitOf (par c 0 1) 0 = true)
    (hr : rinseIncomplete (lockBanks (stopTenant (cmdTarget c) s)) (cmdTarget c) = false) :
    partitionResetWork c s = .done (startRinse (cmdTarget c) [] (lockBanks (stopTenant (cmdTarget c) s))) stOK
      (leBytes 4 (droppedDescriptors s (cmdTarget c)) ++ leBytes 4 (unstartedOps s (cmdTarget c))) := by
  simp [partitionResetWork, hb, hr]

/-- Settles O22: the fields and the range of the injection pass, so that its access is asked for; bit 0 decides on the
reset's rinse. -/
theorem tenantProcedures : Obligations.TenantProcedures := by
  unfold Obligations.TenantProcedures
  refine ⟨?_, ?_, ?_⟩
  · intro c s h ha h1 h64 hta hc hr
    exact congrArg Host.Outcome.next (mailbox_wait h (poisonInjectWork_wait ha h1 h64 hta hc hr))
  · intro c s h hb
    exact congrArg Host.Outcome.next (mailbox_done h (partitionResetWork_of_no_rinse s hb))
  · rintro c s t h hb rfl hr
    exact congrArg Host.Outcome.next (mailbox_done h (partitionResetWork_of_rinse hb hr))

end Sys2Proof.Machine
end

section
/-! The stages of boot follow each other (O30). -/

namespace Sys2Proof.Machine

open Sys2Proof

/-! ### Banks (R115, R116) -/

@[simp] theorem bankOf_setBank_self (b : Nat) (v : Bank) (s : State) : bankOf (setBank b v s) b = v := by
  unfold bankOf setBank
  split <;> rfl

@[simp] theorem setBank_boot (b : Nat) (v : Bank) (s : State) : (setBank b v s).boot = s.boot := by
  unfold setBank
  split <;> rfl

@[simp] theorem setBank_clock (b : Nat) (v : Bank) (s : State) : (setBank b v s).clock = s.clock := by
  unfold setBank
  split <;> rfl

theorem failedTrial_of_not_valid {b : Bank} (h : bankValid b = false) : failedTrial b = false := by
  simp [failedTrial, h]

/-- The banks of a set are ranked in one order or the other. -/
theorem rankBanks_eq (s : State) (ok : Bank → Bool) :
    ∃ l, (l = [0, 1] ∨ l = [1, 0]) ∧ rankBanks s ok = l.filter (fun i => ok (bankOf s i)) := by
  refine ⟨_, ?_, rfl⟩
  unfold bootBankStrap
  split_ifs <;> simp

/-- A set that holds bank A alone ranks it alone, whatever the strap and the generations. -/
theorem rankBanks_of_bankA {s : State} {ok : Bank → Bool} (ha : ok (bankOf s 0) = true)
    (hb : ok (bankOf s 1) = false) : rankBanks s ok = [0] := by
  obtain ⟨l, hl, h⟩ := rankBanks_eq s ok
  rcases hl with rfl | rfl <;> simp [h, ha, hb]

theorem rankBanks_of_none {s : State} {ok : Bank → Bool} (ha : ok (bankOf s 0) = false)
    (hb : ok (bankOf s 1) = false) : rankBanks s ok = [] := by
  obtain ⟨l, hl, h⟩ := rankBanks_eq s ok
  rcases hl with rfl | rfl <;> simp [h, ha, hb]

/-- With no selection, a good bank A and no valid bank B the ROM tries bank A alone (R116). -/
theorem bankOrder_of_bankA {s : State} (hn : s.flash.bootNext = none) (ha : bankValid (bankOf s 0) = true)
    (hf : failedTrial (bankOf s 0) = false) (hb : bankValid (bankOf s 1) = false) : bankOrder s = [0] := by
  have hfb := failedTrial_of_not_valid hb
  rw [bankOrder, hn, rankBanks_of_bankA (by simp [ha, hf]) (by simp [hb]), rankBanks_of_none hf hfb]
  rfl

/-! ### The boot ROM (R101, R113 to R117, R310) -/

/-- The ROM's check runs: its stage, with supply and clock, and nothing that holds or halts it. -/
structure RomRuns (s : State) : Prop where
  stage : s.boot.stage = .romCheck
  pgCore : s.pins.pgCore = true
  refclk : s.pins.refclk = true
  free : tapHolds s = false
  halt : s.boot.halt = .none
  noTrip : s.boot.afterTrip = false

/-- s with what the ROM's SFDP read gave of the flash. -/
def sfdpRead (sfdp : Option Sfdp) (s : State) : State :=
  { s with flash := { s.flash with sfdp := sfdp, answers := sfdp.isSome }, boot := { s.boot with afterTrip := false } }

theorem romCheckDone_of_runs {s : State} (h : RomRuns s) (code : Nat) (sfdp : Option Sfdp) :
    romCheckDone code sfdp s =
      if sfdp.isNone then recover (romRref code (sfdpRead sfdp s)) else nextBank (romRref code (sfdpRead sfdp s)) := by
  refine if_neg ?_
  simp [h.stage, h.pgCore, h.refclk, h.free, h.halt, h.noTrip]

/-- The first measurement of RREF since power-on that is in range is the code in force (R310). -/
theorem romRref_first {code : Nat} {s : State} (hlo : 15840 ≤ code) (hhi : code ≤ 16160) (h : s.refcode.inForce = 0) :
    romRref code s = { s with
      pins := { s.pins with rrefFault := false },
      refcode := { s.refcode with inForce := code, last := code, at_ := now s } } := by
  simp [romRref, between, hlo, hhi, h, now]

@[simp] theorem alertEvent_flash (code sev : Nat) (args : List Byte) (rings : List Nat) (s : State) :
    (alertEvent code sev args rings s).flash = s.flash := by
  obtain ⟨_, _, _, _, h⟩ := logEvent_frame code noTenant sev noStack args rings s
  rw [alertEvent_eq, h, assertAlert_flash]

theorem romRref_flash (code : Nat) (s : State) : (romRref code s).flash = s.flash := by
  unfold romRref rrefMeasured
  dsimp only
  split_ifs <;> simp

/-- With bank A alone to try, the ROM loads it (R116). -/
theorem nextBank_of_bankA {s : State} (hn : s.flash.bootNext = none) (ha : bankValid (bankOf s 0) = true)
    (hf : failedTrial (bankOf s 0) = false) (hb : bankValid (bankOf s 1) = false) (ht : s.boot.triedBanks = []) :
    nextBank s = { s with
      boot := { s.boot with stage := .romLoad, bootedBank := 0, byNext := s.flash.bootNext == some 0 },
      flash := { s.flash with bootNext := none } } := by
  have hfirst : (bankOrder s).filter (fun b => !s.boot.triedBanks.contains b) = [0] := by
    rw [bankOrder_of_bankA hn ha hf hb, ht]
    rfl
  rw [nextBank, hfirst]

/-- An image that verifies starts, with its trial word programmed (R115, R116). -/
theorem imageLoaded_of_valid {s : State} (hs : s.boot.stage = .romLoad) (hh : s.boot.halt = .none)
    (hv : bankValid (bankOf s s.boot.bootedBank) = true) :
    imageLoaded true s =
      { setBank s.boot.bootedBank { bankOf s s.boot.bootedBank with trial := true } s with
        boot := { s.boot with
          stage := .yaresk, romUs := (now s - s.boot.romStart) / 1000, steepUntil := some (now s) } } := by
  simp [imageLoaded, hs, hh, hv, now]

/-! ### Yaresk starts (R88, R122) -/

theorem recordedRetired_of_none {s : State} (h : s.flash.store.retiredStacks = []) : recordedRetired s = s := by
  simp [recordedRetired, h]

/-- s with the hub's domains up and the pot to be cleared. -/
def hubUp (s : State) : State :=
  { s with power := { s.power with on := s.power.on ||| hubOn s }, pot := { s.pot with clearing := List.range 8 } }

theorem yareskDone_of_warm {s : State} (avs : Bool) (hs : s.boot.stage = .yaresk) (hh : s.boot.halt = .none)
    (hw : s.boot.warmKind = true) (hr : s.flash.store.retiredStacks = []) :
    ∃ u, u = startGovernor (regulatorsAtBoot avs (hubUp s)) ∧ yareskDone avs s =
      { u with boot := { u.boot with
          stage := .steepDelay, steepUntil := some (u.boot.steepUntil.getD (now u) + steepDelay u * 1000) } } := by
  refine ⟨_, rfl, ?_⟩
  unfold yareskDone
  simp only [hs, hh, hw, recordedRetired_of_none hr]
  rfl

theorem startGovernor_kettle_running (s : State) : (startGovernor s).kettle.running = true :=
  foldl_keeps (fun s : State => s.kettle.running) (fun _ _ => by rfl) (List.range 9) _

theorem startGovernor_power (s : State) : (startGovernor s).power = s.power :=
  foldl_keeps State.power (fun _ _ => by rfl) (List.range 9) _

/-- Regulators that answer at boot are in use (R88). -/
theorem regulatorsAtBoot_power_of_answering (s : State) : (regulatorsAtBoot true s).power.avsAbsent = false := rfl

/-! ### The steep delay is over (R53, R313) -/

theorem steepOver_of_due {s : State} {t : Nat} (ht : s.boot.steepUntil = some t) (hs : s.boot.stage = .steepDelay)
    (hh : s.boot.halt = .none) (hd : t ≤ s.clock.timebase) (hf : s.ident.fuseGrades ≠ []) :
    steepOver s = { s with boot := { s.boot with
      stage := .training, steepUntil := none, nextStack := nextToTrain s 0 } } := by
  simp [steepOver, ht, hs, hh, due, now, hd, hf]

/-! ### Stacks train in turn (R120, R121) -/

theorem lt_nextToTrain {n : Nat} (hn : n < 8) (s : State) : n < nextToTrain s (n + 1) := by
  unfold nextToTrain
  split
  · exact hn
  · cases h : ((List.range 8).filter (fun i => n + 1 ≤ i)).find? (fun i => !(stackOf s i).retired) with
    | none => exact hn
    | some i => simpa using List.of_mem_filter (List.mem_of_find?_eq_some h)

/-- No channel of a stack that no boot has identified wakes. -/
theorem bootWakes_of_unidentified {s : State} {n : Nat} (h : (stackOf s n).ident = none) :
    (stackChans n).any (bootWakes s) = false := by
  rw [List.any_eq_false]
  intro ch hch
  obtain ⟨i, hi, rfl⟩ := List.mem_map.mp hch
  have hn : (n * 32 + i) / 32 = n := by have := List.mem_range.mp hi; omega
  simp [bootWakes, hn, h]

theorem trainingDone_of_turn {s : State} {n : Nat} (r : TrainResult) (hs : s.boot.stage = .training)
    (hn : s.boot.nextStack = n) (hh : s.boot.halt = .none) (hl : s.boot.hkpReloading = false)
    (hp : bootPowered s n = true) (hi : (stackOf s n).ident = none) :
    ∃ u, u = trainedCold n r s ∧
      trainingDone n r s = { u with boot := { u.boot with nextStack := nextToTrain u (n + 1) } } := by
  refine ⟨_, rfl, ?_⟩
  have hw := bootWakes_of_unidentified hi
  unfold trainingDone
  simp [hs, hn, hh, hl, hp, hi, hw]

/-- A stack that goes online and is awake: waking touches its sleep and the partitions. -/
theorem stackOf_wakeLost (n : Nat) (s : State) : stackOf (wakeLost n s) n = { stackOf s n with sleep := {} } := by
  have hjoin (mask : Nat) : stackOf (joinLost n mask s) n = stackOf s n := by
    unfold joinLost
    exact foldl_keeps (fun s => stackOf s n) (fun _ _ => by rfl) _ s
  unfold wakeLost
  dsimp only
  rw [modStack_eq, stackOf_setStack_self]
  split
  · rw [hjoin]
  · rfl

/-- A qualified stack whose channels all train comes online (R120, R121). -/
theorem trainedCold_of_qualified {s : State} {n : Nat} {r : TrainResult} (hq : qualified s r.ident = true)
    (hf : r.failed = []) (hm : mappedCount s n ≤ 4) :
    (stackOf (trainedCold n r s) n).online = true ∧ (stackOf (trainedCold n r s) n).ident = some r.ident := by
  have hm' : ¬ 4 < mappedCount s n := Nat.not_lt.mpr hm
  unfold trainedCold
  simp only [hq, hf, hm', List.map_nil, List.filter_nil, List.length_nil, List.foldl_nil, Nat.add_zero, Nat.not_lt_zero,
    Bool.not_true, decide_false, Bool.or_false, Bool.false_eq_true, if_false, goOnline, stackOf_wakeLost, modStack_eq,
    stackOf_setStack_self, and_self]

/-! ### Ready (R97, R116, R119, R122) -/

theorem fnOf_raiseVector_intStatus (k v j : Nat) (s : State) :
    (fnOf (raiseVector k v s) j).intStatus = (fnOf s j).intStatus := by
  unfold raiseVector
  dsimp only
  split
  · rw [fnOf_setFn]
    split
    · rw [‹j = k›]
    · rfl
  · rw [fnOf_emit]

/-- Setting an interrupt bit sets it in its function and leaves it in the others (R139). -/
theorem intStatus_setInt (k bit j : Nat) (hb : bit < 6) (s : State) :
    (fnOf (setInt k bit s) j).intStatus.getLsbD bit = (decide (j = k) || (fnOf s j).intStatus.getLsbD bit) := by
  have hbit : (BitVec.ofNat 6 (2 ^ bit)).getLsbD bit = true := by
    rw [BitVec.getLsbD_ofNat, Nat.testBit_two_pow_self, Bool.and_true]
    exact decide_eq_true hb
  have hset (f : Fn) (h : f = { fnOf s k with intStatus := (fnOf s k).intStatus ||| BitVec.ofNat 6 (2 ^ bit) }) :
      (fnOf (setFn k f s) j).intStatus.getLsbD bit = (decide (j = k) || (fnOf s j).intStatus.getLsbD bit) := by
    subst h
    rw [fnOf_setFn]
    by_cases hj : j = k
    · rw [if_pos hj, BitVec.getLsbD_or, hbit]
      simp [hj]
    · simp [hj]
  unfold setInt
  dsimp only
  split
  case isTrue hset' =>
    by_cases hj : j = k
    · rw [hj, hset', Bool.or_true]
    · simp [hj]
  case isFalse =>
    split
    · rw [fnOf_raiseVector_intStatus]
      exact hset _ rfl
    · exact hset _ rfl

theorem intStatus_foldl_setInt (l : List Nat) (bit j : Nat) (hb : bit < 6) (s : State) :
    (fnOf (l.foldl (fun s k => setInt k bit s) s) j).intStatus.getLsbD bit =
      (decide (j ∈ l) || (fnOf s j).intStatus.getLsbD bit) := by
  induction l generalizing s with
  | nil => simp
  | cons k l ih =>
    rw [List.foldl_cons, ih, intStatus_setInt k bit j hb]
    by_cases hj : j = k <;> by_cases hl : j ∈ l <;> simp [hj, hl]

/-- Setting a bit in every function sets it in each. -/
theorem intStatus_setIntAll {k : Nat} (hk : k < 128) {bit : Nat} (hb : bit < 6) (s : State) :
    (fnOf (setIntAll bit s) k).intStatus.getLsbD bit = true := by
  rw [setIntAll, intStatus_foldl_setInt _ bit k hb]
  simp [hk]

/-! What follows in BOOT_READY leaves the boot registers. -/

@[simp] theorem boot_ite (c : Prop) [Decidable c] (a b : State) :
    (if c then a else b).boot = if c then a.boot else b.boot := apply_ite _ _ _ _

@[simp] theorem finish_boot (op : Nat) (c : Cmd) (st : Nat) (r : List Byte) (s : State) :
    (finish op c st r s).boot = s.boot := by rw [finish_frame]

theorem endQueued_boot (t st : Nat) (s : State) : (endQueued t st s).boot = s.boot := by
  unfold endQueued
  refine foldl_keeps State.boot (fun s n => ?_) _ s
  refine (foldl_keeps State.boot (fun s o => finish_boot _ _ _ _ s) _ _).trans ?_
  simp

theorem closePart_boot (t : Nat) (s : State) : (closePart t s).boot = s.boot := by
  simp [closePart, endQueued_boot]

theorem twinAtBoot_boot (s : State) : (twinAtBoot s).boot = s.boot := by
  have hfold (l : List Nat) (u : State) (hu : u.boot = s.boot) : (l.foldl (fun s t =>
      let e := tget 0 s.flash.store.epochs t
      if homeSide s t = 0 then setTwinPart t { state := 4, epoch := e, bootHold := true } (closePart t s)
      else setTwinPart t { state := 7, epoch := e } s) u).boot = s.boot :=
    (foldl_keeps State.boot (fun s t => by simp [closePart_boot]) l u).trans hu
  unfold twinAtBoot
  dsimp only
  split <;> exact hfold _ { s with twin := {} } rfl

theorem clearGrains_boot (t : Nat) (s : State) : (clearGrains t s).boot = s.boot :=
  foldl_keeps State.boot (fun s g => potClearGrain_boot g s) _ s

theorem mirrorColour_boot (t : Nat) (s : State) : (mirrorColour t s).boot = s.boot := by
  unfold mirrorColour
  split <;> rfl

theorem markIncomplete_boot (t : Nat) (s : State) : (markIncomplete t s).boot = s.boot := rfl

theorem lostContents_boot (s : State) : (lostContents s).boot = s.boot := by
  unfold lostContents
  dsimp only
  split
  · rfl
  · refine (foldl_keeps State.boot (fun s n => by rfl) _ _).trans ?_
    refine (foldl_keeps State.boot (fun s t => ?_) _ _).trans (devEvent_frame _ _ _ s).boot
    rw [markIncomplete_boot, clearGrains_boot, mirrorColour_boot]

theorem portTrains_boot (k : Nat) (s : State) : (portTrains k s).boot = s.boot := rfl

/-- s as it is when the device becomes ready: Yaresk's image confirmed and every bucket full. -/
def readied (s : State) : State :=
  let u := fillBuckets (if s.flash.answers then
    setBank s.boot.bootedBank { bankOf s s.boot.bootedBank with confirm := true } s else s)
  { u with
    boot := { u.boot with stage := .ready, ready := true, bootUs := (now u - u.boot.romStart) / 1000 },
    kettle := { u.kettle with active := true } }

/-- What BOOT_READY starts: rinses of what was lost, the ports, the twins and a store where there is none. -/
def started (s : State) : State :=
  let u := twinAtBoot ((List.range 4).foldl (fun s k => portTrains k s) (lostContents s))
  if u.flash.store.valid then u else pushJob .freshStore u

theorem started_boot (s : State) : (started s).boot = s.boot := by
  simp only [started, boot_ite, pushJob_boot, ite_self, twinAtBoot_boot]
  exact (foldl_keeps State.boot (fun s k => portTrains_boot k s) _ _).trans (lostContents_boot s)

theorem bootReady_of_trained {s : State} (hs : s.boot.stage = .training) (hn : 8 ≤ s.boot.nextStack)
    (hh : s.boot.halt = .none) (hl : s.boot.hkpReloading = false) :
    bootReady s = setIntAll 4 (started (readied s)) := by
  refine if_neg ?_
  simp [hs, hh, hl, hn]

/-- Settles O30: each stage's event meets its condition and does the update that leads to the next stage. -/
theorem bootStages : Obligations.BootStages := by
  unfold Obligations.BootStages
  refine ⟨?_, ?_, ?_, ?_, ?_, ?_, ?_⟩
  · intro s code f hs hp hr hf hh ht hlo hhi hc htried hn ha hfa hb
    have hx := romCheckDone_of_runs ⟨hs, hp, hr, hf, hh, ht⟩ code (some f)
    have hu := romRref_first (s := sfdpRead (some f) s) hlo hhi hc
    rw [if_neg (by simp), nextBank_of_bankA (by rw [hu]; exact hn) (by rw [hu]; exact ha) (by rw [hu]; exact hfa)
      (by rw [hu]; exact hb) (by rw [hu]; exact htried), hu] at hx
    exact ⟨_, congrArg Host.Outcome.next hx, rfl, rfl, rfl, rfl⟩
  · intro s code hs hp hr hf hh ht
    have hx := romCheckDone_of_runs ⟨hs, hp, hr, hf, hh, ht⟩ code none
    rw [if_pos Option.isNone_none] at hx
    refine ⟨_, congrArg Host.Outcome.next hx, rfl, ?_⟩
    exact congrArg Flash.answers (romRref_flash code _)
  · intro s hs hh hv
    exact ⟨_, congrArg Host.Outcome.next (imageLoaded_of_valid hs hh hv), rfl,
      congrArg Bank.trial (bankOf_setBank_self _ _ s), rfl⟩
  · intro s hs hh hw hr
    obtain ⟨u, hu, hx⟩ := yareskDone_of_warm true hs hh hw hr
    have hfix : fixed {} u = fixed {} (hubUp s) := by simp [hu]
    have hpot : u.pot = (hubUp s).pot := pot_of_fixed hfix rfl
    have hin : u.cfg.inForce = (hubUp s).cfg.inForce := inForce_of_fixed hfix rfl
    refine ⟨_, congrArg Host.Outcome.next hx, rfl, ?_, ?_, congrArg Pot.clearing hpot, hin⟩
    · rw [hu, startGovernor_kettle_running]
    · rw [hu, startGovernor_power, regulatorsAtBoot_power_of_answering]
  · intro s t ht hs hh hd hf
    exact congrArg Host.Outcome.next (steepOver_of_due ht hs hh hd hf)
  · intro s n r hs hn hh hl hp hi hq hf hm
    obtain ⟨u, hu, hx⟩ := trainingDone_of_turn r hs hn hh hl hp hi
    obtain ⟨hon, hid⟩ := trainedCold_of_qualified hq hf hm
    rw [← hu] at hon hid
    exact ⟨_, congrArg Host.Outcome.next hx, hon, hid, lt_nextToTrain n.isLt u⟩
  · intro s hs hn hh hl
    have hboot : (setIntAll 4 (started (readied s))).boot = (readied s).boot :=
      (setIntAll_frame 4 _).boot.trans (started_boot _)
    refine ⟨_, congrArg Host.Outcome.next (bootReady_of_trained hs hn hh hl), ?_, ?_, ?_⟩
    · rw [hboot, readied]
    · rw [hboot, readied]
    · exact fun k hk => intStatus_setIntAll hk (by decide) _

end Sys2Proof.Machine
end

section
/-! The flash after boot: the ends of its writes and erases, and the firmware bank commands (O9). -/

namespace Sys2Proof.Machine

open Sys2Proof

/-! ### The indices of a table that entries are put into -/

section
variable {α : Type}

theorem exists_mem_iff_tfind (t : List (Nat × α)) (k : Nat) : (∃ e ∈ t, e.1 = k) ↔ (tfind t k).isSome = true := by
  induction t with
  | nil => simp
  | cons e r ih =>
    obtain ⟨j, w⟩ := e
    rw [tfind]
    by_cases hj : j = k
    · simp [hj]
    · simpa [hj] using ih

theorem tfind_foldl_tput_isSome {es t : List (Nat × α)} {k : Nat}
    (h : (∃ e ∈ es, e.1 = k) ∨ (tfind t k).isSome = true) :
    (tfind (es.foldl (fun t e => tput t e.1 e.2) t) k).isSome = true := by
  induction es generalizing t with
  | nil => simpa using h
  | cons e es ih =>
    refine ih ?_
    rw [tfind_tput]
    by_cases hk : k = e.1
    · simp [hk]
    · simpa [hk, Ne.symm hk] using h

end

/-! ### The end of a flash write (R125, R129) -/

/-- The bank erase after a write, which goes on once none waits (R125). -/
def eraseAfter (s : State) : Option BankErase :=
  if s.flash.jobs.isEmpty then s.flash.erase.map (fun e => { e with between := false }) else s.flash.erase

theorem resumeErase_eq (s : State) :
    programComplete.resumeErase s = { s with flash := { s.flash with erase := eraseAfter s } } := by
  fun_cases programComplete.resumeErase s with
  | case1 h =>
    have ha : eraseAfter s = s.flash.erase := by simp [eraseAfter, h]
    rw [ha]
  | case2 e h hj =>
    have ha : eraseAfter s = some { e with between := false } := by rw [eraseAfter, if_pos hj, h, Option.map_some]
    rw [ha]
  | case3 e h hj =>
    have ha : eraseAfter s = s.flash.erase := if_neg hj
    rw [ha]

/-- Going on with an erase does not change which bank and unit it is at. -/
theorem eraseAfter_map (s : State) :
    (eraseAfter s).map (fun e => (e.bank, e.unit)) = s.flash.erase.map (fun e => (e.bank, e.unit)) := by
  unfold eraseAfter
  split
  · rw [Option.map_map]
    rfl
  · rfl

/-- The oldest write that is waited for ends where the flash is free for it. -/
theorem programComplete_of_job {s : State} {j : FlashJob} {r : List FlashJob} (ok : Bool) (hj : s.flash.jobs = j :: r)
    (hf : flashFree s = true) : programComplete ok s =
      programComplete.resumeErase
        (jobDone j (ok && s.flash.answers) { s with flash := { s.flash with jobs := r } }) := by
  simp only [programComplete, hj, hf, if_true]

/-- Ending a command beside an update of the flash. -/
theorem finish_with_flash (op : Nat) (c : Cmd) (st : Nat) (r : List Byte) (g : Flash) (s : State) :
    { finish op c st r s with flash := g } = finish op c st r { s with flash := g } := by
  unfold finish
  dsimp only
  split
  · rfl
  · split <;> rfl

theorem finish_flash (op : Nat) (c : Cmd) (st : Nat) (r : List Byte) (s : State) :
    (finish op c st r s).flash = s.flash := by rw [finish_frame]

/-- An erase goes on beside the end of a command. -/
theorem resumeErase_finish (op : Nat) (c : Cmd) (st : Nat) (r : List Byte) (s : State) :
    programComplete.resumeErase (finish op c st r s) =
      finish op c st r { s with flash := { s.flash with erase := eraseAfter s } } := by
  have he : eraseAfter (finish op c st r s) = eraseAfter s := by
    unfold eraseAfter
    rw [finish_flash]
  rw [resumeErase_eq, he, finish_flash, finish_with_flash]

/-- The end of a boot-next selection's write: in force, or FLASH_FAULT (R116, R129). -/
theorem jobDone_bootNext (c : Cmd) (sel : Option Nat) (ok : Bool) (s : State) :
    jobDone (.bootNext c sel) ok s =
      if ok then finish 0x0F04 c stOK [] { s with flash := { s.flash with bootNext := sel } }
      else finish 0x0F04 c stFlashFault [] s := rfl

/-- The end of a pour record's write (R160). -/
theorem jobDone_pourRecord {p : Pour} {s : State} (ok : Bool) (hp : s.cfg.pour = some p) (hr : p.recordPending = true) :
    jobDone .pourRecord ok s = if ok then recordWritten p s else recordFailed p s := by
  simp [jobDone, hp, hr]

theorem programComplete_of_pourRecord {s : State} {r : List FlashJob} {p : Pour} (ok : Bool)
    (hj : s.flash.jobs = .pourRecord :: r) (hf : flashFree s = true) (hp : s.cfg.pour = some p)
    (hr : p.recordPending = true) : programComplete ok s = programComplete.resumeErase
      (if ok && s.flash.answers then recordWritten p { s with flash := { s.flash with jobs := r } }
       else recordFailed p { s with flash := { s.flash with jobs := r } }) := by
  rw [programComplete_of_job ok hj hf]
  exact congrArg programComplete.resumeErase
    (jobDone_pourRecord (s := { s with flash := { s.flash with jobs := r } }) _ hp hr)

/-- A record joins the active half of the store, behind those that are there (R161). -/
theorem appendRec_records (r : StoreRec) (n : Nat) (st : Store) : (appendRec r n st).records = st.records + 1 := by
  by_cases hh : st.half = 0 <;> simp [appendRec, Store.records, Store.active, addRec, hh]

theorem appendRec_items (r : StoreRec) (n : Nat) (st : Store) : (appendRec r n st).items = st.items := by
  unfold appendRec
  dsimp only
  split <;> rfl

/-- A record that failed gives the staged entries back, under those staged since (R160). -/
theorem staged_recordFailed (p : Pour) (s : State) : staged (recordFailed p s) (cmdArea p.req.cmd) =
    (staged s (cmdArea p.req.cmd)).foldl (fun t e => tput t e.1 e.2) p.set := by
  unfold recordFailed
  dsimp only
  rw [staged, finish_frame]
  exact tget_tset_self _ _ _ _

theorem recordFailed_pour (p : Pour) (s : State) : (recordFailed p s).cfg.pour = none := by
  rw [recordFailed, finish_frame]

theorem recordFailed_serial (p : Pour) (s : State) : (recordFailed p s).cfg.serial = s.cfg.serial - 1 := by
  rw [recordFailed, finish_frame]

theorem recordFailed_inForce (p : Pour) (s : State) : (recordFailed p s).cfg.inForce = s.cfg.inForce := by
  rw [recordFailed, finish_frame]

theorem recordFailed_store (p : Pour) (s : State) : (recordFailed p s).flash.store = s.flash.store := by
  rw [recordFailed, finish_frame]

/-- What was staged while the record was written is still staged after it has failed (R160). -/
theorem staged_recordFailed_keeps (p : Pour) (s : State) {e : Nat × List Nat}
    (he : e ∈ staged s (cmdArea p.req.cmd)) :
    ∃ e' ∈ staged (recordFailed p s) (cmdArea p.req.cmd), e'.1 = e.1 := by
  rw [exists_mem_iff_tfind, staged_recordFailed]
  exact tfind_foldl_tput_isSome (.inl ⟨e, he, rfl⟩)

/-! ### The end of an erase (R124, R125, R163) -/

section
variable {s : State} {e : BankErase} (he : s.flash.erase = some e) (hs : eraseSuspended s = false)
  (hb : e.between = false)
include he hs hb

theorem bankErased_of_failed :
    bankErased false s = finish 0x0F01 e.cmd stFlashFault [] { s with flash := { s.flash with erase := none } } := by
  simp [bankErased, he, hs, hb]

variable (ha : s.flash.answers = true)
include ha

/-- A unit of an erase that ends well is erased; the next one follows, or the command ends. -/
theorem bankErased_of_ok {u : State} (hu : u = setBank e.bank (eraseUnit e.unit (bankOf s e.bank)) s) :
    bankErased true s =
      if e.unit < 256 then
        { u with flash := { u.flash with
            erase := some { e with unit := e.unit + 1, between := !u.flash.jobs.isEmpty || u.boot.hkpReloading } } }
      else
        finish 0x0F01 e.cmd stOK [] (setBank e.bank { bankOf u e.bank with erasedOk := true, imageOk := false }
          { u with flash := { u.flash with erase := none } }) := by
  have hwait : ¬ (eraseSuspended s || e.between) = true := by simp [hs, hb]
  have hok : ¬ (!true || !s.flash.answers) = true := by simp [ha]
  subst hu
  unfold bankErased
  rw [he]
  dsimp only
  rw [if_neg hwait, if_neg hok]

/-- The next unit of an erase follows (R124). -/
theorem bankErased_of_unit (hu : e.unit < 256) : bankErased true s =
    setBank e.bank (eraseUnit e.unit (bankOf s e.bank)) { s with flash := { s.flash with
      erase := some { e with unit := e.unit + 1, between := !s.flash.jobs.isEmpty || s.boot.hkpReloading } } } := by
  rw [bankErased_of_ok he hs hb ha rfl, if_pos hu]
  unfold setBank
  split <;> rfl

/-- After the last unit the bank is erased, and the command ends (R124). -/
theorem bankErased_of_last (hu : 256 ≤ e.unit) : bankErased true s =
    finish 0x0F01 e.cmd stOK []
      (setBank e.bank { eraseUnit e.unit (bankOf s e.bank) with erasedOk := true, imageOk := false }
        { s with flash := { s.flash with erase := none } }) := by
  rw [bankErased_of_ok he hs hb ha rfl, if_neg (Nat.not_lt.mpr hu), bankOf_setBank_self]
  congr 1
  unfold setBank
  split <;> rfl

end

/-- The store once a compaction has ended: the other half is active and its snapshot is every persisted item (R163). -/
def compacted (st : Store) : Store :=
  { st with
    compacting := false, half := 1 - st.half, freeBytes := 0x7F000 - recordBytes st.items.length,
    half0 := if st.half = 1 then snapshotHalf { st with compacting := false } else st.half0,
    half1 := if st.half = 1 then st.half1 else snapshotHalf { st with compacting := false } }

theorem storeErased_of_compacting {s : State} (hc : s.flash.store.compacting = true)
    (hs : compactionSuspended s = false) (ha : s.flash.answers = true) :
    storeErased true s = { s with flash := { s.flash with store := compacted s.flash.store } } := by
  have hrun : ¬ (!s.flash.store.compacting || compactionSuspended s) = true := by simp [hc, hs]
  have hok : (true && s.flash.answers) = true := by simp [ha]
  unfold storeErased
  dsimp only
  rw [if_neg hrun, if_pos hok]
  rfl

theorem compacted_active {st : Store} (h : st.half ≤ 1) :
    (compacted st).active = snapshotHalf { st with compacting := false } := by
  rcases Nat.le_one_iff_eq_zero_or_eq_one.mp h with h | h <;> simp [compacted, Store.active, h]

/-! ### Firmware bank commands (R116, R124, R127, R128) -/

theorem fwBankEraseWork_wait {c : Cmd} {s : State} (hr : bankRefused (par c 0 1) s = none)
    (ha : s.flash.answers = true) :
    fwBankEraseWork c s = .wait { s with flash := { s.flash with erase := some { bank := par c 0 1, cmd := c } } } := by
  simp [fwBankEraseWork, hr, ha]

theorem fwBankWriteWork_wait {c : Cmd} {s : State} (hr : bankRefused (par c 0 1) s = none)
    (ha : s.flash.answers = true) (ho : 0x1000 ≤ par c 4 4) (ho' : par c 4 4 ≤ 0xFFFF00) (hom : par c 4 4 % 256 = 0)
    (hl : 256 ≤ par c 16 4) (hl' : par c 16 4 ≤ 1048576) (hlm : par c 16 4 % 256 = 0)
    (hend : par c 4 4 + par c 16 4 ≤ 2 ^ 24) (hk : (bankOf s (par c 0 1)).erasedOk = true)
    (hp : ∀ p ∈ writePages (par c 4 4) (par c 16 4), p ∉ (bankOf s (par c 0 1)).pages) :
    fwBankWriteWork c s = .wait (pushJob (.bankWrite c (par c 0 1) (par c 4 4) (padTo (par c 16 4) c.hostIn))
      { s with flash := { s.flash with bankBusy := true } }) := by
  simpa [fwBankWriteWork, between, hr, ha, ho, ho', hom, hl, hl', hlm, hk] using And.intro hend hp

theorem fwBankActivateWork_eq {c : Cmd} {s : State} (hr : bankRefused (par c 0 1) s = none)
    (ha : s.flash.answers = true) (hl : 4096 ≤ par c 4 4) (hl' : par c 4 4 ≤ 16773120) :
    fwBankActivateWork c s =
      if (crc32 (imageBytes (bankOf s (par c 0 1)) (par c 4 4))).toNat = par c 8 4 ∧
          Config.imageSignatureOk (imageBytes (bankOf s (par c 0 1)) (par c 4 4)) = true then
        .wait (pushJob (.bankActivate c (par c 0 1) (newHeader c s))
          { s with flash := { s.flash with bankBusy := true } })
      else .done s stImageRejected [] := by
  have hlen : between 4096 16773120 (par c 4 4) = true := by simp [between, hl, hl']
  unfold fwBankActivateWork
  simp only [hlen, hr, ha, Bool.not_true, Bool.false_eq_true, if_false]
  split_ifs <;> simp_all

theorem fwBootNextWork_wait {c : Cmd} {s : State} (ha : s.flash.answers = true) (hv : par c 0 1 ≤ 2)
    (hb : par c 0 1 = 0 ∨ bankValid (bankOf s (par c 0 1 - 1)) = true) :
    fwBootNextWork c s =
      .wait (pushJob (.bootNext c (if par c 0 1 = 0 then none else some (par c 0 1 - 1))) s) := by
  have hsel : ¬ (2 < par c 0 1 || (par c 0 1 != 0 && !bankValid (bankOf s (par c 0 1 - 1)))) = true := by
    rcases hb with hb | hb <;> simp [Nat.not_lt.mpr hv, hb]
  unfold fwBootNextWork
  simp only [if_neg hsel, ha, Bool.not_true, Bool.false_eq_true, if_false]

/-- Settles O9: the flash is free and answers, so that the oldest write or the erase's unit ends; the checks of each
bank command pass, so that it goes to the flash and waits. -/
theorem flashAndFirmware : Obligations.FlashAndFirmware := by
  unfold Obligations.FlashAndFirmware
  refine ⟨?_, ?_, ?_, ?_, ?_, ?_, ?_, ?_, ?_, ?_, ?_, ?_⟩
  · intro s rest p hj hf ha hp hr
    have hx := programComplete_of_pourRecord true hj hf hp hr
    rw [if_pos (by simp [ha]), resumeErase_eq] at hx
    refine ⟨_, congrArg Host.Outcome.next hx, rfl, ?_, ?_, rfl, rfl⟩
    · exact appendRec_records _ _ _
    · exact appendRec_items _ _ _
  · intro s rest p hj hf hp hr
    have hx := programComplete_of_pourRecord false hj hf hp hr
    rw [if_neg (by simp), resumeErase_eq] at hx
    refine ⟨_, congrArg Host.Outcome.next hx, recordFailed_pour _ _, recordFailed_serial _ _, recordFailed_inForce _ _,
      recordFailed_store p { s with flash := { s.flash with jobs := rest } },
      fun e he => staged_recordFailed_keeps p { s with flash := { s.flash with jobs := rest } } he⟩
  · intro s rest c sel ok hj hf
    have hx := programComplete_of_job ok hj hf
    rw [jobDone_bootNext] at hx
    refine ⟨eraseAfter { s with flash := { s.flash with jobs := rest } }, (congrArg Host.Outcome.next hx).trans ?_,
      eraseAfter_map _⟩
    split
    · exact congrArg Host.Outcome.next (resumeErase_finish _ _ _ _ _)
    · exact congrArg Host.Outcome.next (resumeErase_finish _ _ _ _ _)
  · intro s e he hs hb ha hu
    exact congrArg Host.Outcome.next (bankErased_of_unit he hs hb ha hu)
  · intro s e he hs hb ha hu
    exact congrArg Host.Outcome.next (bankErased_of_last he hs hb ha hu)
  · intro s e he hs hb
    exact congrArg Host.Outcome.next (bankErased_of_failed he hs hb)
  · intro s hc hs ha hh
    have hact := compacted_active hh
    refine ⟨_, congrArg Host.Outcome.next (storeErased_of_compacting hc hs ha), rfl, rfl, rfl, ?_, ?_, ?_, ?_, rfl, rfl⟩
    · exact congrArg StoreHalf.ok hact
    · exact congrArg StoreHalf.generation hact
    · exact congrArg (fun h => h.recs.length) hact
    · exact congrArg StoreHalf.snapshot hact
  · intro c s h
    exact congrArg Host.Outcome.next (mailbox_done h rfl)
  · intro c s h hr ha
    exact congrArg Host.Outcome.next (mailbox_wait h (fwBankEraseWork_wait hr ha))
  · intro c s h hr ha ho ho' hom hl hl' hlm hend hk hp
    exact ⟨_, Laws.bytesAt_length _ _ _, congrArg Host.Outcome.next
      (mailbox_wait h (fwBankWriteWork_wait hr ha ho ho' hom hl hl' hlm hend hk hp))⟩
  · intro c s h hr ha hl hl'
    have hw := fwBankActivateWork_eq hr ha hl hl'
    split
    · rw [if_pos ‹_›] at hw
      exact congrArg Host.Outcome.next (mailbox_wait h hw)
    · rw [if_neg ‹_›] at hw
      exact congrArg Host.Outcome.next (mailbox_done h hw)
  · intro c s h ha hv hb
    exact congrArg Host.Outcome.next (mailbox_wait h (fwBootNextWork_wait ha hv hb))

end Sys2Proof.Machine
end

section
/-! Staging commands (O3): what a staging area gives up and takes back, and a pour that waits for its turn. -/

namespace Sys2Proof.Machine

open Sys2Proof

/-! ### CONFIG_DISCARD, CONFIG_UNDO and CONFIG_POUR (R145, R147, R148, R164) -/

theorem tset_default {α : Type} [DecidableEq α] (d : α) (t : List (Nat × α)) (k : Nat) :
    tset d t k d = terase t k := if_pos rfl

theorem tset_of_ne_default {α : Type} [DecidableEq α] {d v : α} (t : List (Nat × α)) (k : Nat) (h : v ≠ d) :
    tset d t k v = tput t k v := if_neg h

theorem configDiscardWork_done (c : Cmd) (s : State) : configDiscardWork c s =
    .done { s with cfg := { s.cfg with
      areas := terase s.cfg.areas (cmdArea c), areaPersist := terase s.cfg.areaPersist (cmdArea c) } } stOK
      (leBytes 2 (staged s (cmdArea c)).length) := by
  simp only [configDiscardWork, tset_default]

/-- An undo into an empty area stages the whole undo set (R164). -/
theorem configUndoWork_done {c : Cmd} {s : State} (hs : staged s (cmdArea c) = [])
    (hu : tget [] s.cfg.undo (cmdArea c) ≠ []) : configUndoWork c s =
    .done { s with cfg := { s.cfg with
      areas := tput s.cfg.areas (cmdArea c) (tget [] s.cfg.undo (cmdArea c)),
      areaPersist := tset false s.cfg.areaPersist (cmdArea c) (tget false s.cfg.undoPersist (cmdArea c)) } } stOK
      (leBytes 2 (tget [] s.cfg.undo (cmdArea c)).length) := by
  have hne : ¬ (tget [] s.cfg.undo (cmdArea c)).isEmpty = true := by simpa using hu
  unfold configUndoWork
  simp only [hs, List.isEmpty_nil, Bool.not_true, Bool.false_eq_true, if_false, if_neg hne,
    tset_of_ne_default _ _ hu]

/-- Settles O3: the work of each command ends, or waits, with the area or the queue of pours as stated. -/
theorem stagingCommands : Obligations.StagingCommands := by
  unfold Obligations.StagingCommands
  refine ⟨?_, ?_, ?_⟩
  · intro c s h
    exact congrArg Host.Outcome.next (mailbox_done h (configDiscardWork_done c s))
  · intro c s h hs hu
    exact congrArg Host.Outcome.next (mailbox_done h (configUndoWork_done hs hu))
  · intro c s h
    exact congrArg Host.Outcome.next (mailbox_wait h rfl)

end Sys2Proof.Machine
end

section
/-! The commands that close and open a partition and that drain, rinse and suspend it (O4). -/

namespace Sys2Proof.Machine

open Sys2Proof

/-! ### Partitions under completions, closing and opening (R156, R157, R159) -/

@[simp] theorem finish_parts (op : Nat) (c : Cmd) (st : Nat) (r : List Byte) (s : State) :
    (finish op c st r s).parts = s.parts := by rw [finish_frame]

@[simp] theorem parts_ite (c : Prop) [Decidable c] (a b : State) :
    (if c then a else b).parts = if c then a.parts else b.parts := apply_ite _ _ _ _

/-- Ending queued infuser operations reaches no partition. -/
@[simp] theorem endQueued_parts (t st : Nat) (s : State) : (endQueued t st s).parts = s.parts := by
  unfold endQueued
  refine foldl_keeps State.parts (fun s n => ?_) _ s
  refine (foldl_keeps State.parts (fun s o => finish_parts _ _ _ _ s) _ _).trans ?_
  simp

theorem closePart_timebase (t : Nat) (s : State) : (closePart t s).clock.timebase = s.clock.timebase :=
  congrArg Clock.timebase (clock_of_fixed (τ := {}) (fixed_closePart t s) rfl)

theorem partOf_of_parts {s t : State} (h : t.parts = s.parts) (k : Nat) : partOf t k = partOf s k := by
  rw [partOf, h, partOf]

/-- What closing leaves of each partition: the one that it closes is closed from now on, if it was not before. -/
theorem partOf_closePart (t u : Nat) (s : State) : partOf (closePart t s) u =
    if u = t ∧ (partOf s t).closed = false then
      { partOf s t with closed := true, closedAt := s.clock.timebase, drained := false }
    else partOf s u := by
  unfold closePart
  extract_lets v
  have hp (k : Nat) : partOf v k = partOf s k := partOf_of_parts (by simp [v]) k
  have hn : now v = s.clock.timebase := congrArg Clock.timebase (clock_of_fixed (τ := {}) (by simp [v]) rfl)
  rw [modPart_eq, partOf_setPart, hp, hp, hn]
  by_cases hu : u = t
  · rw [if_pos hu]
    by_cases hc : (partOf s t).closed = true
    · exact (if_pos hc).trans (by rw [if_neg (by simp [hc]), hu])
    · exact (if_neg hc).trans (if_pos ⟨hu, Bool.eq_false_iff.mpr hc⟩).symm
  · rw [if_neg hu, if_neg (fun hc => hu hc.1)]

theorem partOf_closePart_ne {t u : Nat} (s : State) (h : u ≠ t) : partOf (closePart t s) u = partOf s u := by
  rw [partOf_closePart, if_neg (fun hc => h hc.1)]

theorem closePart_closed (t : Nat) (s : State) : (partOf (closePart t s) t).closed = true := by
  rw [partOf_closePart]
  split
  · rfl
  · simp_all

theorem closePart_drainCmds (t : Nat) (s : State) :
    (partOf (closePart t s) t).drainCmds = (partOf s t).drainCmds := by
  rw [partOf_closePart]
  split <;> rfl

theorem partOf_openPart (t u : Nat) (s : State) : partOf (openPart t s) u =
    if u = t then { partOf s t with closed := false, drained := false } else partOf s u :=
  partOf_setPart t u _ s

/-- An open partition holds no request: what it held goes on (R159). -/
theorem place_of_mem_openPart {t : Nat} {s : State} {r : Req} (hr : r ∈ (openPart t s).path.reqs)
    (ht : r.tenant = t) : r.place ≠ .held := by
  obtain ⟨q, -, rfl⟩ := List.mem_map.mp hr
  intro hp
  split at hp
  · dsimp only at hp
    split at hp <;> cases hp
  · simp_all

/-! ### CONFIG_DRAIN and PARTITION_RINSE (R156, R158, R187, R197) -/

theorem configDrainWork_wait {c : Cmd} (s : State) (hm : par c 0 2 ≠ 0) : configDrainWork c s =
    .wait (modPart (cmdTarget c) (fun p => { p with
      drainCmds := (partOf s (cmdTarget c)).drainCmds ++ [(c, s.clock.timebase + msTicks (par c 0 2))] })
      (closePart (cmdTarget c) s)) := by
  simp only [configDrainWork, hm, if_false, modPart_eq, closePart_drainCmds, now, closePart_timebase]

theorem startRinse_closed (t : Nat) (l : List (Cmd × Nat)) (s : State) :
    (partOf (startRinse t l s) t).closed = true := by
  unfold startRinse
  simp only [modPart_eq, partOf_setPart_self]
  split <;> exact closePart_closed t s

/-- The commands that asked for a rinse wait with it, whether it starts or is under way. -/
theorem exists_rinse_startRinse (t : Nat) (l : List (Cmd × Nat)) (s : State) :
    ∃ r, (partOf (startRinse t l s) t).rinse = some r ∧ ∀ e ∈ l, e ∈ r.cmds := by
  unfold startRinse
  simp only [modPart_eq, partOf_setPart_self]
  split
  · exact ⟨_, rfl, fun e he => List.mem_append_right _ he⟩
  · exact ⟨_, rfl, fun e he => he⟩

theorem partitionRinseWork_wait {c : Cmd} {s : State} (hm : par c 0 2 ≠ 0)
    (hi : rinseIncomplete s (cmdTarget c) = false) : partitionRinseWork c s =
      .wait (startRinse (cmdTarget c) [(c, s.clock.timebase + msTicks (par c 0 2))] s) := by
  simp [partitionRinseWork, hm, hi, now]

/-! ### RINSE_CONTROL (R190) -/

/-- s with the rinse of tenant t suspended, resumed or as it was, as the selector says. -/
def rinseControlled (t sel : Nat) (s : State) : State :=
  modPart t (fun p => { p with
    suspended := if sel = 1 then true else if sel = 2 then false else p.suspended }) s

theorem rinseControlWork_done {c : Cmd} (s : State) (h : par c 0 1 ≤ 2) : rinseControlWork c s =
    .done (rinseControlled (cmdTarget c) (par c 0 1) s) stOK
      (rinseControlResult (rinseControlled (cmdTarget c) (par c 0 1) s) (cmdTarget c)) :=
  if_neg (Nat.not_lt.mpr h)

theorem rinseControlled_suspended (t : Nat) {sel : Nat} (s : State) (h : sel ≤ 2) :
    (partOf (rinseControlled t sel s) t).suspended = (sel = 1 ∨ (sel = 0 ∧ (partOf s t).suspended = true) : Bool) := by
  obtain rfl | rfl | rfl : sel = 0 ∨ sel = 1 ∨ sel = 2 := by omega
  all_goals simp [rinseControlled]

theorem rinseControlled_rinse (t sel : Nat) (s : State) :
    (partOf (rinseControlled t sel s) t).rinse = (partOf s t).rinse := by simp [rinseControlled]

/-- Settles O4: the work of each command ends or waits with the state named, of which closing, opening and starting a
rinse say what the partition holds. -/
theorem partitionProcedures : Obligations.PartitionProcedures := by
  unfold Obligations.PartitionProcedures
  refine ⟨?_, ?_, ?_, ?_⟩
  · rintro c s k d h hm rfl rfl
    refine ⟨congrArg Host.Outcome.next (mailbox_wait h (configDrainWork_wait s hm)), ?_, ?_,
      fun u hu => partOf_closePart_ne s hu⟩
    · simp [closePart_closed]
    · simp
  · intro c s h
    refine ⟨congrArg Host.Outcome.next (mailbox_done h rfl), ?_, fun r hr ht => place_of_mem_openPart hr ht,
      fun u hu => ?_⟩
    · rw [partOf_openPart, if_pos rfl]
    · rw [partOf_openPart, if_neg hu]
  · rintro c s t h hm hi rfl
    obtain ⟨r, hr, hc⟩ := exists_rinse_startRinse (cmdTarget c) [(c, s.clock.timebase + msTicks (par c 0 2))] s
    exact ⟨congrArg Host.Outcome.next (mailbox_wait h (partitionRinseWork_wait hm hi)), startRinse_closed _ _ s,
      r, hr, hc _ List.mem_cons_self⟩
  · rintro c s t h hsel rfl
    exact ⟨congrArg Host.Outcome.next (mailbox_done h (rinseControlWork_done s hsel)),
      rinseControlled_suspended _ s hsel, rinseControlled_rinse _ _ s⟩

end Sys2Proof.Machine
end

section
/-! Pours are accepted and completed, and the store compacts (O8). -/

namespace Sys2Proof.Machine

open Sys2Proof

/-! ### Acceptance (R147 to R150) -/

/-- An accepted pour leaves the queue and empties its area; it runs under the next serial, and no value is in force
yet. -/
theorem acceptPour_cfg (r : PourReq) (set : Table (List Nat)) (s : State) :
    ∃ p f, p.entries = set ∧ p.set = staged s (cmdArea r.cmd) ∧ p.serial = s.cfg.serial + 1 ∧
      p.recordPending = needsRecord r set (tget false s.cfg.areaPersist (cmdArea r.cmd)) ∧
      (acceptPour r set s).cfg = { s.cfg with
        waiting := s.cfg.waiting.erase r, serial := s.cfg.serial + 1, lastState := 1, fnSerial := f,
        areas := tset [] s.cfg.areas (cmdArea r.cmd) []
        areaPersist := tset false s.cfg.areaPersist (cmdArea r.cmd) false, pour := some p } := by
  unfold acceptPour
  extract_lets a persist serial rec_ units p s₁ s₂
  split
  · exact ⟨p, _, rfl, rfl, rfl, rfl, rfl⟩
  · exact ⟨_, _, rfl, rfl, rfl, (Bool.eq_false_iff.mpr ‹¬rec_ = true›).symm, rfl⟩

/-- The pour whose turn it is passes every check of Table 5.1, and its record can be written where it needs one. -/
structure Pourable (s : State) (r : PourReq) (set : Table (List Nat)) : Prop where
  turn : frontPour s = some r
  free : s.cfg.pour = none
  steeped : earlierSteep s r.cmd = false
  expanded : set = expandSet s (staged s (cmdArea r.cmd))
  ready : classDReady s set = true
  passes : pourFailure s r.cmd set = none
  drained : undrained s set = []
  storable : needsRecord r set (tget false s.cfg.areaPersist (cmdArea r.cmd)) = true →
    s.flash.answers = true ∧ storeHeld s = false

theorem pourAccept_of_pourable {s : State} {r : PourReq} {set : Table (List Nat)} (h : Pourable s r set) :
    pourAccept s = acceptPour r set s := by
  obtain ⟨hturn, hfree, hsteep, rfl, hready, hpass, hdrained, hstore⟩ := h
  unfold pourAccept
  simp only [hturn, hfree, hsteep, hready, hpass, hdrained, Option.isSome_none, Bool.or_self, Bool.not_true,
    Bool.false_eq_true, if_false]
  split
  next hn =>
    obtain ⟨ha, hh⟩ := hstore hn
    simp [ha, hh]
  next => rfl

/-! ### Completion and compaction (R154, R163, R164) -/

theorem pourComplete_of_switched {s : State} {p : Pour} (hp : s.cfg.pour = some p) (hr : p.recordPending = false)
    (hd : p.classDDone = true) (hh : p.hubDone = true) (hu : p.unitsLeft = []) (ho : p.req.reopen = false) :
    pourComplete s = finish 0x0100 p.req.cmd stOK
      (leBytes 4 p.serial.toNat ++ leBytes 2 p.switched ++ leBytes 1 (flag (needsRecord p.req p.entries false) 0))
      (endPour p s) := by
  simp [pourComplete, hp, hr, hd, hh, hu, ho]

theorem storeCompact_of_short {s : State} (hv : s.flash.store.valid = true) (hc : s.flash.store.compacting = false)
    (hf : s.flash.store.freeBytes < 65536) (ha : s.flash.answers = true) :
    storeCompact s = { s with flash := { s.flash with store := { s.flash.store with compacting := true } } } :=
  if_pos (by simp [hv, hc, hf, ha])

/-- Settles O8: a pourable request is accepted, which reaches only the configuration's own records and the flash's
writes; a pour that has switched ends; a short store compacts. -/
theorem pourEvents : Obligations.PourEvents := by
  unfold Obligations.PourEvents
  refine ⟨?_, ?_, ?_⟩
  · intro s r set hturn hfree hsteep hset hready hpass hdrained hstore
    have hx := pourAccept_of_pourable ⟨hturn, hfree, hsteep, hset, hready, hpass, hdrained, hstore⟩
    obtain ⟨p, f, hentries, hstaged, hserial, hrecord, hcfg⟩ := acceptPour_cfg r set s
    refine ⟨_, p, congrArg Host.Outcome.next hx, ?_, ?_, ?_, ?_, hentries, hstaged, hserial, hrecord, ?_,
      sameContents_of_fixed (fixed_acceptPour (τ := {}) r set s) rfl⟩
    · rw [hcfg]
    · rw [hcfg]
    · simp only [staged, hcfg, tget_tset_self]
    · rw [hcfg]
    · rw [hcfg]
  · intro s p hp hr hd hh hu ho
    exact congrArg Host.Outcome.next (pourComplete_of_switched hp hr hd hh hu ho)
  · intro s hv hc hf ha
    exact congrArg Host.Outcome.next (storeCompact_of_short hv hc hf ha)

end Sys2Proof.Machine
end

section
/-! The requests of the out-of-band channel for telemetry (O18). -/

namespace Sys2Proof.Machine

open Sys2Proof

/-! ### Counters, log and spout status (R166, R457) -/

section
variable {s : State} {first count : Nat} (hs : serving s = true) (h1 : 1 ≤ count)
include hs h1

section
variable (h32 : count ≤ 32) (hend : first + count ≤ 1024) (hd : dumpPeriod s ≠ 0)
include h32 hend hd

/-- While the energies of a mark's latch are not in, a request for counters joins those that the latch answers. -/
theorem mctpCounters_of_latching {l : Latch} {ls : List Latch} (hl : s.tele.latching = ls ++ [l]) :
    mctpCounters first count s = { s with tele := { s.tele with
      latching := ls ++ [{ l with reqs := l.reqs ++ [(first, count)] }] } } := by
  have h0 : count ≠ 0 := by omega
  simp [mctpCounters, hs, h0, Nat.not_lt.mpr h32, Nat.not_lt.mpr hend, hd, hl]

theorem mctpCounters_of_latched (hl : s.tele.latching = []) (ht : s.tele.latch.tick ≠ 0) :
    mctpCounters first count s = answerCounters s.tele.latch first count s := by
  have h0 : count ≠ 0 := by omega
  simp [mctpCounters, hs, h0, Nat.not_lt.mpr h32, Nat.not_lt.mpr hend, hd, hl, ht]

end

theorem mctpLog_answers (f : BitVec 32) (h8 : count ≤ 8) : mctpLog f count s =
    emit (mctpOut 3 (leBytes 2 stOK ++ (logSelect s f count false).flatMap logEntryBytes)) s := by
  have h0 : count ≠ 0 := by omega
  simp [mctpLog, hs, h0, Nat.not_lt.mpr h8]

end

theorem mctpSpoutStatus_answers {s : State} (hs : serving s = true) :
    mctpSpoutStatus s = emit (mctpOut 3 (leBytes 2 stOK ++ spoutResult s s.tele.ring)) s :=
  if_neg (by simp [hs])

/-- Settles O18: each request's fields are in range, so that it is answered, or waits with the latch of its mark. -/
theorem outOfBandRequests : Obligations.OutOfBandRequests := by
  unfold Obligations.OutOfBandRequests
  refine ⟨?_, ?_, ?_, ?_, fun s b => rfl, fun s => rfl⟩
  · intro s first count l ls hs h1 h32 hend hd hl
    exact congrArg Host.Outcome.next (mctpCounters_of_latching hs h1 h32 hend hd hl)
  · intro s first count hs h1 h32 hend hd hl ht
    exact congrArg Host.Outcome.next (mctpCounters_of_latched hs h1 h32 hend hd hl ht)
  · intro s first count hs h1 h8
    exact congrArg Host.Outcome.next (mctpLog_answers hs h1 first h8)
  · intro s hs
    exact congrArg Host.Outcome.next (mctpSpoutStatus_answers hs)

end Sys2Proof.Machine
end

section
/-! The events of drains, rinses and joins (O10). -/

namespace Sys2Proof.Machine

open Sys2Proof

/-! ### Partitions under sending

Releasing what waited for the partner's acknowledgement ends commands and sends frames, which reaches no partition. The
rules follow the order of the model's files. -/

@[simp] theorem parts_foldl {α : Type} (f : State → α → State) (l : List α) (s : State)
    (h : ∀ s a, (f s a).parts = s.parts) : (l.foldl f s).parts = s.parts := foldl_keeps State.parts h l s

theorem EventFrame.parts {s t : State} (h : EventFrame s t) : t.parts = s.parts := by
  obtain ⟨_, _, _, _, rfl⟩ := h
  rfl

theorem EventFrame.flash {s t : State} (h : EventFrame s t) : t.flash = s.flash := by
  obtain ⟨_, _, _, _, rfl⟩ := h
  rfl

@[simp] theorem emit_parts (o : Out) (s : State) : (emit o s).parts = s.parts := (emit_eventFrame o s).parts

@[simp] theorem sendNow_parts (k type : Nat) (f : Frame) (s : State) : (sendNow k type f s).parts = s.parts := by
  simp [sendNow, countEv]

@[simp] theorem emitFrame_parts (k type : Nat) (f : Frame) (s : State) : (emitFrame k type f s).parts = s.parts := by
  simp [emitFrame]

theorem parts_of_linkAllow {f : Frame} {s t : State} (h : linkAllow f s = some t) : t.parts = s.parts := by
  unfold linkAllow at h
  split at h
  · cases h; rfl
  · rw [(allow_some h).2]

@[simp] theorem allowanceWait_parts (s : State) : (allowanceWait s).parts = s.parts := by simp [allowanceWait]

@[simp] theorem pump_parts (n k c : Nat) (s : State) : (pump n k c s).parts = s.parts := by
  fun_induction pump n k c s with
  | case6 n s x hx e he hm s' hl fresh f s₁ s₂ ih => rw [ih]; simp +zetaDelta [ackSent, parts_of_linkAllow hl]
  | _ => simp

@[simp] theorem connSend_parts (k c type : Nat) (f : Frame) (s : State) : (connSend k c type f s).parts = s.parts := by
  simp [connSend, pumpAll]

@[simp] theorem doHeld_parts (a : HeldAct) (s : State) : (doHeld a s).parts = s.parts := by
  fun_cases doHeld a s <;> simp

@[simp] theorem staleCopy_parts (t : Nat) (s : State) : (staleCopy t s).parts = s.parts := by
  simp [staleCopy, releaseHeld]

/-! ### Ending the commands of a list -/

theorem finishAll_frame (op : Nat) (l : List (Cmd × Nat)) (st : Nat) (r : List Byte) (s : State) :
    finishAll op l st r s = { s with cmds := (finishAll op l st r s).cmds } := by
  induction l generalizing s with
  | nil => rfl
  | cons e l ih =>
    have hcons : finishAll op (e :: l) st r s = finishAll op l st r (finish op e.1 st r s) := rfl
    rw [hcons, ih, finish_frame]

theorem finishAll_timebase (op : Nat) (l : List (Cmd × Nat)) (st : Nat) (r : List Byte) (s : State) :
    (finishAll op l st r s).clock.timebase = s.clock.timebase := by rw [finishAll_frame]

theorem unexpired_eq (s : State) (l : List (Cmd × Nat)) :
    unexpired s l = l.filter (fun e => s.clock.timebase < e.2) :=
  List.filter_congr fun e _ => by
    have hdue : due s e.2 = decide (e.2 ≤ s.clock.timebase) := rfl
    rw [hdue, ← decide_not, decide_eq_decide, Nat.not_le]

/-! ### Drains (R156 to R158) -/

/-- The colour that a rinse takes follows from the colours in force and those that rinses wait for (R187 step 3). -/
theorem nextColour_congr {s u : State} (hc : u.cfg = s.cfg) (hf : u.flash = s.flash) (t : Nat) :
    nextColour u t = nextColour s t := by
  simp only [nextColour, pendingColours, colourOf, cfgN, cfgList, hc, hf]

theorem nextColour_setPart (t u : Nat) (v : Part) (s : State) : nextColour (setPart u v s) t = nextColour s t :=
  nextColour_congr rfl rfl t

/-- s with tenant t drained: its drain commands have ended. -/
def drainEnded (t : Nat) (s : State) : State :=
  setPart t { partOf s t with drained := true, drainCmds := [] }
    (finishAll 0x0104 (partOf s t).drainCmds stOK (leBytes 4 (heldCount s t)) s)

theorem drainEnded_frame (t : Nat) (s : State) : drainEnded t s =
    setPart t { partOf s t with drained := true, drainCmds := [] } { s with cmds := (drainEnded t s).cmds } := by
  unfold drainEnded
  rw [finishAll_frame]
  rfl

theorem twinPartOf_drainEnded (t : Nat) (s : State) : twinPartOf (drainEnded t s) t = twinPartOf s t := by
  rw [drainEnded_frame]
  rfl

/-- s with tenant t drained, whose rinse r waited for it and now asks for its record (R187). -/
def rinseRecording (t : Nat) (r : Rinse) (s : State) : State :=
  recordRinse t (modPart t (fun p => { p with rinse := some { r with phase := .recording } }) (drainEnded t s))

section
variable {s : State} {t : Nat} (hc : (partOf s t).closed = true) (hd : drainedNow s t = true)
include hc hd

theorem drainDone_of_no_rinse (hr : (partOf s t).rinse = none) : drainDone t s = drainEnded t s := by
  simp [drainDone, drainEnded, hc, hd, hr]

theorem drainDone_of_draining {r : Rinse} (hr : (partOf s t).rinse = some r) (hp : r.phase = .draining) :
    drainDone t s = rinseRecording t r s := by
  simp [drainDone, rinseRecording, drainEnded, hc, hd, hr, hp]

end

theorem partOf_rinseRecording (t : Nat) (r : Rinse) (s : State) : partOf (rinseRecording t r s) t =
    { partOf s t with drained := true, drainCmds := [], rinse := some { r with phase := .recording } } := by
  have hpart : partOf (drainEnded t s) t = { partOf s t with drained := true, drainCmds := [] } :=
    partOf_setPart_self _ _ _
  refine (partOf_setPart_self _ _ _).trans ?_
  rw [hpart]

theorem rinseRecording_jobs (t : Nat) (r : Rinse) (s : State) : (rinseRecording t r s).flash.jobs =
    s.flash.jobs ++ [.rinseRecord t (nextColour s t)] := by
  have hcfg : (drainEnded t s).cfg = s.cfg := by rw [drainEnded_frame]; rfl
  have hflash : (drainEnded t s).flash = s.flash := by rw [drainEnded_frame]; rfl
  rw [rinseRecording, recordRinse, pushJob_flash, modPart_eq, nextColour_setPart, nextColour_congr hcfg hflash,
    setPart_flash, hflash]

/-- Where no switchover waits, none is carried out. -/
theorem tryHandover_of_no_takeover {t : Nat} {s : State} (h : (twinPartOf s t).takeover = none) :
    tryHandover t s = s := by simp [tryHandover, planned, h]

theorem drainTimeout_eq (t : Nat) (s : State) : drainTimeout t s =
    setPart t { partOf s t with drainCmds := (partOf s t).drainCmds.filter (fun e => s.clock.timebase < e.2) }
      (finishAll 0x0104 ((partOf s t).drainCmds.filter (fun e => e.2 ≤ s.clock.timebase)) stDeferred
        (leBytes 4 (heldCount s t)) s) := by
  simp only [drainTimeout, unexpired_eq, finishAll_timebase]
  rfl

/-- A request that a closed partition has held for 2 ms ends (R157). -/
theorem heldTimeout_of_due {s : State} {id : Nat} {r : Req}
    (hr : s.path.reqs.find? (fun r => r.access == id && r.place == .held) = some r)
    (hd : r.arrived + msTicks 2 ≤ s.clock.timebase) :
    heldTimeout id s = endAccess id stPartitionClosed (countHeldEnd r.tenant s) := by
  simp [heldTimeout, hr, due, now, hd]

/-- So does a received frame of an operation (R157). -/
theorem heldFrameTimeout_of_due {s : State} {id : Nat} {h : HeldFrame}
    (hf : s.peers.held.find? (fun h => h.id == id) = some h) (ha : h.applying = false) (ht : h.type ≠ 0x03)
    (hh : holds s h.frame.dstTenant.toNat = true) (hd : h.since + msTicks 2 ≤ s.clock.timebase) :
    heldFrameTimeout id s = failHeld h stPartitionClosed (countHeldEnd h.frame.dstTenant.toNat s) := by
  simp [heldFrameTimeout, hf, ha, ht, hh, due, now, hd]

/-! ### Rinses (R187, R197) -/

theorem rinseTimeout_of_draining {s : State} {t : Nat} {r : Rinse} (hr : (partOf s t).rinse = some r)
    (hp : r.phase = .draining) : rinseTimeout t s =
      setPart t { partOf s t with rinse := some { r with cmds := r.cmds.filter (fun e => s.clock.timebase < e.2) } }
        (finishAll 0x0206 (r.cmds.filter (fun e => e.2 ≤ s.clock.timebase)) stDeferred [0] s) := by
  simp only [rinseTimeout, hr, hp, beq_self_eq_true, if_true, unexpired_eq, finishAll_timebase]
  rfl

/-- The record of tenant t's rinse waits for the flash. -/
def recordQueued (s : State) (t : Nat) : Bool :=
  s.flash.jobs.any (fun j => match j with | .rinseRecord u _ => u == t | _ => false)

theorem rinseRetry_of_failed {s : State} {t : Nat} {r : Rinse} (hr : (partOf s t).rinse = some r)
    (hp : r.phase = .recording) (hrec : r.recorded = false) (hm : ∀ m, r.failedMark = some m → m < s.clock.mark)
    (hq : recordQueued s t = false) : rinseRetry t s = recordRinse t s := by
  have hall : r.failedMark.all (fun m => m < s.clock.mark) = true :=
    (Option.all_eq_true _ _).mpr fun m he => decide_eq_true (hm m he)
  have hjobs : (!recordQueued s t) = true := by rw [hq, Bool.not_false]
  unfold rinseRetry
  simp only [hr, hp, hrec, hall, beq_self_eq_true, Bool.not_false, Bool.and_true, Bool.true_and]
  exact if_pos hjobs

theorem colourOf_of_inForce {s u : State} (h : u.cfg.inForce = s.cfg.inForce) (t : Nat) :
    colourOf u t = colourOf s t := by
  simp only [colourOf, cfgN, cfgList, h]

theorem colourOf_setColour (t : Nat) (col : BitVec 8) (s : State) : colourOf (setColour t col s) t = col := by
  simp [colourOf, cfgN, cfgList, setColour]

theorem clearGrains_hbm (t : Nat) (s : State) : (clearGrains t s).hbm = s.hbm :=
  foldl_keeps State.hbm (fun s g => potClearGrain_hbm g s) _ s

/-- s with the recorded colour of tenant t in force and its grains cleared, the commands of the rinse r ended. -/
def colourRotated (t : Nat) (r : Rinse) (s : State) : State :=
  finishAll 0x0206 r.cmds stOK [tget 0 s.flash.mirror t] (clearGrains t (setColour t (tget 0 s.flash.mirror t) s))

/-- A partition that its rinse r begins to write. -/
def rinseBegun (r : Rinse) (p : Part) : Part :=
  { rinseFromStart p with incomplete := true, rinse := some { r with phase := .running, cmds := [] } }

theorem rotateColour_of_recorded {s : State} {t : Nat} {r : Rinse} (hr : (partOf s t).rinse = some r)
    (hp : r.phase = .recording) (hrec : r.recorded = true) :
    rotateColour t s = modPart t (rinseBegun r) (colourRotated t r s) := by
  simp [rotateColour, colourRotated, rinseBegun, hr, hp, hrec]

theorem colourRotated_hbm (t : Nat) (r : Rinse) (s : State) : (colourRotated t r s).hbm = s.hbm := by
  rw [colourRotated, finishAll_frame]
  exact clearGrains_hbm t _

/-- Neither clearing grains nor ending commands changes a value in force. -/
theorem colourOf_colourRotated (t : Nat) (r : Rinse) (s : State) :
    colourOf (colourRotated t r s) t = tget 0 s.flash.mirror t := by
  have hf : fixed { contents := true } (colourRotated t r s) =
      fixed { contents := true } (setColour t (tget 0 s.flash.mirror t) s) := by simp [colourRotated]
  rw [colourOf_of_inForce (inForce_of_fixed hf rfl), colourOf_setColour]

/-- s with the rinse of tenant t over, and its mirror gone. -/
def rinseEnded (t : Nat) (s : State) : State :=
  let u := modPart t (fun p => { rinseFromStart p with
    incomplete := false, rinse := none, suspended := false, joining := [] }) s
  { u with flash := { u.flash with
    mirror := terase u.flash.mirror t, mirrorDone := terase u.flash.mirrorDone t } }

theorem partOf_rinseEnded (t : Nat) (s : State) : partOf (rinseEnded t s) t = { rinseFromStart (partOf s t) with
    incomplete := false, rinse := none, suspended := false, joining := [] } := partOf_setPart_self _ _ s

/-- A rinse that has written everything ends, its partition opens, and the end is logged (R187 step 6). -/
theorem rinseFinish_frame {s : State} {t : Nat} (hw : writesRun s = true) (hr : rinseRunning s t = true)
    (hd : rinseWritten s t = true) : EventFrame (openPart t (rinseEnded t s)) (rinseFinish t s) := by
  have hx : rinseFinish t s =
      logEvent 0x0200 t 1 noStack [colourOf (rinseEnded t s) t] [0] (openPart t (rinseEnded t s)) :=
    if_pos (by simp [hw, hr, hd])
  rw [hx]
  exact logEvent_frame _ _ _ _ _ _ _

/-! ### Joins (R189) -/

theorem writesAt_of_no_rinse {s : State} {t : Nat} (n : Nat) (h : rinseRunning s t = false) :
    writesAt s t n = (joinLeft s t n).head? := if_neg (by simp [h])

theorem joinDone_of_written {s : State} {t n x : Nat} (hw : writesRun s = true) (hr : rinseRunning s t = false)
    (hx : (joinLeft s t n).head? = some x) (hc : extentSectors s n x ≤ cursorOf s t n x) :
    joinDone t n x s = modPart t (fun p => { p with
      joining := p.joining.filter (· != (n, x)), cursor := terase p.cursor n })
      (fillExtent n x (colourOf s t) s) :=
  if_pos (by simp [hw, hr, writesAt_of_no_rinse n hr, hx, hc])

/-- Settles O10: each event meets its condition and does its update; ending commands, logging and releasing what waited
for the partner reach no partition. -/
theorem drainAndRinseEvents : Obligations.DrainAndRinseEvents := by
  unfold Obligations.DrainAndRinseEvents
  refine ⟨?_, ?_, ?_, ?_, ?_, ?_, ?_, ?_, ?_, ?_⟩
  · intro s t hc hd hr ht
    have hx := drainDone_of_no_rinse hc hd hr
    refine congrArg Host.Outcome.next ((congrArg (tryHandover t.val) hx).trans ?_)
    exact tryHandover_of_no_takeover (by rw [twinPartOf_drainEnded, ht])
  · intro s t r hc hd hr hp ht
    have hx := drainDone_of_draining hc hd hr hp
    have hpart := partOf_rinseRecording t.val r s
    refine ⟨_, congrArg Host.Outcome.next ((congrArg (tryHandover t.val) hx).trans
      (tryHandover_of_no_takeover ?_)), ?_, ?_, ?_, rinseRecording_jobs t.val r s⟩
    · exact (congrArg TwinPart.takeover (twinPartOf_drainEnded t.val s)).trans ht
    · rw [hpart]
    · rw [hpart]
    · rw [hpart]
  · intro s t
    exact congrArg Host.Outcome.next (drainTimeout_eq t.val s)
  · intro s id r hn hr hd
    exact congrArg Host.Outcome.next ((if_neg (by simp [hn])).trans (heldTimeout_of_due hr hd))
  · intro s id h hf ha ht hh hd
    have hid := List.find?_some hf
    have hany : s.peers.held.any (fun h => h.id == id) = true :=
      List.any_eq_true.mpr ⟨h, List.mem_of_find?_eq_some hf, hid⟩
    exact congrArg Host.Outcome.next ((if_pos hany).trans (heldFrameTimeout_of_due hf ha ht hh hd))
  · intro s t r hr hp
    exact congrArg Host.Outcome.next (rinseTimeout_of_draining hr hp)
  · intro s t r hr hp hrec hm hq
    exact congrArg Host.Outcome.next (rinseRetry_of_failed hr hp hrec hm hq)
  · intro s t r hr hp hrec
    have hx := rotateColour_of_recorded hr hp hrec
    have hpart : partOf (staleCopy t.val (modPart t.val (rinseBegun r) (colourRotated t.val r s))) t.val =
        rinseBegun r (partOf (colourRotated t.val r s) t.val) :=
      (partOf_of_parts (staleCopy_parts _ _) _).trans (partOf_setPart_self _ _ _)
    have hfix : fixed {} (staleCopy t.val (modPart t.val (rinseBegun r) (colourRotated t.val r s))) =
        fixed {} (colourRotated t.val r s) := by simp
    refine ⟨_, congrArg Host.Outcome.next ((if_pos (by simp [hr, hp, hrec])).trans (congrArg (staleCopy t.val) hx)),
      congrArg Part.incomplete hpart, congrArg Part.rinse hpart, congrArg Part.rinsed hpart,
      congrArg Part.cursor hpart, ?_, ?_⟩
    · rw [colourOf_of_inForce (inForce_of_fixed hfix rfl), colourOf_colourRotated]
    · rw [hbm_of_fixed hfix rfl, colourRotated_hbm]
  · intro s t hw hr hd
    have hframe := rinseFinish_frame hw hr hd
    have hpart : partOf (rinseFinish t.val s) t.val =
        { partOf (rinseEnded t.val s) t.val with closed := false, drained := false } := by
      rw [partOf_of_parts hframe.parts, partOf_openPart, if_pos rfl]
    refine ⟨_, rfl, ?_, ?_, ?_, ?_, hframe.hbm, ?_⟩
    · rw [hpart, partOf_rinseEnded]
    · rw [hpart, partOf_rinseEnded]
    · rw [hpart]
    · rw [hpart, partOf_rinseEnded]
    · rw [hframe.flash]
      exact (tfind_terase _ _ _).trans (if_pos rfl)
  · intro s t n x hw hr hx hc
    refine ⟨_, congrArg Host.Outcome.next (joinDone_of_written hw hr hx hc), ?_, rfl⟩
    rw [modPart_eq, partOf_setPart_self]
    rfl

end Sys2Proof.Machine
end

section
/-! The reports of partitions, addresses, the remap table and regulators (O5). -/

namespace Sys2Proof.Machine

open Sys2Proof

/-! ### PARTITION_INFO (R186) and ADDRESS_TRANSLATE (R300) -/

theorem partitionInfoWork_of_aligned {c : Cmd} (s : State) (h : par c 0 8 % 64 = 0) : partitionInfoWork c s =
    .done (emit (.hostWrite (cmdFn c) (par c 0 8) (partitionRecord s (cmdTarget c))) s) stOK
      (leBytes 1 (partState s (cmdTarget c)) ++ [colourOf s (cmdTarget c)] ++
        leBytes 2 (partitionRecord s (cmdTarget c)).length) := by
  unfold partitionInfoWork
  simp only [h, ne_eq, not_true, if_false]

/-- An address of the pot is placed in the grain that its window names (R179). -/
theorem addressTranslateWork_of_grain {c : Cmd} {s : State} {g : Nat} (hta : 2 ^ 39 ≤ par c 0 5)
    (hr : bitsOf (par c 0 5) 27 12 = 0) (hg : (grainsOf s (cmdTarget c))[bitsOf (par c 0 5) 20 7]? = some g) :
    addressTranslateWork c s = .done s stOK (leBytes 5 (2 ^ 39 + g * 1048576 + par c 0 5 % 1048576)) := by
  unfold addressTranslateWork
  simp only [if_pos hta, hr, ne_eq, not_true, if_false, hg]

/-- An HBM address is placed in its extent (R180). -/
theorem addressTranslateWork_of_extent {c : Cmd} {s : State} {n x o : Nat} (hta : par c 0 5 < 2 ^ 39)
    (hx : translateExtent s (cmdTarget c) (par c 0 5) = .inl (n, x, o)) :
    addressTranslateWork c s = .done s stOK (translateResult s (cmdTarget c) n x o) := by
  unfold addressTranslateWork
  simp only [if_neg (Nat.not_le.mpr hta), hx]

/-! ### REMAP_READ (R176) and REGULATOR_STATUS (R194) -/

theorem remapReadWork_of_stack {c : Cmd} (s : State) (h : par c 0 1 < 8) : remapReadWork c s =
    .done (emit (.hostWrite (cmdFn c) (par c 8 8) (remapTable s (par c 0 1))) s) stOK [] :=
  if_neg (Nat.not_le.mpr h)

/-- The function's note of the waits it has seen at a regulator. -/
def waitsSeen (c : Cmd) (s : State) : State :=
  modFn (cmdFn c) (fun f => { f with
    tokenSeen := tset 0 f.tokenSeen (regKey (cmdTarget c) (par c 0 1)) (bucketOf s (cmdTarget c) (par c 0 1)).waits }) s

/-- Whether a request has waited at a regulator since the function last saw it. -/
def waitedByte (c : Cmd) (s : State) : List Byte :=
  leBytes 1 (if tget 0 (fnOf s (cmdFn c)).tokenSeen (regKey (cmdTarget c) (par c 0 1)) <
    (bucketOf s (cmdTarget c) (par c 0 1)).waits then 1 else 0)

section
variable {c : Cmd} (s : State) (h : par c 0 1 < 8)
include h

/-- Selector 0 reports the values in force. -/
theorem regulatorStatusWork_in_force (h0 : par c 1 1 = 0) : regulatorStatusWork c s =
    .done (waitsSeen c s) stOK
      (leBytes 4 (bucketOf s (cmdTarget c) (par c 0 1)).tokens ++ leBytes 4 (regRate s (cmdTarget c) (par c 0 1)) ++
        leBytes 4 (regDepth s (cmdTarget c) (par c 0 1)) ++ leBytes 1 (regFlags s (cmdTarget c) (par c 0 1)) ++
        waitedByte c s) := by
  unfold regulatorStatusWork
  rw [if_neg (by simp [h0, h])]
  simp only [if_pos h0, flag, decide_eq_true_eq, pow_zero]
  rfl

/-- Selector 1 reports the values staged. -/
theorem regulatorStatusWork_staged (h1 : par c 1 1 = 1) : regulatorStatusWork c s =
    .done (waitsSeen c s) stOK
      (leBytes 4 0 ++ leBytes 4 ((regulatorStatusWork.stagedOr c s 1).headD 0) ++
        leBytes 4 ((regulatorStatusWork.stagedOr c s 2).headD 0) ++
        leBytes 1 ((regulatorStatusWork.stagedOr c s 0).headD 0) ++ waitedByte c s) := by
  have h0 : par c 1 1 ≠ 0 := by omega
  unfold regulatorStatusWork
  rw [if_neg (by simp [h1, h])]
  simp only [if_neg h0, flag, decide_eq_true_eq, pow_zero]
  rfl

end

/-- Settles O5: the selectors of each command are in their ranges, so that its work ends with its report. -/
theorem partitionReports : Obligations.PartitionReports := by
  unfold Obligations.PartitionReports
  refine ⟨?_, ?_, ?_, ?_, ?_⟩
  · intro c s h ha
    exact congrArg Host.Outcome.next (mailbox_done h (partitionInfoWork_of_aligned s ha))
  · intro c s g h hta hr hg
    exact congrArg Host.Outcome.next (mailbox_done h (addressTranslateWork_of_grain hta hr hg))
  · intro c s n x o h hta hx
    exact congrArg Host.Outcome.next (mailbox_done h (addressTranslateWork_of_extent hta hx))
  · intro c s h hn
    exact congrArg Host.Outcome.next (mailbox_done h (remapReadWork_of_stack s hn))
  · intro c s i b h hn hsel hi hb
    subst hi hb
    rcases Nat.le_one_iff_eq_zero_or_eq_one.mp hsel with h0 | h1
    · rw [if_pos h0]
      exact congrArg Host.Outcome.next (mailbox_done h (regulatorStatusWork_in_force s hn h0))
    · rw [if_neg (by omega)]
      exact congrArg Host.Outcome.next (mailbox_done h (regulatorStatusWork_staged s hn h1))

end Sys2Proof.Machine
end

section
/-! BAR2 accesses that admission serves at once: what they read and store in the pot (O36). -/

namespace Sys2Proof.Machine

open Sys2Proof

/-! ### Bytes of the pot after a store (R264) -/

theorem leBytes_ofLe (bs : List Byte) : leBytes bs.length (ofLe bs) = bs := by
  induction bs with
  | nil => rfl
  | cons b r ih =>
    have hlt := b.isLt
    have hb : (b.toNat + 256 * ofLe r) / 256 = ofLe r := by omega
    rw [List.length_cons, leBytes, ofLe, hb, ih]
    congr 1
    apply BitVec.eq_of_toNat_eq
    rw [BitVec.toNat_ofNat]
    omega

theorem potBytes_length (s : State) (o n : Nat) : (potBytes s o n).length = n := by simp [potBytes]

theorem potBytes_getD {s : State} {o n i : Nat} (h : i < n) : (potBytes s o n).getD i 0 = potByte s (o + i) := by
  simp [potBytes, List.getD_eq_getElem?_getD, h]

/-- A run of the pot that holds given bytes reads as these bytes. -/
theorem potBytes_eq_of_getD {s : State} {o : Nat} {bs : List Byte}
    (h : ∀ i < bs.length, potByte s (o + i) = bs.getD i 0) : potBytes s o bs.length = bs := by
  apply List.ext_getElem (potBytes_length s o _)
  intro i hi hb
  have hget := potBytes_getD (s := s) (o := o) hb
  rw [h i hb] at hget
  simpa [List.getD_eq_getElem?_getD, hi, hb] using hget

/-- A table after n consecutive writes from index o on. -/
theorem tget_foldl_tset (cells : Table Byte) (o : Nat) (f : Nat → Byte) (n a : Nat) :
    tget 0 ((List.range n).foldl (fun c i => tset 0 c (o + i) (f i)) cells) a =
      if o ≤ a ∧ a < o + n then f (a - o) else tget 0 cells a := by
  induction n with
  | zero => rw [if_neg (by omega)]; rfl
  | succ n ih =>
    rw [List.range_succ, List.foldl_append, List.foldl_cons, List.foldl_nil, tget_tset, ih]
    by_cases ha : a = o + n
    · rw [if_pos ha, if_pos (by omega), ha, Nat.add_sub_cancel_left]
    · rw [if_neg ha]
      exact if_congr (by omega) rfl rfl

theorem potByte_potStore (o : Nat) (bytes : List Byte) (s : State) (a : Nat) :
    potByte (potStore o bytes s) a =
      if o ≤ a ∧ a < o + bytes.length then bytes.getD (a - o) 0 else potByte s a :=
  tget_foldl_tset _ _ _ _ _

/-- Flags of blocks are not bytes. -/
theorem potByte_potFlag (blk : Nat) (on : Bool) (s : State) (a : Nat) :
    potByte (potFlag blk on s) a = potByte s a := rfl

theorem potByte_potWrite (o : Nat) (bytes : List Byte) (s : State) (a : Nat) :
    potByte (potWrite o bytes s) a =
      if o ≤ a ∧ a < o + bytes.length then bytes.getD (a - o) 0 else potByte s a :=
  (foldl_keeps (f := fun s i => potFlag (ceilDiv o 32 + i) false s) (potByte · a)
    (fun s _ => potByte_potFlag _ false s a) _ _).trans (potByte_potStore o bytes s a)

theorem mergeBytes_length (old new : List Byte) (mask : List Bool) : (mergeBytes old new mask).length = 32 := by
  simp [mergeBytes]

theorem mergeBytes_getD (old new : List Byte) (mask : List Bool) {i : Nat} (h : i < 32) :
    (mergeBytes old new mask).getD i 0 = if mask.getD i false then new.getD i 0 else old.getD i 0 := by
  simp [mergeBytes, List.getD_eq_getElem?_getD, h]

/-- A store into a unit of the pot, before its flag. -/
theorem potByte_merged (base : Nat) (data : List Byte) (mask : List Bool) (s : State) (a : Nat) :
    potByte (potStore base (mergeBytes (potBytes s base 32) data mask) s) a =
      if base ≤ a ∧ a < base + 32 ∧ mask.getD (a - base) false = true then data.getD (a - base) 0
      else potByte s a := by
  rw [potByte_potStore, mergeBytes_length]
  by_cases ha : base ≤ a ∧ a < base + 32
  · have hi : a - base < 32 := by omega
    rw [if_pos ha, mergeBytes_getD _ _ _ hi, potBytes_getD hi, Nat.add_sub_cancel' ha.1]
    exact if_congr (by simp [ha]) rfl rfl
  · rw [if_neg ha, if_neg (fun h => ha ⟨h.1, h.2.1⟩)]

theorem mem_of_getD_true {l : List Bool} {i : Nat} (h : l.getD i false = true) : true ∈ l := by
  rw [List.getD_eq_getElem?_getD] at h
  cases hi : l[i]? with
  | none => simp [hi] at h
  | some b =>
    rw [hi, Option.getD_some] at h
    exact h ▸ List.mem_of_getElem? hi

/-- A write of a unit stores the bytes that its mask names, and no others. -/
theorem potByte_potUnitWrite (base : Nat) (data : List Byte) (mask : List Bool) (poison : Bool) (s : State) (a : Nat) :
    potByte (potUnitWrite base data mask poison s) a =
      if base ≤ a ∧ a < base + 32 ∧ mask.getD (a - base) false = true then data.getD (a - base) 0
      else potByte s a := by
  have hflag : potByte (potUnitWrite base data mask poison s) a =
      potByte (if mask.any id then potStore base (mergeBytes (potBytes s base 32) data mask) s else s) a := by
    unfold potUnitWrite
    dsimp only
    split_ifs <;> rfl
  rw [hflag]
  split
  case isTrue => exact potByte_merged base data mask s a
  case isFalse hm =>
    exact (if_neg fun ⟨_, _, hb⟩ => hm (List.any_eq_true.mpr ⟨true, mem_of_getD_true hb, rfl⟩)).symm

theorem potUnitWrite_hbm (base : Nat) (data : List Byte) (mask : List Bool) (poison : Bool) (s : State) :
    (potUnitWrite base data mask poison s).hbm = s.hbm := by
  unfold potUnitWrite
  split_ifs <;> simp

/-! ### The 32 B block of an access (R179, R182) -/

/-- A BAR2 offset lies in the grain that its window names. -/
theorem translate_pot_iff {s : State} {k off o : Nat} (hoff : off < 2 ^ 27) :
    translate s k (2 ^ 39 + off) = .inl (.pot o) ↔
      ∃ g, (grainsOf s k)[off / 1048576]? = some g ∧ rinseIncomplete s k = false ∧
        o = g * 1048576 + off % 1048576 := by
  have hspace : ¬ 2 ^ 40 ≤ 2 ^ 39 + off := by omega
  have hpot : 2 ^ 39 ≤ 2 ^ 39 + off := by omega
  have hzero : bitsOf (2 ^ 39 + off) 27 12 = 0 := by unfold bitsOf; omega
  have hwindow : bitsOf (2 ^ 39 + off) 20 7 = off / 1048576 := by unfold bitsOf; omega
  have hmib : (2 ^ 39 + off) % 1048576 = off % 1048576 := by omega
  unfold translate
  simp only [if_neg hspace, if_pos hpot, hzero, ne_eq, not_true, if_false, hwindow, hmib]
  cases (grainsOf s k)[off / 1048576]? with
  | none => simp
  | some g => cases rinseIncomplete s k <;> simp [eq_comm]

theorem lineStarts_of_within {off len : Nat} (hpos : 0 < len) (h : off % 64 + len ≤ 64) :
    lineStarts off len = [off / 64 * 64] := by
  have hone : ceilDiv (off + len) 64 - off / 64 = 1 := by unfold ceilDiv; omega
  simp [lineStarts, hone]

theorem unitStarts_of_within {off len : Nat} (hpos : 0 < len) (h : off % 32 + len ≤ 32) :
    unitStarts off len = [off / 32 * 32] := by
  have hone : ceilDiv (off + len) 32 - off / 32 = 1 := by unfold ceilDiv; omega
  simp [unitStarts, hone]

/-- The len bytes from BAR2 offset off of function k on lie in one 32 B block of the pot, the first at pot offset o. -/
structure InBlock (s : State) (k off len o : Nat) : Prop where
  pos : 0 < len
  fits : off + len ≤ 2 ^ 27
  place : translate s k (2 ^ 39 + off) = .inl (.pot o)
  block : off % 32 + len ≤ 32

namespace InBlock

variable {s : State} {k off len o : Nat} (h : InBlock s k off len o)
include h

/-- The grain moves an offset by whole MiB, which keeps its place in the MiB. -/
theorem grain : o % 1048576 = off % 1048576 := by
  have hoff : off < 2 ^ 27 := by have := h.pos; have := h.fits; omega
  obtain ⟨g, -, -, rfl⟩ := (translate_pot_iff hoff).mp h.place
  omega

/-- Every offset of the same MiB lies in the same grain. -/
theorem translate_of_same_mib {x : Nat} (hx : x / 1048576 = off / 1048576) :
    translate s k (2 ^ 39 + x) = .inl (.pot (o / 1048576 * 1048576 + x % 1048576)) := by
  have hpos := h.pos
  have hfits := h.fits
  have hoff : off < 2 ^ 27 := by omega
  obtain ⟨g, hg, hr, rfl⟩ := (translate_pot_iff hoff).mp h.place
  exact (translate_pot_iff (by omega)).mpr ⟨g, hx ▸ hg, hr, by omega⟩

theorem unit : translate s k (2 ^ 39 + off / 32 * 32) = .inl (.pot (o / 32 * 32)) := by
  have hgrain := h.grain
  rw [h.translate_of_same_mib (by omega)]
  congr 2
  omega

theorem lineStarts_eq : lineStarts off len = [off / 64 * 64] :=
  lineStarts_of_within h.pos (by have := h.block; omega)

theorem unitStarts_eq : unitStarts off len = [off / 32 * 32] := unitStarts_of_within h.pos h.block

/-- The pot serves whatever lies in a grain. -/
theorem status : bar2Status s k off len = none := by
  have hline : lineStatus s k (2 ^ 39 + off / 64 * 64) = none := by
    unfold lineStatus
    rw [h.translate_of_same_mib (by omega)]
  simp only [bar2Status, h.lineStarts_eq, List.findSome?_cons, hline, Option.map_none, List.findSome?_nil]

end InBlock

/-! ### What an access that is served at once does -/

/-- t differs from s at most in the governor and the counters. -/
def Charged (s t : State) : Prop := ∃ kettle tele, t = { s with kettle := kettle, tele := tele }

/-- t differs from s at most in the governor's counts of events and the counters. -/
def Counted (s t : State) : Prop :=
  ∃ counts tele, t = { s with kettle := { s.kettle with counts := counts }, tele := tele }

theorem hostPayload_counted (sent : Bool) (n : Nat) (s : State) : Counted s (hostPayload sent n s) := by
  unfold hostPayload
  split <;> exact ⟨_, _, rfl⟩

theorem countPot_counted (ta n : Nat) (s : State) : Counted s (countPot ta n s) := by
  unfold countPot
  split <;> exact ⟨_, _, rfl⟩

namespace Counted

variable {s t : State} (h : Counted s t)
include h

theorem charged : Charged s t := by
  obtain ⟨_, _, rfl⟩ := h
  exact ⟨_, _, rfl⟩

theorem allowance : t.kettle.allowance = s.kettle.allowance := by
  obtain ⟨_, _, rfl⟩ := h
  rfl

theorem debitTaken (k d : Nat) : Charged s (debitTaken k d t) := by
  obtain ⟨_, _, rfl⟩ := h
  exact ⟨_, _, rfl⟩

end Counted

namespace Charged

variable {s t u : State} (h : Charged s t)
include h

theorem trans (g : Charged t u) : Charged s u := by
  obtain ⟨_, _, rfl⟩ := h
  obtain ⟨_, _, rfl⟩ := g
  exact ⟨_, _, rfl⟩

theorem pot : t.pot = s.pot := by obtain ⟨_, _, rfl⟩ := h; rfl
theorem hbm : t.hbm = s.hbm := by obtain ⟨_, _, rfl⟩ := h; rfl
theorem out : t.out = s.out := by obtain ⟨_, _, rfl⟩ := h; rfl

theorem inBlock {k off len o : Nat} (hb : InBlock s k off len o) : InBlock t k off len o := by
  obtain ⟨_, _, rfl⟩ := h
  exact ⟨hb.pos, hb.fits, hb.place, hb.block⟩

end Charged

theorem potByte_of_pot {s t : State} (h : t.pot = s.pot) (a : Nat) : potByte t a = potByte s a := by
  rw [potByte, potByte, h]

theorem potBytes_of_pot {s t : State} (h : t.pot = s.pot) (o n : Nat) : potBytes t o n = potBytes s o n := by
  simp only [potBytes, potByte_of_pot h]

theorem potFlagged_of_pot {s t : State} (h : t.pot = s.pot) (o : Nat) : potFlagged t o = potFlagged s o := by
  rw [potFlagged, potFlagged, h]

/-- An access that admission serves at once (R42, R43, R91): its partition is open, nothing goes before it, its slices
are not being cleared, and the allowance covers its debit. -/
structure ServedNow (s : State) (k off len o : Nat) : Prop extends InBlock s k off len o where
  reached : barOpen s k = true
  isOpen : holds s k = false
  cleared : potClearing s k off len = false
  next : potBehind s k = false
  turn : kettleFirst s 0 k = false
  admitting : quiesced s = false
  covered : potDebit s len + evPower s .host 8 (units64 len) ≤ allowanceOf s hubUnit

/-- Admission does not look at the counts of the window that runs. -/
theorem Counted.servedNow {s t : State} (hc : Counted s t) {k off len o : Nat} (h : ServedNow s k off len o) :
    ServedNow t k off len o := by
  obtain ⟨_, _, rfl⟩ := hc
  exact ⟨⟨h.pos, h.fits, h.place, h.block⟩, h.reached, h.isOpen, h.cleared, h.next, h.turn, h.admitting, h.covered⟩

theorem Counted.debit_eq {s t : State} (hc : Counted s t) (len : Nat) :
    potDebit t len + evPower t .host 8 (units64 len) = potDebit s len + evPower s .host 8 (units64 len) := by
  obtain ⟨_, _, rfl⟩ := hc
  rfl

theorem debitTaken_allowance (k d : Nat) (s : State) :
    (debitTaken k d s).kettle.allowance = s.kettle.allowance - d := rfl

theorem tenantServed_of_taken (k d : Nat) (s : State) : tenantServed k { s with kettle := { s.kettle with
    allowance := s.kettle.allowance - d, altAllowance := s.kettle.altAllowance - d } } = debitTaken k d s := rfl

/-- s when an access of function k to len bytes of the pot, with n bytes of payload, has been admitted. -/
def potAdmitted (k len n : Nat) (s : State) : State :=
  debitTaken k (potDebit s len + evPower s .host 8 (units64 len)) (hostPayload false n s)

theorem potAdmitted_charged (k len n : Nat) (s : State) : Charged s (potAdmitted k len n s) :=
  (hostPayload_counted false n s).debitTaken k _

theorem potAdmitted_allowance (k len n : Nat) (s : State) : (potAdmitted k len n s).kettle.allowance =
    s.kettle.allowance - (potDebit s len + evPower s .host 8 (units64 len)) := by
  rw [potAdmitted, debitTaken_allowance, (hostPayload_counted false n s).allowance]

theorem bar2Access_of_servedNow {s : State} {k off len o : Nat} (h : ServedNow s k off len o) (tag : Nat) (write : Bool)
    (data : List Byte) (ep : Bool) (op : Option (AtomicOp × Nat)) :
    bar2Access k tag off len write data ep op s = potPerform k tag off len write data ep op
      (potAdmitted k len (data.length + atomicPayload op) s) := by
  have hpos := h.pos
  have hfits := h.fits
  have hcount := hostPayload_counted false (data.length + atomicPayload op) s
  have hu := hcount.servedNow h
  unfold bar2Access
  rw [if_neg (by simp [h.reached]), if_neg (by omega), if_neg (by omega), if_neg (by simp [h.isOpen])]
  dsimp only
  rw [hu.status]
  dsimp only
  rw [if_neg (by simp [hu.next]), if_neg (by simp [hu.cleared, hu.turn]), allow_of_le hu.admitting hu.covered,
    hcount.debit_eq, potAdmitted]
  dsimp only
  rw [tenantServed_of_taken]

/-! ### Reads (R262) -/

theorem potUnits_of_inBlock {s : State} {k off len o : Nat} (h : InBlock s k off len o) :
    potUnits k off len s = [(off / 32 * 32, potBytes s (o / 32 * 32) 32, potFlagged s o)] := by
  have hflag : potFlagged s (o / 32 * 32) = potFlagged s o := by
    rw [potFlagged, potFlagged, Nat.mul_div_cancel _ (by decide)]
  simp only [potUnits, h.unitStarts_eq, List.map_cons, List.map_nil, h.unit, hflag,
    Nat.mul_div_cancel _ (show 0 < 32 by decide)]

/-- Offset i of an access reads its byte of the block. -/
theorem gatheredByte_of_inBlock {s : State} {k off len o i : Nat} (h : InBlock s k off len o) (hi : i < len)
    (failed : Bool) :
    gatheredByte [(off / 32 * 32, potBytes s (o / 32 * 32) 32, failed)] (off + i) = (potByte s (o + i), failed) := by
  have hgrain := h.grain
  have hblock := h.block
  have hunit : off / 32 * 32 = (off + i) / 32 * 32 := by omega
  have hbyte : o / 32 * 32 + (off + i) % 32 = o + i := by omega
  have hlt : (off + i) % 32 < 32 := Nat.mod_lt _ (by decide)
  unfold gatheredByte
  rw [List.find?_cons_of_pos (by simp [hunit])]
  simp only [potBytes_getD hlt, hbyte]

theorem potPerform_read {s : State} {k off len o : Nat} (h : InBlock s k off len o) (hf : potFlagged s o = false)
    (tag : Nat) (data : List Byte) (ep : Bool) : potPerform k tag off len false data ep none s =
      emit (.tlp k tag .success false (potBytes s o len)) (countPot (2 ^ 39 + off) len s) := by
  have hbytes : (List.range (off + len - off)).map (fun i =>
      gatheredByte [(off / 32 * 32, potBytes s (o / 32 * 32) 32, false)] (off + i)) =
      (List.range len).map (fun i => (potByte s (o + i), false)) := by
    rw [Nat.add_sub_cancel_left]
    exact List.map_congr_left fun i hi => gatheredByte_of_inBlock h (List.mem_range.mp hi) false
  have hany : ((List.range len).map (fun i => (potByte s (o + i), false))).any (·.2) = false :=
    List.any_eq_false.mpr (by simp)
  simp only [potPerform, potUnits_of_inBlock h, hf, readCompletion, completionOf, hbytes, hany]
  simp [potBytes, Function.comp_def]

/-! ### Writes (R264, R268) -/

theorem potHostWrite_of_inBlock {s : State} {k off o : Nat} {data : List Byte} (h : InBlock s k off data.length o) :
    potHostWrite k off data false s =
      potUnitWrite (o / 32 * 32) (bytesAt (List.replicate 32 0 ++ data) (off / 32 * 32 + 32 - off) 32)
        ((List.range 32).map (fun i => decide (off ≤ off / 32 * 32 + i) &&
          decide (off / 32 * 32 + i < off + data.length))) false (countPot (2 ^ 39 + off) data.length s) := by
  have hcount := (countPot_counted (2 ^ 39 + off) data.length s).charged.inBlock h
  simp only [potHostWrite, h.unitStarts_eq, List.foldl_cons, List.foldl_nil, hcount.unit,
    Nat.mul_div_cancel _ (show 0 < 32 by decide)]

/-- A write stores its bytes and leaves every other byte of the pot, the rest of its block included. -/
theorem potByte_potHostWrite {s : State} {k off o : Nat} {data : List Byte} (h : InBlock s k off data.length o)
    (a : Nat) : potByte (potHostWrite k off data false s) a =
      if o ≤ a ∧ a < o + data.length then data.getD (a - o) 0 else potByte s a := by
  have hgrain := h.grain
  have hblock := h.block
  rw [potHostWrite_of_inBlock h, potByte_potUnitWrite,
    potByte_of_pot (countPot_counted (2 ^ 39 + off) data.length s).charged.pot]
  by_cases ha : o ≤ a ∧ a < o + data.length
  · have hi : a - o / 32 * 32 < 32 := by omega
    have hmask : off ≤ off / 32 * 32 + (a - o / 32 * 32) ∧
        off / 32 * 32 + (a - o / 32 * 32) < off + data.length := by omega
    have hat : off / 32 * 32 + 32 - off + (a - o / 32 * 32) = 32 + (a - o) := by omega
    rw [if_pos ha, if_pos ⟨by omega, by omega, by simp [List.getD_eq_getElem?_getD, hi, hmask]⟩,
      Laws.bytesAt_getD _ _ _ _ hi, hat, List.getD_append_right _ _ _ _ (by simp), List.length_replicate,
      Nat.add_sub_cancel_left]
  · rw [if_neg ha]
    refine if_neg fun ⟨hlo, hhi, hm⟩ => ha ?_
    have hi : a - o / 32 * 32 < 32 := by omega
    simp only [List.getD_eq_getElem?_getD, List.getElem?_map, List.getElem?_range hi, Option.map_some,
      Option.getD_some, Bool.and_eq_true, decide_eq_true_eq] at hm
    omega

theorem potHostWrite_hbm {s : State} {k off o : Nat} {data : List Byte} (h : InBlock s k off data.length o) :
    (potHostWrite k off data false s).hbm = s.hbm := by
  rw [potHostWrite_of_inBlock h, potUnitWrite_hbm, (countPot_counted _ _ _).charged.hbm]

/-! ### Atomics (R378, R379) -/

/-- s when an atomic of n bytes at pot offset o has stored its value and is counted. -/
def atomicDone (o n : Nat) (op : AtomicOp) (s : State) : State :=
  let t := potWrite o (leBytes n (atomicValue n (ofLe (potBytes s o n)) op)) s
  countEvent (devCtr 17) 1 { t with pot := { t.pot with atomics := cadd t.pot.atomics (potSlice o) 1 } }

theorem potAtomic_of_unflagged {s : State} {o : Nat} (hf : potFlagged s o = false) (n : Nat) (op : AtomicOp) :
    potAtomic o n op s = (some (ofLe (potBytes s o n)), atomicDone o n op s) :=
  if_neg (by simp [hf])

theorem potByte_atomicDone (o n : Nat) (op : AtomicOp) (s : State) (a : Nat) :
    potByte (atomicDone o n op s) a =
      if o ≤ a ∧ a < o + n then (leBytes n (atomicValue n (ofLe (potBytes s o n)) op)).getD (a - o) 0
      else potByte s a := by
  have hwrite := potByte_potWrite o (leBytes n (atomicValue n (ofLe (potBytes s o n)) op)) s a
  rw [Laws.leBytes_length] at hwrite
  exact hwrite

theorem potWrite_hbm (o : Nat) (bytes : List Byte) (s : State) : (potWrite o bytes s).hbm = s.hbm :=
  foldl_keeps (f := fun s i => potFlag (ceilDiv o 32 + i) false s) State.hbm (fun _ _ => rfl) _ _

theorem potWrite_out (o : Nat) (bytes : List Byte) (s : State) : (potWrite o bytes s).out = s.out :=
  foldl_keeps (f := fun s i => potFlag (ceilDiv o 32 + i) false s) State.out (fun _ _ => rfl) _ _

theorem atomicDone_hbm (o n : Nat) (op : AtomicOp) (s : State) : (atomicDone o n op s).hbm = s.hbm :=
  potWrite_hbm _ _ _

theorem atomicDone_out (o n : Nat) (op : AtomicOp) (s : State) : (atomicDone o n op s).out = s.out :=
  potWrite_out _ _ _

/-- The state in which an atomic at a place in the pot answers. -/
theorem potPerform_atomic {s : State} {k off len o n : Nat} (h : InBlock s k off len o) (hf : potFlagged s o = false)
    (tag : Nat) (write : Bool) (data : List Byte) (ep : Bool) (op : AtomicOp) :
    potPerform k tag off len write data ep (some (op, n)) s =
      emit (.tlp k tag .success false (potBytes s o n)) (atomicDone o n op (countPot (2 ^ 39 + off) n s)) := by
  have hpot := (countPot_counted (2 ^ 39 + off) n s).charged.pot
  have hold : leBytes n (ofLe (potBytes s o n)) = potBytes s o n := by
    simpa only [potBytes_length] using leBytes_ofLe (potBytes s o n)
  have hflag : potFlagged (countPot (2 ^ 39 + off) n s) o = false := (potFlagged_of_pot hpot o).trans hf
  simp only [potPerform, h.place, potAtomic_of_unflagged hflag, potBytes_of_pot hpot, hold]

/-- What is sent reaches no byte of the pot. -/
theorem potByte_emit (x : Out) (s : State) (a : Nat) : potByte (emit x s) a = potByte s a :=
  potByte_of_pot (emit_eventFrame x s).pot a

theorem bar2Atomic_of_aligned {s : State} {k off : Nat} (hb : barOpen s k = true) (ha : off % 4 = 0) (tag : Nat)
    (op : AtomicOp) : bar2Atomic k tag off 32 op s = bar2Access k tag off 4 false [] false (some (op, 4)) s := by
  simp [bar2Atomic, hb, ha]

section
variable {s : State} {k : Fin 128} {off o : Nat}

/-- A read takes its debit and answers the bytes. -/
theorem exec_bar2Read_of_servedNow {len : Nat} (h : ServedNow s k.val off len o) (hf : potFlagged s o = false)
    (tag : Nat) : ∃ u, Charged s u ∧
      u.kettle.allowance = s.kettle.allowance - (potDebit s len + evPower s .host 8 (units64 len)) ∧
      exec (.bar2Read k tag off len) s = .next (emit (.tlp k.val tag .success false (potBytes s o len)) u) := by
  have hch := potAdmitted_charged k.val len 0 s
  have hcount := countPot_counted (2 ^ 39 + off) len (potAdmitted k.val len 0 s)
  have hread := potPerform_read (hch.inBlock h.toInBlock) ((potFlagged_of_pot hch.pot o).trans hf) tag [] false
  rw [potBytes_of_pot hch.pot] at hread
  exact ⟨_, hch.trans hcount.charged, hcount.allowance.trans (potAdmitted_allowance _ _ _ _),
    congrArg Host.Outcome.next ((bar2Access_of_servedNow h tag false [] false none).trans hread)⟩

theorem exec_bar2Write_of_servedNow {data : List Byte} (h : ServedNow s k.val off data.length o) :
    exec (.bar2Write k off data false) s =
      .next (potHostWrite k.val off data false (potAdmitted k.val data.length data.length s)) :=
  congrArg Host.Outcome.next (bar2Access_of_servedNow h 0 true data false none)

/-- A 32-bit atomic answers the bytes it found, when its value is stored. -/
theorem exec_bar2Atomic_of_servedNow (h : ServedNow s k.val off 4 o) (ha : off % 4 = 0) (hf : potFlagged s o = false)
    (tag : Nat) (v : BitVec 64) : ∃ u, Charged s u ∧ exec (.bar2Atomic k tag off 32 (.fetchAdd v)) s =
      .next (emit (.tlp k.val tag .success false (potBytes s o 4)) (atomicDone o 4 (.fetchAdd v) u)) := by
  have hch := potAdmitted_charged k.val 4 4 s
  have hcount := countPot_counted (2 ^ 39 + off) 4 (potAdmitted k.val 4 4 s)
  have hatomic := potPerform_atomic (n := 4) (hch.inBlock h.toInBlock) ((potFlagged_of_pot hch.pot o).trans hf) tag
    false [] false (.fetchAdd v)
  rw [potBytes_of_pot hch.pot] at hatomic
  exact ⟨_, hch.trans hcount.charged, congrArg Host.Outcome.next ((bar2Atomic_of_aligned h.reached ha tag _).trans
    ((bar2Access_of_servedNow h tag false [] false _).trans hatomic))⟩

end

/-- Settles O36: admission serves the access at once, so that it is performed on its block of the pot, which no charge
before it has changed. -/
theorem bar2Accesses : Obligations.Bar2Accesses := by
  unfold Obligations.Bar2Accesses
  refine ⟨?_, ?_, ?_⟩
  · intro s k tag off len o d hb hpos hfits hh htr hblk hclr hbeh hturn hd hq hcov hf
    subst hd
    have h : ServedNow s k.val off len o := ⟨⟨hpos, hfits, htr, hblk⟩, hb, hh, hclr, hbeh, hturn, hq, hcov⟩
    obtain ⟨u, hu, hallow, hexec⟩ := exec_bar2Read_of_servedNow h hf tag
    refine ⟨_, hexec, ?_, ?_, ?_, ?_⟩
    · rw [emit_out, hu.out]
    · rw [(emit_eventFrame _ _).pot, hu.pot]
    · rw [(emit_eventFrame _ _).hbm, hu.hbm]
    · rw [emit_frame]
      exact hallow
  · intro s k off data o hb hpos hfits hh htr hblk hclr hbeh hturn hq hcov
    have h : ServedNow s k.val off data.length o := ⟨⟨hpos, hfits, htr, hblk⟩, hb, hh, hclr, hbeh, hturn, hq, hcov⟩
    have hch := potAdmitted_charged k.val data.length data.length s
    have hin := hch.inBlock h.toInBlock
    refine ⟨_, exec_bar2Write_of_servedNow h, ?_, ?_, ?_⟩
    · rw [potHostWrite_hbm hin, hch.hbm]
    · intro i hi
      rw [potByte_potHostWrite hin, if_pos (by omega), Nat.add_sub_cancel_left]
    · intro a ha
      rw [potByte_potHostWrite hin, if_neg (by omega), potByte_of_pot hch.pot]
  · intro s k tag off v o hb hfits hal hh htr hclr hbeh hturn hq hcov hf
    rw [show 1 = units64 4 from rfl] at hcov
    have h : ServedNow s k.val off 4 o :=
      ⟨⟨by decide, hfits, htr, by omega⟩, hb, hh, hclr, hbeh, hturn, hq, hcov⟩
    obtain ⟨u, hu, hexec⟩ := exec_bar2Atomic_of_servedNow h hal hf tag v
    have hbyte := potByte_atomicDone o 4 (.fetchAdd v) u
    rw [potBytes_of_pot hu.pot] at hbyte
    refine ⟨_, hexec, ?_, ?_, ?_, ?_⟩
    · rw [emit_out, atomicDone_out, hu.out]
    · refine potBytes_eq_of_getD (bs := leBytes 4 _) fun i hi => ?_
      rw [Laws.leBytes_length] at hi
      rw [potByte_emit, hbyte, if_pos (by omega), Nat.add_sub_cancel_left]
      rfl
    · intro a ha
      rw [potByte_emit, hbyte, if_neg (by omega), potByte_of_pot hu.pot]
    · rw [(emit_eventFrame _ _).hbm, atomicDone_hbm, hu.hbm]

end Sys2Proof.Machine
end

section
/-! BAR4 accesses that are served: the requests that they become (O35). -/

namespace Sys2Proof.Machine

open Sys2Proof

/-! ### One line of an access (R199, R201) -/

/-- What a request says of its line: its access, tenant, tenant address and data. -/
def lineKey (r : Req) : Nat × Nat × Nat × List Byte := (r.access, r.tenant, r.ta, r.data)

/-- Looking up where a line lies sets the place of its request in DRAM. -/
theorem lineKey_located (s : State) (r : Req) : lineKey (located s r) = lineKey r := by
  unfold located
  split <;> rfl

theorem lineKey_setPlace (r : Req) (p : ReqPlace) : lineKey { r with place := p } = lineKey r := rfl

theorem lineKey_setPoison (r : Req) (p : Bool) (m : Nat) :
    lineKey { r with poison := p, poisonMask := m } = lineKey r := rfl

theorem lineKey_lineReq (s : State) (access t port ta : Nat) (mask : List Bool) (write : Bool) (data : List Byte)
    (place : ReqPlace) : lineKey (lineReq s access t port ta mask write data place) =
      (access, t, ta, if write then data else []) := lineKey_located s _

theorem lineKey_hostReq (s : State) (access t w off len l : Nat) (write : Bool) (data : List Byte) (ep : Bool)
    (place : ReqPlace) : lineKey (hostReq s access t w off len l write data ep place) =
      (access, t, barTa w l, if write then lineBytes off data l else []) :=
  (lineKey_setPoison (lineReq s access t 0 (barTa w l) (lineMask off len l) write (lineBytes off data l) place) ep
    (if ep then sectorsOf (lineMask off len l) else 0)).trans (lineKey_lineReq s access t 0 (barTa w l) _ write _ place)

/-- The host access that a line belongs to: its number and function, what it covers, and what it writes. -/
structure LineOf where
  id : Nat
  fn : Nat
  stride : Nat
  off : Nat
  len : Nat
  write : Bool
  data : List Byte
  ep : Bool

section
variable (A : LineOf)

/-- The request of the line at BAR offset l, of which it is still to be said where it stands. -/
def bar4Req (s : State) (l : Nat) : Req := hostReq s A.id A.fn A.stride A.off A.len l A.write A.data A.ep .held

/-- The line's request at its regulator or at the ingress. -/
def arrivedReq (s : State) (l : Nat) : Req := { bar4Req A s l with place := arrival s (bar4Req A s l).stack }

theorem lineKey_arrivedReq (s : State) (l : Nat) : lineKey (arrivedReq A s l) =
    (A.id, A.fn, barTa A.stride l, if A.write then lineBytes A.off A.data l else []) :=
  (lineKey_setPlace (bar4Req A s l) _).trans (lineKey_hostReq s _ _ _ _ _ l _ _ _ _)

/-- A request that arrives stands at its regulator, or at the ingress. -/
theorem arrival_cases (s : State) (n : Nat) : arrival s n = .regulator ∨ arrival s n = .stem := by
  unfold arrival
  split
  · exact .inl rfl
  · exact .inr rfl

/-- Where nothing stands at the ingress and the path holds fewer requests than a foot die's store, every store takes
what arrives. -/
theorem arrival_of_room {s : State} (hstem : ∀ r ∈ s.path.reqs, r.place ≠ .stem) (hroom : s.path.reqs.length < 8192)
    (n : Nat) : arrival s n = .regulator := by
  have hstore : storeRoom s n = true := decide_eq_true ((List.length_filter_le _ _).trans_lt hroom)
  have hnone : s.path.reqs.any (fun r => r.stack == n && r.place == .stem) = false :=
    List.any_eq_false.mpr fun r hr => by simp [hstem r hr]
  simp [arrival, hstore, hnone]

/-- s with request r on the path. -/
def reqJoined (r : Req) (s : State) : State := pushReq r (countAbort (r.stack * 32 + r.pc / 2) s)

/-- One line of an access joins the path, held where its partition is closed. -/
def lineStep (s : State) (l : Nat) : State :=
  reqJoined (if holds s A.fn then bar4Req A s l else arrivedReq A s l) s

/-- Counting an aborted entry into self-refresh reaches only the stacks. -/
theorem countAbort_frame (ch : Nat) (s : State) : countAbort ch s = { s with stk := (countAbort ch s).stk } := by
  unfold countAbort
  split <;> rfl

theorem reqJoined_frame (r : Req) (s : State) : reqJoined r s = { s with
    stk := (reqJoined r s).stk,
    path := { s.path with reqs := s.path.reqs ++ [r], nextId := s.path.nextId + 1 } } := by
  unfold reqJoined pushReq
  rw [countAbort_frame]

theorem holds_reqJoined (r : Req) (s : State) (t : Nat) : holds (reqJoined r s) t = holds s t := by
  rw [reqJoined_frame]
  rfl

theorem lineStep_of_open {s : State} (h : holds s A.fn = false) (l : Nat) :
    lineStep A s l = reqJoined (arrivedReq A s l) s := by
  unfold lineStep
  rw [h, if_neg Bool.false_ne_true]

/-! ### The lines of an access, in turn -/

/-- t is s after the lines ls of the access have joined the path, as the requests rs. -/
structure LinesArrived (s t : State) (ls : List Nat) (rs : List Req) : Prop where
  reqs : t.path.reqs = s.path.reqs ++ rs
  lines : rs.map lineKey =
    ls.map (fun l => (A.id, A.fn, barTa A.stride l, if A.write then lineBytes A.off A.data l else []))
  places : ∀ r ∈ rs, r.place = .regulator ∨ r.place = .stem
  roomy : (∀ r ∈ s.path.reqs, r.place ≠ .stem) → s.path.reqs.length + ls.length ≤ 8192 →
    ∀ r ∈ rs, r.place = .regulator
  hbm : t.hbm = s.hbm
  pot : t.pot = s.pot
  out : t.out = s.out

/-- One line, then the others. -/
theorem LinesArrived.cons {s t : State} {l : Nat} {ls : List Nat} {rs : List Req}
    (h : LinesArrived A (reqJoined (arrivedReq A s l) s) t ls rs) :
    LinesArrived A s t (l :: ls) (arrivedReq A s l :: rs) := by
  have hpath : (reqJoined (arrivedReq A s l) s).path.reqs = s.path.reqs ++ [arrivedReq A s l] := by rw [reqJoined_frame]
  refine ⟨?_, ?_, ?_, ?_, ?_, ?_, ?_⟩
  · rw [h.reqs, hpath, List.append_assoc, List.singleton_append]
  · rw [List.map_cons, List.map_cons, h.lines, lineKey_arrivedReq]
  · exact List.forall_mem_cons.mpr ⟨arrival_cases _ _, h.places⟩
  · intro hstem hroom
    rw [List.length_cons] at hroom
    have hplace : (arrivedReq A s l).place = .regulator := arrival_of_room hstem (by omega) _
    refine List.forall_mem_cons.mpr ⟨hplace, h.roomy ?_ ?_⟩
    · rw [hpath]
      exact List.forall_mem_append.mpr ⟨hstem, List.forall_mem_singleton.mpr (by simp [hplace])⟩
    · rw [hpath, List.length_append, List.length_singleton]
      omega
  · rw [h.hbm, reqJoined_frame]
  · rw [h.pot, reqJoined_frame]
  · rw [h.out, reqJoined_frame]

theorem LinesArrived.lines_ta {s t : State} {ls : List Nat} {rs : List Req} (h : LinesArrived A s t ls rs) :
    rs.map (fun r => (r.access, r.tenant, r.ta)) = ls.map (fun l => (A.id, A.fn, barTa A.stride l)) := by
  have hlines := congrArg (List.map fun x => (x.1, x.2.1, x.2.2.1)) h.lines
  rwa [List.map_map, List.map_map] at hlines

theorem LinesArrived.lines_data {s t : State} {ls : List Nat} {rs : List Req} (h : LinesArrived A s t ls rs)
    (hw : A.write = true) :
    rs.map (fun r => (r.access, r.tenant, r.data)) = ls.map (fun l => (A.id, A.fn, lineBytes A.off A.data l)) := by
  have hlines := congrArg (List.map fun x => (x.1, x.2.1, x.2.2.2)) h.lines
  simp only [hw, if_true] at hlines
  rwa [List.map_map, List.map_map] at hlines

theorem linesArrived_foldl (ls : List Nat) (s : State) (hopen : holds s A.fn = false) :
    ∃ rs, LinesArrived A s (ls.foldl (lineStep A) s) ls rs := by
  induction ls generalizing s with
  | nil => exact ⟨[], (List.append_nil _).symm, rfl, by simp, by simp, rfl, rfl, rfl⟩
  | cons l ls ih =>
    obtain ⟨rs, h⟩ := ih (reqJoined (arrivedReq A s l) s) ((holds_reqJoined _ _ _).trans hopen)
    rw [List.foldl_cons, lineStep_of_open A hopen]
    exact ⟨_, h.cons⟩

theorem foldl_lineStep_accesses (ls : List Nat) (s : State) :
    (ls.foldl (lineStep A) s).path.accesses = s.path.accesses :=
  foldl_keeps (f := lineStep A) (fun s => s.path.accesses)
    (fun s l => by unfold lineStep; rw [reqJoined_frame]) ls s

end

/-! ### The whole access (R182, R183) -/

/-- The lines' view of a BAR4 access of function k, whose number is the path's next. -/
def bar4Lines (k off len : Nat) (write : Bool) (data : List Byte) (ep : Bool) (s : State) : LineOf :=
  { id := s.path.nextId, fn := k, stride := bar4Stride s k, off := off, len := len, write := write, data := data,
    ep := ep }

/-- The record of a BAR4 access. -/
def bar4Record (k tag off len : Nat) (write : Bool) (s : State) : Access :=
  { id := s.path.nextId, fn := k, tag := tag, write := write, start := off, len := len, stride := bar4Stride s k,
    left := (unitStarts off len).length }

/-- s with a BAR4 access on the path, before its lines. -/
def bar4Begun (k tag off len : Nat) (write : Bool) (data : List Byte) (s : State) : State :=
  let t := hostPayload false data.length s
  takeId { t with path := { t.path with accesses := t.path.accesses ++ [bar4Record k tag off len write s] } }

theorem hostPayload_path (sent : Bool) (n : Nat) (s : State) : (hostPayload sent n s).path = s.path := by
  obtain ⟨_, _, hs⟩ := hostPayload_counted sent n s
  rw [hs]

theorem holds_hostPayload (sent : Bool) (n : Nat) (s : State) (t : Nat) :
    holds (hostPayload sent n s) t = holds s t := by
  obtain ⟨_, _, hs⟩ := hostPayload_counted sent n s
  rw [hs]
  rfl

/-- A BAR4 access that is served (R182, R183): it lies in the BAR, its partition is open and every line of it is
there. -/
structure Bar4Served (s : State) (k off len : Nat) : Prop where
  reached : barOpen s k = true
  pos : 0 < len
  fits : off + len ≤ bar4Size s k
  isOpen : holds s k = false
  status : bar4Status s k off len = none

section
variable {s : State} {k off len : Nat} (h : Bar4Served s k off len) (tag : Nat) (write : Bool) (data : List Byte)
  (ep : Bool)
include h

/-- It joins the path, and its lines after it. -/
theorem bar4Access_of_served : bar4Access k tag off len write data ep s =
    (lineStarts off len).foldl (lineStep (bar4Lines k off len write data ep s))
      (bar4Begun k tag off len write data s) := by
  unfold bar4Access
  rw [if_neg (by simp [h.reached]), if_neg (Nat.not_lt.mpr h.fits), if_neg (Nat.ne_of_gt h.pos),
    if_neg (by simp [h.isOpen]), if_neg (by simp [h.isOpen]), h.status]
  rfl

theorem bar4Access_accesses : (bar4Access k tag off len write data ep s).path.accesses =
    s.path.accesses ++ [bar4Record k tag off len write s] := by
  rw [bar4Access_of_served h, foldl_lineStep_accesses]
  exact congrArg (·.accesses ++ [_]) (hostPayload_path false data.length s)

theorem bar4Access_linesArrived : ∃ rs, LinesArrived (bar4Lines k off len write data ep s) s
    (bar4Access k tag off len write data ep s) (lineStarts off len) rs := by
  have hreqs : (bar4Begun k tag off len write data s).path.reqs = s.path.reqs :=
    (congrArg Path.reqs (hostPayload_path false data.length s) :)
  have hcharged := (hostPayload_counted false data.length s).charged
  obtain ⟨rs, hrs⟩ := linesArrived_foldl (bar4Lines k off len write data ep s) (lineStarts off len)
    (bar4Begun k tag off len write data s) ((holds_hostPayload false data.length s k).trans h.isOpen)
  rw [bar4Access_of_served h]
  refine ⟨rs, ?_, hrs.lines, hrs.places, ?_, hrs.hbm.trans hcharged.hbm, hrs.pot.trans hcharged.pot,
    hrs.out.trans hcharged.out⟩
  · rw [hrs.reqs, hreqs]
  · simpa only [hreqs] using hrs.roomy

end

theorem bar4Access_past_end {s : State} {k off len : Nat} (hb : barOpen s k = true) (h : bar4Size s k < off + len)
    (tag : Nat) (write : Bool) (data : List Byte) (ep : Bool) :
    bar4Access k tag off len write data ep s = failTlp k tag write .unsupported s := by
  unfold bar4Access
  rw [if_neg (by simp [hb]), if_pos h]

/-- Settles O35: a served access joins the path, then one request a line of it; an access past the BAR's end is refused
before, and an AtomicOp always. -/
theorem bar4Accesses : Obligations.Bar4Accesses := by
  unfold Obligations.Bar4Accesses
  refine ⟨?_, ?_, ?_, ?_⟩
  · intro s k tag off len hb hpos hfits hopen hst
    have h : Bar4Served s k.val off len := ⟨hb, hpos, hfits, hopen, hst⟩
    obtain ⟨rs, hrs⟩ := bar4Access_linesArrived h tag false [] false
    refine ⟨_, bar4Record k.val tag off len false s, rfl, bar4Access_accesses h tag false [] false, rfl, rfl, rfl, rfl,
      rfl, rfl, rfl, ?_⟩
    rw [hrs.reqs, List.take_left, List.drop_left]
    exact ⟨rfl, hrs.lines_ta, hrs.places, hrs.roomy, hrs.hbm, hrs.pot, hrs.out⟩
  · intro s k off data ep hb hpos hfits hopen hst
    have h : Bar4Served s k.val off data.length := ⟨hb, hpos, hfits, hopen, hst⟩
    obtain ⟨rs, hrs⟩ := bar4Access_linesArrived h 0 true data ep
    refine ⟨_, bar4Record k.val 0 off data.length true s, rfl, bar4Access_accesses h 0 true data ep, rfl, rfl, ?_⟩
    rw [hrs.reqs, List.take_left, List.drop_left]
    exact ⟨rfl, hrs.lines_data _ rfl, hrs.places, hrs.hbm, hrs.pot, hrs.out⟩
  · intro s k tag off len hb hend
    exact congrArg Host.Outcome.next (bar4Access_past_end hb hend tag false [] false)
  · intro s k tag hb
    exact congrArg Host.Outcome.next (if_pos hb)

end Sys2Proof.Machine
end

section
/-! What a pseudo-channel does with a command slot, and a read whose data returns (O38). -/

namespace Sys2Proof.Machine

open Sys2Proof

/-! ### The path and the pseudo-channels under counting, logging and the retry buffer -/

theorem EventFrame.path {s t : State} (h : EventFrame s t) : t.path = s.path := by
  obtain ⟨_, _, _, _, rfl⟩ := h; rfl

theorem EventFrame.pcs {s t : State} (h : EventFrame s t) : t.pcs = s.pcs := by
  obtain ⟨_, _, _, _, rfl⟩ := h; rfl

@[simp] theorem logEvent_path (code tenant sev stack : Nat) (args : List Byte) (rings : List Nat) (s : State) :
    (logEvent code tenant sev stack args rings s).path = s.path := (logEvent_frame _ _ _ _ _ _ s).path

@[simp] theorem countEv_path (e : Ev) (o : Origin) (unit n : Nat) (s : State) :
    (countEv e o unit n s).path = s.path := rfl

@[simp] theorem countEv_pcs (e : Ev) (o : Origin) (unit n : Nat) (s : State) :
    (countEv e o unit n s).pcs = s.pcs := rfl

@[simp] theorem retryPush_path (fp : Nat) (c : RetryCmd) (s : State) : (retryPush fp c s).path = s.path := rfl

@[simp] theorem countUser_path (r : Req) (write : Bool) (s : State) : (countUser r write s).path = s.path := by
  unfold countUser
  dsimp only
  split <;> rfl

@[simp] theorem countUser_pcs (r : Req) (write : Bool) (s : State) : (countUser r write s).pcs = s.pcs := by
  unfold countUser
  dsimp only
  split <;> rfl

@[simp] theorem pcOf_countEvent (i n : Nat) (s : State) (fp : Nat) : pcOf (countEvent i n s) fp = pcOf s fp := rfl

@[simp] theorem pcOf_countEv (e : Ev) (o : Origin) (unit n : Nat) (s : State) (fp : Nat) :
    pcOf (countEv e o unit n s) fp = pcOf s fp := rfl

@[simp] theorem pcOf_retryPush (q : Nat) (c : RetryCmd) (s : State) (fp : Nat) :
    pcOf (retryPush q c s) fp = pcOf s fp := rfl

@[simp] theorem pcOf_ite (p : Prop) [Decidable p] (s t : State) (fp : Nat) :
    pcOf (if p then s else t) fp = if p then pcOf s fp else pcOf t fp := apply_ite (pcOf · fp) p s t

theorem pcOf_of_pcs {s t : State} (h : t.pcs = s.pcs) (fp : Nat) : pcOf t fp = pcOf s fp := by rw [pcOf, h, ← pcOf]

/-! ### Noted offences (R237, R238) -/

/-- t is s after offences of a pseudo-channel were noted: its counts and the record of them, with nothing that decides
whether it may issue. -/
structure OffencesNoted (fp : Nat) (s t : State) : Prop where
  rest : ∃ fns out tele kettle parts pcs,
    t = { s with fns := fns, out := out, tele := tele, kettle := kettle, parts := parts, pcs := pcs }
  own : ∃ acts offences, pcOf t fp = { pcOf s fp with acts := acts, offences := offences }

section
variable {fp : Nat} {s t u : State}

theorem OffencesNoted.refl (fp : Nat) (s : State) : OffencesNoted fp s s := ⟨⟨_, _, _, _, _, _, rfl⟩, _, _, rfl⟩

theorem OffencesNoted.trans (h : OffencesNoted fp s t) (g : OffencesNoted fp t u) : OffencesNoted fp s u := by
  obtain ⟨⟨_, _, _, _, _, _, rfl⟩, _, _, hs⟩ := h
  obtain ⟨⟨_, _, _, _, _, _, rfl⟩, _, _, ht⟩ := g
  exact ⟨⟨_, _, _, _, _, _, rfl⟩, _, _, by rw [ht, hs]⟩

theorem EventFrame.offencesNoted (h : EventFrame s t) : OffencesNoted fp s t := by
  obtain ⟨_, _, _, _, rfl⟩ := h
  exact ⟨⟨_, _, _, _, _, _, rfl⟩, _, _, rfl⟩

theorem setPart_noted (k : Nat) (v : Part) (s : State) : OffencesNoted fp s (setPart k v s) :=
  ⟨⟨_, _, _, _, _, _, rfl⟩, _, _, rfl⟩

theorem setPc_noted (acts : Table Nat) (offences : Nat) (s : State) :
    OffencesNoted fp s (setPc fp { pcOf s fp with acts := acts, offences := offences } s) :=
  ⟨⟨_, _, _, _, _, _, rfl⟩, _, _, pcOf_setPc_self _ _ _⟩

/-- The first event of its kind is marked on its tenant and logged; another of the kind is not. -/
theorem firstOfKind_noted (k kind code tenant sev stack : Nat) (args : List Byte) (rings : List Nat) (s : State) :
    OffencesNoted fp s (firstOfKind k kind (logEvent code tenant sev stack args rings) s) := by
  unfold firstOfKind
  split
  · exact .refl fp s
  · exact (setPart_noted _ _ s).trans (logEvent_frame _ _ _ _ _ _ _).offencesNoted

theorem offence_noted (fp bank requester : Nat) (s : State) : OffencesNoted fp s (offence fp bank requester s) := by
  unfold offence
  dsimp only
  split
  · exact .refl fp s
  · have hcounted : OffencesNoted fp s (countEvent (stackCtr (fp / 64) 15) 1 (setPc fp { pcOf s fp with
        acts := tset 0 (pcOf s fp).acts (actKey bank requester) (cget (pcOf s fp).acts (actKey bank requester) + 64),
        offences := (pcOf s fp).offences + 1 } s)) :=
      (setPc_noted _ _ s).trans (countEvent_frame _ _ _).offencesNoted
    split
    · exact hcounted.trans (firstOfKind_noted _ _ _ _ _ _ _ _ _)
    · exact hcounted

/-- A fold of operations that do no more does no more. -/
theorem OffencesNoted.foldl {α : Type} {f : State → α → State} (h : ∀ s a, OffencesNoted fp s (f s a)) (l : List α)
    (s : State) : OffencesNoted fp s (l.foldl f s) := by
  induction l generalizing s with
  | nil => exact .refl fp s
  | cons a l ih => exact (h s a).trans (ih _)

theorem noteOffences_noted (fp : Nat) (ready : List Nat) (s : State) : OffencesNoted fp s (noteOffences fp ready s) :=
  .foldl (fun s _ => offence_noted fp _ _ s) _ s

section
variable (h : OffencesNoted fp s t)
include h

theorem OffencesNoted.path : t.path = s.path := by
  obtain ⟨⟨_, _, _, _, _, _, rfl⟩, -⟩ := h
  rfl

theorem OffencesNoted.clock : t.clock = s.clock := by
  obtain ⟨⟨_, _, _, _, _, _, rfl⟩, -⟩ := h
  rfl

theorem OffencesNoted.stk : t.stk = s.stk := by
  obtain ⟨⟨_, _, _, _, _, _, rfl⟩, -⟩ := h
  rfl

theorem OffencesNoted.nbrDue : (pcOf t fp).nbrDue = (pcOf s fp).nbrDue := by
  obtain ⟨-, _, _, hp⟩ := h
  rw [hp]

theorem OffencesNoted.slotShut : slotShut t fp = slotShut s fp := by
  obtain ⟨⟨_, _, _, _, _, _, rfl⟩, _, _, hp⟩ := h
  unfold Machine.slotShut
  rw [hp]
  rfl

end
end

/-! ### Which pseudo-channel takes a slot (R204, R207) -/

/-- s as a slot of a pseudo-channel finds it: its offences are noted, unless it may issue no traffic. -/
def slotNoted (fp : Nat) (ready : List Nat) (s : State) : State :=
  if slotClosed s fp then s else noteOffences fp ready s

theorem slotNoted_noted (fp : Nat) (ready : List Nat) (s : State) : OffencesNoted fp s (slotNoted fp ready s) := by
  unfold slotNoted
  split
  · exact .refl fp s
  · exact noteOffences_noted fp ready s

@[simp] theorem fixed_slotNoted (τ : Touch) (fp : Nat) (ready : List Nat) (s : State) :
    fixed τ (slotNoted fp ready s) = fixed τ s := by simp [slotNoted]

section
variable {s : State} {fp : Nat}

theorem slotNoted_of_open (h : slotClosed s fp = false) (ready : List Nat) :
    slotNoted fp ready s = noteOffences fp ready s := if_neg (by simp [h])

theorem slotClosed_of_slotShut (h : slotShut s fp = true) : slotClosed s fp = true := by simp [slotClosed, h]

variable (ready : List Nat) (e c : Bool)

theorem commandSlot_of_usesSlot (h : usesSlot (slotNoted fp ready s) fp ready e c = true) :
    commandSlot fp ready e c s = ownSlot fp ready e c (slotNoted fp ready s) :=
  if_pos (by rw [← slotNoted, h, Bool.true_or])

theorem usesSlot_of_slotShut (h : slotShut s fp = true) : usesSlot s fp ready e c = false := by
  simp [usesSlot, neighbourDue, slotClosed, h]

theorem ownSlot_of_slotShut (h : slotShut s fp = true) : ownSlot fp ready e c s = s := by
  simp [ownSlot, neighbourDue, slotClosed, h]

theorem commandSlot_of_slotShut (h : slotShut s fp = true) (hp : slotShut s (partner fp) = true) :
    commandSlot fp ready e c s = s := by
  unfold commandSlot
  rw [if_pos (slotClosed_of_slotShut h)]
  dsimp only
  rw [if_pos (by rw [usesSlot_of_slotShut ready e c hp, Bool.not_false, Bool.or_true])]
  exact ownSlot_of_slotShut ready e c h

/-- A due neighbour refresh comes before all that a slot may else be used for. -/
theorem commandSlot_of_neighbourDue (h : neighbourDue s fp = true) :
    commandSlot fp ready e c s = neighbourRefresh fp (slotNoted fp ready s) := by
  have hn := slotNoted_noted fp ready s
  have hdue : neighbourDue (slotNoted fp ready s) fp = true := by
    rw [neighbourDue, hn.slotShut, hn.nbrDue, ← neighbourDue, h]
  rw [commandSlot_of_usesSlot ready e c (by rw [usesSlot, hdue, Bool.true_or])]
  exact if_pos hdue

/-- After a command slot the engines have their turn. -/
theorem exec_commandSlot {pc : Fin 512} {u : State} (h : slotOrRepay pc.val ready e c s = u) :
    exec (.commandSlot pc ready e c) s = .next (engineTurn u) :=
  congrArg (fun u => Host.Outcome.next (engineTurn u)) h

theorem slotOrRepay_of_repayDue (h : slotClosed s fp = false) (hr : repayDue s fp = true) :
    slotOrRepay fp ready e c s = repay fp s := if_pos (by simp [h, hr])

theorem slotOrRepay_of_not_repayDue (h : slotClosed s fp = true ∨ repayDue s fp = false) :
    slotOrRepay fp ready e c s = commandSlot fp ready e c s := by
  refine if_neg ?_
  rcases h with h | h <;> simp [h]

end

/-- A pseudo-channel that may issue traffic, with no refresh of a row's neighbours and no calibration due, and an
eligible request. -/
structure TrafficTurn (s : State) (fp : Nat) (ready : List Nat) : Prop where
  isOpen : slotClosed s fp = false
  noNeighbour : (pcOf s fp).nbrDue = []
  noCalibration : forcedDue s fp = false
  request : eligible s fp ready ≠ []

section
variable {s : State} {fp : Nat} {ready : List Nat} (h : TrafficTurn s fp ready) (e c : Bool)
include h

theorem usesSlot_of_trafficTurn : usesSlot s fp ready e c = true := by
  simp [usesSlot, h.isOpen, h.request]

/-- The slot goes to the request that is picked in the direction of the batch (R206, R207). -/
theorem ownSlot_of_pick {s1 : State} {l : List Req} {d : Bool} {r : Req} (hs1 : s1 = noteOffences fp ready s)
    (hl : l = eligible s1 fp ready) (hne : l ≠ []) (hd : d = nextDirection s1 fp l)
    (hr : pick (setDirection fp d s1) fp d l = some r) :
    ownSlot fp ready e c s = issueFor fp r (setDirection fp d s1) := by
  have hdue : neighbourDue s fp = false := by simp [neighbourDue, h.noNeighbour]
  unfold ownSlot
  rw [hdue, h.isOpen, h.noCalibration]
  simp only [Bool.false_eq_true, if_false]
  rw [← hs1, ← hl, if_neg (by simpa using hne), ← hd, hr]

end

/-! ### A refresh repaid, and a neighbour refresh (R236, R242) -/

theorem repay_path (fp : Nat) (s : State) : (repay fp s).path = s.path := by simp [repay, refreshPc]

section
variable (fp : Nat) (s : State)

theorem balance_repay : (pcOf (repay fp s) fp).balance = (pcOf s fp).balance - 1 := by
  simp [repay, refreshPc, apply_ite Pc.balance]

theorem rows_repay : (pcOf (repay fp s) fp).rows = [] := by simp [repay, refreshPc, apply_ite Pc.rows]

theorem refreshUntil_repay : (pcOf (repay fp s) fp).refreshUntil = now s + trfc s (fp / 64) := by
  simp [repay, refreshPc, apply_ite Pc.refreshUntil, now, trfc, stackOf]

end

section
variable {s : State} {fp : Nat} {due : Nat × Nat} {rest : List (Nat × Nat)} (h : (pcOf s fp).nbrDue = due :: rest)
include h

theorem pcOf_neighbourRefresh :
    (pcOf (neighbourRefresh fp s) fp).rows = [] ∧ (pcOf (neighbourRefresh fp s) fp).nbrDue = rest ∧
      (pcOf (neighbourRefresh fp s) fp).refreshUntil = now s + tdrfm s (fp / 64) := by
  simp [neighbourRefresh, h]

theorem neighbourRefresh_path : (neighbourRefresh fp s).path = s.path := by simp [neighbourRefresh, h]

end

/-! ### The direction of the batch, and the command of the request picked (R205, R206) -/

theorem batchWrite_setDirection (fp : Nat) (d : Bool) (s : State) :
    (pcOf (setDirection fp d s) fp).batchWrite = d := by
  unfold setDirection
  dsimp only
  split
  · next h => exact (by simpa using h : _ ∧ _).1
  · rw [pcOf_setPc_self]

@[simp] theorem strain_rows (threshold bank row : Nat) (p : Pc) : (strain threshold bank row p).rows = p.rows := by
  simp only [strain, apply_ite Pc.rows, ite_self]

@[simp] theorem strain_batchWrite (threshold bank row : Nat) (p : Pc) :
    (strain threshold bank row p).batchWrite = p.batchWrite := by
  simp only [strain, apply_ite Pc.batchWrite, ite_self]

section
variable (fp bank row requester : Nat) (origin : Origin) (s : State)

theorem activate_path : (activate fp bank row requester origin s).path = s.path := by
  simp [activate, countActivate]

theorem rows_countActivate : (pcOf (countActivate fp bank row requester origin s) fp).rows = (pcOf s fp).rows := by
  simp only [countActivate, modPc_eq, pcOf_setPc_self]
  split <;> simp

theorem rows_activate :
    (pcOf (activate fp bank row requester origin s) fp).rows = tput (pcOf s fp).rows bank { row := row } := by
  simp [activate, rows_countActivate]

theorem batchWrite_activate :
    (pcOf (activate fp bank row requester origin s) fp).batchWrite = (pcOf s fp).batchWrite := by
  simp only [activate, countActivate, modPc_eq, pcOf_setPc_self, pcOf_retryPush]
  split <;> simp

theorem precharge_path : (precharge fp bank s).path = s.path := by simp [precharge]

theorem pcOf_precharge : pcOf (precharge fp bank s) fp = { pcOf s fp with rows := terase (pcOf s fp).rows bank } := by
  simp [precharge]

end

/-! ### The column of a request whose row is open (R205, R210) -/

@[simp] theorem qosDone_path (t port n stamp target : Nat) (s : State) :
    (qosDone t port n stamp target s).path = s.path := by simp [qosDone, apply_ite State.path]

@[simp] theorem qosDone_pcs (t port n stamp target : Nat) (s : State) :
    (qosDone t port n stamp target s).pcs = s.pcs := by simp [qosDone, apply_ite State.pcs]

@[simp] theorem reqCompletes_path (r : Req) (s : State) : (reqCompletes r s).path = s.path :=
  (foldl_keeps State.path (fun s _ => qosDone_path _ _ _ _ _ s) _ _).trans (qosDone_path _ _ _ _ _ s)

@[simp] theorem reqCompletes_pcs (r : Req) (s : State) : (reqCompletes r s).pcs = s.pcs :=
  (foldl_keeps State.pcs (fun s _ => qosDone_pcs _ _ _ _ _ s) _ _).trans (qosDone_pcs _ _ _ _ _ s)

@[simp] theorem readCompletion_pcs (k tag off len : Nat) (got : List (Nat × List Byte × Bool)) (s : State) :
    (readCompletion k tag off len got s).pcs = s.pcs := by
  unfold readCompletion
  split
  · exact foldl_keeps State.pcs (fun s _ => (emit_eventFrame _ s).pcs) _ s
  · exact (emit_eventFrame _ s).pcs

@[simp] theorem sectorOutcome_pcs (id : Nat) (unit : Option (Nat × List Byte × Bool)) (outcome : Nat) (s : State) :
    (sectorOutcome id unit outcome s).pcs = s.pcs := by
  fun_cases sectorOutcome id unit outcome s <;> simp [accessDone, apply_ite State.pcs]

theorem pcOf_sectorOutcome (id : Nat) (unit : Option (Nat × List Byte × Bool)) (outcome : Nat) (s : State) (fp : Nat) :
    pcOf (sectorOutcome id unit outcome s) fp = pcOf s fp := pcOf_of_pcs (sectorOutcome_pcs _ _ _ s) fp

theorem pcOf_countUser (r : Req) (write : Bool) (s : State) (fp : Nat) :
    pcOf (countUser r write s) fp = pcOf s fp := pcOf_of_pcs (countUser_pcs r write s) fp

/-- The last sector of a write completes it, with those that joined it. -/
theorem pcOf_lastSector (r : Req) (s : State) (fp : Nat) :
    pcOf (r.joined.foldl (fun s a => sectorOutcome a none r.status s) (dropReq r.id (reqCompletes r s))) fp =
      pcOf s fp := by
  have hjoined := foldl_keeps State.pcs (fun s a => sectorOutcome_pcs a none r.status s) r.joined
    (dropReq r.id (reqCompletes r s))
  exact pcOf_of_pcs (hjoined.trans (reqCompletes_pcs r s)) fp

theorem batchWrite_poisonedWrite (q fp : Nat) (s : State) :
    (pcOf (poisonedWrite q s) fp).batchWrite = (pcOf s fp).batchWrite := by
  simp only [poisonedWrite, pcOf_countEvent, modPc_eq, pcOf_setPc]
  split
  · next h => rw [h]
  · rfl

@[simp] theorem foldl_modReq_pcs (f : Req → Req) (l : List Req) (s : State) :
    (l.foldl (fun s x => modReq x.id f s) s).pcs = s.pcs := foldl_keeps State.pcs (fun s x => modReq_pcs x.id f s) l s

@[simp] theorem foldl_modReq_flights (f : Req → Req) (l : List Req) (s : State) :
    (l.foldl (fun s x => modReq x.id f s) s).path.flights = s.path.flights :=
  foldl_keeps (f := fun s x => modReq x.id f s) (fun s : State => s.path.flights) (fun _ _ => rfl) l s

/-- The sector that a request's next column moves. -/
def columnSector (r : Req) : Nat := if r.mask.testBit 0 then 0 else 1

/-- s with the column of a request counted, kept for a replay, and its row left open or closed after it. -/
def columnIssued (fp : Nat) (r : Req) (s : State) : State :=
  let b := columnSector r
  let last := lastOfRow s fp r b
  retryPush fp
    { pc := fp, bank := r.bank, row := r.row, kind := if r.write then 3 else 2, sector := reqSector r b,
      data := if r.write then (r.data.drop (32 * b)).take 32 else [],
      origin := if r.kind == .writeBack then 0 else 2, autoPre := last }
    (countColumn fp (modPc fp (fun p => { p with
      batchCount := p.batchCount + 1,
      rows := if last then terase p.rows r.bank
        else tput p.rows r.bank {
          row := r.row,
          streak := if olderOtherRow (queueOf s fp) r then ((tfind p.rows r.bank).getD { row := r.row }).streak + 1
            else 0 } }) s))

section
variable (fp : Nat) (r : Req) (b : Nat) (s : State)

theorem issueColumn_of_write (h : r.write = true) :
    issueColumn fp r s = issueWrite r (columnSector r) (columnIssued fp r s) := if_pos h

theorem issueColumn_of_read (h : r.write = false) :
    issueColumn fp r s = issueRead r (columnSector r) (columnIssued fp r s) := if_neg (by simp [h])

theorem fixed_columnIssued (τ : Touch) : fixed τ (columnIssued fp r s) = fixed τ s := by simp [columnIssued]

theorem columnIssued_path : (columnIssued fp r s).path = s.path := by simp [columnIssued, countColumn]

theorem batchWrite_columnIssued : (pcOf (columnIssued fp r s) fp).batchWrite = (pcOf s fp).batchWrite := by
  simp [columnIssued, countColumn]

theorem issueRead_pcs : (issueRead r b s).pcs = s.pcs := by
  simp [issueRead, apply_ite State.pcs]

/-- A read's column sends its data on the way. -/
theorem flights_issueRead : (issueRead r b s).path.flights.length = s.path.flights.length + 1 := by
  simp [issueRead, apply_ite State.path]

theorem batchWrite_issueWrite : (pcOf (issueWrite r b s) fp).batchWrite = (pcOf s fp).batchWrite := by
  have hstored : pcOf (modReq r.id (clearSector b) (writeSector (reqSector r b) (colourOf s r.tenant)
      (r.poisonMask.testBit b) ((r.data.drop (32 * b)).take 32) s)) fp = pcOf s fp := rfl
  simp only [issueWrite, pcOf_ite, pcOf_lastSector, pcOf_sectorOutcome, pcOf_countUser, pcOf_countEv, hstored,
    apply_ite Pc.batchWrite, batchWrite_poisonedWrite, ite_self]

theorem hbm_issueWrite : (issueWrite r b s).hbm = (writeSector (reqSector r b) (colourOf s r.tenant)
    (r.poisonMask.testBit b) ((r.data.drop (32 * b)).take 32) s).hbm :=
  hbm_of_fixed (τ := {}) (by simp [issueWrite]) rfl

end

/-! ### The command of the request picked (R205, R207) -/

section
variable {s : State} {fp : Nat} {r : Req}

theorem issueFor_of_closed (h : tfind (pcOf s fp).rows r.bank = none) :
    issueFor fp r s = activate fp r.bank r.row (requesterOf r.tenant r.port)
      (if r.kind == .writeBack then .mandatory else .user) s := by rw [issueFor, h]

theorem issueFor_of_otherRow {o : OpenRow} (h : tfind (pcOf s fp).rows r.bank = some o) (hrow : o.row ≠ r.row) :
    issueFor fp r s = precharge fp r.bank s := by
  rw [issueFor, h]
  exact if_neg hrow

theorem issueFor_of_hit {o : OpenRow} (h : tfind (pcOf s fp).rows r.bank = some o) (hrow : o.row = r.row) :
    issueFor fp r s = issueColumn fp r s := by
  rw [issueFor, h]
  exact if_pos hrow

/-- No command changes the direction of the batch that it is issued in. -/
theorem batchWrite_issueFor (fp : Nat) (r : Req) (s : State) :
    (pcOf (issueFor fp r s) fp).batchWrite = (pcOf s fp).batchWrite := by
  cases hopen : tfind (pcOf s fp).rows r.bank with
  | none => rw [issueFor_of_closed hopen, batchWrite_activate]
  | some o =>
    by_cases hrow : o.row = r.row
    · rw [issueFor_of_hit hopen hrow]
      cases hw : r.write with
      | true => rw [issueColumn_of_write fp r s hw, batchWrite_issueWrite, batchWrite_columnIssued]
      | false =>
        rw [issueColumn_of_read fp r s hw, pcOf_of_pcs (issueRead_pcs r _ _), batchWrite_columnIssued]
    · rw [issueFor_of_otherRow hopen hrow, pcOf_precharge]

end

/-- What a sector write stores depends on the stored bytes and the part's size. -/
theorem writeSector_hbm_of_fixed {τ : Touch} {s t : State} (h : fixed τ t = fixed τ s) (hs : τ.contents = false)
    (q : Nat) (colour : BitVec 8) (poison : Bool) (data : List Byte) :
    (writeSector q colour poison data t).hbm = (writeSector q colour poison data s).hbm := by
  simp only [writeSector, setSector, ident_of_fixed h, hbm_of_fixed h hs]

/-! ### A user read returns (R259 to R262) -/

@[simp] theorem advise_path (n pc bank row cause : Nat) (s : State) : (advise n pc bank row cause s).path = s.path := by
  simp [advise, apply_ite State.path]

@[simp] theorem referLane_path (fp lane : Nat) (s : State) : (referLane fp lane s).path = s.path := by
  simp [referLane, apply_ite State.path]

@[simp] theorem countLanes_path (fp rowKey : Nat) (lanes : List Nat) (s : State) :
    (countLanes fp rowKey lanes s).1.path = s.path := foldl_keeps State.path (fun s l => referLane_path fp l s) _ _

@[simp] theorem trackRow_path (n pc bank row : Nat) (s : State) : (trackRow n pc bank row s).path = s.path := by
  simp [trackRow, apply_ite State.path]

@[simp] theorem countOutcome_path (q : Nat) (o : SectorOutcome) (s : State) : (countOutcome q o s).path = s.path := by
  fun_cases countOutcome q o s <;> simp +zetaDelta

@[simp] theorem countTenant_path (b : ReadBy) (o : SectorOutcome) (s : State) : (countTenant b o s).path = s.path := by
  fun_cases countTenant b o s <;> simp

/-- What an outcome counts, logs and advises leaves the requests' path. -/
@[simp] theorem readOutcome_path (b : ReadBy) (q : Nat) (o : SectorOutcome) (s : State) :
    (readOutcome b q o s).path = s.path := by
  cases o with
  | corrected bad => cases b <;> simp [readOutcome, apply_ite State.path]
  | mismatch => cases b <;> simp [readOutcome, firstOfKind, apply_ite State.path]
  | _ => simp [readOutcome]

/-- A write-back adds a request, and nothing else to the path. -/
theorem writeBack_path (f : Flight) (stored : List Byte) (o : SectorOutcome) (s : State) :
    (writeBack f stored o s).path.flights = s.path.flights ∧
      (writeBack f stored o s).path.accesses = s.path.accesses := by
  fun_cases writeBack f stored o s <;> exact ⟨rfl, rfl⟩

theorem readLeaves_path (id : Nat) (s : State) :
    (readLeaves id s).path.flights = s.path.flights ∧ (readLeaves id s).path.accesses = s.path.accesses := by
  fun_cases readLeaves id s <;> simp

/-- An access with the data of one of its sectors, of which there is more to come. -/
def servedAccess (a : Access) (ta : Nat) (u : List Byte × Bool) : Access :=
  { a with left := a.left - 1, got := a.got ++ [(if a.owner = .host then taBar a.stride ta else ta, u)] }

section
variable {s : State} {id : Nat} {a : Access} (h : accessOfId s id = some a)
include h

theorem sectorServed_of_more (hleft : 1 < a.left) (ta : Nat) (u : List Byte × Bool) :
    sectorServed id (some (ta, u)) s = modAccess id (fun _ => servedAccess a ta u) s := by
  have h0 : a.left ≠ 0 := by omega
  have h1 : a.left - 1 ≠ 0 := by omega
  simp [sectorServed, sectorOutcome, h, h0, h1, servedAccess]

theorem accessOfId_modAccess (b : Access) (hb : b.id = a.id) :
    accessOfId (modAccess id (fun _ => b) s) id = some b :=
  find?_modFirst h (by simpa [hb] using List.find?_some h)

end

theorem accessOfId_of_accesses {s t : State} (h : t.path.accesses = s.path.accesses) (id : Nat) :
    accessOfId t id = accessOfId s id := by rw [accessOfId, h, ← accessOfId]

theorem deliver_of_alone {f : Flight} (h : f.also = []) (u : List Byte × Bool) (s : State) :
    deliver f u s = readLeaves f.req (sectorServed f.access (some (f.ta, u)) s) := by
  simp [deliver, h]

/-- The data of a read that shares its sector with no other goes to its access. -/
theorem userReturn_of_more {s : State} {f : Flight} {a : Access} {stored : List Byte} {o : SectorOutcome}
    (hal : f.also = []) (ha : accessOfId s f.access = some a) (hleft : 1 < a.left)
    (ho : o = classify (policyOf s (secStack f.sector)) f.colour stored) :
    (userReturn f stored s).path.flights = s.path.flights ∧
      accessOfId (userReturn f stored s) f.access = some (servedAccess a f.ta (outcomeData stored o, o.failed)) := by
  obtain ⟨t, ht⟩ : ∃ t, t = writeBack f stored o (readOutcome (.user f.tenant f.ta) f.sector o s) := ⟨_, rfl⟩
  obtain ⟨hflights, haccesses⟩ := writeBack_path f stored o (readOutcome (.user f.tenant f.ta) f.sector o s)
  rw [← ht, readOutcome_path] at hflights haccesses
  have hat : accessOfId t f.access = some a := (accessOfId_of_accesses haccesses _).trans ha
  have hu : userReturn f stored s = readLeaves f.req
      (modAccess f.access (fun _ => servedAccess a f.ta (outcomeData stored o, o.failed)) t) := by
    rw [← sectorServed_of_more hat hleft, ht, ← deliver_of_alone hal, ho]
    rfl
  obtain ⟨hlf, hla⟩ := readLeaves_path f.req
    (modAccess f.access (fun _ => servedAccess a f.ta (outcomeData stored o, o.failed)) t)
  rw [hu, accessOfId_of_accesses hla]
  exact ⟨hlf.trans hflights, accessOfId_modAccess hat _ rfl⟩

theorem readReturn_of_host {s : State} {id : Nat} {f : Flight} (hf : flightOf s id = some f) (hk : f.kind = .host)
    (flips : List (Nat × Byte)) :
    readReturn (.flight id) flips s = userReturn f (flipped f.stored flips) (dropFlight id s) := by
  simp only [readReturn, flightReturn, hf, hk]

/-- Settles O38: the slot goes to the first use that the pseudo-channel has for it, and each use is one update; a read's
data goes from its flight to its access. -/
theorem commandSlotsAndReturns : Obligations.CommandSlotsAndReturns := by
  unfold Obligations.CommandSlotsAndReturns
  refine ⟨?_, ?_, ?_, ?_, ?_⟩
  · intro s fp ready e c hshut hpartner
    have hslot := (slotOrRepay_of_not_repayDue ready e c (.inl (slotClosed_of_slotShut hshut))).trans
      (commandSlot_of_slotShut ready e c hshut hpartner)
    exact exec_commandSlot ready e c hslot
  · intro s fp ready e c hopen hdue
    refine ⟨repay fp s, exec_commandSlot ready e c (slotOrRepay_of_repayDue ready e c hopen hdue), balance_repay _ s,
      rows_repay _ s, refreshUntil_repay _ s, hbm_of_fixed (τ := {}) (by simp) rfl, repay_path _ s⟩
  · intro s fp ready e c b r rest hshut hrepay hdue
    have hn := slotNoted_noted fp.val ready s
    have hslot := (slotOrRepay_of_not_repayDue ready e c hrepay).trans
      (commandSlot_of_neighbourDue ready e c (by simp [neighbourDue, hshut, hdue]))
    have hnoted := hn.nbrDue.trans hdue
    obtain ⟨hrows, hrest, hrefresh⟩ := pcOf_neighbourRefresh hnoted
    refine ⟨_, exec_commandSlot ready e c hslot, hrows, hrest, ?_,
      hbm_of_fixed (τ := {}) (by simp) rfl, (neighbourRefresh_path hnoted).trans hn.path⟩
    rw [hrefresh, now, hn.clock, tdrfm, stackOf, hn.stk]
    rfl
  · rintro s fp ready e c _ s1 l d _ r hopen hrepay rfl hopen0 hnbr hcal hreq hs1 hl hne hd rfl hpick
    rw [← slotNoted_of_open hopen] at hopen0 hnbr hcal hreq hs1
    have ht : TrafficTurn (slotNoted fp ready s) fp ready := ⟨hopen0, hnbr, hcal, hreq⟩
    have hslot : slotOrRepay fp ready e c s = issueFor fp r (setDirection fp d s1) :=
      ((slotOrRepay_of_not_repayDue ready e c (.inr hrepay)).trans
        (commandSlot_of_usesSlot ready e c (usesSlot_of_trafficTurn ht e c))).trans
        (ownSlot_of_pick ht e c hs1 hl hne hd hpick)
    have hfixed : fixed {} (setDirection fp d s1) = fixed {} s := by simp [hs1]
    refine ⟨_, exec_commandSlot ready e c hslot,
      (batchWrite_issueFor _ r _).trans (batchWrite_setDirection _ d s1), ?_, ?_, ?_, ?_⟩
    · intro hclosed
      rw [issueFor_of_closed hclosed]
      exact ⟨by rw [rows_activate, tfind_tput_self]; rfl,
        hbm_of_fixed ((fixed_activate _ _ _ _ _ _).trans hfixed) rfl, activate_path _ _ _ _ _ _⟩
    · intro o ho hrow
      rw [issueFor_of_otherRow ho hrow]
      exact ⟨by rw [pcOf_precharge, tfind_terase, if_pos rfl],
        hbm_of_fixed ((fixed_precharge _ _ _).trans hfixed) rfl, precharge_path _ _ _⟩
    · intro o ho hrow hw
      rw [issueFor_of_hit ho hrow, issueColumn_of_read _ _ _ hw, flights_issueRead, columnIssued_path]
      exact ⟨rfl, hbm_of_fixed (((fixed_issueRead _ _ _).trans (fixed_columnIssued _ _ _ _)).trans hfixed) rfl⟩
    · intro o ho hrow hw
      have hcolumn := (fixed_columnIssued fp r (setDirection fp d s1) {}).trans hfixed
      rw [issueFor_of_hit ho hrow, issueColumn_of_write _ _ _ hw, hbm_issueWrite,
        writeSector_hbm_of_fixed hcolumn rfl, colourOf_of_inForce (inForce_of_fixed hcolumn rfl)]
      rfl
  · intro s id f a o flips hf hk hal ha _ hleft ho
    obtain ⟨hflights, haccess⟩ := userReturn_of_more (s := dropFlight id s) hal ha hleft ho
    have hr := readReturn_of_host hf hk flips
    have hfixed : fixed {} (userReturn f (flipped f.stored flips) (dropFlight id s)) = fixed {} s := by simp
    exact ⟨_, congrArg (fun u => Host.Outcome.next (engineTurn u)) hr, hflights, haccess, hbm_of_fixed hfixed rfl,
      pot_of_fixed hfixed rfl⟩

end Sys2Proof.Machine
end

section
/-! The reports of refresh, disturbance, sleep, integrity, retirement and repair (O12). -/

namespace Sys2Proof.Machine

open Sys2Proof

/-! ### One update of each pseudo-channel of a list -/

/-- An update that done twice is done once reaches each pseudo-channel of the list. -/
theorem pcOf_foldl_modPc {g : Pc → Pc} (hg : ∀ p, g (g p) = g p) (l : List Nat) (s : State) (q : Nat) :
    pcOf (l.foldl (fun s fp => modPc fp g s) s) q = if q ∈ l then g (pcOf s q) else pcOf s q := by
  induction l generalizing s with
  | nil => rfl
  | cons a l ih =>
    rw [List.foldl_cons, ih, modPc_eq, pcOf_setPc]
    by_cases h : q = a <;> simp [h, hg]

theorem foldl_modPc_frame (g : Pc → Pc) (l : List Nat) (s : State) :
    l.foldl (fun s fp => modPc fp g s) s = { s with pcs := (l.foldl (fun s fp => modPc fp g s) s).pcs } := by
  induction l generalizing s with
  | nil => rfl
  | cons a l ih => exact ih _

/-! ### Refresh, row disturbance and sleep (R253) -/

theorem refreshStatusWork_eq {c : Cmd} (s : State) (h : par c 0 2 < 512) :
    refreshStatusWork c s = .done s stOK (refreshStatusResult s (par c 0 2)) := if_neg (Nat.not_le.mpr h)

/-- DISTURB_STATUS reports the counts as they stood before it clears them. -/
theorem disturbStatusWork_eq {c : Cmd} (s : State) (h : par c 0 2 < 512) : disturbStatusWork c s = .done
    (if bitOf (par c 2 1) 0 = true then modPc (par c 0 2) (fun p => { p with nbrCount := 0, offences := 0 }) s else s)
    stOK (disturbStatusResult s (par c 0 2)) := if_neg (Nat.not_le.mpr h)

theorem lowpowerStatusWork_eq {c : Cmd} (s : State) (h : par c 0 1 < 8) :
    lowpowerStatusWork c s = .done s stOK (lowpowerStatusResult s (par c 0 1)) := if_neg (Nat.not_le.mpr h)

/-! ### Integrity (R285, Table 9.11) -/

/-- The integrity counts of the listed pseudo-channels are cleared. -/
def clearInteg (l : List Nat) (s : State) : State := l.foldl (fun s p => modPc p (fun x => { x with integ := {} }) s) s

theorem integ_clearInteg {l : List Nat} {q : Nat} (h : q ∈ l) (s : State) : (pcOf (clearInteg l s) q).integ = {} := by
  have hq := pcOf_foldl_modPc (g := fun x => { x with integ := {} }) (fun _ => rfl) l s q
  rw [clearInteg, hq, if_pos h]

theorem integrityStatusWork_eq {c : Cmd} (s : State) (h : par c 0 2 < 512 ∨ par c 0 2 = bcast) :
    integrityStatusWork c s = .done
      (if bitOf (par c 2 1) 0 = true then clearInteg (pcField (par c 0 2)) s else s) stOK
      (integrityResult s (pcField (par c 0 2))) :=
  if_neg (by simp only [Bool.and_eq_true, decide_eq_true_eq, bne_iff_ne]; omega)

theorem pcField_of_lt {v : Nat} (h : v < 512) : pcField v = [v] := if_neg (by simp only [bcast]; omega)

/-! ### Retirement (R281, R284, R285) -/

theorem retirePendingWork_eq {c : Cmd} (s : State) (hn : par c 0 1 < 8) (ha : par c 8 8 % 16 = 0) :
    retirePendingWork c s = .done
      (emit (.hostWrite (cmdFn c) (par c 8 8) ((stackOf s (par c 0 1)).pending.flatMap (fun a =>
        retBytes a.pc a.bank a.cause a.row a.timebase ++ [0, 0]))) s) stOK
      (leBytes 1 (stackOf s (par c 0 1)).pending.length ++ [0, 0, 0] ++ leBytes 4 (stackOf s (par c 0 1)).dropped) :=
  if_neg (by simp [hn, ha])

/-- RETIRE_LIST counts its range over the entries whose CRC is good. -/
theorem retireListWork_eq {c : Cmd} (s : State) {es : List RetEntry} (hn : par c 0 1 < 8) (hf : par c 2 2 < 8192)
    (h0 : 1 ≤ par c 4 2) (hc : par c 4 2 ≤ 8192) (ha : par c 8 8 % 32 = 0)
    (hes : es = (((retiredEntries s (par c 0 1)).filter (fun e => e.crcOk)).drop (par c 2 2)).take (par c 4 2)) :
    retireListWork c s = .done
      (emit (.hostWrite (cmdFn c) (par c 8 8) (es.flatMap (fun e =>
        entryBytes e ++ leBytes 8 (rowPage s e.pc e.bank e.row) ++ leBytes 8 0))) s) stOK (leBytes 2 es.length) := by
  subst hes
  exact if_neg (by simp only [Bool.or_eq_true, decide_eq_true_eq]; omega)

/-! ### Repairs and fold tables (R299, R309) -/

theorem repairStatusWork_eq {c : Cmd} (s : State) {p : Nat} (hn : par c 0 1 < 8) (hv : par c 2 2 < 64)
    (hp : p = par c 0 1 * 64 + par c 2 2) : repairStatusWork c s = .done s stOK
      (leBytes 1 (spareLeft s p) ++ leBytes 1 (if laneSpare s p 36 then 1 else 0) ++
        leBytes 2 (spprMask (pcOf s p)) ++ leBytes 4 (stackOf s (par c 0 1)).softRows.length ++
        leBytes 4 (stackOf s (par c 0 1)).hardRows.length ++ leBytes 2 (stackOf s (par c 0 1)).laneRepairs ++
        leBytes 1 (flag (pcOf s p).scrub.isSome 0)) := by
  subst hp
  exact if_neg (by simp [hn, hv])

theorem foldStatusWork_eq {c : Cmd} (s : State) (h : par c 0 1 < 8) :
    foldStatusWork c s = .done s stOK (foldStatusResult s (par c 0 1)) := if_neg (Nat.not_le.mpr h)

theorem foldTableReadWork_eq {c : Cmd} (s : State) {t : FoldTable} (hn : par c 0 1 < 8) (hb : par c 1 1 < 4)
    (ha : par c 8 8 % 64 = 0) (ht : t = (foldTables (stackOf s (par c 0 1)).mapped).getD (par c 1 1) []) :
    foldTableReadWork c s = .done (emit (.hostWrite (cmdFn c) (par c 8 8) (foldTableBytes t)) s) stOK
      (leBytes 2 (t.filter (fun x => x.isSome)).length) := by
  subst ht
  exact if_neg (by simp [hn, hb, ha])

/-- Settles O12: the fields of each command are in their ranges, so that its work ends with its report. -/
theorem footDieReports : Obligations.FootDieReports := by
  unfold Obligations.FootDieReports
  refine ⟨?_, ?_, ?_, ?_, ?_, ?_, ?_, ?_, ?_, ?_⟩
  · intro c s h hv
    exact congrArg Host.Outcome.next (mailbox_done h (refreshStatusWork_eq s hv))
  · rintro c s p h hv rfl
    exact congrArg Host.Outcome.next (mailbox_done h (disturbStatusWork_eq s hv))
  · intro c s h hn
    exact congrArg Host.Outcome.next (mailbox_done h (lowpowerStatusWork_eq s hn))
  · intro c s h hv
    have hw := integrityStatusWork_eq s (.inl hv)
    rw [pcField_of_lt hv] at hw
    exact congrArg Host.Outcome.next (mailbox_done h hw)
  · intro c s h hv
    have hw := integrityStatusWork_eq s (.inr hv)
    rw [show pcField (par c 0 2) = List.range 512 from if_pos hv] at hw
    refine ⟨_, congrArg Host.Outcome.next (mailbox_done h hw), ?_, fun hb p hp => ?_, fun hb => if_neg (by simp [hb])⟩
    · split
      · exact foldl_modPc_frame _ _ s
      · rfl
    · rw [if_pos hb, integ_clearInteg (List.mem_range.mpr hp)]
  · intro c s h hn ha
    exact congrArg Host.Outcome.next (mailbox_done h (retirePendingWork_eq s hn ha))
  · intro c s es h hn hf h0 hc ha hes
    exact congrArg Host.Outcome.next (mailbox_done h (retireListWork_eq s hn hf h0 hc ha hes))
  · intro c s p h hn hv hp
    exact congrArg Host.Outcome.next (mailbox_done h (repairStatusWork_eq s hn hv hp))
  · intro c s h hn
    exact congrArg Host.Outcome.next (mailbox_done h (foldStatusWork_eq s hn))
  · intro c s t h hn hb ha ht
    exact congrArg Host.Outcome.next (mailbox_done h (foldTableReadWork_eq s hn hb ha ht))

end Sys2Proof.Machine
end

section
/-! Refresh instants, parity alerts, self-refresh of a channel, and the entry into doze (O39). -/

namespace Sys2Proof.Machine

open Sys2Proof

/-! ### One all-bank refresh (R226, R234) -/

section
variable (fp : Nat) (s : State)

theorem rows_refreshPc : (pcOf (refreshPc fp s) fp).rows = [] := by simp [refreshPc, apply_ite Pc.rows]

theorem refreshUntil_refreshPc : (pcOf (refreshPc fp s) fp).refreshUntil = now s + trfc s (fp / 64) := by
  simp [refreshPc, apply_ite Pc.refreshUntil]

theorem balance_refreshPc : (pcOf (refreshPc fp s) fp).balance = (pcOf s fp).balance := by
  simp [refreshPc, apply_ite Pc.balance]

theorem servedAt_refreshPc : (pcOf (refreshPc fp s) fp).servedAt = (pcOf s fp).servedAt := by
  simp [refreshPc, apply_ite Pc.servedAt]

theorem pcOf_refreshPc_ne {q : Nat} (h : q ≠ fp) : pcOf (refreshPc fp s) q = pcOf s q := by
  simp [refreshPc, pcOf_setPc, h]

end

/-! ### Refresh instants (R226 to R228) -/

/-- The instant of a pseudo-channel that comes now is served. -/
def instantServed (fp : Nat) (s : State) : State := modPc fp (fun p => { p with servedAt := some s.clock.timebase }) s

/-- The owner hands its instant to pseudo-channel q: it owes one refresh more, and q one less. -/
def instantHandedOn (fp q : Nat) (s : State) : State :=
  modPc q (fun p => { p with balance := p.balance - 1 })
    (modPc fp (fun p => { p with balance := p.balance + 1, taken := (p.taken + 1) % 2 ^ 32 }) s)

theorem now_instantServed (fp : Nat) (s : State) : now (instantServed fp s) = s.clock.timebase := rfl

theorem trfc_instantServed (fp n : Nat) (s : State) : trfc (instantServed fp s) n = trfc s n := rfl

theorem now_instantHandedOn (fp q : Nat) (s : State) : now (instantHandedOn fp q s) = now s := by
  simp [instantHandedOn, now]

theorem trfc_instantHandedOn (fp q n : Nat) (s : State) : trfc (instantHandedOn fp q s) n = trfc s n := by
  simp [instantHandedOn, trfc, stackOf]

/-- An owner may hand its instant on: it has traffic, nothing interrupts it, and it owes less than four (R227, R231). -/
def mayHandOn (s : State) (fp : Nat) (ready : List Nat) : Bool :=
  !(eligible s fp ready).isEmpty && !(chanOf s (fp / 2)).windowOpen && !calibrating s fp && !replaying s fp &&
    (pcOf s fp).balance < 4

theorem mayHandOn_iff {s : State} {fp : Nat} {ready : List Nat} : mayHandOn s fp ready = true ↔
    eligible s fp ready ≠ [] ∧ (chanOf s (fp / 2)).windowOpen = false ∧ calibrating s fp = false ∧
      replaying s fp = false ∧ (pcOf s fp).balance < 4 := by
  simp [mayHandOn, and_assoc]

theorem refreshInstant_of_served {fp : Nat} {s : State} (ready : List Nat)
    (h : (pcOf s fp).servedAt = some s.clock.timebase) : refreshInstant fp ready s = s := if_pos (by simp [h, now])

/-- An instant that no refresh has served is served by its owner, or handed on. -/
theorem refreshInstant_of_due {fp : Nat} {s : State} (ready : List Nat) (hi : hasInstants s fp = true)
    (ht : isInstant s fp s.clock.timebase = true) (hs : (pcOf s fp).servedAt ≠ some s.clock.timebase) :
    refreshInstant fp ready s =
      (if mayHandOn (instantServed fp s) fp ready then takerOf (instantServed fp s) ready fp else none).elim
        (refreshPc fp (instantServed fp s)) (fun q => refreshPc q (instantHandedOn fp q (instantServed fp s))) := by
  fun_cases refreshInstant fp ready s with
  | case1 h => simp [hi, ht, hs, now] at h
  | case2 _ _ _ hq =>
    rw [show (if mayHandOn (instantServed fp s) fp ready then takerOf (instantServed fp s) ready fp else none) = none
      from hq]
    rfl
  | case3 _ _ _ q hq =>
    rw [show (if mayHandOn (instantServed fp s) fp ready then takerOf (instantServed fp s) ready fp else none) = some q
      from hq]
    rfl

/-- Another pseudo-channel takes the instant, never its owner. -/
theorem ne_of_takerOf {fp q : Nat} {ready : List Nat} {s : State} (h : takerOf s ready fp = some q) : q ≠ fp := by
  unfold takerOf at h
  obtain ⟨-, hq⟩ := List.mem_filter.mp (List.mem_of_find?_eq_some h)
  rintro rfl
  simp [canTake] at hq

section
variable {fp q : Nat} (h : q ≠ fp) (s : State)
include h

theorem pcOf_instantHandedOn_taker :
    pcOf (instantHandedOn fp q (instantServed fp s)) q = { pcOf s q with balance := (pcOf s q).balance - 1 } := by
  simp [instantHandedOn, instantServed, pcOf_setPc, h]

theorem pcOf_instantHandedOn_owner :
    pcOf (instantHandedOn fp q (instantServed fp s)) fp = { pcOf s fp with
      servedAt := some s.clock.timebase, balance := (pcOf s fp).balance + 1,
      taken := ((pcOf s fp).taken + 1) % 2 ^ 32 } := by
  simp [instantHandedOn, instantServed, pcOf_setPc, h.symm]

end

/-! ### Parity alerts (R271 to R273) -/

/-- t differs from s at most in the pseudo-channels, the stacks, telemetry and the governor. -/
def ReplayFrame (s t : State) : Prop :=
  ∃ pcs stk tele kettle, t = { s with pcs := pcs, stk := stk, tele := tele, kettle := kettle }

section
variable {s t u : State}

theorem ReplayFrame.refl (s : State) : ReplayFrame s s := ⟨_, _, _, _, rfl⟩

theorem ReplayFrame.trans (h : ReplayFrame s t) (g : ReplayFrame t u) : ReplayFrame s u := by
  obtain ⟨_, _, _, _, rfl⟩ := h
  obtain ⟨_, _, _, _, rfl⟩ := g
  exact ⟨_, _, _, _, rfl⟩

theorem ReplayFrame.foldl {α : Type} {f : State → α → State} (h : ∀ s a, ReplayFrame s (f s a)) (l : List α)
    (s : State) : ReplayFrame s (l.foldl f s) := by
  induction l generalizing s with
  | nil => exact .refl s
  | cons a l ih => exact (h s a).trans (ih _)

theorem ReplayFrame.path (h : ReplayFrame s t) : t.path = s.path := by
  obtain ⟨_, _, _, _, rfl⟩ := h; rfl

theorem ReplayFrame.chan_eq (h : ReplayFrame s t) (ch : Nat) : chanOf t ch = chanOf s ch := by
  obtain ⟨_, _, _, _, rfl⟩ := h; rfl

end

theorem modPc_replayFrame (n : Nat) (g : Pc → Pc) (s : State) : ReplayFrame s (modPc n g s) := ⟨_, _, _, _, rfl⟩

theorem countEv_replayFrame (e : Ev) (o : Origin) (unit n : Nat) (s : State) : ReplayFrame s (countEv e o unit n s) :=
  ⟨_, _, _, _, rfl⟩

theorem countEvent_replayFrame (i n : Nat) (s : State) : ReplayFrame s (countEvent i n s) := ⟨_, _, _, _, rfl⟩

theorem abandonCal_replayFrame (fp t : Nat) (s : State) : ReplayFrame s (abandonCal fp t s) := by
  unfold abandonCal
  dsimp only
  split
  · exact .refl s
  · exact ⟨_, _, _, _, rfl⟩

/-- A replayed command is counted, and an activate noted in the strainer (R272). -/
theorem replayOne_replayFrame (c : RetryCmd) (s : State) : ReplayFrame s (replayOne c s) := by
  unfold replayOne
  dsimp only
  split
  · split
    · exact ⟨_, _, _, _, rfl⟩
    · exact ⟨_, _, _, _, rfl⟩
  · exact countEv_replayFrame _ _ _ _ s
  · exact countEv_replayFrame _ _ _ _ s
  · exact countEv_replayFrame _ _ _ _ s
  · exact countEv_replayFrame _ _ _ _ s
  · exact .refl s

theorem reopenRows_replayFrame (ch : Nat) (s : State) : ReplayFrame s (reopenRows ch s) :=
  .foldl (fun s _ => replayOne_replayFrame _ s) _ s

/-- The commands of a channel's retry buffer are issued again. -/
theorem replayed_replayFrame (ch : Nat) (s : State) :
    ReplayFrame s ((chanOf s ch).retry.foldl (fun s c => replayOne c s) (reopenRows ch s)) :=
  (reopenRows_replayFrame ch s).trans (.foldl (fun s c => replayOne_replayFrame c s) _ _)

/-- t is s after an alert of a channel was counted as its nth; no request has changed. -/
structure AlertCounted (ch n : Nat) (s t : State) : Prop where
  count : (chanOf t ch).alertCount = n
  path : t.path = s.path

section
variable {ch n : Nat} {s t u : State} (h : AlertCounted ch n s t)
include h

theorem AlertCounted.replay (g : ReplayFrame t u) : AlertCounted ch n s u :=
  ⟨by rw [g.chan_eq, h.count], g.path.trans h.path⟩

theorem AlertCounted.modChan {f : Chan → Chan} (hf : ∀ c, (f c).alertCount = c.alertCount) :
    AlertCounted ch n s (modChan ch f t) :=
  ⟨by rw [modChan_eq, chanOf_setChan_self, hf, h.count], h.path⟩

theorem AlertCounted.askRetrain : AlertCounted ch n s (askRetrain ch t) := by
  unfold Machine.askRetrain
  split
  · exact h
  · exact h.modChan fun _ => rfl

end

/-- A channel that issues commands counts the alert, and its replay reaches no request. -/
theorem alertCounted_parityAlert {ch : Nat} {s : State} (ho : (stackOf s (ch / 32)).online = true)
    (hr : (stackOf s (ch / 32)).retired = false) (hh : (stackOf s (ch / 32)).thermal.heat ≠ .scald)
    (ha : (chanOf s ch).sr = .awake) (hm : (stackOf s (ch / 32)).mapped.contains (ch % 32) = false) :
    AlertCounted ch ((chanOf s ch).alertCount + 1) s (parityAlert ch s) := by
  have hdue : (!(stackOf s (ch / 32)).online || (stackOf s (ch / 32)).retired ||
      (stackOf s (ch / 32)).thermal.heat == .scald || (chanOf s ch).sr != .awake ||
      (stackOf s (ch / 32)).mapped.contains (ch % 32)) = false := by
    rw [hm]
    simp [ho, hr, hh, ha]
  unfold parityAlert
  rw [if_neg (Bool.eq_false_iff.mp hdue)]
  dsimp only
  generalize hs1 : (chanPcs ch).foldl (fun s fp => abandonCal fp (now s + replayTicks) s) s = s1
  have h1 : ReplayFrame s s1 := hs1 ▸ .foldl (fun s fp => abandonCal_replayFrame fp _ s) _ s
  have hcounted : ∀ alerts, AlertCounted ch ((chanOf s ch).alertCount + 1) s
      (modChan ch (fun c => { c with alerts := alerts, alertCount := c.alertCount + 1 }) s1) := fun alerts =>
    ⟨by rw [modChan_eq, chanOf_setChan_self, h1.chan_eq], h1.path⟩
  have hreplayed (alerts : List Nat) (g : Pc → Pc) (u : Nat) :=
    ((((hcounted alerts).replay (countEvent_replayFrame (stackCtr (ch / 32) 9) 1 _)).replay
      (.foldl (fun s fp => modPc_replayFrame fp g s) (chanPcs ch) _)).replay
      (replayed_replayFrame ch _)).modChan (f := fun c => { c with replayUntil := u }) (fun _ => rfl)
  split
  · exact (hreplayed _ _ _).askRetrain
  · exact hreplayed _ _ _

/-! ### Entry into self-refresh (R242, R244) -/

/-- t differs from s at most in what a stack's sleep and doze end: stacks, partitions, commands, doze and pins. -/
def SleepFrame (s t : State) : Prop :=
  ∃ stk parts cmds doze pins, t = { s with stk := stk, parts := parts, cmds := cmds, doze := doze, pins := pins }

section
variable {s t u : State}

theorem SleepFrame.refl (s : State) : SleepFrame s s := ⟨_, _, _, _, _, rfl⟩

theorem SleepFrame.trans (h : SleepFrame s t) (g : SleepFrame t u) : SleepFrame s u := by
  obtain ⟨_, _, _, _, _, rfl⟩ := h
  obtain ⟨_, _, _, _, _, rfl⟩ := g
  exact ⟨_, _, _, _, _, rfl⟩

theorem SleepFrame.foldl {α : Type} {f : State → α → State} (h : ∀ s a, SleepFrame s (f s a)) (l : List α)
    (s : State) : SleepFrame s (l.foldl f s) := by
  induction l generalizing s with
  | nil => exact .refl s
  | cons a l ih => exact (h s a).trans (ih _)

theorem SleepFrame.chan_eq (h : SleepFrame s t) (ch : Nat) : chanOf t ch = chanOf s ch := by
  obtain ⟨_, _, _, _, _, rfl⟩ := h; rfl

theorem SleepFrame.pc_eq (h : SleepFrame s t) (fp : Nat) : pcOf t fp = pcOf s fp := by
  obtain ⟨_, _, _, _, _, rfl⟩ := h; rfl

theorem SleepFrame.ite {c : Prop} [Decidable c] (h : SleepFrame s t) (g : SleepFrame s u) :
    SleepFrame s (if c then t else u) := by
  split <;> assumption

end

theorem setStack_sleepFrame (n : Nat) (v : Stack) (s : State) : SleepFrame s (setStack n v s) := ⟨_, _, _, _, _, rfl⟩

theorem setPart_sleepFrame (n : Nat) (v : Part) (s : State) : SleepFrame s (setPart n v s) := ⟨_, _, _, _, _, rfl⟩

theorem finish_sleepFrame (op : Nat) (c : Cmd) (st : Nat) (r : List Byte) (s : State) :
    SleepFrame s (finish op c st r s) := by
  rw [finish_frame]
  exact ⟨_, _, _, _, _, rfl⟩

theorem sleepReached_sleepFrame (n : Nat) (s : State) : SleepFrame s (sleepReached n s) := by
  unfold sleepReached
  dsimp only
  split
  · split
    · exact setStack_sleepFrame _ _ s
    · exact (setStack_sleepFrame _ _ s).trans (finish_sleepFrame _ _ _ _ _)
  · exact .refl s

theorem dozeReached_sleepFrame (s : State) : SleepFrame s (dozeReached s) :=
  .ite ⟨_, _, _, _, _, rfl⟩ (.refl s)

theorem joinLost_sleepFrame (n mask : Nat) (s : State) : SleepFrame s (joinLost n mask s) :=
  .foldl (fun s _ => setPart_sleepFrame _ _ s) _ s

theorem wakeDone_sleepFrame (n : Nat) (s : State) : SleepFrame s (wakeDone n s) := by
  unfold wakeDone
  dsimp only
  exact ((SleepFrame.ite (joinLost_sleepFrame _ _ s) (.refl s)).trans (setStack_sleepFrame _ _ _)).trans
    (.foldl (fun s c => finish_sleepFrame _ c _ _ s) _ _)

theorem wakeReached_sleepFrame (n : Nat) (s : State) : SleepFrame s (wakeReached n s) :=
  .ite (wakeDone_sleepFrame n s) (.refl s)

@[simp] theorem chanOf_countEvent (i n : Nat) (s : State) (ch : Nat) : chanOf (countEvent i n s) ch = chanOf s ch := rfl

@[simp] theorem pcOf_modChan (n : Nat) (f : Chan → Chan) (s : State) (fp : Nat) :
    pcOf (modChan n f s) fp = pcOf s fp := rfl

theorem pcOf_chanAway (ch : Nat) (s : State) (fp : Nat) : pcOf (chanAway ch s) fp = pcOf s fp := rfl

/-- The channel's entry command puts it to sleep, precharges its banks and leaves no refresh owed. -/
theorem chanOf_srEnter (ch : Nat) (keepAll : Bool) (s : State) :
    (chanOf (srEnter ch keepAll s) ch).sr = .asleep ∧ (chanOf (srEnter ch keepAll s) ch).keepAll = keepAll := by
  constructor <;> rw [srEnter, chanOf_countEvent, modChan_eq, chanOf_setChan_self]

theorem pcOf_srEnter {ch fp : Nat} (h : fp ∈ chanPcs ch) (keepAll : Bool) (s : State) :
    pcOf (srEnter ch keepAll s) fp = { pcOf s fp with rows := [], balance := 0 } := by
  have hfold := pcOf_foldl_modPc (g := fun p => { p with rows := [], balance := 0 }) (fun _ => rfl) (chanPcs ch)
    (chanAway ch s) fp
  rw [if_pos h, pcOf_chanAway] at hfold
  rw [srEnter, pcOf_countEvent, pcOf_modChan, hfold]

/-- A channel that is to sleep and has no work left does: beside its entry only its stack's sleep and doze may be reached
(R248, R252). -/
theorem selfRefreshEntry_sleepFrame {ch : Nat} {s : State} (hw : wantsSleep s ch = true)
    (hf : hasFallen s (bgShare s) = true)
    (hp : ∀ fp ∈ chanPcs ch, calibrating s fp = false ∧ replaying s fp = false ∧ repayDue s fp = false ∧
      (pcOf s fp).refreshUntil ≤ s.clock.timebase) :
    SleepFrame (srEnter ch ((stackOf s (ch / 32)).sleep.kind != .entering) s) (selfRefreshEntry ch s) := by
  have hidle : (chanPcs ch).any (fun fp => calibrating s fp || now s < (pcOf s fp).refreshUntil || replaying s fp) =
      false := by
    refine List.any_eq_false.mpr fun fp hfp => ?_
    obtain ⟨hc, hr, -, hu⟩ := hp fp hfp
    simp [hc, hr, Nat.not_lt.mpr (show (pcOf s fp).refreshUntil ≤ now s from hu)]
  have hrepaid : (chanPcs ch).any (repayDue s) = false :=
    List.any_eq_false.mpr fun fp hfp => by
      obtain ⟨-, -, hrepaid, -⟩ := hp fp hfp
      simp [hrepaid]
  unfold selfRefreshEntry
  rw [if_neg (by simp [hw, hf, hidle, hrepaid])]
  exact ((SleepFrame.ite (setStack_sleepFrame _ _ _) (.refl _)).trans (sleepReached_sleepFrame _ _)).trans
    (dozeReached_sleepFrame _)

/-! ### Exit from self-refresh (R243, R245, R246) -/

theorem stackOf_modChan (ch : Nat) (f : Chan → Chan) (s : State) (n : Nat) :
    stackOf (modChan ch f s) n = stackOf s n := rfl

/-- A channel of a stack that is up is not boot's to wake. -/
theorem bootWakes_of_chanServes {s : State} {ch : Nat} (h : chanServes s ch = true) : bootWakes s ch = false := by
  obtain ⟨⟨ho, -⟩, -⟩ : ((stackOf s (ch / 32)).online = true ∧ _) ∧ _ := by
    simpa only [chanServes, Bool.and_eq_true] using h
  simp [bootWakes, ho]

/-- A request to a channel that sleeps lightly wakes it. -/
theorem selfRefreshExit_of_request {s : State} {ch : Nat} (hs : chanServes s ch = true)
    (ha : (chanOf s ch).sr = .asleep) (hh : (stackOf s (ch / 32)).thermal.heat ≠ .scald) (hd : dozeEntry s = false)
    (hk : (stackOf s (ch / 32)).sleep.kind = .light) (hb : chanBusy s ch = true) :
    selfRefreshExit ch s = modChan ch (fun c => { c with sr := .leaving }) (modStack (ch / 32) (fun k =>
      { k with sleep := { k.sleep with wakes := (k.sleep.wakes + 1) % 2 ^ 32 } }) s) := by
  simp [selfRefreshExit, bootWakes_of_chanServes hs, hs, ha, hh, hd, hk, hb]

/-- A pseudo-channel that leaves self-refresh: nothing owed, an empty strainer, its first refresh running. -/
structure PcFresh (s t : State) (fp : Nat) : Prop where
  balance : (pcOf t fp).balance = 0
  strain : (pcOf t fp).strain = []
  refreshUntil : (pcOf t fp).refreshUntil = now s + trfc s (fp / 64)

theorem PcFresh.of_cal {s t u : State} {fp : Nat} (h : PcFresh s t fp) {cal : Cal}
    (hc : pcOf u fp = { pcOf t fp with cal := cal }) : PcFresh s u fp := by
  obtain ⟨hb, hs, hr⟩ := h
  exact ⟨by rw [hc]; exact hb, by rw [hc]; exact hs, by rw [hc]; exact hr⟩

theorem PcFresh.congr {s t u : State} {fp : Nat} (h : PcFresh s t fp) (hc : pcOf u fp = pcOf t fp) : PcFresh s u fp :=
  h.of_cal (cal := (pcOf t fp).cal) hc

theorem pcFresh_pcAwake (fp : Nat) (s : State) : PcFresh s (pcAwake fp s) fp := by
  refine ⟨?_, ?_, ?_⟩ <;> simp [pcAwake, refreshUntil_refreshPc]

theorem now_pcAwake (fp : Nat) (s : State) : now (pcAwake fp s) = now s := by
  rw [now, clock_of_fixed (τ := {}) (fixed_pcAwake fp s) rfl, ← now]

theorem pcAwake_stk (fp : Nat) (s : State) : (pcAwake fp s).stk = s.stk := by
  simp [pcAwake, refreshPc, retryPush, countEv]

theorem trfc_pcAwake (fp n : Nat) (s : State) : trfc (pcAwake fp s) n = trfc s n := by
  rw [trfc, stackOf, pcAwake_stk, ← stackOf, ← trfc]

theorem pcOf_pcAwake_ne {fp q : Nat} (h : q ≠ fp) (s : State) : pcOf (pcAwake fp s) q = pcOf s q := by
  rw [pcAwake, modPc_eq, pcOf_setPc, if_neg h, pcOf_refreshPc_ne fp s h]

/-- Both pseudo-channels of a channel leave self-refresh. -/
theorem pcFresh_chanPcs {ch fp : Nat} (h : fp ∈ chanPcs ch) (s : State) :
    PcFresh s ((chanPcs ch).foldl (fun s fp => pcAwake fp s) s) fp := by
  change PcFresh s (pcAwake (2 * ch + 1) (pcAwake (2 * ch) s)) fp
  obtain rfl | rfl : fp = 2 * ch ∨ fp = 2 * ch + 1 := by simpa [chanPcs] using h
  · exact (pcFresh_pcAwake (2 * ch) s).congr (pcOf_pcAwake_ne (by omega) _)
  · obtain ⟨hb, hs, hr⟩ := pcFresh_pcAwake (2 * ch + 1) (pcAwake (2 * ch) s)
    rw [now_pcAwake, trfc_pcAwake] at hr
    exact ⟨hb, hs, hr⟩

theorem pcOf_moveForced (fp ticks q : Nat) (s : State) :
    ∃ cal, pcOf (moveForced fp ticks s) q = { pcOf s q with cal := cal } := by
  unfold moveForced
  dsimp only
  split
  · exact ⟨_, rfl⟩
  · rw [pcOf_setPc]
    split
    · next h => exact ⟨_, by rw [h]⟩
    · exact ⟨_, rfl⟩

theorem moveForced_chans (fp ticks : Nat) (s : State) : (moveForced fp ticks s).chans = s.chans := by
  unfold moveForced
  dsimp only
  split <;> rfl

/-- A channel that is back moves forced calibrations, and nothing else of its pseudo-channels. -/
theorem pcOf_chanBack (ch q : Nat) (s : State) : ∃ cal, pcOf (chanBack ch s) q = { pcOf s q with cal := cal } := by
  unfold chanBack
  dsimp only
  split
  · exact ⟨_, rfl⟩
  · next t _ =>
    split
    · exact ⟨_, rfl⟩
    · obtain ⟨_, h⟩ := pcOf_moveForced (2 * ch) (now s - t) q (setChan ch { chanOf s ch with awayFrom := none } s)
      obtain ⟨_, h'⟩ := pcOf_moveForced (2 * ch + 1) (now s - t) q
        (moveForced (2 * ch) (now s - t) (setChan ch { chanOf s ch with awayFrom := none } s))
      exact ⟨_, h'.trans (by rw [h]; rfl)⟩

theorem sr_chanBack (ch : Nat) (s : State) : (chanOf (chanBack ch s) ch).sr = (chanOf s ch).sr := by
  unfold chanBack
  dsimp only
  split
  · rfl
  · split
    · rfl
    · rw [chanOf, moveForced_chans, moveForced_chans, ← chanOf, chanOf_setChan_self]

/-- A channel leaves self-refresh. -/
def chanRises (ch : Nat) (s : State) : State :=
  modChan ch (fun c => { c with sr := .awake, keepAll := true, busyMark := s.clock.mark }) s

theorem pcOf_chanRises (ch fp : Nat) (s : State) : pcOf (chanRises ch s) fp = pcOf s fp := pcOf_modChan _ _ s fp

theorem sr_chanRises (ch : Nat) (s : State) : (chanOf (chanRises ch s) ch).sr = .awake := by
  rw [chanRises, modChan_eq, chanOf_setChan_self]

theorem chanAwake_eq (ch : Nat) (s : State) :
    chanAwake ch s = chanBack ch (chanRises ch ((chanPcs ch).foldl (fun s fp => pcAwake fp s) s)) := by
  rw [chanAwake, chanRises]

theorem sr_chanAwake (ch : Nat) (s : State) : (chanOf (chanAwake ch s) ch).sr = .awake := by
  rw [chanAwake_eq, sr_chanBack, sr_chanRises]

theorem pcFresh_chanAwake {ch fp : Nat} (h : fp ∈ chanPcs ch) (s : State) : PcFresh s (chanAwake ch s) fp := by
  obtain ⟨_, hc⟩ := pcOf_chanBack ch fp (chanRises ch ((chanPcs ch).foldl (fun s fp => pcAwake fp s) s))
  rw [chanAwake_eq]
  exact (pcFresh_chanPcs h s).of_cal (hc.trans (by rw [pcOf_chanRises]))

theorem selfRefreshExitDone_of_leaving {ch : Nat} {s : State} (hl : (chanOf s ch).sr = .leaving)
    (hs : chanServes s ch = true) : selfRefreshExitDone ch s = wakeReached (ch / 32) (chanAwake ch s) :=
  if_neg (by simp [hl, hs])

/-! ### The sequence number of the log under events (R456) -/

@[simp] theorem emit_logSeq (o : Out) (s : State) : (emit o s).tele.logSeq = s.tele.logSeq := by rw [emit_frame]

@[simp] theorem setInt_logSeq (k bit : Nat) (s : State) : (setInt k bit s).tele.logSeq = s.tele.logSeq := by
  simp [setInt, raiseVector, apply_ite State.tele, apply_ite Tele.logSeq]

@[simp] theorem loseEvent_logSeq (k : Nat) (full : Bool) (s : State) :
    (loseEvent k full s).tele.logSeq = s.tele.logSeq := by
  simp [loseEvent, countEvent, apply_ite State.tele, apply_ite Tele.logSeq]

@[simp] theorem ringEvent_logSeq (k : Nat) (bytes : List Byte) (s : State) :
    (ringEvent k bytes s).tele.logSeq = s.tele.logSeq := by
  simp [ringEvent, countEvent, apply_ite State.tele, apply_ite Tele.logSeq]

theorem logAdd_logSeq (e : LogEntry) (t : Tele) : (logAdd e t).logSeq = t.logSeq + 1 := by
  simp [logAdd, apply_ite Tele.logSeq]

/-- Each logged event takes one sequence number. -/
theorem logRecord_logSeq (code tenant sev stack : Nat) (payload : List Byte) (rings : List Nat) (s : State) :
    (logRecord code tenant sev stack payload rings s).tele.logSeq = s.tele.logSeq + 1 := by
  have hrings := foldl_keeps (fun s => s.tele.logSeq)
    (fun s k => ringEvent_logSeq k (eventBytes code tenant sev stack payload) s) rings s
  exact (logAdd_logSeq _ _).trans (congrArg (· + 1) hrings)

theorem devEvent_logSeq (code sev : Nat) (args : List Byte) (s : State) :
    (devEvent code sev args s).tele.logSeq = s.tele.logSeq + 1 := logRecord_logSeq _ _ _ _ _ _ s

/-! ### Doze (R251, R252) -/

/-- Doze entry goes on until all that it switches off has gone; then EN_CORE falls. -/
theorem dozeReached_of_entering {s : State} (h : s.doze = .entering) :
    (dozeReached s).doze = .entering ∨ (dozeReached s).doze = .asleep ∧ (dozeReached s).pins.enCore = false := by
  unfold dozeReached
  split
  · exact .inr ⟨rfl, rfl⟩
  · exact .inl h

theorem dozeReached_hostLink (s : State) : (dozeReached s).pins.hostLink = s.pins.hostLink := by
  unfold dozeReached
  split <;> rfl

theorem hostLinkL2_of_pending {s : State} {d : Nat} (h : s.doze = .pending d) :
    hostLinkL2 s = dozeReached { s with doze := .entering, pins := { s.pins with hostLink := .l2 } } := by
  unfold hostLinkL2
  rw [h]

theorem allTrain_doze (l : List Nat) (s : State) : (l.foldl (fun s k => portTrains k s) s).doze = s.doze :=
  foldl_keeps (f := fun s k => portTrains k s) State.doze (fun _ _ => rfl) l s

theorem allTrain_tele (l : List Nat) (s : State) : (l.foldl (fun s k => portTrains k s) s).tele = s.tele :=
  foldl_keeps (f := fun s k => portTrains k s) State.tele (fun _ _ => rfl) l s

theorem dozeL2Timeout_of_due {s : State} {d : Nat} (h : s.doze = .pending d) (hd : d ≤ s.clock.timebase) :
    dozeL2Timeout s =
      devEvent 0x0008 1 [] ((List.range 4).foldl (fun s k => portTrains k s) { s with doze := .none }) := by
  unfold dozeL2Timeout
  simp only [h]
  exact if_pos (by simp [due, now, hd])

/-- Settles O39: each event's conditions hold, so that it does its one update. -/
theorem refreshAndSelfRefreshEvents : Obligations.RefreshAndSelfRefreshEvents := by
  unfold Obligations.RefreshAndSelfRefreshEvents
  refine ⟨?_, ?_, ?_, ?_, ?_, ?_, ?_, ?_, ?_⟩
  · intro s fp ready s' hi ht hs hs' hmay
    obtain rfl : s' = instantServed fp.val s := hs'
    have hnot : ¬ mayHandOn (instantServed fp.val s) fp.val ready = true := by
      rw [mayHandOn_iff]
      rintro ⟨he, hw, hc, hr, hb⟩
      rcases hmay with h | h | h | h | h
      · exact he h
      · exact Bool.eq_false_iff.mp hc h
      · exact Bool.eq_false_iff.mp hr h
      · exact Bool.eq_false_iff.mp hw h
      · exact Int.not_lt.mpr h hb
    have hstep := refreshInstant_of_due ready hi ht hs
    rw [if_neg hnot, Option.elim_none] at hstep
    have hown : pcOf (instantServed fp.val s) fp.val = { pcOf s fp.val with servedAt := some s.clock.timebase } :=
      pcOf_setPc_self _ _ _
    refine ⟨_, congrArg Host.Outcome.next hstep, ?_, rows_refreshPc _ _, ?_, ?_, fun i hne => ?_,
      hbm_of_fixed (τ := {}) (by simp [instantServed]) rfl⟩
    · rw [refreshUntil_refreshPc, now_instantServed, trfc_instantServed]
    · rw [balance_refreshPc, hown]
    · rw [servedAt_refreshPc, hown]
    · rw [pcOf_refreshPc_ne _ _ hne, instantServed, modPc_eq, pcOf_setPc, if_neg hne]
  · intro s fp ready q s' hi ht hs hs' he hw hc hr hb hq
    obtain rfl : s' = instantServed fp.val s := hs'
    have hne : q ≠ fp.val := ne_of_takerOf hq
    have hstep := refreshInstant_of_due ready hi ht hs
    rw [if_pos (mayHandOn_iff.mpr ⟨he, hw, hc, hr, hb⟩), hq, Option.elim_some] at hstep
    refine ⟨_, congrArg Host.Outcome.next hstep, ?_, ?_, ?_, ?_,
      hbm_of_fixed (τ := {}) (by simp [instantHandedOn, instantServed]) rfl⟩
    · rw [pcOf_refreshPc_ne _ _ hne.symm, pcOf_instantHandedOn_owner hne]
    · rw [balance_refreshPc, pcOf_instantHandedOn_taker hne]
    · rw [refreshUntil_refreshPc, now_instantHandedOn, trfc_instantHandedOn, now_instantServed, trfc_instantServed]
    · rw [pcOf_refreshPc_ne _ _ hne.symm, pcOf_instantHandedOn_owner hne]
  · intro s fp ready hs
    exact congrArg Host.Outcome.next (refreshInstant_of_served ready hs)
  · intro s ch ho hr hh ha hm
    obtain ⟨hcount, hpath⟩ := alertCounted_parityAlert ho hr hh ha hm
    have hfixed : fixed {} (parityAlert ch.val s) = fixed {} s := fixed_parityAlert _ s
    exact ⟨_, rfl, hcount, hbm_of_fixed hfixed rfl, pot_of_fixed hfixed rfl, hpath⟩
  · intro s ch hw hf hp
    have hframe := selfRefreshEntry_sleepFrame hw hf hp
    obtain ⟨hsr, hkeep⟩ := chanOf_srEnter ch.val ((stackOf s (ch.val / 32)).sleep.kind != .entering) s
    refine ⟨_, rfl, ?_, ?_, fun fp hfp => ?_, hbm_of_fixed (τ := {}) (fixed_selfRefreshEntry _ s) rfl⟩
    · rw [hframe.chan_eq, hsr]
    · rw [hframe.chan_eq, hkeep]
    · rw [hframe.pc_eq, pcOf_srEnter hfp]
      exact ⟨rfl, rfl⟩
  · intro s ch hs ha hh hd hk hb
    refine ⟨_, congrArg Host.Outcome.next (selfRefreshExit_of_request hs ha hh hd hk hb), ?_, ?_⟩
    · rw [modChan_eq, chanOf_setChan_self]
    · rw [stackOf_modChan, modStack_eq, stackOf_setStack_self]
  · intro s ch hl hs
    have hframe := wakeReached_sleepFrame (ch.val / 32) (chanAwake ch.val s)
    refine ⟨_, congrArg Host.Outcome.next (selfRefreshExitDone_of_leaving hl hs), ?_, fun fp hfp => ?_⟩
    · rw [hframe.chan_eq, sr_chanAwake]
    · obtain ⟨hb, hst, hr⟩ := pcFresh_chanAwake hfp s
      rw [hframe.pc_eq]
      exact ⟨hb, hst, hr⟩
  · intro s d hp
    refine ⟨_, congrArg Host.Outcome.next (hostLinkL2_of_pending hp), ?_, dozeReached_of_entering rfl⟩
    rw [dozeReached_hostLink]
  · intro s d hp hd
    refine ⟨_, congrArg Host.Outcome.next (dozeL2Timeout_of_due hp hd), ?_, ?_⟩
    · rw [(devEvent_frame _ _ _ _).doze, allTrain_doze]
    · rw [devEvent_logSeq, allTrain_tele]

end Sys2Proof.Machine
end

section
/-! Every step keeps the canonical form of what HBM and the pot hold (O50), and only the named commands change what they
hold (O51). -/

namespace Sys2Proof.Machine

open Sys2Proof

/-! ### The form as a property of the fixed part

An operation that stores nothing keeps the fixed part, and with it the form. One rule an operation that stores says that
it keeps the form; the rules follow the order of the model's files. -/

/-- The canonical form of stored contents, read off the parts that are kept. -/
def FixedPart.wf (p : FixedPart) : Prop := Memory.wf p.ident.big p.hbm ∧ Pot.wf p.pot

/-- Every kind of change but one of what is stored. -/
def otherChanges : Touch := { config := true, time := true, debug := true }

@[simp] theorem otherChanges_contents : otherChanges.contents = false := by decide
@[simp] theorem otherChanges_config : otherChanges.config = true := by decide
@[simp] theorem otherChanges_time : otherChanges.time = true := by decide
@[simp] theorem otherChanges_debug : otherChanges.debug = true := by decide

/-- The form read off the fixed part is the state's. -/
theorem wf_fixed_iff {s : State} : (fixed otherChanges s).wf ↔ s.wf := Iff.rfl

theorem wf_of_fixed {s t : State} (e : fixed otherChanges t = fixed otherChanges s) (h : (fixed otherChanges s).wf) :
    (fixed otherChanges t).wf := e ▸ h

/-- Nothing listed is in the form. -/
theorem empty_wf (big : Bool) : Memory.wf big {} ∧ Pot.wf {} := by cases big <;> decide

@[simp] theorem FixedPart.wf_ite (c : Prop) [Decidable c] (a b : FixedPart) :
    (if c then a else b).wf ↔ if c then a.wf else b.wf := by split <;> rfl

/-- A fold of operations that keep the form keeps it. -/
@[simp] theorem wf_foldl {α : Type} (f : State → α → State) (l : List α) {s : State}
    (hf : ∀ s a, (fixed otherChanges s).wf → (fixed otherChanges (f s a)).wf) (h : (fixed otherChanges s).wf) :
    (fixed otherChanges (l.foldl f s)).wf := by
  induction l generalizing s with
  | nil => exact h
  | cons a l ih => exact ih (hf s a h)

/-- The same for a fold that carries a value beside the state. -/
@[simp] theorem wf_foldl_snd {α β : Type} (f : β × State → α → β × State) (l : List α) {x : β × State}
    (hf : ∀ x a, (fixed otherChanges x.2).wf → (fixed otherChanges (f x a).2).wf)
    (h : (fixed otherChanges x.2).wf) : (fixed otherChanges (l.foldl f x).2).wf := by
  induction l generalizing x with
  | nil => exact h
  | cons a l ih => exact ih (hf x a h)

/-- An update of the state that leaves the identity, the memory and the bytes of the pot alone. -/
@[simp] theorem wf_update (s : State) {ident hbm pot clock dbg cfg} (pins boot flash fns cmds parts path buckets qos
    stk chans pcs kettle kb power hub dies compute infusers peers twin tele late exers doze refcode out freeCount)
    (hi : ident = s.ident) (hh : hbm = s.hbm) (hp : pot.cells = s.pot.cells) :
    (fixed otherChanges (State.mk s.pending ident pins clock boot flash fns cmds cfg parts hbm pot path buckets qos
      stk chans pcs kettle kb power hub dies compute infusers peers twin tele late exers dbg doze refcode out
      freeCount)).wf ↔ (fixed otherChanges s).wf := by
  subst hi hh
  simp only [FixedPart.wf, fixed, Pot.wf, otherChanges_contents, Bool.false_eq_true, if_false, hp]

section
variable {s : State} (h : (fixed otherChanges s).wf)
include h

/-! ### Sectors, fills and the pot -/

@[simp] theorem wf_setSector (q : Nat) (bytes : List Byte) :
    (fixed otherChanges (setSector q bytes s)).wf := ⟨writeStored_wf q bytes h.1, h.2⟩

@[simp] theorem wf_writeSector (q : Nat) (colour : BitVec 8) (poison : Bool) (data : List Byte) :
    (fixed otherChanges (writeSector q colour poison data s)).wf :=
  wf_setSector h q _

@[simp] theorem wf_fillRange (n lo hi : Nat) (colour : BitVec 8) (poison : Bool) :
    (fixed otherChanges (fillRange n lo hi colour poison s)).wf :=
  ⟨fillRange_wf n lo hi colour poison h.1, h.2⟩

@[simp] theorem wf_writeReserved (n : Nat) : (fixed otherChanges (writeReserved n s)).wf := by simp [writeReserved, h]

@[simp] theorem wf_fillExtent (n x : Nat) (colour : BitVec 8) :
    (fixed otherChanges (fillExtent n x colour s)).wf := by simp [fillExtent, h]

@[simp] theorem wf_potStore (o : Nat) (bytes : List Byte) :
    (fixed otherChanges (potStore o bytes s)).wf := ⟨h.1, potStore_wf o bytes h.2⟩

@[simp] theorem wf_potFlag (blk : Nat) (on : Bool) :
    (fixed otherChanges (potFlag blk on s)).wf := by simp [potFlag, h]

@[simp] theorem wf_potWrite (o : Nat) (bytes : List Byte) : (fixed otherChanges (potWrite o bytes s)).wf :=
  wf_foldl _ _ (fun _ _ hs => wf_potFlag hs _ false) (wf_potStore h o bytes)

@[simp] theorem wf_potClearGrain (g : Nat) :
    (fixed otherChanges (potClearGrain g s)).wf := ⟨h.1, potClearGrain_wf g h.2⟩

/-! ### Partitions -/

@[simp] theorem wf_clearGrains (t : Nat) : (fixed otherChanges (clearGrains t s)).wf :=
  wf_foldl _ _ (fun _ g hs => wf_potClearGrain hs g) h

@[simp] theorem wf_rotateColour (t : Nat) : (fixed otherChanges (rotateColour t s)).wf := by
  fun_cases rotateColour t s with
  | case2 r _ _ col => simpa +zetaDelta using wf_clearGrains (wf_of_fixed (fixed_setColour t col s rfl) h) t
  | _ => exact h

@[simp] theorem wf_joinDone (t n x : Nat) : (fixed otherChanges (joinDone t n x s)).wf := by simp [joinDone, h]

/-! ### The sector path (R199 to R210, R262 to R268) -/

@[simp] theorem wf_potUnitWrite (base : Nat) (data : List Byte) (mask : List Bool) (poison : Bool) :
    (fixed otherChanges (potUnitWrite base data mask poison s)).wf := by simp [potUnitWrite, h]

@[simp] theorem wf_potAtomic (o n : Nat) (op : AtomicOp) : (fixed otherChanges (potAtomic o n op s).2).wf := by
  fun_cases potAtomic o n op s <;> simp +zetaDelta [h]

@[simp] theorem wf_potHostWrite (t off : Nat) (data : List Byte) (ep : Bool) :
    (fixed otherChanges (potHostWrite t off data ep s)).wf := by
  refine wf_foldl _ _ (fun _ u hs => ?_) (wf_of_fixed (fixed_countPot _ _ s) h)
  split <;> simp [hs]

@[simp] theorem wf_potPerform (k tag off len : Nat) (write : Bool) (data : List Byte) (ep : Bool)
    (op : Option (AtomicOp × Nat)) : (fixed otherChanges (potPerform k tag off len write data ep op s)).wf := by
  fun_cases potPerform k tag off len write data ep op s <;> simp +zetaDelta [h]

@[simp] theorem wf_potElement (o op srcFmt src potFmt : Nat) :
    (fixed otherChanges (potElement o op srcFmt src potFmt s).2).wf := by
  fun_cases potElement o op srcFmt src potFmt s with
  | case1 => exact h
  | case2 _ n v => exact wf_of_fixed (fixed_countEvent _ _ _) (wf_potStore h o (leBytes n v))

@[simp] theorem wf_potElements (o op srcFmt potFmt : Nat) (src : List Byte) :
    (fixed otherChanges (potElements o op srcFmt potFmt src s).2).wf :=
  wf_foldl_snd _ _ (fun _ _ hx => wf_potElement hx _ _ _ _ _) h

@[simp] theorem wf_potSector (r : Req) (o b : Nat) :
    (fixed otherChanges (potSector r o b s)).wf := by simp [potSector, h]

@[simp] theorem wf_potServe (r : Req) : (fixed otherChanges (potServe r s)).wf := by
  fun_cases potServe r s <;> simp +zetaDelta [h]

@[simp] theorem wf_issueWrite (r : Req) (b : Nat) :
    (fixed otherChanges (issueWrite r b s)).wf := by simp [issueWrite, h]

@[simp] theorem wf_issueColumn (fp : Nat) (r : Req) :
    (fixed otherChanges (issueColumn fp r s)).wf := by simp [issueColumn, h]

@[simp] theorem wf_issueFor (fp : Nat) (r : Req) :
    (fixed otherChanges (issueFor fp r s)).wf := by fun_cases issueFor fp r s <;> simp [h]

@[simp] theorem wf_exerSlot (fp : Nat) : (fixed otherChanges (exerSlot fp s)).wf := by
  fun_cases exerSlot fp s with
  | case4 | case8 | case11 => simp +zetaDelta [fixed_of_allow ‹allow _ _ _ = some _›, h]
  | _ => simp +zetaDelta [h]

@[simp] theorem wf_idleSlot (fp : Nat) (exerReady cosyReady : Bool) :
    (fixed otherChanges (idleSlot fp exerReady cosyReady s)).wf := by simp [idleSlot, h]

@[simp] theorem wf_ownSlot (fp : Nat) (ready : List Nat) (exerReady cosyReady : Bool) :
    (fixed otherChanges (ownSlot fp ready exerReady cosyReady s)).wf := by
  fun_cases ownSlot fp ready exerReady cosyReady s <;> simp +zetaDelta [h]

@[simp] theorem wf_commandSlot (fp : Nat) (ready : List Nat) (exerReady cosyReady : Bool) :
    (fixed otherChanges (commandSlot fp ready exerReady cosyReady s)).wf := by simp [commandSlot, h]

@[simp] theorem wf_scrubReturn (q : Nat) (flips : List (Nat × Byte)) :
    (fixed otherChanges (scrubReturn q flips s)).wf := by
  fun_cases scrubReturn q flips s with
  | case1 | case2 | case3 => exact h
  | _ => simp +zetaDelta [fixed_of_scrubOpen ‹scrubOpen _ _ _ _ _ = some _›, h]

@[simp] theorem wf_potTurn (w : Nat) (bits : List (Nat × Nat)) : (fixed otherChanges (potTurn w bits s)).wf :=
  wf_foldl _ _ (fun _ _ hs => wf_potStore hs _ _) h

@[simp] theorem wf_potCorrected (w : Nat) : (fixed otherChanges (potCorrected w s)).wf := by simp [potCorrected, h]

@[simp] theorem wf_potReturn (w : Nat) (flips : List (Nat × Byte)) :
    (fixed otherChanges (potReturn w flips s)).wf := by fun_cases potReturn w flips s <;> simp +zetaDelta [h]

@[simp] theorem wf_readReturn (src : ReadSrc) (flips : List (Nat × Byte)) :
    (fixed otherChanges (readReturn src flips s)).wf := by fun_cases readReturn src flips s <;> simp [h]

/-! ### Pours -/

@[simp] theorem wf_colourSwitched (t : Nat) :
    (fixed otherChanges (colourSwitched t s)).wf := by simp [colourSwitched, h]

@[simp] theorem wf_classDHook (s0 : State) (e : Nat × List Nat) : (fixed otherChanges (classDHook s0 e s)).wf := by
  fun_cases classDHook s0 e s with
  | case3 => exact wf_foldl _ _ (fun _ g hs => wf_potClearGrain hs g) h
  | _ => simp [h]

@[simp] theorem wf_classDSwitch (k : Nat) (p : Pour) : (fixed otherChanges (classDSwitch k p s)).wf := by
  have hf := wf_of_fixed (fixed_putForces (classDEntries p) s rfl) h
  simp [classDSwitch, wf_foldl _ _ (fun _ e hs => wf_classDHook hs s e) hf]

@[simp] theorem wf_pourWork (d k units : Nat) : (fixed otherChanges (pourWork d k units s)).wf := by
  unfold pourWork
  extract_lets s₁ s₂
  have h₁ : (fixed otherChanges s₁).wf := by unfold s₁; split <;> simp [h]
  have h₂ : (fixed otherChanges s₂).wf := by unfold s₂; split <;> simp [h₁]
  split <;> simp [h₂]

@[simp] theorem wf_pourFlush : (fixed otherChanges (pourFlush s)).wf := by
  unfold pourFlush
  extract_lets s₁ s₂
  have h₁ : (fixed otherChanges s₁).wf := by unfold s₁; split <;> simp [h]
  have h₂ : (fixed otherChanges s₂).wf := by unfold s₂; split <;> simp [h₁]
  split <;> simp [h₂]

/-! ### The engines, and the gates of the path -/

@[simp] theorem wf_slotOrRepay (fp : Nat) (ready : List Nat) (exerReady cosyReady : Bool) :
    (fixed otherChanges (slotOrRepay fp ready exerReady cosyReady s)).wf := by simp [slotOrRepay, h]

@[simp] theorem wf_looseScratch (o : InfOp) : (fixed otherChanges (looseScratch o s)).wf := by
  refine wf_foldl _ _ (fun _ g hs => wf_foldl _ _ (fun _ a hs => ?_) hs) h
  split <;> simp [hs]

@[simp] theorem wf_stopInfuser (n : Nat) (o : InfOp) (st : Nat) :
    (fixed otherChanges (stopInfuser n o st s)).wf := by simp [stopInfuser, h]

@[simp] theorem wf_infuserRuns (n : Nat) (o : InfOp) :
    (fixed otherChanges (infuserRuns n o s)).wf := by fun_cases infuserRuns n o s <;> simp [h]

@[simp] theorem wf_infuserComplete (n : Nat) (how : InfuserEnd) :
    (fixed otherChanges (infuserComplete n how s)).wf := by fun_cases infuserComplete n how s <;> simp +zetaDelta [h]

@[simp] theorem wf_infuserTurn (n : Nat) :
    (fixed otherChanges (infuserTurn n s)).wf := by fun_cases infuserTurn n s <;> simp [h]

@[simp] theorem wf_abortInfuser (n : Nat) :
    (fixed otherChanges (abortInfuser n s)).wf := by fun_cases abortInfuser n s <;> simp [h]

@[simp] theorem wf_admitPot (r : Req) : (fixed otherChanges (admitPot r s)).wf := by
  fun_cases admitPot r s with
  | case3 => simp [fixed_of_allow ‹allow _ _ _ = some _›, h]
  | _ => simp [h]

@[simp] theorem wf_admitEnginePot (r : Req) : (fixed otherChanges (admitEnginePot r s)).wf := by
  fun_cases admitEnginePot r s with
  | case3 => simp [fixed_of_allow ‹allow _ _ _ = some _›, h]
  | _ => simp [h]

@[simp] theorem wf_admitRequest (id : Nat) : (fixed otherChanges (admitRequest id s)).wf := by
  fun_cases admitRequest id s with
  | case7 => simp [fixed_of_allow ‹allow _ _ _ = some _›, h]
  | _ => simp [h]

@[simp] theorem wf_bar2Access (k tag off len : Nat) (write : Bool) (data : List Byte) (ep : Bool)
    (op : Option (AtomicOp × Nat)) : (fixed otherChanges (bar2Access k tag off len write data ep op s)).wf := by
  fun_cases bar2Access k tag off len write data ep op s with
  | case11 => simp +zetaDelta [fixed_of_allow ‹allow _ _ _ = some _›, h]
  | _ => simp +zetaDelta [h]

@[simp] theorem wf_bar2Atomic (k tag off width : Nat) (op : AtomicOp) :
    (fixed otherChanges (bar2Atomic k tag off width op s)).wf := by simp [bar2Atomic, h]

@[simp] theorem wf_kettleAdmit (w : Work) :
    (fixed otherChanges (kettleAdmit w s)).wf := by fun_cases kettleAdmit w s <;> simp [h]

/-! ### Repair, map-out, rinses and the work of a period -/

@[simp] theorem wf_prepareExtent (n x : Nat) :
    (fixed otherChanges (prepareExtent n x s)).wf := by simp [prepareExtent, h]

@[simp] theorem wf_foldPrepDone (n x : Nat) :
    (fixed otherChanges (foldPrepDone n x s)).wf := by simp [foldPrepDone, h]

@[simp] theorem wf_mapoutSwitch (n ch : Nat) :
    (fixed otherChanges (mapoutSwitch n ch s)).wf := by simp [mapoutSwitch, h]

@[simp] theorem wf_mapoutClose (n : Nat) :
    (fixed otherChanges (mapoutClose n s)).wf := by fun_cases mapoutClose n s <;> simp +zetaDelta [h]

@[simp] theorem wf_carrySector (q : Nat) :
    (fixed otherChanges (carrySector q s)).wf := by fun_cases carrySector q s <;> simp [h]

/-- The rows of a repair are carried over sector by sector (R293). -/
theorem wf_carrySectors (l : List Nat) : (fixed otherChanges (l.foldl (fun s q => carrySector q s) s)).wf :=
  wf_foldl _ l (fun _ q hs => wf_carrySector hs q) h

@[simp] theorem wf_rowEnd (ch : Nat) (ok : Bool) : (fixed otherChanges (rowEnd ch ok s)).wf := by
  have hm (r : RowRec) := wf_carrySectors (wf_of_fixed (fixed_rowMoves r.pc s) h) (rowSectors r)
  fun_cases rowEnd ch ok s <;> simp +zetaDelta [h, hm]

@[simp] theorem wf_engineTurn : (fixed otherChanges (engineTurn s)).wf := by
  have hi (l : List Nat) {s : State} (hs : (fixed otherChanges s).wf) :
      (fixed otherChanges (l.foldl (fun s n => infuserTurn n s) s)).wf :=
    wf_foldl _ l (fun _ n hs => wf_infuserTurn hs n) hs
  simp [engineTurn, hi, h]

@[simp] theorem wf_extentRinsed (t n x : Nat) :
    (fixed otherChanges (extentRinsed t n x s)).wf := by simp [extentRinsed, h]

@[simp] theorem wf_writeOn (t n extents k : Nat) : (fixed otherChanges (writeOn t n extents k s).2).wf := by
  fun_induction writeOn t n extents k s with
  | case4 k s e x hx need hn hr ih => exact ih (wf_extentRinsed h t n x)
  | _ => simp +zetaDelta [h]

@[simp] theorem wf_rinseMoves (n k : Nat) (l : List Nat) : (fixed otherChanges (rinseMoves n k l s).2).wf :=
  wf_foldl_snd _ l (fun x t hx => wf_writeOn hx t n 256 x.1) h

@[simp] theorem wf_rinsePeriod (n : Nat) : (fixed otherChanges (rinsePeriod n s)).wf := by
  have ha (d : Nat) : fixed otherChanges ((allow n d (freeStep s)).getD s) = fixed otherChanges s := by
    cases e : allow n d (freeStep s) with
    | none => rfl
    | some t => exact (fixed_of_allow e).trans (fixed_freeStep s)
  fun_cases rinsePeriod n s <;> simp +zetaDelta [ha, h]

@[simp] theorem wf_hubWork (k units : Nat) (missing : List Nat) :
    (fixed otherChanges (hubWork k units missing s)).wf := by
  have hp := wf_pourWork (wf_of_fixed (fixed_followLimits 8 units s) h) 8 k units
  have he : (fixed otherChanges (engineTurn (resumeWaiting (resyncWork k (twinAfterSwitch s (peerAfterSwitch s
    (pourWork 8 k units (followLimits 8 units s)))))))).wf := wf_engineTurn (by simpa using hp)
  simpa [hubWork] using he

@[simp] theorem wf_dieWork (d k units : Nat) (missing : List Nat) :
    (fixed otherChanges (dieWork d k units missing s)).wf := by simp [dieWork, h]

@[simp] theorem wf_periodWork (d dur units : Nat) (missing : List Nat) :
    (fixed otherChanges (periodWork d dur units missing s)).wf := by simp [periodWork, h]

/-! ### Resets, losses and boot -/

@[simp] theorem wf_potClearDone (q : Nat) : (fixed otherChanges (potClearDone q s)).wf := by simp [potClearDone, h]

/-- A warm reset empties the pot and keeps HBM. -/
@[simp] theorem wf_warmState (last : Nat) (kept : Bool) :
    (fixed otherChanges (warmState last kept s)).wf := ⟨h.1, (empty_wf s.ident.big).2⟩

@[simp] theorem wf_warmReset (last : Nat) : (fixed otherChanges (warmReset last s)).wf := by simp [warmReset, h]

@[simp] theorem wf_perstLow : (fixed otherChanges (perstLow s)).wf := by simp [perstLow, h]

@[simp] theorem wf_hotReset : (fixed otherChanges (hotReset s)).wf := by simp [hotReset, h]

@[simp] theorem wf_warmResetDue : (fixed otherChanges (warmResetDue s)).wf := by fun_cases warmResetDue s <;> simp [h]

@[simp] theorem wf_railLost : (fixed otherChanges (railLost s)).wf :=
  wf_foldl _ _ (fun _ _ hs => by simp [hs]) ⟨(empty_wf _).1, h.2⟩

@[simp] theorem wf_yareskDone (avs : Bool) : (fixed otherChanges (yareskDone avs s)).wf := by
  fun_cases yareskDone avs s <;> simp +zetaDelta [fixed_recordedRetired (τ := otherChanges) (hc := rfl), h]

@[simp] theorem wf_prepareAtBoot (n : Nat) : (fixed otherChanges (prepareAtBoot n s)).wf :=
  wf_foldl _ _ (fun _ x hs => by simp [hs]) h

@[simp] theorem wf_trainedCold (n : Nat) (r : TrainResult) : (fixed otherChanges (trainedCold n r s)).wf := by
  fun_cases trainedCold n r s with
  | case1 => simp [h]
  | case2 _ _ s₁ s₂ s₃ =>
    have h₃ : (fixed otherChanges s₃).wf := wf_of_fixed (by simp [s₃, s₂, s₁]) h
    simpa using wf_prepareAtBoot (wf_writeReserved h₃ n) n

@[simp] theorem wf_resumeRepair (ch : Nat) : (fixed otherChanges (resumeRepair ch s)).wf := by
  fun_cases resumeRepair ch s <;> simp +zetaDelta [h, wf_carrySectors]

@[simp] theorem wf_trainedWarm (n : Nat) (r : TrainResult) : (fixed otherChanges (trainedWarm n r s)).wf := by
  unfold trainedWarm
  extract_lets todo s₁ s₂ s₃ s₄ good bad s₅ s₆ s₇
  have h₁ : (fixed otherChanges s₁).wf := wf_foldl _ _ (fun _ ch hs => wf_mapoutSwitch hs n _) h
  have h₂ : (fixed otherChanges s₂).wf := wf_foldl _ _ (fun _ ch hs => wf_resumeRepair hs ch) h₁
  have h₆ : (fixed otherChanges s₆).wf := wf_of_fixed (by simp [s₆, s₅, s₄, s₃]) h₂
  have h₇ : (fixed otherChanges s₇).wf := by simp [s₇, h₆]
  exact wf_of_fixed (by simp) h₇

@[simp] theorem wf_trainingDone (n : Nat) (r : TrainResult) :
    (fixed otherChanges (trainingDone n r s)).wf := by simp [trainingDone, h]

@[simp] theorem wf_lostContents : (fixed otherChanges (lostContents s)).wf := by
  fun_cases lostContents s with
  | case1 => exact h
  | case2 _ _ s₁ hit s₂ =>
    have h₁ : (fixed otherChanges s₁).wf := wf_of_fixed (fixed_devEvent _ _ _ s) h
    have h₂ : (fixed otherChanges s₂).wf := wf_foldl _ hit (fun s t hs => by simp [hs]) h₁
    exact wf_of_fixed (by simp) h₂

@[simp] theorem wf_bootReady : (fixed otherChanges (bootReady s)).wf := by simp [bootReady, h]

@[simp] theorem wf_tapUpdate (i : TapInstr) : (fixed otherChanges (tapUpdate i s)).wf := by simp [tapUpdate, h]

end

/-! ### Every step -/

/-- A power-on reset empties HBM and the pot. -/
theorem wf_powerOn (straps : BitVec 6) (s : State) : (fixed otherChanges (powerOn straps s)).wf := empty_wf _

/-- The commands that may change what is stored keep the form: each is an operation that keeps it. -/
theorem exec_wf_of_mayStore {i : Instr} {s : State} (hi : mayStore i = true) (h : (fixed otherChanges s).wf) :
    ∃ t, exec i s = .next t ∧ (fixed otherChanges t).wf := by
  cases i with
  | porNRise straps => exact ⟨_, rfl, wf_powerOn straps s⟩
  | perstNLow => exact ⟨_, rfl, wf_perstLow h⟩
  | hostHotReset => exact ⟨_, rfl, wf_hotReset h⟩
  | warmResetDelayExpiry => exact ⟨_, rfl, wf_warmResetDue h⟩
  | stackRailOutOfRange => exact ⟨_, rfl, wf_railLost h⟩
  | stackTrainingDone n r => exact ⟨_, rfl, wf_trainingDone h n.val r⟩
  | yareskStartDone avs => exact ⟨_, rfl, wf_yareskDone h avs⟩
  | bootReady => exact ⟨_, rfl, wf_bootReady h⟩
  | tapInstructionUpdate op => exact ⟨_, rfl, wf_tapUpdate h op⟩
  | tapTestLogicReset => exact ⟨_, rfl, wf_tapUpdate h .idcode⟩
  | periodWork die dur w => exact ⟨_, rfl, wf_periodWork h die.val dur w.units w.missing⟩
  | potClearDone q => exact ⟨_, rfl, wf_potClearDone h q.val⟩
  | bar2Read k tag off len => exact ⟨_, rfl, wf_bar2Access h k.val tag off len false [] false none⟩
  | bar2Write k off data ep => exact ⟨_, rfl, wf_bar2Access h k.val 0 off data.length true data ep none⟩
  | bar2Atomic k tag off width op => exact ⟨_, rfl, wf_bar2Atomic h k.val tag off width op⟩
  | regulatorAdmit id => exact ⟨_, rfl, wf_engineTurn (by simp [h])⟩
  | kettleAdmit w => exact ⟨_, rfl, wf_engineTurn (wf_kettleAdmit h w)⟩
  | queueEntry id => exact ⟨_, rfl, wf_engineTurn (by simp [h])⟩
  | commandSlot fp ready exer cosy => exact ⟨_, rfl, wf_engineTurn (wf_slotOrRepay h fp.val ready exer cosy)⟩
  | readDataReturn src flips => exact ⟨_, rfl, wf_engineTurn (wf_readReturn h src flips)⟩
  | scaldAbortTimeout w =>
    refine ⟨_, rfl, wf_engineTurn ?_⟩
    cases w with
    | infuser n => exact wf_abortInfuser h n.val
    | _ => simp [h]
  | infuserOpComplete n how => exact ⟨_, rfl, wf_infuserComplete h n.val how⟩
  | rowRepairEnd ch ok => exact ⟨_, rfl, wf_rowEnd h ch.val ok⟩
  | mapoutWindowClose n => exact ⟨_, rfl, wf_mapoutClose h n.val⟩
  | foldPrepDone n x => exact ⟨_, rfl, wf_foldPrepDone h n.val x⟩
  | extentJoinDone t n x => exact ⟨_, rfl, wf_joinDone h t.val n.val x⟩
  | rinseColourRotate t =>
    refine ⟨_, rfl, ?_⟩
    split
    · exact wf_of_fixed (fixed_staleCopy _ _) (wf_rotateColour h t.val)
    · exact h
  | exerRestoreDone n =>
    refine ⟨_, rfl, ?_⟩
    split
    · simpa using wf_writeReserved h n.val
    · exact h
  | _ => cases hi

/-- Every command keeps the form; one that may not change what is stored keeps that itself. -/
theorem wf_of_exec {i : Instr} {s t : State} (e : exec i s = .next t) (h : (fixed otherChanges s).wf) :
    (fixed otherChanges t).wf := by
  cases hi : mayStore i with
  | false =>
    have hf := fixed_of_exec e
    rw [wf_fixed_iff, State.wf, ident_of_fixed hf, hbm_of_fixed hf hi, pot_of_fixed hf hi]
    exact h
  | true =>
    obtain ⟨u, hu, hwf⟩ := exec_wf_of_mayStore hi h
    obtain rfl : u = t := Host.Outcome.next.inj (hu.symm.trans e)
    exact hwf

/-- A tick stores nothing (R9, R24). -/
theorem wf_tick {s : State} (h : (fixed otherChanges s).wf) : (fixed otherChanges (tick s)).wf := by
  fun_cases tick s with
  | case1 => exact h
  | case2 => exact wf_of_fixed (fixed_periodMark _ s rfl rfl) h
  | case3 => simpa using h

/-- Settles O50: a step is a tick, which stores nothing, or the front command, which keeps the form. -/
theorem everyStepKeepsForm : Obligations.EveryStepKeepsForm := by
  unfold Obligations.EveryStepKeepsForm
  intro s t h e
  unfold step at e
  split at e
  · obtain rfl := Host.Outcome.next.inj e
    exact wf_tick h
  · exact wf_of_exec e h

/-- Settles O51: the memory, the pot and the identity are among the fixed parts of a command that may not store. -/
theorem onlyStoringCommandsStore : Obligations.OnlyStoringCommandsStore := by
  unfold Obligations.OnlyStoringCommandsStore
  intro i s t hi e
  have hf := fixed_of_exec e
  exact ⟨hbm_of_fixed hf hi, pot_of_fixed hf hi, sameContents_of_fixed hf hi⟩

end Sys2Proof.Machine
end

section
/-! The sector code: its field, its syndromes, and what a reader makes of a stored sector with bad bytes or of another
colour (O58, O59). -/

namespace Sys2Proof.Machine

open Sys2Proof

/-! ### Sums of bytes -/

theorem xor_xor_self (a b : Byte) : a ^^^ (a ^^^ b) = b := by rw [← BitVec.xor_assoc, BitVec.xor_self, BitVec.zero_xor]

/-- The sum f 0 + … + f (n - 1) in GF(2^8), whose addition is exclusive or. -/
def xorSum (n : Nat) (f : Nat → Byte) : Byte := ((List.range n).map f).foldl (· ^^^ ·) 0

theorem xorSum_succ (n : Nat) (f : Nat → Byte) : xorSum (n + 1) f = xorSum n f ^^^ f n := by
  simp [xorSum, List.range_succ]

theorem xorSum_congr {n : Nat} {f g : Nat → Byte} (h : ∀ i < n, f i = g i) : xorSum n f = xorSum n g :=
  congrArg (List.foldl _ _) (List.map_congr_left fun i hi => h i (List.mem_range.mp hi))

theorem xorSum_xor (n : Nat) (f g : Nat → Byte) :
    xorSum n (fun i => f i ^^^ g i) = xorSum n f ^^^ xorSum n g := by
  induction n with
  | zero => exact (BitVec.xor_self (x := 0)).symm
  | succ n ih => rw [xorSum_succ, xorSum_succ, xorSum_succ, ih]; ac_rfl

theorem xorSum_eq_zero {n : Nat} {f : Nat → Byte} (h : ∀ i < n, f i = 0) : xorSum n f = 0 := by
  induction n with
  | zero => rfl
  | succ n ih => simp [xorSum_succ, ih fun i hi => h i (by omega), h n (by omega)]

/-- A sum with at most one term that is not zero. -/
theorem xorSum_eq_single {n x : Nat} {f : Nat → Byte} (hx : x < n) (h : ∀ i < n, i ≠ x → f i = 0) :
    xorSum n f = f x := by
  induction n with
  | zero => omega
  | succ n ih =>
    rw [xorSum_succ]
    by_cases hn : x = n
    · have h0 : xorSum n f = 0 := xorSum_eq_zero fun i hi => h i (by omega) (by omega)
      simp [h0, hn]
    · simp [ih (by omega) fun i hi => h i (by omega), h n (by omega) (by omega : n ≠ x)]

/-! ### Additive maps of bytes -/

/-- φ keeps sums. -/
def Additive8 (φ : Byte → Byte) : Prop := ∀ a b, φ (a ^^^ b) = φ a ^^^ φ b

theorem Additive8.map_zero {φ : Byte → Byte} (h : Additive8 φ) : φ 0 = 0 := by
  simpa using h 0 0

theorem Additive8.map_xorSum {φ : Byte → Byte} (h : Additive8 φ) (n : Nat) (f : Nat → Byte) :
    φ (xorSum n f) = xorSum n fun i => φ (f i) := by
  induction n with
  | zero => exact h.map_zero
  | succ n ih => rw [xorSum_succ, xorSum_succ, h, ih]

theorem Additive8.comp {φ ψ : Byte → Byte} (h : Additive8 φ) (g : Additive8 ψ) : Additive8 fun a => φ (ψ a) :=
  fun a b => (congrArg φ (g a b)).trans (h _ _)

/-- A byte is the sum of its bits. -/
theorem eq_xorSum_bits : ∀ a : Byte, a = xorSum 8 fun i => if a.getLsbD i then BitVec.twoPow 8 i else 0 := by
  decide +kernel

/-- Additive maps that agree on the eight bits are equal. -/
theorem Additive8.ext {φ ψ : Byte → Byte} (h : Additive8 φ) (g : Additive8 ψ)
    (hb : ∀ i < 8, φ (BitVec.twoPow 8 i) = ψ (BitVec.twoPow 8 i)) (a : Byte) : φ a = ψ a := by
  rw [eq_xorSum_bits a, h.map_xorSum, g.map_xorSum]
  refine xorSum_congr fun i hi => ?_
  split
  · exact hb i hi
  · rw [h.map_zero, g.map_zero]

/-! ### The field (R255) -/

theorem gfX_eq (a : Byte) : gfX a = a <<< 1 ^^^ if a.getMsbD 0 then 0x1D#8 else 0 := by
  rw [gfX]
  split
  · rfl
  · exact BitVec.xor_zero.symm

theorem additive_gfX : Additive8 gfX := by
  intro a b
  have hred : (if (a ^^^ b).getMsbD 0 then 0x1D#8 else 0) =
      (if a.getMsbD 0 then 0x1D#8 else 0) ^^^ if b.getMsbD 0 then 0x1D#8 else 0 := by
    rw [BitVec.getMsbD_xor]
    cases a.getMsbD 0 <;> cases b.getMsbD 0 <;> rfl
  rw [gfX_eq, gfX_eq, gfX_eq, BitVec.shiftLeft_xor_distrib, hred]
  ac_rfl

theorem additive_gfShift (n : Nat) : Additive8 (gfShift n) := by
  induction n with
  | zero => exact fun _ _ => rfl
  | succ n ih => exact ih.comp additive_gfX

@[simp] theorem gfShift_zero (n : Nat) : gfShift n 0#8 = 0#8 := (additive_gfShift n).map_zero

theorem gfShift_gfX (n : Nat) (a : Byte) : gfShift n (gfX a) = gfX (gfShift n a) := by
  induction n generalizing a with
  | zero => rfl
  | succ n ih => exact ih (gfX a)

theorem gfShift_gfShift (m n : Nat) (a : Byte) : gfShift m (gfShift n a) = gfShift (m + n) a := by
  induction n generalizing a with
  | zero => rfl
  | succ n ih => exact ih (gfX a)

theorem gfMul_eq_xorSum (a b : Byte) : gfMul a b = xorSum 8 fun i => if b.getLsbD i then gfShift i a else 0 := by
  suffices ∀ n, (List.range n).foldl (fun acc i => if b.getLsbD i then acc ^^^ gfShift i a else acc) 0 =
      xorSum n fun i => if b.getLsbD i then gfShift i a else 0 from this 8
  intro n
  induction n with
  | zero => rfl
  | succ n ih =>
    rw [List.range_succ, List.foldl_append, ih, xorSum_succ]
    cases h : b.getLsbD n <;> simp [h]

theorem gfMul_xor_left (a b c : Byte) : gfMul (a ^^^ b) c = gfMul a c ^^^ gfMul b c := by
  rw [gfMul_eq_xorSum, gfMul_eq_xorSum, gfMul_eq_xorSum, ← xorSum_xor]
  refine xorSum_congr fun i _ => ?_
  split
  · exact additive_gfShift i a b
  · rfl

theorem gfMul_xor_right (a b c : Byte) : gfMul a (b ^^^ c) = gfMul a b ^^^ gfMul a c := by
  rw [gfMul_eq_xorSum, gfMul_eq_xorSum, gfMul_eq_xorSum, ← xorSum_xor]
  refine xorSum_congr fun i _ => ?_
  rw [BitVec.getLsbD_xor]
  cases b.getLsbD i <;> cases c.getLsbD i <;> simp

theorem additive_gfMul_left (c : Byte) : Additive8 (gfMul · c) := fun a b => gfMul_xor_left a b c

theorem gfMul_comm (a b : Byte) : gfMul a b = gfMul b a := by
  have hbits : ∀ i < 8, ∀ j < 8, gfMul (BitVec.twoPow 8 i) (BitVec.twoPow 8 j) =
      gfMul (BitVec.twoPow 8 j) (BitVec.twoPow 8 i) := by decide +kernel
  refine Additive8.ext (gfMul_xor_right a) (additive_gfMul_left a) (fun j hj => ?_) b
  exact Additive8.ext (additive_gfMul_left _) (gfMul_xor_right _) (fun i hi => hbits i hi j hj) a

@[simp] theorem gfMul_zero_left (a : Byte) : gfMul 0#8 a = 0#8 := (additive_gfMul_left a).map_zero

@[simp] theorem gfMul_zero_right (a : Byte) : gfMul a 0#8 = 0#8 := Additive8.map_zero (gfMul_xor_right a)

theorem gfMul_one_left : ∀ a, gfMul 1 a = a := by decide +kernel

theorem gfMul_gfX_left (a b : Byte) : gfMul (gfX a) b = gfX (gfMul a b) := by
  rw [gfMul_eq_xorSum, gfMul_eq_xorSum, additive_gfX.map_xorSum]
  refine xorSum_congr fun i _ => ?_
  split
  · exact gfShift_gfX i a
  · exact additive_gfX.map_zero.symm

theorem gfMul_gfShift_left (n : Nat) (a b : Byte) : gfMul (gfShift n a) b = gfShift n (gfMul a b) := by
  induction n generalizing a with
  | zero => rfl
  | succ n ih => exact (ih (gfX a)).trans (congrArg (gfShift n) (gfMul_gfX_left a b))

theorem gfMul_gfShift_right (n : Nat) (a b : Byte) : gfMul a (gfShift n b) = gfShift n (gfMul a b) := by
  rw [gfMul_comm, gfMul_gfShift_left, gfMul_comm]

/-- A shift by n is the product with α^n. -/
theorem gfMul_gfAlpha (a : Byte) (n : Nat) : gfMul a (gfAlpha n) = gfShift n a := by
  rw [gfAlpha, gfMul_gfShift_right, gfMul_comm, gfMul_one_left]

theorem gfMul_assoc (a b c : Byte) : gfMul (gfMul a b) c = gfMul a (gfMul b c) := by
  have hbits : ∀ i < 8, BitVec.twoPow 8 i = gfAlpha i := by decide +kernel
  refine Additive8.ext (gfMul_xor_right _) (Additive8.comp (gfMul_xor_right a) (gfMul_xor_right b)) (fun i hi => ?_) c
  rw [hbits i hi, gfMul_gfAlpha, gfMul_gfAlpha, gfMul_gfShift_right]

theorem gfAlpha_add (m n : Nat) : gfAlpha (m + n) = gfMul (gfAlpha m) (gfAlpha n) := by
  rw [gfMul_gfAlpha, gfAlpha, gfAlpha, gfShift_gfShift, Nat.add_comm]

theorem gfMul_gfInv : ∀ a : Byte, a ≠ 0 → gfMul a (gfInv a) = 1 := by decide +kernel

theorem eq_zero_of_gfMul_eq_zero {a b : Byte} (hb : b ≠ 0) (h : gfMul a b = 0) : a = 0 := by
  rw [← gfMul_one_left a, gfMul_comm, ← gfMul_gfInv b hb, ← gfMul_assoc, h]
  exact gfMul_zero_left _

/-- The locators of the 37 positions of a code word differ. -/
theorem gfAlpha_xor_ne_zero {p q : Nat} (hp : p < 37) (hq : q < 37) (h : p ≠ q) : gfAlpha p ^^^ gfAlpha q ≠ 0 := by
  have hall : ∀ p < 37, ∀ q < 37, p ≠ q → gfAlpha p ^^^ gfAlpha q ≠ 0 := by decide +kernel
  exact hall p hp q hq h

/-! ### Bytes of a sector -/

theorem padTo_of_length {n : Nat} {bs : List Byte} (h : bs.length = n) : padTo n bs = bs := by
  subst h
  exact Laws.bytesAt_self bs

@[simp] theorem length_padTo (n : Nat) (bs : List Byte) : (padTo n bs).length = n := Laws.bytesAt_length bs 0 n

@[simp] theorem length_encodeSector (k : Byte) (poison : Bool) (data : List Byte) :
    (encodeSector k poison data).length = 36 := by
  cases poison <;> simp [encodeSector, checkBytes, poisonMask]

theorem take_encodeSector (k : Byte) (poison : Bool) (data : List Byte) :
    (encodeSector k poison data).take 32 = padTo 32 data := by
  rw [encodeSector, List.take_append_of_le_length (by simp), List.take_of_length_le (by simp)]

/-! ### The syndromes as sums (R256) -/

/-- S_j of a word of 37 symbols. -/
def wordSyndrome (e : Nat → Byte) (j : Nat) : Byte := xorSum 37 fun p => gfMul (e p) (gfAlpha (p * j))

theorem wordSyndrome_xor (e f : Nat → Byte) (j : Nat) :
    wordSyndrome (fun p => e p ^^^ f p) j = wordSyndrome e j ^^^ wordSyndrome f j := by
  simp only [wordSyndrome, gfMul_xor_left, xorSum_xor]

/-- Horner's rule at α^j from m on, highest symbol first. -/
def horner (j : Nat) (m : Byte) (l : List Byte) : Byte := l.foldl (fun acc sym => gfShift j acc ^^^ sym) m

theorem horner_cons (j : Nat) (m a : Byte) (l : List Byte) :
    horner j m (a :: l) = horner j (gfShift j m ^^^ a) l := rfl

/-- Horner's rule sums the symbols, each shifted by its position. -/
theorem horner_eq_xorSum (j : Nat) (l : List Byte) (c : Byte) : horner j c l = gfShift (l.length * j) c ^^^
      xorSum l.length fun p => gfShift (p * j) (l.getD (l.length - 1 - p) 0) := by
  induction l generalizing c with
  | nil => simp [horner, xorSum, gfShift]
  | cons a l ih =>
    have hrest : (xorSum l.length fun p => gfShift (p * j) ((a :: l).getD (l.length - p) 0)) =
        xorSum l.length fun p => gfShift (p * j) (l.getD (l.length - 1 - p) 0) := by
      refine xorSum_congr fun p hp => ?_
      rw [show l.length - p = l.length - 1 - p + 1 by omega, List.getD_cons_succ]
    rw [horner_cons, ih, additive_gfShift, gfShift_gfShift, List.length_cons, Nat.add_sub_cancel, xorSum_succ, hrest,
      Nat.sub_self, List.getD_cons_zero, Nat.succ_mul]
    ac_rfl

theorem syndrome_eq_wordSyndrome (k : Byte) (st : List Byte) (j : Nat) :
    syndrome k st j = wordSyndrome (symbolAt k st) j := by
  rw [show syndrome k st j = horner j 0 (k :: padTo 36 st) from rfl, horner_eq_xorSum]
  simp [wordSyndrome, gfMul_gfAlpha, symbolAt]

/-! ### A sector as written has no syndrome (R255, R257) -/

/-- The value at α^j of the check symbols, highest first. -/
def checkValue (j : Nat) (c : Byte × Byte × Byte × Byte) : Byte :=
  gfShift (3 * j) c.1 ^^^ gfShift (2 * j) c.2.1 ^^^ gfShift j c.2.2.1 ^^^ c.2.2.2

/-- α^j is a root of the generator: its lower terms have the value of x^4 there. -/
theorem generator_root {j : Nat} (hj : j < 4) (a : Byte) :
    checkValue j (gfMul 0x0F a, gfMul 0x36 a, gfMul 0x78 a, gfMul 0x40 a) = gfShift (4 * j) a := by
  have hone : ∀ j < 4, checkValue j (0x0F, 0x36, 0x78, 0x40) = gfAlpha (4 * j) := by decide +kernel
  have h := congrArg (gfMul · a) (hone j hj)
  simpa only [checkValue, gfMul_xor_left, gfMul_gfShift_left, gfAlpha, gfMul_one_left] using h

theorem checkValue_xor (j : Nat) (c₀ c₁ c₂ c₃ d₀ d₁ d₂ d₃ : Byte) :
    checkValue j (c₀ ^^^ d₀, c₁ ^^^ d₁, c₂ ^^^ d₂, c₃ ^^^ d₃) =
      checkValue j (c₀, c₁, c₂, c₃) ^^^ checkValue j (d₀, d₁, d₂, d₃) := by
  simp only [checkValue, additive_gfShift _ _ _]
  ac_rfl

/-- One step of the division multiplies by x and adds the symbol times x^4. -/
theorem checkValue_rsStep {j : Nat} (hj : j < 4) (c : Byte × Byte × Byte × Byte) (sym : Byte) :
    checkValue j (rsStep c sym) = gfShift j (checkValue j c) ^^^ gfShift (4 * j) sym := by
  obtain ⟨c₀, c₁, c₂, c₃⟩ := c
  have hfb := generator_root hj (sym ^^^ c₀)
  have hshift : checkValue j (c₁, c₂, c₃, 0) ^^^ gfShift (4 * j) c₀ =
      gfShift j (checkValue j (c₀, c₁, c₂, c₃)) := by
    simp only [checkValue, additive_gfShift _ _ _, gfShift_gfShift]
    rw [show j + 3 * j = 4 * j by omega, show j + 2 * j = 3 * j by omega, show j + j = 2 * j by omega]
    simp only [BitVec.ofNat_eq_ofNat, BitVec.xor_zero]
    ac_rfl
  calc checkValue j (rsStep (c₀, c₁, c₂, c₃) sym)
      = checkValue j (c₁, c₂, c₃, 0) ^^^ gfShift (4 * j) (sym ^^^ c₀) := by
        rw [← hfb, ← checkValue_xor]
        simp [rsStep]
    _ = gfShift j (checkValue j (c₀, c₁, c₂, c₃)) ^^^ gfShift (4 * j) sym := by
        rw [additive_gfShift, ← hshift]
        ac_rfl

/-- The division leaves the value of the message times x^4. -/
theorem checkValue_foldl_rsStep {j : Nat} (hj : j < 4) (l : List Byte) (c : Byte × Byte × Byte × Byte) (m : Byte)
    (h : checkValue j c = gfShift (4 * j) m) :
    checkValue j (l.foldl rsStep c) = gfShift (4 * j) (horner j m l) := by
  induction l generalizing c m with
  | nil => exact h
  | cons a l ih =>
    refine ih _ _ ?_
    rw [checkValue_rsStep hj, h, additive_gfShift, gfShift_gfShift, gfShift_gfShift, Nat.add_comm]

/-- The syndromes of a sector whose check bytes differ by some d from those of its data are the value of d. -/
theorem syndrome_checkBytes {j : Nat} (hj : j < 4) (k : Byte) (data : List Byte) (c d : Byte × Byte × Byte × Byte)
    (hc : c = (k :: padTo 32 data).foldl rsStep (0, 0, 0, 0)) :
    syndrome k (padTo 32 data ++ [c.1 ^^^ d.1, c.2.1 ^^^ d.2.1, c.2.2.1 ^^^ d.2.2.1, c.2.2.2 ^^^ d.2.2.2]) j =
      checkValue j d := by
  have hv := checkValue_foldl_rsStep hj (k :: padTo 32 data) (0, 0, 0, 0) 0
    (by simp [checkValue])
  rw [← hc] at hv
  obtain ⟨c₀, c₁, c₂, c₃⟩ := c
  obtain ⟨d₀, d₁, d₂, d₃⟩ := d
  rw [syndrome, padTo_of_length (by simp), ← List.cons_append, List.foldl_append]
  change horner j (horner j 0 (k :: padTo 32 data)) _ = _
  generalize horner j 0 (k :: padTo 32 data) = m at hv ⊢
  calc horner j m [c₀ ^^^ d₀, c₁ ^^^ d₁, c₂ ^^^ d₂, c₃ ^^^ d₃]
      = gfShift (4 * j) m ^^^ checkValue j (c₀ ^^^ d₀, c₁ ^^^ d₁, c₂ ^^^ d₂, c₃ ^^^ d₃) := by
        simp only [horner, List.foldl_cons, List.foldl_nil, checkValue, additive_gfShift _ _ _, gfShift_gfShift]
        rw [show j + (j + (j + j)) = 4 * j by omega, show j + (j + j) = 3 * j by omega, show j + j = 2 * j by omega]
        ac_rfl
    _ = checkValue j (d₀, d₁, d₂, d₃) := by
        rw [checkValue_xor, hv, xor_xor_self]

theorem syndrome_encodeSector {j : Nat} (hj : j < 4) (k : Byte) (data : List Byte) :
    syndrome k (encodeSector k false data) j = 0 := by
  have h := syndrome_checkBytes hj k data _ (0, 0, 0, 0) rfl
  simpa [encodeSector, checkBytes, checkValue] using h

theorem syndromes_poisoned (k : Byte) (data : List Byte) :
    syndromes k (encodeSector k true data) = [0x00, 0x00, 0x00, 0x9F] := by
  have hmask : (List.range 4).map (fun j => checkValue j (0x01, 0x07, 0x0E, 0x08)) = [0x00, 0x00, 0x00, 0x9F] := by
    decide
  rw [← hmask, syndromes]
  refine List.map_congr_left fun j hj => ?_
  exact syndrome_checkBytes (List.mem_range.mp hj) k data _ (0x01, 0x07, 0x0E, 0x08) rfl

/-! ### Words with few symbols that are not zero (R256, R258) -/

/-- The word with value v at position p and zeros elsewhere. -/
def oneSymbol (p : Nat) (v : Byte) (q : Nat) : Byte := if q = p then v else 0

theorem oneSymbol_of_ne {p q : Nat} (v : Byte) (h : q ≠ p) : oneSymbol p v q = 0 := if_neg h

theorem wordSyndrome_oneSymbol {p : Nat} (hp : p < 37) (v : Byte) (j : Nat) :
    wordSyndrome (oneSymbol p v) j = gfMul v (gfAlpha (p * j)) := by
  rw [wordSyndrome, xorSum_eq_single hp fun q _ hq => by rw [oneSymbol_of_ne v hq]; exact gfMul_zero_left _]
  rw [oneSymbol, if_pos rfl]

/-- Weighting each symbol with the difference of its locator from α^x. -/
theorem wordSyndrome_weighted (e : Nat → Byte) (x j : Nat) :
    wordSyndrome (fun p => gfMul (e p) (gfAlpha p ^^^ gfAlpha x)) j =
      wordSyndrome e (j + 1) ^^^ gfMul (wordSyndrome e j) (gfAlpha x) := by
  rw [wordSyndrome, wordSyndrome, wordSyndrome, (additive_gfMul_left (gfAlpha x)).map_xorSum, ← xorSum_xor]
  refine xorSum_congr fun p _ => ?_
  rw [gfMul_xor_right, gfMul_xor_left, Nat.mul_succ, gfAlpha_add, gfMul_assoc, gfMul_assoc, gfMul_assoc,
    gfMul_comm (gfAlpha p) (gfAlpha (p * j)), gfMul_comm (gfAlpha x)]

/-- A word whose symbols are zero outside n positions, and whose first n syndromes are zero, is zero: the code's
distance. By weighting, each position is taken away at the cost of one syndrome. -/
theorem eq_zero_of_wordSyndrome {P : List Nat} {e : Nat → Byte} (hP : ∀ x ∈ P, x < 37)
    (he : ∀ p < 37, p ∉ P → e p = 0) (hs : ∀ j < P.length, wordSyndrome e j = 0) : ∀ p < 37, e p = 0 := by
  induction P generalizing e with
  | nil => exact fun p hp => he p hp (by simp)
  | cons x P ih =>
    have hx : x < 37 := hP x (by simp)
    have hw := ih (e := fun p => gfMul (e p) (gfAlpha p ^^^ gfAlpha x)) (fun y hy => hP y (by simp [hy]))
      (fun p hp hn => by
        by_cases h : p = x
        · simp [h]
        · simp [he p hp (by simp [h, hn])])
      (fun j hj => by simp [wordSyndrome_weighted, hs j (by simp; omega), hs (j + 1) (by simp; omega)])
    have hne : ∀ p < 37, p ≠ x → e p = 0 := fun p hp h =>
      eq_zero_of_gfMul_eq_zero (gfAlpha_xor_ne_zero hp hx h) (hw p hp)
    have h0 := hs 0 (by simp)
    rw [wordSyndrome, xorSum_eq_single hx fun p hp h => by rw [hne p hp h]; exact gfMul_zero_left _, Nat.mul_zero,
      gfMul_gfAlpha] at h0
    intro p hp
    by_cases h : p = x
    · rw [h]; exact h0
    · exact hne p hp h

/-- Two words that differ in four positions at most have different syndromes. -/
theorem eq_of_wordSyndrome_eq {P : List Nat} {e f : Nat → Byte} (hP : ∀ x ∈ P, x < 37) (hl : P.length ≤ 4)
    (hn : ∀ p < 37, p ∉ P → e p = f p) (hs : ∀ j < 4, wordSyndrome e j = wordSyndrome f j) :
    ∀ p < 37, e p = f p := by
  intro p hp
  have hz := eq_zero_of_wordSyndrome (e := fun p => e p ^^^ f p) hP
    (fun p hp h => by rw [hn p hp h]; exact BitVec.xor_self)
    (fun j hj => by rw [wordSyndrome_xor, hs j (by omega)]; exact BitVec.xor_self) p hp
  exact BitVec.xor_eq_zero_iff.mp hz

/-! ### The syndromes of a sector read with errors -/

/-- The four syndromes of a word. -/
def wordSyndromes (e : Nat → Byte) : List Byte := (List.range 4).map (wordSyndrome e)

@[simp] theorem getD_wordSyndromes (e : Nat → Byte) {j : Nat} (hj : j < 4) :
    (wordSyndromes e).getD j 0 = wordSyndrome e j := by
  simp [wordSyndromes, List.getD_eq_getElem?_getD, hj]

/-- What is read is what was written and an error; the syndromes are the error's. -/
theorem syndromes_eq_of_error {k k' : Byte} {data st : List Byte} {e : Nat → Byte}
    (h : ∀ p < 37, symbolAt k' st p = symbolAt k (encodeSector k false data) p ^^^ e p) :
    syndromes k' st = wordSyndromes e := by
  refine List.map_congr_left fun j hj => ?_
  have h0 := syndrome_encodeSector (List.mem_range.mp hj) k data
  rw [syndrome_eq_wordSyndrome] at h0 ⊢
  have hw : wordSyndrome (symbolAt k' st) j =
      wordSyndrome (fun p => symbolAt k (encodeSector k false data) p ^^^ e p) j :=
    xorSum_congr fun p hp => by rw [h p hp]
  rw [hw, wordSyndrome_xor, h0]
  exact BitVec.zero_xor

/-- The error of a sector written under k and read under k'. -/
def readError (k k' : Byte) (data st : List Byte) (p : Nat) : Byte :=
  symbolAt k (encodeSector k false data) p ^^^ symbolAt k' st p

theorem syndromes_eq_readError (k k' : Byte) (data st : List Byte) :
    syndromes k' st = wordSyndromes (readError k k' data st) :=
  syndromes_eq_of_error fun _ _ => (xor_xor_self _ _).symm

/-- Three bad symbols at most do not have the poison syndrome (R257). -/
theorem wordSyndromes_ne_poison {P : List Nat} {e : Nat → Byte} (hP : ∀ x ∈ P, x < 37) (hl : P.length ≤ 3)
    (he : ∀ p < 37, p ∉ P → e p = 0) : wordSyndromes e ≠ [0x00, 0x00, 0x00, 0x9F] := by
  intro h
  have hj (j : Nat) (hj : j < 4) : wordSyndrome e j = [0x00, 0x00, 0x00, 0x9F].getD j 0 := by
    rw [← getD_wordSyndromes e hj, h]
  have hz := eq_zero_of_wordSyndrome hP he fun j hjl => by
    rw [hj j (by omega)]
    have h3 : j < 3 := by omega
    interval_cases j <;> rfl
  have h3 : wordSyndrome e 3 = 0 := xorSum_eq_zero fun p hp => by rw [hz p hp]; exact gfMul_zero_left _
  rw [hj 3 (by decide)] at h3
  exact absurd h3 (by decide)

/-- A word that is not zero has a syndrome that is not, where four symbols at most are not zero. -/
theorem wordSyndromes_ne_zero {P : List Nat} {e : Nat → Byte} (hP : ∀ x ∈ P, x < 37) (hl : P.length ≤ 4)
    (he : ∀ p < 37, p ∉ P → e p = 0) {x : Nat} (hx : x < 37) (hne : e x ≠ 0) :
    wordSyndromes e ≠ [0, 0, 0, 0] := by
  intro h
  refine hne (eq_zero_of_wordSyndrome hP he (fun j hj => ?_) x hx)
  have h4 : j < 4 := by omega
  rw [← getD_wordSyndromes e h4, h]
  interval_cases j <;> rfl

/-! ### The pattern that explains the syndromes (R258) -/

/-- The word with values v and w at positions a and b. -/
def twoSymbols (a b : Nat) (v w : Byte) (q : Nat) : Byte := oneSymbol a v q ^^^ oneSymbol b w q

theorem oneSymbol_self (p : Nat) (v : Byte) : oneSymbol p v p = v := if_pos rfl

theorem eq_of_oneSymbol_ne_zero {p q : Nat} {v : Byte} (h : oneSymbol p v q ≠ 0) : q = p :=
  by_contra fun hn => h (oneSymbol_of_ne v hn)

theorem twoSymbols_left {a b : Nat} (h : a ≠ b) (v w : Byte) : twoSymbols a b v w a = v := by
  rw [twoSymbols, oneSymbol_self, oneSymbol_of_ne w h]
  exact BitVec.xor_zero

theorem twoSymbols_right {a b : Nat} (h : a ≠ b) (v w : Byte) : twoSymbols a b v w b = w := by
  rw [twoSymbols, oneSymbol_self, oneSymbol_of_ne v h.symm]
  exact BitVec.zero_xor

theorem eq_or_eq_of_twoSymbols_ne_zero {a b q : Nat} {v w : Byte} (h : twoSymbols a b v w q ≠ 0) :
    q = a ∨ q = b := by
  by_contra hn
  obtain ⟨ha, hb⟩ := not_or.mp hn
  rw [twoSymbols, oneSymbol_of_ne v ha, oneSymbol_of_ne w hb] at h
  exact h BitVec.xor_self

theorem wordSyndrome_twoSymbols {a b : Nat} (ha : a < 37) (hb : b < 37) (v w : Byte) (j : Nat) :
    wordSyndrome (twoSymbols a b v w) j = gfMul v (gfAlpha (a * j)) ^^^ gfMul w (gfAlpha (b * j)) := by
  rw [← wordSyndrome_oneSymbol ha, ← wordSyndrome_oneSymbol hb, ← wordSyndrome_xor]
  rfl

/-- The only entry of a list that a predicate holds for is the one found. -/
theorem find?_eq_some_of_unique {α : Type} {p : α → Bool} {l : List α} {x : α} (hx : x ∈ l) (hp : p x = true)
    (hu : ∀ y ∈ l, p y = true → y = x) : l.find? p = some x := by
  cases h : l.find? p with
  | none => exact absurd hp (List.find?_eq_none.mp h x hx)
  | some y => exact congrArg some (hu y (List.mem_of_find?_eq_some h) (List.find?_some h))

theorem explains1_iff (e : Nat → Byte) {p : Nat} (hp : p < 37) : explains1 (wordSyndromes e) p = true ↔
    wordSyndrome e 0 ≠ 0 ∧ ∀ j < 4, wordSyndrome (oneSymbol p (wordSyndrome e 0)) j = wordSyndrome e j := by
  simp only [explains1, getD_wordSyndromes e (show 0 < 4 by decide), wordSyndrome_oneSymbol hp, Bool.and_eq_true,
    bne_iff_ne, List.all_eq_true, List.mem_range, beq_iff_eq]
  exact and_congr_right fun _ => forall₂_congr fun j hj => by rw [getD_wordSyndromes e hj]

theorem explains2_iff (e : Nat → Byte) {a b : Nat} (ha : a < 37) (hb : b < 37) :
    explains2 (wordSyndromes e) a b = true ↔
      (pairValues (wordSyndromes e) a b).1 ≠ 0 ∧ (pairValues (wordSyndromes e) a b).2 ≠ 0 ∧ ∀ j < 4,
        wordSyndrome (twoSymbols a b (pairValues (wordSyndromes e) a b).1 (pairValues (wordSyndromes e) a b).2) j =
          wordSyndrome e j := by
  simp only [explains2, wordSyndrome_twoSymbols ha hb, Bool.and_eq_true, bne_iff_ne, List.all_eq_true, List.mem_range,
    beq_iff_eq, and_assoc]
  exact and_congr_right fun _ => and_congr_right fun _ => forall₂_congr fun j hj => by rw [getD_wordSyndromes e hj]

theorem pairValues_twoSymbols {a b : Nat} (ha : a < 37) (hb : b < 37) (hab : a ≠ b) (v w : Byte) :
    pairValues (wordSyndromes (twoSymbols a b v w)) a b = (v, w) := by
  have h0 : wordSyndrome (twoSymbols a b v w) 0 = v ^^^ w := by
    simp [wordSyndrome_twoSymbols ha hb, gfMul_gfAlpha, gfShift]
  have h1 : wordSyndrome (twoSymbols a b v w) 1 ^^^ gfMul (v ^^^ w) (gfAlpha b) =
      gfMul v (gfAlpha a ^^^ gfAlpha b) := by
    rw [wordSyndrome_twoSymbols ha hb, gfMul_xor_left, gfMul_xor_right, Nat.mul_one, Nat.mul_one, BitVec.xor_assoc,
      BitVec.xor_comm (gfMul v (gfAlpha b)), ← BitVec.xor_assoc (gfMul w _), BitVec.xor_self, BitVec.zero_xor]
  have hv : gfMul (gfMul v (gfAlpha a ^^^ gfAlpha b)) (gfInv (gfAlpha a ^^^ gfAlpha b)) = v := by
    rw [gfMul_assoc, gfMul_gfInv _ (gfAlpha_xor_ne_zero ha hb hab), gfMul_comm, gfMul_one_left]
  simp only [pairValues, getD_wordSyndromes _ (show 0 < 4 by decide), getD_wordSyndromes _ (show 1 < 4 by decide),
    h0, h1, hv]
  rw [BitVec.xor_comm, xor_xor_self]

theorem singlePattern_oneSymbol {p : Nat} (hp : p < 37) {v : Byte} (hv : v ≠ 0) :
    singlePattern (wordSyndromes (oneSymbol p v)) = some [(p, v)] := by
  have h0 : wordSyndrome (oneSymbol p v) 0 = v := by simp [wordSyndrome_oneSymbol hp, gfMul_gfAlpha, gfShift]
  have hfind : (List.range 37).find? (explains1 (wordSyndromes (oneSymbol p v))) = some p := by
    refine find?_eq_some_of_unique (List.mem_range.mpr hp) ?_ fun q hq h => ?_
    · rw [explains1_iff _ hp, h0]
      exact ⟨hv, fun _ _ => rfl⟩
    · have hq := List.mem_range.mp hq
      obtain ⟨hne, hs⟩ := (explains1_iff _ hq).mp h
      have he := eq_of_wordSyndrome_eq (P := [p, q]) (by simp [hp, hq]) (by simp)
        (fun x _ hx => by simp_all [oneSymbol]) hs q hq
      rw [oneSymbol_self] at he
      exact eq_of_oneSymbol_ne_zero (he ▸ hne)
  rw [singlePattern, hfind, getD_wordSyndromes _ (by decide), h0]

section
variable {a b : Nat} (ha : a < 37) (hba : b < a) {v w : Byte} (hv : v ≠ 0) (hw : w ≠ 0)
include ha hba hv hw

theorem singlePattern_twoSymbols : singlePattern (wordSyndromes (twoSymbols a b v w)) = none := by
  have hb : b < 37 := by omega
  have hfind : (List.range 37).find? (explains1 (wordSyndromes (twoSymbols a b v w))) = none := by
    refine List.find?_eq_none.mpr fun q hq h => ?_
    have hq := List.mem_range.mp hq
    obtain ⟨-, hs⟩ := (explains1_iff _ hq).mp h
    have he := eq_of_wordSyndrome_eq (P := [q, a, b]) (by simp [hq, ha, hb]) (by simp)
      (fun x _ hx => by simp_all [oneSymbol, twoSymbols]) hs
    have hqa := eq_of_oneSymbol_ne_zero (by rw [he a ha, twoSymbols_left hba.ne']; exact hv)
    have hqb := eq_of_oneSymbol_ne_zero (by rw [he b hb, twoSymbols_right hba.ne']; exact hw)
    omega
  rw [singlePattern, hfind]

theorem doublePattern_twoSymbols :
    doublePattern (wordSyndromes (twoSymbols a b v w)) = some [(a, v), (b, w)] := by
  have hb : b < 37 := by omega
  have hvw := pairValues_twoSymbols ha hb hba.ne' v w
  have hfind : ((List.range 37).flatMap fun a => (List.range a).map fun b => (a, b)).find?
      (fun ab => explains2 (wordSyndromes (twoSymbols a b v w)) ab.1 ab.2) = some (a, b) := by
    refine find?_eq_some_of_unique (by simp [ha, hba]) ?_ ?_
    · rw [explains2_iff _ ha hb, hvw]
      exact ⟨hv, hw, fun _ _ => rfl⟩
    · rintro ⟨a', b'⟩ hmem h
      obtain ⟨ha', hba'⟩ : a' < 37 ∧ b' < a' := by simpa using hmem
      have hb' : b' < 37 := by omega
      obtain ⟨-, -, hs⟩ := (explains2_iff _ ha' hb').mp h
      have he := eq_of_wordSyndrome_eq (P := [a', b', a, b]) (by simp [ha', hb', ha, hb]) (by simp)
        (fun x _ hx => by simp_all [oneSymbol, twoSymbols]) hs
      have hat := eq_or_eq_of_twoSymbols_ne_zero (by rw [he a ha, twoSymbols_left hba.ne']; exact hv)
      have hbt := eq_or_eq_of_twoSymbols_ne_zero (by rw [he b hb, twoSymbols_right hba.ne']; exact hw)
      have haa : a' = a := by omega
      have hbb : b' = b := by omega
      rw [haa, hbb]
  rw [doublePattern, hfind]
  simp only [hvw]

end

/-! ### What a reader makes of one and of two bad symbols (Tables 9.2, 9.3) -/

theorem classify_of_oneSymbol {policy : Nat} {k : Byte} {st : List Byte} {p : Nat} {v : Byte} (hp : p < 37)
    (hv : v ≠ 0) (hs : syndromes k st = wordSyndromes (oneSymbol p v)) : classify policy k st =
      if p = 36 then .mismatch else if policy ≤ 1 then .corrected [(p, v)] else .uncorrectable := by
  have hP : ∀ x < 37, x ∉ [p] → oneSymbol p v x = 0 := fun x _ hx => oneSymbol_of_ne v (by simpa using hx)
  have h0 := wordSyndromes_ne_zero (P := [p]) (by simpa using hp) (by simp) hP hp (by rwa [oneSymbol_self])
  have hQ := wordSyndromes_ne_poison (P := [p]) (by simpa using hp) (by simp) hP
  have hr : 1 ≤ policyRadius policy ↔ policy ≤ 1 := by
    unfold policyRadius
    split
    · simp [*]
    · split <;> simp <;> omega
  simp only [classify, hs, poisonSyndrome, if_neg h0, if_neg hQ, singlePattern_oneSymbol hp hv, hr]
  simp

theorem classify_of_twoSymbols {policy : Nat} {k : Byte} {st : List Byte} {a b : Nat} {v w : Byte} (ha : a < 37)
    (hba : b < a) (hv : v ≠ 0) (hw : w ≠ 0) (hs : syndromes k st = wordSyndromes (twoSymbols a b v w)) :
    classify policy k st =
      if policy = 0 then if a = 36 then .mismatch else .corrected [(a, v), (b, w)] else .uncorrectable := by
  have hP : ∀ x < 37, x ∉ [a, b] → twoSymbols a b v w x = 0 := fun x _ hx => by
    by_contra hn
    exact hx (by simpa using eq_or_eq_of_twoSymbols_ne_zero hn)
  have hb : b < 37 := by omega
  have h0 := wordSyndromes_ne_zero (P := [a, b]) (by simp [ha, hb]) (by simp) hP ha
    (by rwa [twoSymbols_left hba.ne'])
  have hQ := wordSyndromes_ne_poison (P := [a, b]) (by simp [ha, hb]) (by simp) hP
  have hb36 : b ≠ 36 := by omega
  simp only [classify, hs, poisonSyndrome, if_neg h0, if_neg hQ, singlePattern_twoSymbols ha hba hv hw,
    doublePattern_twoSymbols ha hba hv hw]
  simp [hb36]

/-! ### Stored bytes hit, and another colour -/

section
variable {st : List Byte} (hst : st.length = 36)

@[simp] theorem length_hitByte (st : List Byte) (i : Nat) (v : Byte) : (hitByte st i v).length = st.length :=
  List.length_set

theorem hitByte_hitByte_self (st : List Byte) (i : Nat) (v : Byte) : hitByte (hitByte st i v) i v = st := by
  by_cases hi : i < st.length
  · simp [hitByte, hi]
  · simp [hitByte, List.set_eq_of_length_le (Nat.le_of_not_lt hi)]

theorem hitByte_comm (st : List Byte) {i j : Nat} (h : i ≠ j) (v w : Byte) :
    hitByte (hitByte st i v) j w = hitByte (hitByte st j w) i v := by
  simp [hitByte, List.set_comm _ _ h, List.getElem?_set_ne h, List.getElem?_set_ne h.symm]

theorem getD_hitByte {i : Nat} (hi : i < st.length) (v : Byte) (n : Nat) :
    (hitByte st i v).getD n 0 = st.getD n 0 ^^^ if n = i then v else 0 := by
  by_cases hn : n = i
  · subst hn
    simp [hitByte, hi]
  · simp [hitByte, List.getElem?_set_ne (Ne.symm hn), hn]

include hst

/-- The symbols that a reader forms: the colour at position 36, and stored byte 35 - p at position p. -/
theorem symbolAt_eq (k : Byte) {p : Nat} (hp : p < 37) :
    symbolAt k st p = if p = 36 then k else st.getD (35 - p) 0 := by
  rw [symbolAt, padTo_of_length hst]
  split
  · next h => rw [h]; rfl
  · rw [show 36 - p = 35 - p + 1 by omega, List.getD_cons_succ]

theorem symbolAt_hitByte (k : Byte) {i : Nat} (hi : i < 36) (v : Byte) {p : Nat} (hp : p < 37) :
    symbolAt k (hitByte st i v) p = symbolAt k st p ^^^ oneSymbol (35 - i) v p := by
  rw [symbolAt_eq hst k hp, symbolAt_eq (by simpa using hst) k hp, getD_hitByte (by omega), oneSymbol]
  by_cases h : p = 36
  · simp [h, show (36 = 35 - i) = False by simp; omega]
  · simp [h, show (35 - p = i) = (p = 35 - i) by simp; omega]

theorem symbolAt_colour (k k' : Byte) {p : Nat} (hp : p < 37) :
    symbolAt k' st p = symbolAt k st p ^^^ oneSymbol 36 (k ^^^ k') p := by
  rw [symbolAt_eq hst k hp, symbolAt_eq hst k' hp, oneSymbol]
  split
  · exact (xor_xor_self k k').symm
  · exact BitVec.xor_zero.symm

/-- Correcting undoes the hits at the positions corrected. -/
theorem correctStored_cons (p : Nat) (v : Byte) (bad : List (Nat × Byte)) :
    correctStored st ((p, v) :: bad) = correctStored (hitByte st (posByte p) v) bad := by
  rw [correctStored, correctStored, padTo_of_length hst, padTo_of_length (by simpa using hst)]
  rfl

theorem correctStored_nil : correctStored st [] = st := padTo_of_length hst

end

theorem posByte_sub {i : Nat} (hi : i < 36) : posByte (35 - i) = i := by
  unfold posByte
  split <;> omega

/-! ### A sector as written, with bytes hit and under another colour -/

section
variable (k : Byte) (data : List Byte)

theorem syndromes_written : syndromes k (encodeSector k false data) = [0, 0, 0, 0] :=
  List.map_congr_left (g := fun _ => 0) fun _ hj => syndrome_encodeSector (List.mem_range.mp hj) k data

theorem syndromes_hit {i : Nat} (hi : i < 36) (v : Byte) :
    syndromes k (hitByte (encodeSector k false data) i v) = wordSyndromes (oneSymbol (35 - i) v) :=
  syndromes_eq_of_error fun _ hp => symbolAt_hitByte (length_encodeSector k false data) k hi v hp

theorem syndromes_hit_hit {i j : Nat} (hi : i < 36) (hj : j < 36) (v w : Byte) :
    syndromes k (hitByte (hitByte (encodeSector k false data) i v) j w) =
      wordSyndromes (twoSymbols (35 - i) (35 - j) v w) :=
  syndromes_eq_of_error fun p hp => by
    rw [symbolAt_hitByte (by simp) k hj w hp, symbolAt_hitByte (by simp) k hi v hp, BitVec.xor_assoc, twoSymbols]

theorem syndromes_other_colour (k' : Byte) :
    syndromes k' (encodeSector k false data) = wordSyndromes (oneSymbol 36 (k ^^^ k')) :=
  syndromes_eq_of_error fun _ hp => symbolAt_colour (length_encodeSector k false data) k k' hp

theorem syndromes_hit_other_colour (k' : Byte) {i : Nat} (hi : i < 36) (v : Byte) :
    syndromes k' (hitByte (encodeSector k false data) i v) =
      wordSyndromes (twoSymbols 36 (35 - i) (k ^^^ k') v) :=
  syndromes_eq_of_error fun p hp => by
    rw [symbolAt_hitByte (by simp) k' hi v hp, symbolAt_colour (by simp) k k' hp, BitVec.xor_assoc, twoSymbols]

end

theorem classify_written (policy : Nat) (k : Byte) (data : List Byte) :
    classify policy k (encodeSector k false data) = .clean := if_pos (syndromes_written k data)

theorem classify_poisoned (policy : Nat) (k : Byte) (data : List Byte) :
    classify policy k (encodeSector k true data) = .poison := by
  simp [classify, syndromes_poisoned, poisonSyndrome]

/-- Settles O59: an error of one or two symbols, the colour's among them, has syndromes that its own pattern alone
explains. -/
theorem sectorCorrection : Obligations.SectorCorrection := by
  unfold Obligations.SectorCorrection
  refine ⟨classify_written, ?_, ?_, ?_, ?_, ?_, ?_⟩
  · intro policy k data i v hi hv hp
    refine ⟨[(35 - i, v)], ?_, rfl, ?_⟩
    · rw [classify_of_oneSymbol (by omega) hv (syndromes_hit k data hi v), if_neg (by omega), if_pos hp]
    · rw [outcomeData, correctStored_cons (by simp), posByte_sub hi, hitByte_hitByte_self, correctStored_nil (by simp),
        take_encodeSector]
  · intro k data i v hi hv
    rw [classify_of_oneSymbol (by omega) hv (syndromes_hit k data hi v), if_neg (by omega), if_neg (by decide)]
  · intro k data i j v w hij hj hv hw
    have hi : i < 36 := by omega
    refine ⟨[(35 - i, v), (35 - j, w)], ?_, rfl, ?_⟩
    · rw [classify_of_twoSymbols (by omega) (by omega) hv hw (syndromes_hit_hit k data hi hj v w), if_pos rfl,
        if_neg (by omega)]
    · rw [outcomeData, correctStored_cons (by simp), correctStored_cons (by simp), posByte_sub hi, posByte_sub hj,
        hitByte_comm _ hij.ne', hitByte_hitByte_self, hitByte_hitByte_self, correctStored_nil (by simp),
        take_encodeSector]
  · intro policy k data i j v w hij hj hv hw hp
    rw [classify_of_twoSymbols (by omega) (by omega) hv hw (syndromes_hit_hit k data (by omega) hj v w),
      if_neg (by omega)]
  · intro policy k k' data hk
    rw [classify_of_oneSymbol (by omega) (by simpa using hk) (syndromes_other_colour k data k'), if_pos rfl]
  · intro k k' data i v hk hi hv
    rw [classify_of_twoSymbols (by omega) (by omega) (by simpa using hk) hv
      (syndromes_hit_other_colour k data k' hi v), if_pos rfl, if_pos rfl]

/-- Settles O58: the syndromes are those of what is read less what was written; what is poisoned has those of the
mask. -/
theorem sectorSyndromes : Obligations.SectorSyndromes := by
  unfold Obligations.SectorSyndromes
  refine ⟨fun k st j _ => syndrome_eq_wordSyndrome k st j, ?_, ?_, syndromes_poisoned, ?_, classify_poisoned⟩
  · intro k k' data
    rw [syndromes_other_colour]
    exact List.map_congr_left fun j _ => wordSyndrome_oneSymbol (by decide) _ j
  · intro k data
    refine ⟨?_, take_encodeSector k true data⟩
    rw [take_encodeSector]
    simp [encodeSector, poisonMask]
  · intro k k' data st _ hd
    rw [syndromes_eq_readError k k' data st]
    refine wordSyndromes_ne_poison (fun x hx => ?_) (hd.trans (by decide)) fun p hp hn => ?_
    · exact List.mem_range.mp (List.mem_filter.mp hx).1
    · have heq : symbolAt k' st p = symbolAt k (encodeSector k false data) p := by
        simpa [hp] using hn
      exact BitVec.xor_eq_zero_iff.mpr heq.symm

end Sys2Proof.Machine
end

section
/-! Stored sectors: what a read gives after a write, and what a write leaves alone (O57). -/

namespace Sys2Proof.Machine

open Sys2Proof

/-! ### Stored bytes after a write of their sector, or of a range (R254, R266) -/

/-- Writing a sector stores its 36 bytes, and no others. -/
theorem storedByte_writeStored (big : Bool) (m : Memory) (q q' : Nat) (bytes : List Byte) {i : Nat} (hi : i < 64) :
    storedByte big (writeStored big q bytes m) q' i =
      if q' = q ∧ i < 36 then bytes.getD i 0 else storedByte big m q' i := by
  suffices ∀ n ≤ 36, storedByte big ((List.range n).foldl (fun m i => putStored big q m i (bytes.getD i 0)) m) q' i =
      if q' = q ∧ i < n then bytes.getD i 0 else storedByte big m q' i from this 36 le_rfl
  intro n hn
  induction n with
  | zero => simp
  | succ n ih =>
    rw [List.range_succ, List.foldl_append, List.foldl_cons, List.foldl_nil,
      storedByte_putStored _ _ _ _ _ _ _ (by omega) hi, ih (by omega)]
    by_cases h : q' = q ∧ i = n
    · rw [if_pos h, if_pos (by omega), h.2]
    · rw [if_neg h]
      exact if_congr (by omega) rfl rfl

theorem stored_writeSector (q q' : Nat) (colour : BitVec 8) (poison : Bool) (data : List Byte) (s : State) {i : Nat}
    (hi : i < 64) : stored (writeSector q colour poison data s) q' i =
      if q' = q ∧ i < 36 then (encodeSector colour poison data).getD i 0 else stored s q' i :=
  storedByte_writeStored s.ident.big s.hbm q q' _ hi

theorem storedSector_writeSector (q : Nat) (colour : BitVec 8) (poison : Bool) (data : List Byte) (s : State) :
    storedSector (writeSector q colour poison data s) q = encodeSector colour poison data := by
  have hst : storedSector (writeSector q colour poison data s) q = padTo 36 (encodeSector colour poison data) := by
    rw [storedSector, padTo, bytesAt]
    refine List.map_congr_left fun i hi => ?_
    have hi : i < 36 := List.mem_range.mp hi
    rw [Nat.zero_add]
    exact (stored_writeSector q q colour poison data s (by omega)).trans (if_pos ⟨rfl, hi⟩)
  rw [hst, padTo_of_length (by simp)]

/-- A read decodes what is stored, under the policy of its stack. -/
theorem readSector_of_storedSector {s : State} {q : Nat} {st : List Byte} (colour : BitVec 8)
    (h : storedSector s q = st) : readSector s q colour =
      (classify (policyOf s (secStack q)) colour st,
        outcomeData st (classify (policyOf s (secStack q)) colour st)) := by
  rw [readSector, h]

/-- Keeping the entries whose index a predicate holds for. -/
theorem tfind_filter {α : Type} (p : Nat → Bool) (t : Table α) (k : Nat) :
    tfind (t.filter fun c => p c.1) k = if p k then tfind t k else none := by
  induction t with
  | nil => simp
  | cons c t ih =>
    obtain ⟨j, v⟩ := c
    by_cases hj : j = k
    · subst hj
      cases hp : p j <;> simp [hp, tfind, ih]
    · cases hp : p j <;> simp [hp, tfind, ih, hj]

/-- A byte that a new whole-range write covers reads unlisted as the write says. -/
theorem unlistedByte_cons_of_covers {big : Bool} {f : Fill} (fills : List Fill) {q : Nat} (i : Nat)
    (h : fillCovers big f q = true) :
    unlistedByte big (f :: fills) q i = (encodeSector f.colour f.poison []).getD i 0 := by
  simp [unlistedByte, h]

/-- The range that a whole-range write of the device adds. -/
def rangeFill (n lo hi : Nat) (colour : BitVec 8) (poison : Bool) (s : State) : Fill :=
  { stack := n, lo := lo, hi := hi, mapped := (stackOf s n).mapped, colour := colour, poison := poison }

theorem stored_fillRange (n lo hi : Nat) (colour : BitVec 8) (poison : Bool) (s : State) (q : Nat) {i : Nat}
    (h64 : i < 64) : stored (fillRange n lo hi colour poison s) q i =
      if fillCovers s.ident.big (rangeFill n lo hi colour poison s) q = true then
        (encodeSector colour poison []).getD i 0
      else stored s q i := by
  have hfind := tfind_filter (fun a => !fillCovers s.ident.big (rangeFill n lo hi colour poison s) (a / 64))
    s.hbm.cells (q * 64 + i)
  rw [show (q * 64 + i) / 64 = q by omega] at hfind
  have hs : stored (fillRange n lo hi colour poison s) q i =
      (if !fillCovers s.ident.big (rangeFill n lo hi colour poison s) q then tfind s.hbm.cells (q * 64 + i)
        else none).getD (unlistedByte s.ident.big (rangeFill n lo hi colour poison s :: s.hbm.fills) q i) :=
    congrArg (Option.getD · _) hfind
  rw [hs]
  cases hc : fillCovers s.ident.big (rangeFill n lo hi colour poison s) q with
  | true => exact unlistedByte_cons_of_covers s.hbm.fills i hc
  | false => rw [unlistedByte_cons _ _ _ _ _ hc]; rfl

/-- Settles O57: a sector's bytes are what its write encoded, which decodes to clean or to poison under every policy. -/
theorem storedSectors : Obligations.StoredSectors := by
  unfold Obligations.StoredSectors
  refine ⟨?_, ?_, ?_, potByte_potStore⟩
  · intro q colour data s
    rw [readSector_of_storedSector colour (storedSector_writeSector q colour false data s), classify_written,
      readSector_of_storedSector colour (storedSector_writeSector q colour true data s), classify_poisoned]
    simp [outcomeData, padTo_of_length, take_encodeSector]
  · intro q colour poison data s q' i hq hi
    rw [stored_writeSector q q' colour poison data s hi, if_neg fun h => hq h.1]
  · rintro n lo hi colour poison s f q i rfl h64
    exact stored_fillRange n lo hi colour poison s q h64

end Sys2Proof.Machine
end

section
/-! Repair, map-out and retirement commands start their procedures (O21). -/

namespace Sys2Proof.Machine

open Sys2Proof

/-! ### REPAIR_ROW and REPAIR_LANE (R293, R309) -/

/-- s with a repair command noted at its channel and the repair's entry asked for. -/
def repairStarted (ch : Nat) (c : Cmd) (j : FlashJob) (s : State) : State :=
  pushJob j (modChan ch (fun x => { x with repairCmd := some c }) s)

theorem repairCmd_repairStarted (ch : Nat) (c : Cmd) (j : FlashJob) (s : State) :
    (chanOf (repairStarted ch c j s) ch).repairCmd = some c :=
  congrArg Chan.repairCmd (chanOf_setChan_self ch _ s)

theorem repairRowWork_wait {c : Cmd} {s : State} (hn : par c 0 1 < 8) (hv : par c 2 2 < 64)
    (hb : par c 4 1 < bankCount s.ident.big) (hr : par c 6 2 < 16384)
    (hok : repairRefused s (par c 0 1) (par c 2 2 / 2) = none) (hs : bitOf (par c 8 1) 0 = false)
    (ht : repairTaken s (par c 0 1 * 32 + par c 2 2 / 2) = false) (ha : s.flash.answers = true) :
    repairRowWork c s = .wait (repairStarted (par c 0 1 * 32 + par c 2 2 / 2) c
      (.rowRepair (par c 0 1 * 32 + par c 2 2 / 2)
        { pc := par c 0 1 * 64 + par c 2 2, bank := par c 4 1, row := par c 6 2 } false) s) := by
  have hfields : ¬ (8 ≤ par c 0 1 || 64 ≤ par c 2 2 || bankCount s.ident.big ≤ par c 4 1 || 16384 ≤ par c 6 2 : Bool) =
      true := by
    simp only [Bool.or_eq_true, decide_eq_true_eq]
    omega
  simp only [repairRowWork, if_neg hfields, hok, hs, ht, ha, Bool.false_and, Bool.not_true, Bool.false_eq_true,
    if_false]
  rfl

theorem repairLaneWork_wait {c : Cmd} {s : State} (hn : par c 0 1 < 8) (hv : par c 2 2 < 64) (hl : par c 4 1 < 64)
    (hok : repairRefused s (par c 0 1) (par c 2 2 / 2) = none)
    (ht : repairTaken s (par c 0 1 * 32 + par c 2 2 / 2) = false)
    (hsp : laneSpare s (par c 0 1 * 64 + par c 2 2) (par c 4 1) = true) (ha : s.flash.answers = true) :
    repairLaneWork c s = .wait (repairStarted (par c 0 1 * 32 + par c 2 2 / 2) c
      (.laneRepair (par c 0 1 * 32 + par c 2 2 / 2) (par c 0 1 * 64 + par c 2 2) (par c 4 1)) s) := by
  have hfields : ¬ (8 ≤ par c 0 1 || 64 ≤ par c 2 2 || 64 ≤ par c 4 1 : Bool) = true := by
    simp only [Bool.or_eq_true, decide_eq_true_eq]
    omega
  simp only [repairLaneWork, if_neg hfields, hok, ht, hsp, ha, Bool.not_true, Bool.false_eq_true, if_false]
  rfl

/-! ### MAPOUT_CHANNEL (R302) and RETIRE_PAGE (R282) -/

theorem mapoutChannelWork_wait {c : Cmd} {s : State} (hn : par c 0 1 < 8) (hc : par c 1 1 < 32)
    (hok : repairRefused s (par c 0 1) (par c 1 1) = none) (hm : (stackOf s (par c 0 1)).mapout = none)
    (hr : (stackOf s (par c 0 1)).retireProc = none) (hl : (stackOf s (par c 0 1)).mapped.length < 4)
    (hf : foldReady s (par c 0 1) = true) (ha : s.flash.answers = true) : mapoutChannelWork c s =
      .wait (startMapout (par c 0 1) { ch := par c 1 1, cmd := some c, forced := false } s) := by
  simp [mapoutChannelWork, Nat.not_le.mpr hn, Nat.not_le.mpr hc, hok, hm, hr, hl, hf, ha, Nat.not_le.mpr hl]

/-- The entry that a RETIRE_PAGE stores: its row, the cause of a pending advice or 3, and the time. -/
def retireEntry (c : Cmd) (s : State) : RetEntry :=
  { pc := par c 2 2, bank := par c 4 1, row := par c 6 2, timebase := now s % 2 ^ 48,
    cause := match (stackOf s (par c 0 1)).pending.find?
        (fun a => a.pc == par c 2 2 && a.bank == par c 4 1 && a.row == par c 6 2) with
      | some a => a.cause
      | none => 3 }

theorem retirePageWork_wait {c : Cmd} {s : State} (hn : par c 0 1 < 8) (hv : par c 2 2 / 64 = par c 0 1)
    (hb : par c 4 1 < bankCount s.ident.big) (hr : par c 6 2 < 16384)
    (hst : rowStored s (par c 0 1) (par c 2 2 % 64) (par c 4 1) (par c 6 2) = false)
    (hl : (retiredEntries s (par c 0 1)).length < 8192) (ha : s.flash.answers = true) :
    retirePageWork c s = .wait (pushJob (.retirePage c (par c 0 1) (retireEntry c s)) s) := by
  have hfields : ¬ (8 ≤ par c 0 1 || par c 2 2 / 64 ≠ par c 0 1 || bankCount s.ident.big ≤ par c 4 1 ||
      16384 ≤ par c 6 2 : Bool) = true := by
    simp only [Bool.or_eq_true, decide_eq_true_eq]
    omega
  simp only [retirePageWork, if_neg hfields, hst, if_neg (Nat.not_le.mpr hl), ha, Bool.not_true, Bool.false_eq_true,
    if_false]
  rfl

/-- Settles O21: the fields pass and the channel serves, so that each command waits for the entry it asks for. -/
theorem repairCommands : Obligations.RepairCommands := by
  unfold Obligations.RepairCommands
  refine ⟨?_, ?_, ?_, ?_⟩
  · intro c s h hn hv hb hr hok hs ht ha
    exact ⟨_, congrArg Host.Outcome.next (mailbox_wait h (repairRowWork_wait hn hv hb hr hok hs ht ha)),
      repairCmd_repairStarted _ _ _ _, rfl, rfl⟩
  · intro c s h hn hv hl hok ht hsp ha
    exact ⟨_, congrArg Host.Outcome.next (mailbox_wait h (repairLaneWork_wait hn hv hl hok ht hsp ha)),
      repairCmd_repairStarted _ _ _ _, rfl, rfl⟩
  · intro c s h hn hc hok hm hr hl hf ha
    exact congrArg Host.Outcome.next (mailbox_wait h (mapoutChannelWork_wait hn hc hok hm hr hl hf ha))
  · intro c s h hn hv hb hr hst hl ha
    exact ⟨retireEntry c s, rfl, rfl, rfl,
      congrArg Host.Outcome.next (mailbox_wait h (retirePageWork_wait hn hv hb hr hst hl ha))⟩

end Sys2Proof.Machine
end

section
/-! The windows and ends of lane and row repairs (O41). -/

namespace Sys2Proof.Machine

open Sys2Proof

/-! ### What ending a command leaves alone -/

theorem finish_cmds_congr (op : Nat) (c : Cmd) (st : Nat) (r : List Byte) {s t : State} (h : t.cmds = s.cmds) :
    (finish op c st r t).cmds = (finish op c st r s).cmds := by
  unfold finish
  rw [h]
  dsimp only
  split
  · rfl
  · split <;> rfl

theorem pcOf_finish (op : Nat) (c : Cmd) (st : Nat) (r : List Byte) (s : State) (q : Nat) :
    pcOf (finish op c st r s) q = pcOf s q := by
  rw [finish_frame]
  rfl

theorem chanOf_finish (op : Nat) (c : Cmd) (st : Nat) (r : List Byte) (s : State) (ch : Nat) :
    chanOf (finish op c st r s) ch = chanOf s ch := by
  rw [finish_frame]
  rfl

/-! ### Windows (R290, R308)

Opening and closing a window, retraining in it and moving sectors reach only channels, pseudo-channels and counters. -/

/-- t differs from s at most in its channels, its pseudo-channels and its telemetry. -/
def WindowFrame (s t : State) : Prop :=
  ∃ chans pcs tele, t = { s with chans := chans, pcs := pcs, tele := tele }

section
variable {s t u : State}

theorem WindowFrame.refl (s : State) : WindowFrame s s := ⟨_, _, _, rfl⟩

theorem WindowFrame.trans (h : WindowFrame s t) (g : WindowFrame t u) : WindowFrame s u := by
  obtain ⟨_, _, _, rfl⟩ := h
  obtain ⟨_, _, _, rfl⟩ := g
  exact ⟨_, _, _, rfl⟩

theorem WindowFrame.foldl {α : Type} {f : State → α → State} (h : ∀ s a, WindowFrame s (f s a)) (l : List α)
    (s : State) : WindowFrame s (l.foldl f s) := by
  induction l generalizing s with
  | nil => exact .refl s
  | cons a l ih => exact (h s a).trans (ih _)

theorem WindowFrame.stackOf_eq (h : WindowFrame s t) (n : Nat) : stackOf t n = stackOf s n := by
  obtain ⟨_, _, _, rfl⟩ := h; rfl

theorem WindowFrame.path (h : WindowFrame s t) : t.path = s.path := by
  obtain ⟨_, _, _, rfl⟩ := h; rfl

theorem WindowFrame.cmds (h : WindowFrame s t) : t.cmds = s.cmds := by
  obtain ⟨_, _, _, rfl⟩ := h; rfl

theorem WindowFrame.flash (h : WindowFrame s t) : t.flash = s.flash := by
  obtain ⟨_, _, _, rfl⟩ := h; rfl

end

theorem modChan_windowFrame (ch : Nat) (f : Chan → Chan) (s : State) : WindowFrame s (modChan ch f s) :=
  ⟨_, _, _, rfl⟩

theorem prechargeAll_windowFrame (fp : Nat) (s : State) : WindowFrame s (prechargeAll fp s) := ⟨_, _, _, rfl⟩

theorem openWindow_windowFrame (ch : Nat) (s : State) : WindowFrame s (openWindow ch s) := by
  unfold openWindow
  split
  · exact .refl s
  · have hopened (s : State) : WindowFrame s (countEvent (stackCtr (ch / 32) 27) 1
        (modChan ch (fun c => { c with windowOpen := true, windows := c.windows + 1 }) s)) := ⟨_, _, _, rfl⟩
    exact ((modChan_windowFrame ch _ s).trans (.foldl (fun s fp => prechargeAll_windowFrame fp s) _ _)).trans
      (hopened _)

theorem moveForced_windowFrame (fp ticks : Nat) (s : State) : WindowFrame s (moveForced fp ticks s) := by
  unfold moveForced
  dsimp only
  split
  · exact .refl s
  · exact ⟨_, _, _, rfl⟩

theorem chanBack_windowFrame (ch : Nat) (s : State) : WindowFrame s (chanBack ch s) := by
  unfold chanBack
  dsimp only
  split
  · exact .refl s
  · split
    · exact .refl s
    · exact (WindowFrame.trans ⟨_, _, _, rfl⟩ (moveForced_windowFrame _ _ _)).trans (moveForced_windowFrame _ _ _)

theorem closeWindow_windowFrame (ch : Nat) (s : State) : WindowFrame s (closeWindow ch s) :=
  (modChan_windowFrame _ _ s).trans (chanBack_windowFrame ch _)

theorem windowRetrained_windowFrame (ch : Nat) (s : State) : WindowFrame s (windowRetrained ch s) :=
  .foldl (fun _ _ => ⟨_, _, _, rfl⟩) _ s

theorem chanOf_of_chans {s t : State} (h : t.chans = s.chans) (ch : Nat) : chanOf t ch = chanOf s ch := by
  rw [chanOf, h, ← chanOf]

/-- What a window that opens or stays open keeps of its channel. -/
def windowUse (s : State) (ch : Nat) : Window × Nat := ((chanOf s ch).window, (chanOf s ch).repairSteps)

theorem windowUse_modChan {f : Chan → Chan} (hw : ∀ c, (f c).window = c.window)
    (hr : ∀ c, (f c).repairSteps = c.repairSteps) (k : Nat) (s : State) (ch : Nat) :
    windowUse (modChan k f s) ch = windowUse s ch := by
  unfold windowUse
  rw [modChan_eq, chanOf_setChan]
  split
  · next h => rw [hw, hr, h]
  · rfl

theorem windowUse_retryPush (fp : Nat) (c : RetryCmd) (s : State) (ch : Nat) :
    windowUse (retryPush fp c s) ch = windowUse s ch := by
  unfold retryPush
  exact windowUse_modChan (fun _ => by rfl) (fun _ => by rfl) _ s ch

theorem windowUse_prechargeAll (fp : Nat) (s : State) (ch : Nat) : windowUse (prechargeAll fp s) ch = windowUse s ch :=
  windowUse_retryPush _ _ s ch

theorem windowUse_chanAway (ch : Nat) (s : State) : windowUse (chanAway ch s) ch = windowUse s ch := by
  unfold chanAway
  exact windowUse_modChan (fun _ => by rfl) (fun _ => by rfl) ch s ch

theorem windowUse_countEvent (i n : Nat) (s : State) (ch : Nat) :
    windowUse (countEvent i n s) ch = windowUse s ch := rfl

/-- An open window serves what it was asked for. -/
theorem windowUse_openWindow (ch : Nat) (s : State) : windowUse (openWindow ch s) ch = windowUse s ch := by
  unfold openWindow
  split
  · rfl
  · have hshut := foldl_keeps (fun s => windowUse s ch) (fun s fp => windowUse_prechargeAll fp s ch) (chanPcs ch)
      (chanAway ch s)
    rw [windowUse_countEvent, windowUse_modChan (fun _ => by rfl) (fun _ => by rfl), hshut, windowUse_chanAway]

theorem windowOpen_openWindow (ch : Nat) (s : State) : (chanOf (openWindow ch s) ch).windowOpen = true := by
  unfold openWindow
  split
  · assumption
  · rw [chanOf_countEvent, modChan_eq, chanOf_setChan_self]

theorem pcOf_prechargeAll (fp : Nat) (s : State) (q : Nat) :
    pcOf (prechargeAll fp s) q = if q = fp then { pcOf s q with rows := [] } else pcOf s q := by
  rw [prechargeAll, modPc_eq, pcOf_setPc, pcOf_retryPush, pcOf_retryPush]
  split
  · next h => rw [h]
  · rfl

/-- A window that opens finds every bank of its channel precharged (R290). -/
theorem rows_openWindow {ch fp : Nat} {s : State} (h : fp ∈ chanPcs ch) (hw : (chanOf s ch).windowOpen = false) :
    (pcOf (openWindow ch s) fp).rows = [] := by
  rw [openWindow, if_neg (by simp [hw]), pcOf_countEvent, pcOf_modChan]
  change (pcOf (prechargeAll (2 * ch + 1) (prechargeAll (2 * ch) _)) fp).rows = []
  obtain rfl | rfl : fp = 2 * ch ∨ fp = 2 * ch + 1 := by simpa [chanPcs] using h
  · simp [pcOf_prechargeAll]
  · simp [pcOf_prechargeAll]

theorem chanOf_chanBack (ch : Nat) (s : State) :
    ∃ a, chanOf (chanBack ch s) ch = { chanOf s ch with awayFrom := a } := by
  unfold chanBack
  dsimp only
  split
  · exact ⟨_, rfl⟩
  · split
    · exact ⟨_, rfl⟩
    · exact ⟨none, by rw [chanOf, moveForced_chans, moveForced_chans, ← chanOf, chanOf_setChan_self]⟩

theorem chanOf_closeWindow (ch : Nat) (s : State) : ∃ a, chanOf (closeWindow ch s) ch =
    { chanOf s ch with windowOpen := false, window := .none, awayFrom := a } := by
  obtain ⟨a, h⟩ := chanOf_chanBack ch (modChan ch (fun c => { c with windowOpen := false, window := .none }) s)
  exact ⟨a, by rw [closeWindow, h, modChan_eq, chanOf_setChan_self]⟩

/-- A window that closes moves forced calibrations, and nothing else of the pseudo-channels. -/
theorem pcOf_closeWindow (ch q : Nat) (s : State) :
    ∃ cal, pcOf (closeWindow ch s) q = { pcOf s q with cal := cal } := by
  obtain ⟨cal, h⟩ := pcOf_chanBack ch q (modChan ch (fun c => { c with windowOpen := false, window := .none }) s)
  exact ⟨cal, by rw [closeWindow, h, pcOf_modChan]⟩

theorem pcOf_windowCounts (fp q : Nat) (s : State) :
    ∃ cal, pcOf (windowCounts fp s) q = { pcOf s q with cal := cal } := by
  rw [windowCounts, pcOf_countEvent, modPc_eq, pcOf_setPc]
  split
  · next h => exact ⟨_, by rw [h]⟩
  · exact ⟨_, rfl⟩

/-- A window's retraining is counted among the calibrations. -/
theorem pcOf_windowRetrained (ch q : Nat) (s : State) :
    ∃ cal, pcOf (windowRetrained ch s) q = { pcOf s q with cal := cal } := by
  obtain ⟨_, h⟩ := pcOf_windowCounts (2 * ch) q s
  obtain ⟨cal, h'⟩ := pcOf_windowCounts (2 * ch + 1) q (windowCounts (2 * ch) s)
  exact ⟨cal, h'.trans (by rw [h])⟩

theorem windowRetrained_chans (ch : Nat) (s : State) : (windowRetrained ch s).chans = s.chans :=
  foldl_keeps (f := fun s fp => windowCounts fp s) State.chans (fun _ _ => rfl) (chanPcs ch) s

/-! ### Lane repair (R287, R288, R291) -/

theorem laneWindow_of_mayOpen {ch p l : Nat} {s : State} (hw : (chanOf s ch).window = .laneRepair p l)
    (hb : (chanOf s ch).bench = .none) (hm : mayOpen s ch = true) : laneWindow ch s = openWindow ch s := by
  simp [laneWindow, hw, hb, hm]

/-- s with data lane l of pseudo-channel p replaced in channel ch's window: retrained, and its scrub due. -/
def laneReplaced (ch p l : Nat) (s : State) : State :=
  modPc p (fun x => { x with scrub := some l })
    (modStack (ch / 32) (fun k => { k with laneRepairs := k.laneRepairs + 1 }) (windowRetrained ch (useLane p l s)))

/-- s with lane l of pseudo-channel p in the store's lane records. -/
def laneStored (p l : Nat) (s : State) : State :=
  { s with flash := { s.flash with store := { s.flash.store with laneRecs := s.flash.store.laneRecs ++ [(p, l)] } } }

theorem chanOf_laneReplaced (ch p l k : Nat) (s : State) : chanOf (laneReplaced ch p l s) k = chanOf s k :=
  chanOf_of_chans (windowRetrained_chans ch (useLane p l s)) k

theorem pcOf_laneReplaced (ch p : Nat) {l : Nat} (s : State) (hl : l < 36) : ∃ cal, pcOf (laneReplaced ch p l s) p =
    { pcOf s p with lanesUsed := (pcOf s p).lanesUsed ++ [l], scrub := some l, cal := cal } := by
  obtain ⟨cal, h⟩ := pcOf_windowRetrained ch p (useLane p l s)
  have hused : pcOf (useLane p l s) p = { pcOf s p with lanesUsed := (pcOf s p).lanesUsed ++ [l] } := by
    rw [useLane, if_pos hl, modPc_eq, pcOf_setPc_self]
  have hstack (v : Stack) (u : State) : pcOf (setStack (ch / 32) v u) p = pcOf u p := rfl
  exact ⟨cal, by rw [laneReplaced, modPc_eq, pcOf_setPc_self, modStack_eq, hstack, h, hused]⟩

theorem chanOf_laneStored (p l k : Nat) (s : State) : chanOf (laneStored p l s) k = chanOf s k := rfl

theorem laneDone_of_cmd {ch p l : Nat} {s : State} {c : Cmd} (hc : (chanOf s ch).repairCmd = some c) :
    laneDone ch p l s =
      finish 0x0602 c stOK [] (modChan ch (fun x => { x with repairCmd := none }) (laneStored p l s)) := by
  rw [laneDone, hc]
  rfl

/-- s with a data lane's repair done and its command c ended. -/
def laneEnded (ch p l : Nat) (c : Cmd) (s : State) : State :=
  finish 0x0602 c stOK [] (modChan ch (fun x => { x with repairCmd := none }) (laneStored p l (laneReplaced ch p l s)))

theorem chanOf_laneEnded (ch p l : Nat) (c : Cmd) (s : State) :
    chanOf (laneEnded ch p l c s) ch = { chanOf s ch with repairCmd := none } := by
  rw [laneEnded, chanOf_finish, modChan_eq, chanOf_setChan_self, chanOf_laneStored, chanOf_laneReplaced]

theorem pcOf_laneStored (p l : Nat) (s : State) (q : Nat) : pcOf (laneStored p l s) q = pcOf s q := rfl

theorem pcOf_laneEnded (ch p : Nat) {l : Nat} (c : Cmd) (s : State) (hl : l < 36) : ∃ cal,
    pcOf (laneEnded ch p l c s) p =
      { pcOf s p with lanesUsed := (pcOf s p).lanesUsed ++ [l], scrub := some l, cal := cal } := by
  rw [laneEnded, pcOf_finish, pcOf_modChan, pcOf_laneStored]
  exact pcOf_laneReplaced ch p s hl

theorem laneEnded_cmds (ch p l : Nat) (c : Cmd) (s : State) :
    (laneEnded ch p l c s).cmds = (finish 0x0602 c stOK [] s).cmds := by
  refine finish_cmds_congr _ _ _ _ ?_
  simp [laneStored, laneReplaced, useLane, (windowRetrained_windowFrame ch _).cmds]

theorem laneEnded_laneRecs (ch p l : Nat) (c : Cmd) (s : State) :
    (laneEnded ch p l c s).flash.store.laneRecs = s.flash.store.laneRecs ++ [(p, l)] := by
  have hflash := (windowRetrained_windowFrame ch (useLane p l s)).flash
  rw [laneEnded, finish_flash]
  exact congrArg (fun f : Flash => f.store.laneRecs ++ [(p, l)]) hflash

/-- A data lane's repair that succeeds replaces the lane, starts its scrub, ends its command and closes the window. -/
theorem laneEnd_of_spare {ch p l : Nat} {s : State} {c : Cmd} (hw : (chanOf s ch).window = .laneRepair p l)
    (hr : repairRuns s ch = true) (hl : l < 36) (hs : laneSpare s p l = true) (hq : (chanOf s ch).laneQueue = [])
    (hc : (chanOf s ch).repairCmd = some c) : laneEnd ch true s = closeWindow ch (laneEnded ch p l c s) := by
  have hcmd : (chanOf (laneReplaced ch p l s) ch).repairCmd = some c := by rw [chanOf_laneReplaced, hc]
  have hdone : laneDone ch p l (laneReplaced ch p l s) = laneEnded ch p l c s := laneDone_of_cmd hcmd
  have hqueue : (chanOf (laneDone ch p l (laneReplaced ch p l s)) ch).laneQueue = [] := by
    rw [hdone, chanOf_laneEnded, hq]
  rw [← hdone]
  rw [laneReplaced] at hqueue ⊢
  simp only [laneEnd, hw, hr, hs, hl, Bool.not_true, Bool.false_eq_true, Bool.and_self, if_true, if_false, hqueue]

/-! ### Row repair (R293, R294) -/

theorem rowWindow_of_mayOpen {ch : Nat} {r : RowRec} {h : Bool} {s : State}
    (hw : (chanOf s ch).window = .rowRepair r h) (hb : (chanOf s ch).bench = .none) (hm : mayOpen s ch = true) :
    rowWindow ch s = openWindow ch (rowMoves r.pc (modChan ch (fun c => { c with repairSteps := 2 }) s)) := by
  simp [rowWindow, hw, hb, hm]

/-- s with the sectors of a repaired row moved and carried over (R293). -/
def rowCarried (r : RowRec) (s : State) : State := (rowSectors r).foldl (fun s q => carrySector q s) (rowMoves r.pc s)

theorem carrySector_frame (q : Nat) (s : State) : carrySector q s = { s with hbm := (carrySector q s).hbm } := by
  fun_cases carrySector q s <;> rfl

theorem stackOf_carrySector (q : Nat) (s : State) (n : Nat) : stackOf (carrySector q s) n = stackOf s n := by
  rw [carrySector_frame]
  rfl

theorem stackOf_rowCarried (r : RowRec) (s : State) (n : Nat) : stackOf (rowCarried r s) n = stackOf s n :=
  foldl_keeps (stackOf · n) (fun s q => stackOf_carrySector q s n) (rowSectors r) (rowMoves r.pc s)

theorem rowEnd_of_soft {ch : Nat} {r : RowRec} {s : State} (hw : (chanOf s ch).window = .rowRepair r false)
    (hr : repairRuns s ch = true) (h2 : 2 ≤ (chanOf s ch).repairSteps) (hs : rowResource s r false = true) :
    rowEnd ch true s = failRepairCmd ch 0x0601 stOK (closeWindow ch
      (modChan ch (fun c => { c with repairSteps := 0 }) (rowRepaired r false (rowCarried r s)))) := by
  rw [rowEnd, hw]
  simp only [hr, hs, Nat.not_lt.mpr h2, decide_false, Bool.not_true, Bool.or_self, Bool.and_self, Bool.false_eq_true,
    if_true, if_false, rowCarried]

/-- Ending a repair's command reaches the list of commands and the channels alone. -/
theorem failRepairCmd_frame (ch op st : Nat) (s : State) :
    ∃ chans cmds, failRepairCmd ch op st s = { s with chans := chans, cmds := cmds } := by
  unfold failRepairCmd
  split
  · exact ⟨_, _, rfl⟩
  · exact ⟨_, _, finish_frame _ _ _ _ _⟩

theorem stackOf_failRepairCmd (ch op st : Nat) (s : State) (n : Nat) :
    stackOf (failRepairCmd ch op st s) n = stackOf s n := by
  obtain ⟨_, _, h⟩ := failRepairCmd_frame ch op st s
  rw [h]
  rfl

theorem pcOf_failRepairCmd (ch op st : Nat) (s : State) (q : Nat) :
    pcOf (failRepairCmd ch op st s) q = pcOf s q := by
  obtain ⟨_, _, h⟩ := failRepairCmd_frame ch op st s
  rw [h]
  rfl

theorem windowOpen_failRepairCmd (ch op st : Nat) (s : State) :
    (chanOf (failRepairCmd ch op st s) ch).windowOpen = (chanOf s ch).windowOpen := by
  unfold failRepairCmd
  split
  · rfl
  · rw [chanOf_finish, modChan_eq, chanOf_setChan_self]

theorem contains_insertNat (l : List Nat) (n : Nat) : (insertNat l n).contains n = true :=
  List.contains_iff_mem.mpr (mem_insertNat l n)

/-- A soft repair takes its row into the stack's list, and its bank's one resource. -/
theorem stackOf_rowRepaired (r : RowRec) (s : State) : stackOf (rowRepaired r false s) (r.pc / 64) =
    { stackOf s (r.pc / 64) with softRows := (stackOf s (r.pc / 64)).softRows ++ [r] } :=
  stackOf_setStack_self _ _ s

theorem spprBanks_rowRepaired (r : RowRec) (s : State) :
    (pcOf (rowRepaired r false s) r.pc).spprBanks.contains r.bank = true := by
  change (pcOf (setPc r.pc _ _) r.pc).spprBanks.contains r.bank = true
  rw [pcOf_setPc_self]
  exact contains_insertNat _ _

/-- Settles O41: each event's conditions hold, so that it opens the window, or does the repair and closes it. -/
theorem repairEvents : Obligations.RepairEvents := by
  unfold Obligations.RepairEvents
  refine ⟨?_, ?_, ?_, ?_, ?_⟩
  · intro s ch p l hw ho hb hm
    have huse := windowUse_openWindow ch.val s
    exact ⟨_, congrArg Host.Outcome.next (laneWindow_of_mayOpen hw hb hm), windowOpen_openWindow _ s,
      (congrArg Prod.fst huse).trans hw, fun fp hfp => rows_openWindow hfp ho⟩
  · intro s ch p l c hw hr hl hs hq hc
    have hend := laneEnd_of_spare hw hr hl hs hq hc
    have hframe := closeWindow_windowFrame ch (laneEnded ch p l c s)
    obtain ⟨_, hclose⟩ := pcOf_closeWindow ch p (laneEnded ch p l c s)
    obtain ⟨_, hlane⟩ := pcOf_laneEnded ch p c s hl
    obtain ⟨_, hch⟩ := chanOf_closeWindow ch (laneEnded ch p l c s)
    rw [hlane] at hclose
    rw [chanOf_laneEnded] at hch
    refine ⟨_, congrArg Host.Outcome.next hend, ?_, ?_, ?_, ?_, ?_, ?_, ?_, ?_⟩
    · rw [hclose]
    · rw [hclose]
    · rw [hch]
    · rw [hch]
    · rw [hch]
    · rw [hframe.cmds, laneEnded_cmds]
    · rw [hframe.flash, laneEnded_laneRecs]
    · rw [← hend]
      exact hbm_of_fixed (τ := {}) (fixed_laneEnd _ _ s) rfl
  · intro s fp
    rfl
  · intro s ch r h hw ho hb hm
    have huse := windowUse_openWindow ch.val (rowMoves r.pc (modChan ch (fun c => { c with repairSteps := 2 }) s))
    refine ⟨_, congrArg Host.Outcome.next (rowWindow_of_mayOpen hw hb hm), windowOpen_openWindow _ _,
      (congrArg Prod.snd huse).trans ?_⟩
    exact congrArg Chan.repairSteps (chanOf_setChan_self ch.val _ s)
  · intro s ch r hw hr h2 hs
    obtain ⟨u, hu⟩ : ∃ u, u = modChan ch (fun c => { c with repairSteps := 0 })
      (rowRepaired r false (rowCarried r s)) := ⟨_, rfl⟩
    have hend := rowEnd_of_soft hw hr h2 hs
    rw [← hu] at hend
    have hsppr : (pcOf (closeWindow ch u) r.pc).spprBanks = (pcOf u r.pc).spprBanks := by
      obtain ⟨_, h⟩ := pcOf_closeWindow ch r.pc u
      rw [h]
    obtain ⟨_, hch⟩ := chanOf_closeWindow ch u
    refine ⟨_, congrArg Host.Outcome.next hend, ?_, ?_, ?_, ?_⟩
    · rw [stackOf_failRepairCmd, (closeWindow_windowFrame ch u).stackOf_eq, hu, stackOf_modChan, stackOf_rowRepaired,
        stackOf_rowCarried]
    · rw [pcOf_failRepairCmd, hsppr, hu, pcOf_modChan]
      exact spprBanks_rowRepaired r (rowCarried r s)
    · rw [windowOpen_failRepairCmd, hch]
    · have hfixed : fixed {} (failRepairCmd ch 0x0601 stOK (closeWindow ch u)) = fixed {} (rowCarried r s) := by
        rw [fixed_failRepairCmd, fixed_closeWindow, hu, modChan_eq, fixed_setChan, fixed_rowRepaired]
      exact hbm_of_fixed hfixed rfl

end Sys2Proof.Machine
end

section
/-! Map-out windows, the retirement of a stack and prepared extents (O42). -/

namespace Sys2Proof.Machine

open Sys2Proof

/-! ### Stacks, channels and requests under sending, completions and stale copies

Releasing what waited for the partner's acknowledgement ends commands and sends frames, which reaches no stack, no
channel and no request. The rules follow the order of the model's files. -/

/-- The stacks, the channels and the sector path. -/
def dieSide (s : State) : Table Stack × Table Chan × Path := (s.stk, s.chans, s.path)

@[simp] theorem dieSide_update (s : State) (pending ident pins clock boot flash fns cmds cfg parts hbm pot buckets qos
    pcs kettle kb power hub dies compute infusers peers twin tele late exers dbg doze refcode out freeCount) :
    dieSide (State.mk pending ident pins clock boot flash fns cmds cfg parts hbm pot s.path buckets qos s.stk s.chans
      pcs kettle kb power hub dies compute infusers peers twin tele late exers dbg doze refcode out freeCount) =
      dieSide s := rfl

@[simp] theorem dieSide_ite (c : Prop) [Decidable c] (a b : State) :
    dieSide (if c then a else b) = if c then dieSide a else dieSide b := apply_ite _ _ _ _

@[simp] theorem dieSide_foldl {α : Type} (f : State → α → State) (l : List α) (s : State)
    (h : ∀ s a, dieSide (f s a) = dieSide s) : dieSide (l.foldl f s) = dieSide s := foldl_keeps dieSide h l s

section
variable {s t : State}

theorem EventFrame.dieSide_eq (h : EventFrame s t) : dieSide t = dieSide s := by
  obtain ⟨_, _, _, _, rfl⟩ := h
  rfl

theorem stackOf_of_dieSide (h : dieSide t = dieSide s) (n : Nat) : stackOf t n = stackOf s n := by
  have hs : t.stk = s.stk := congrArg Prod.fst h
  rw [stackOf, hs, ← stackOf]

theorem chanOf_of_dieSide (h : dieSide t = dieSide s) (ch : Nat) : chanOf t ch = chanOf s ch :=
  chanOf_of_chans (congrArg (fun d => d.2.1) h) ch

theorem path_of_dieSide (h : dieSide t = dieSide s) : t.path = s.path := congrArg (fun d => d.2.2) h

theorem dieSide_of_linkAllow {f : Frame} (h : linkAllow f s = some t) : dieSide t = dieSide s := by
  unfold linkAllow at h
  split at h
  · cases h; rfl
  · rw [(allow_some h).2, dieSide_update]

end

@[simp] theorem dieSide_emit (o : Out) (s : State) : dieSide (emit o s) = dieSide s :=
  (emit_eventFrame o s).dieSide_eq

@[simp] theorem dieSide_logEvent (code tenant sev stack : Nat) (args : List Byte) (rings : List Nat) (s : State) :
    dieSide (logEvent code tenant sev stack args rings s) = dieSide s := (logEvent_frame _ _ _ _ _ _ s).dieSide_eq

@[simp] theorem dieSide_finish (op : Nat) (c : Cmd) (st : Nat) (r : List Byte) (s : State) :
    dieSide (finish op c st r s) = dieSide s := by
  rw [finish_frame]
  rfl

@[simp] theorem dieSide_sendNow (k type : Nat) (f : Frame) (s : State) : dieSide (sendNow k type f s) = dieSide s := by
  simp [sendNow, countEv, countEvent, countVolume]

@[simp] theorem dieSide_emitFrame (k type : Nat) (f : Frame) (s : State) :
    dieSide (emitFrame k type f s) = dieSide s := by simp [emitFrame, setPort]

@[simp] theorem dieSide_allowanceWait (s : State) : dieSide (allowanceWait s) = dieSide s := by
  simp [allowanceWait]

@[simp] theorem dieSide_pump (n k c : Nat) (s : State) : dieSide (pump n k c s) = dieSide s := by
  fun_induction pump n k c s with
  | case6 n s x hx e he hm s' hl fresh f s₁ s₂ ih =>
    rw [ih]
    simp +zetaDelta [ackSent, setConn, freeStep, dieSide_of_linkAllow hl]
  | _ => simp

@[simp] theorem dieSide_connSend (k c type : Nat) (f : Frame) (s : State) :
    dieSide (connSend k c type f s) = dieSide s := by simp [connSend, pumpAll, setConn]

@[simp] theorem dieSide_doHeld (a : HeldAct) (s : State) : dieSide (doHeld a s) = dieSide s := by
  fun_cases doHeld a s <;> simp

@[simp] theorem dieSide_staleCopy (t : Nat) (s : State) : dieSide (staleCopy t s) = dieSide s := by
  simp [staleCopy, releaseHeld, setTwinPart]

@[simp] theorem dieSide_staleOnStack (n : Nat) (s : State) : dieSide (staleOnStack n s) = dieSide s := by
  simp [staleOnStack]

@[simp] theorem dieSide_endMapoutCmd (m : Mapout) (n st : Nat) (s : State) :
    dieSide (endMapoutCmd m n st s) = dieSide s := by fun_cases endMapoutCmd m n st s <;> simp

/-! ### The map-out window opens (R302) -/

/-- s with a map-out's window due at this mark: its channel's window is the map-out's. -/
def mapoutOpening (n : Nat) (m : Mapout) (s : State) : State :=
  modChan (n * 32 + m.ch) (fun c => { c with window := .mapout })
    (modStack n (fun k => { k with mapout := some { m with opened := true, openedAt := s.clock.timebase } }) s)

theorem mapoutOpen_of_ready {n : Nat} {m : Mapout} {s : State} (hm : (stackOf s n).mapout = some m)
    (hr : m.recorded = true) (ho : m.opened = false) (hf : foldReady s n = true) (hs : switchClear s n = true)
    (hp : pourAhead s n = false) (hh : (stackOf s n).thermal.heat ≠ .scald)
    (hc : (chanPcs (n * 32 + m.ch)).any (calibrating s) = false) (ht : s.clock.timebase % 1024 = 0)
    (hu : m.failedChannel = true ∨ fetchUnderWay s (n * 32 + m.ch) = false) :
    mapoutOpen n s = withdraw (n * 32 + m.ch) (openWindow (n * 32 + m.ch) (mapoutOpening n m s)) := by
  have hfetch : (!m.failedChannel && fetchUnderWay s (n * 32 + m.ch)) = false := by
    rcases hu with h | h <;> simp [h]
  simp only [mapoutOpen, hm, hr, ho, hf, hs, hp, hc, hfetch, now, ht, beq_eq_false_iff_ne.mpr hh, Bool.not_true,
    Bool.or_self, ne_eq, not_true_eq_false, decide_false, Bool.false_eq_true, if_false, mapoutOpening]

theorem stackOf_mapoutOpening (n : Nat) (m : Mapout) (s : State) : (stackOf (mapoutOpening n m s) n).mapout =
    some { m with opened := true, openedAt := s.clock.timebase } := by
  rw [mapoutOpening, stackOf_modChan, modStack_eq, stackOf_setStack_self]

/-- No request of the channel that is left to issue stays queued. -/
theorem place_of_mem_withdraw {ch : Nat} {s : State} {r : Req} (h : r ∈ (withdraw ch s).path.reqs)
    (hc : r.stack * 32 + r.pc / 2 = ch) (hm : r.mask ≠ 0) : r.place ≠ .queued := by
  obtain ⟨q, -, rfl⟩ := List.mem_map.mp h
  split at hc
  · next hq => simp [hq]
  · next hq =>
    intro hp
    rw [if_neg hq] at hm hp
    exact hq (by simp [hp, hc, hm])

/-! ### A read that does not come back (R302) -/

/-- A request of whose line one sector is to be issued again, once the window closes. -/
def sectorBack (bit : Nat) (r : Req) : Req :=
  if r.mask.testBit bit then r else { r with mask := r.mask + 2 ^ bit, place := .window }

theorem id_sectorBack (bit : Nat) (r : Req) : (sectorBack bit r).id = r.id := by
  unfold sectorBack
  split <;> rfl

theorem mapoutReadTimeout_of_due {s : State} {id : Nat} {f : Flight} {m : Mapout} (hf : flightOf s id = some f)
    (hw : (chanOf s (flightChan f)).windowOpen = true) (hu : (chanOf s (flightChan f)).window = .mapout)
    (hm : (stackOf s (flightChan f / 32)).mapout = some m) (ho : m.opened = true)
    (hd : m.openedAt + msTicks 1 ≤ s.clock.timebase) (ha : f.also = []) :
    mapoutReadTimeout id s = modReq f.req (sectorBack (f.sector % 2)) (dropFlight id s) := by
  have hdue : due s (m.openedAt + msTicks 1) = true := decide_eq_true hd
  simp only [mapoutReadTimeout, hf, hw, hu, hm, ho, ha, hdue, BEq.rfl, Option.any_some, Bool.and_self, Bool.not_true,
    Bool.or_self, Bool.false_eq_true, if_false, List.foldl_cons, List.foldl_nil]
  rfl

/-! ### The map-out window closes (R301, R302) -/

/-- Two states that agree on the geometry, the stored contents and the mapped-out list agree on the reserved range's
rewrite. -/
theorem writeReserved_hbm_congr {n : Nat} {s t : State} (hi : t.ident = s.ident) (hh : t.hbm = s.hbm)
    (hm : (stackOf t n).mapped = (stackOf s n).mapped) : (writeReserved n t).hbm = (writeReserved n s).hbm := by
  simp only [writeReserved, fillRange, mappedCount, hi, hh, hm]

/-- s with the map of stack n in force that leaves a channel out, which counts as a heavy item (R213). -/
def mapInForce (n ch : Nat) (s : State) : State :=
  let s := modStack n (fun k => { k with mapped := k.mapped ++ [ch % 32], prepared := [], prep := none }) s
  modDie n (fun d => { d with heavyMarks := d.heavyMarks + 1 })
    (countEvent (devCtr 10) 1 { s with cfg := { s.cfg with heavy := tput s.cfg.heavy n (markNow s) } })

/-- The exerciser gives up a channel that is mapped out. -/
def exerFollows (n ch : Nat) (s : State) : State :=
  let e := exerOf s n
  if e.running && e.mode = 0 then
    setExer n { e with cursors := [], hammerEnd := [], mask := e.mask - (Nat.land e.mask (3 * 2 ^ (2 * (ch % 32)))) } s
  else if e.running && e.channel = ch then exerEnd n 3 s
  else s

/-- The pseudo-channels of a channel that is mapped out hold nothing. -/
def pcsCleared (ch : Nat) (s : State) : State := (chanPcs ch).foldl (fun s fp => setPc fp {} s) s

/-- What stands before the channel itself is set at a switch. -/
def mapSwitched (n ch : Nat) (s : State) : State :=
  pcsCleared ch (exerFollows n ch (writeReserved n (mapInForce n ch s)))

theorem mapoutSwitch_eq (n ch : Nat) (s : State) : mapoutSwitch n ch s =
    setChan ch { (chanOf (mapSwitched n ch s) ch) with
      bench := .none, window := .none, windowOpen := false, sr := .asleep, retry := [], retryRows := [],
      awayFrom := none, retrainDue := false } (mapSwitched n ch s) := by
  rw [mapoutSwitch, mapSwitched, pcsCleared, exerFollows, mapInForce]

theorem stackOf_exerEnd {n : Nat} {s : State} (h : (stackOf s n).prepared = []) (reason : Nat) :
    ∃ b, stackOf (exerEnd n reason s) n = { stackOf s n with restore := b } := by
  unfold exerEnd
  dsimp only
  split
  · exact ⟨_, rfl⟩
  · split
    · refine ⟨true, ?_⟩
      rw [needRestore, modStack_eq, stackOf_setStack_self]
      change { stackOf s n with restore := true, prepared := [] } = { stackOf s n with restore := true }
      rw [← h]
    · exact ⟨_, rfl⟩

theorem stackOf_exerFollows {n : Nat} {s : State} (h : (stackOf s n).prepared = []) (ch : Nat) :
    ∃ b, stackOf (exerFollows n ch s) n = { stackOf s n with restore := b } := by
  unfold exerFollows
  dsimp only
  split
  · exact ⟨_, rfl⟩
  · split
    · exact stackOf_exerEnd h 3
    · exact ⟨_, rfl⟩

theorem stackOf_writeReserved (n : Nat) (s : State) (k : Nat) : stackOf (writeReserved n s) k = stackOf s k := rfl

theorem stackOf_mapInForce (n ch : Nat) (s : State) : stackOf (mapInForce n ch s) n =
    { stackOf s n with mapped := (stackOf s n).mapped ++ [ch % 32], prepared := [], prep := none } :=
  stackOf_setStack_self n _ s

theorem stackOf_setChan (ch : Nat) (v : Chan) (s : State) (n : Nat) : stackOf (setChan ch v s) n = stackOf s n := rfl

theorem stackOf_pcsCleared (ch : Nat) (s : State) (n : Nat) : stackOf (pcsCleared ch s) n = stackOf s n := rfl

theorem stackOf_mapoutSwitch (n ch : Nat) (s : State) : ∃ b, stackOf (mapoutSwitch n ch s) n =
    { stackOf s n with mapped := (stackOf s n).mapped ++ [ch % 32], prepared := [], prep := none, restore := b } := by
  have hs := (stackOf_writeReserved n (mapInForce n ch s) n).trans (stackOf_mapInForce n ch s)
  obtain ⟨b, h⟩ := stackOf_exerFollows (s := writeReserved n (mapInForce n ch s)) (by rw [hs]) ch
  exact ⟨b, by rw [mapoutSwitch_eq, stackOf_setChan, mapSwitched, stackOf_pcsCleared, h, hs]⟩

theorem windowOpen_mapoutSwitch (n ch : Nat) (s : State) : (chanOf (mapoutSwitch n ch s) ch).windowOpen = false := by
  rw [mapoutSwitch_eq, chanOf_setChan_self]

/-- The switch stores the reserved range under the new map, and nothing else. -/
theorem mapoutSwitch_hbm (n ch : Nat) (s : State) : (mapoutSwitch n ch s).hbm =
    (writeReserved n (modStack n (fun k => { k with mapped := k.mapped ++ [ch % 32] }) s)).hbm := by
  have hrest : fixed {} (mapoutSwitch n ch s) = fixed {} (writeReserved n (mapInForce n ch s)) := by
    rw [mapoutSwitch_eq]
    simp [mapSwitched, pcsCleared, exerFollows]
  rw [hbm_of_fixed hrest rfl]
  refine writeReserved_hbm_congr rfl rfl ?_
  rw [stackOf_mapInForce, modStack_eq, stackOf_setStack_self]

/-- Every request that the stack's window held goes back to its queue. -/
theorem place_of_mem_release {n : Nat} {s : State} {r : Req} (h : r ∈ (release n s).path.reqs) (hn : r.stack = n) :
    r.place ≠ .window := by
  obtain ⟨q, -, rfl⟩ := List.mem_map.mp h
  split at hn
  · next hq => simp [hq]
  · next hq =>
    intro hp
    rw [if_neg hq] at hp
    exact hq (by simp [hp, hn])

/-- s with the map-out of stack n's channel ch done and its requests released. -/
def mapoutDone (n ch : Nat) (s : State) : State :=
  modStack n (fun k => { k with mapout := none }) (release n (staleOnStack n (mapoutSwitch n ch s)))

theorem stackOf_mapoutDone (n ch : Nat) (s : State) : ∃ b, stackOf (mapoutDone n ch s) n =
    { stackOf s n with
      mapped := (stackOf s n).mapped ++ [ch % 32], prepared := [], prep := none, restore := b, mapout := none } := by
  have hstale := stackOf_of_dieSide (dieSide_staleOnStack n (mapoutSwitch n ch s)) n
  have hrelease : stackOf (release n (staleOnStack n (mapoutSwitch n ch s))) n = _ := hstale
  obtain ⟨b, h⟩ := stackOf_mapoutSwitch n ch s
  exact ⟨b, by rw [mapoutDone, modStack_eq, stackOf_setStack_self, hrelease, h]⟩

theorem windowOpen_mapoutDone (n ch : Nat) (s : State) : (chanOf (mapoutDone n ch s) ch).windowOpen = false := by
  have h : chanOf (mapoutDone n ch s) ch = chanOf (staleOnStack n (mapoutSwitch n ch s)) ch := rfl
  rw [h, chanOf_of_dieSide (dieSide_staleOnStack n _), windowOpen_mapoutSwitch]

theorem nextFailed_of_nil {n : Nat} {s : State} (h : (stackOf s n).mapQueue = []) : nextFailed n s = s := by
  rw [nextFailed, h]

/-- The event of a map-out, then the end of its command. -/
def mapoutReported (m : Mapout) (n kind ch : Nat) (s : State) : State :=
  endMapoutCmd m n stOK
    (logEvent 0x0600 noTenant kind n (leBytes 2 ch ++ leBytes 1 (mappedCount s n)) [0] s)

theorem dieSide_mapoutReported (m : Mapout) (n kind ch : Nat) (s : State) :
    dieSide (mapoutReported m n kind ch s) = dieSide s := by simp [mapoutReported]

theorem fixed_mapoutReported (m : Mapout) (n kind ch : Nat) (s : State) (τ : Touch) :
    fixed τ (mapoutReported m n kind ch s) = fixed τ s := by simp [mapoutReported]

theorem mapoutClose_of_clear {n : Nat} {m : Mapout} {s : State} (hm : (stackOf s n).mapout = some m)
    (ho : m.opened = true) (hh : (stackOf s n).thermal.heat ≠ .scald) (hq : (stackOf s n).mapQueue = [])
    (hs : switchClear s n = true)
    (hf : (s.path.flights.any (fun f => flightChan f == n * 32 + m.ch && f.kind != .cosy)) = false) :
    mapoutClose n s = mapoutReported m n 1 (n * 32 + m.ch) (mapoutDone n (n * 32 + m.ch) s) := by
  have hqueue : (stackOf (mapoutReported m n 1 (n * 32 + m.ch) (mapoutDone n (n * 32 + m.ch) s)) n).mapQueue = [] := by
    obtain ⟨_, h⟩ := stackOf_mapoutDone n (n * 32 + m.ch) s
    rw [stackOf_of_dieSide (dieSide_mapoutReported _ _ _ _ _), h, hq]
  rw [← nextFailed_of_nil hqueue]
  simp only [mapoutClose, hm, ho, hs, hf, beq_eq_false_iff_ne.mpr hh, Bool.not_true, Bool.or_self, Bool.false_eq_true,
    if_false, mapoutReported, mapoutDone]

/-! ### Retirement (R193, R307) -/

/-- The keys of stack n's extents, one for each tenant. -/
def extentKeys (n : Nat) : List Nat := (List.range 128).map (fun t => cfgKey 0x0200 0 (t * 8 + n))

theorem removeExtents_inForce (n : Nat) (s : State) :
    (removeExtents n s).cfg.inForce = s.cfg.inForce.filter (fun e => !(extentKeys n).contains e.1) := by
  unfold removeExtents
  exact congrArg Cfg.inForce (foldl_keeps State.cfg (fun _ _ => by rfl) _ _)

theorem removeExtents_path (n : Nat) (s : State) : (removeExtents n s).path = s.path := by
  unfold removeExtents
  exact foldl_keeps State.path (fun _ _ => by rfl) _ _

/-- The stack's extents leave every partition (R193). -/
theorem extentsOf_of_removed {s t : State} {n k : Nat} (hk : k < 128)
    (h : t.cfg.inForce = (removeExtents n s).cfg.inForce) : extentsOf t k n = [] := by
  have hkey : (extentKeys n).contains (cfgKey 0x0200 0 (k * 8 + n)) = true :=
    List.contains_iff_mem.mpr (List.mem_map_of_mem (f := fun t => cfgKey 0x0200 0 (t * 8 + n)) (List.mem_range.mpr hk))
  rw [extentsOf, cfgList, h, removeExtents_inForce, tfind_filter (fun j => !(extentKeys n).contains j), hkey]
  rfl

/-- Of the stack's requests those to the pot alone go on (R307). -/
theorem kind_of_mem_endStackRequests {n : Nat} {s : State} {r : Req} (h : r ∈ (endStackRequests n s).path.reqs)
    (hn : r.stack = n) : r.kind = .pot := by
  obtain ⟨-, hkeep⟩ := List.mem_filter.mp h
  simpa [hn] using hkeep

/-- s without the requests and the extents of a stack that is retired. -/
def stackLeft (n : Nat) (s : State) : State := removeExtents n (staleOnStack n (endStackRequests n (exerEnd n 3 s)))

/-- s with a stack retired, but for the domains that retirement switches off. -/
def stackRetired (n : Nat) (s : State) : State :=
  modStack n (fun k => { k with
    retired := true, online := false, retireProc := none, mapout := none, mapQueue := [], calRunning := none,
    sleep := {}, restore := false }) (stackLeft n s)

theorem retireStack_eq (n : Nat) (s : State) : retireStack n s = { stackRetired n s with
    power := { (stackRetired n s).power with on := retireDomains n (stackRetired n s).power.on } } := by
  simp only [retireStack, stackRetired, stackLeft]

theorem dieSide_retireStack (n : Nat) (s : State) : dieSide (retireStack n s) = dieSide (stackRetired n s) := by
  rw [retireStack_eq, dieSide_update]

theorem stackOf_retireStack (n : Nat) (s : State) : stackOf (retireStack n s) n = { stackOf (stackLeft n s) n with
    retired := true, online := false, retireProc := none, mapout := none, mapQueue := [], calRunning := none,
    sleep := {}, restore := false } := by
  rw [stackOf_of_dieSide (dieSide_retireStack n s), stackRetired, modStack_eq, stackOf_setStack_self]

theorem retireStack_path (n : Nat) (s : State) :
    (retireStack n s).path = (endStackRequests n (exerEnd n 3 s)).path := by
  rw [path_of_dieSide (dieSide_retireStack n s), stackRetired, modStack_eq, setStack_path, stackLeft,
    removeExtents_path, path_of_dieSide (dieSide_staleOnStack n _)]

theorem retireStack_inForce (n : Nat) (s : State) : (retireStack n s).cfg.inForce = (stackLeft n s).cfg.inForce := by
  rw [retireStack_eq, stackRetired, modStack_eq, setStack_cfg]

/-- s with a stack retired for m, and this counted and reported. -/
def stackReported (n : Nat) (m : Mapout) (s : State) : State :=
  mapoutReported m n 2 (n * 32 + m.ch) (countEvent (stackCtr n 27) 1 (retireStack n s))

theorem dieSide_stackReported (n : Nat) (m : Mapout) (s : State) :
    dieSide (stackReported n m s) = dieSide (retireStack n s) := by
  rw [stackReported, dieSide_mapoutReported, countEvent, dieSide_update]

theorem stackReported_inForce (n : Nat) (m : Mapout) (s : State) :
    (stackReported n m s).cfg.inForce = (stackLeft n s).cfg.inForce := by
  have hfixed : fixed {} (stackReported n m s) = fixed {} (retireStack n s) := by
    rw [stackReported, fixed_mapoutReported, fixed_countEvent]
  rw [inForce_of_fixed hfixed rfl, retireStack_inForce]

theorem retireWindow_of_ready {n : Nat} {m : Mapout} {s : State} (hm : (stackOf s n).retireProc = some m)
    (hr : m.recorded = true) (hh : (stackOf s n).thermal.heat ≠ .scald)
    (hf : ∀ ch ∈ stackChans n, (m.failedChannel = true ∧ ch % 32 = m.ch) ∨ fetchUnderWay s ch = false) :
    retireWindow n s = stackReported n m s := by
  have hfetch : (stackChans n).any (fun ch => !(m.failedChannel && ch % 32 == m.ch) && fetchUnderWay s ch) = false :=
    List.any_eq_false.mpr fun ch hch => by
      rcases hf ch hch with ⟨h1, h2⟩ | h <;> simp [*]
  simp only [retireWindow, hm, hr, hfetch, beq_eq_false_iff_ne.mpr hh, Bool.not_true, Bool.or_self,
    Bool.false_eq_true, if_false, stackReported, mapoutReported]

/-! ### A prepared extent (R296, R297) -/

theorem mem_prepareLeft {s : State} {n x : Nat} (ho : (stackOf s n).online = true)
    (hr : (stackOf s n).retired = false) (hv : (vacateExtents s n).contains x = true)
    (hf : extentFree s n x = true) (hp : (stackOf s n).prepared.contains x = false)
    (hs : (stackOf s n).restore = false) : (prepareLeft s n).contains x = true := by
  rw [prepareLeft]
  simp only [ho, hr, hs, Bool.not_true, Bool.or_self, Bool.false_eq_true, if_false]
  rw [List.contains_iff_mem] at hv ⊢
  exact List.mem_filter.mpr ⟨hv, by simp only [hf, hp, Bool.not_false, Bool.and_self]⟩

theorem foldPrepDone_of_written {s : State} {n x : Nat} (hx : (prepareLeft s n).contains x = true)
    (hp : (stackOf s n).prep = some (x, prepareSectors s n x)) (hr : rinseWaits s n = false) :
    foldPrepDone n x s = modStack n (fun k => { k with prepared := insertNat k.prepared x, prep := none })
      (countVolume (stackCtr n 17) (prepareMiB s n x * 1048576) (prepareExtent n x s)) := by
  simp only [foldPrepDone, hx, hp, hr, BEq.rfl, Bool.not_false, Bool.and_self, if_true]

/-- Settles O42: each event's conditions hold, so that it does its one update; what a map-out or a retirement logs and
ends reaches no stack, no channel and no request. -/
theorem mapoutEvents : Obligations.MapoutEvents := by
  unfold Obligations.MapoutEvents
  refine ⟨?_, ?_, ?_, ?_, ?_⟩
  · rintro s n m _ hm rfl hr ho hf hs hp hh hc ht hu
    have hframe := openWindow_windowFrame (n.val * 32 + m.ch) (mapoutOpening n m s)
    refine ⟨_, congrArg Host.Outcome.next (mapoutOpen_of_ready hm hr ho hf hs hp hh hc ht hu),
      windowOpen_openWindow _ _, ?_, ?_, fun r => place_of_mem_withdraw⟩
    · exact (congrArg Stack.mapout (hframe.stackOf_eq n)).trans (stackOf_mapoutOpening n m s)
    · rw [withdraw, List.length_map, hframe.path]
      rfl
  · intro s id f r m hf hw hu hm ho hd ha hr hbit
    refine ⟨_, congrArg Host.Outcome.next (mapoutReadTimeout_of_due hf hw hu hm ho hd ha), rfl, ?_⟩
    have hreq : reqOf (dropFlight id s) f.req = some r := hr
    rw [reqOf_modReq hreq (id_sectorBack _ r), sectorBack, if_neg (by simp [hbit])]
  · rintro s n m _ hm rfl hlt ho hh hq hs hf
    have hmod : (n.val * 32 + m.ch) % 32 = m.ch := by omega
    have hend := mapoutClose_of_clear hm ho hh hq hs hf
    have hdie := dieSide_mapoutReported m n 1 (n.val * 32 + m.ch) (mapoutDone n (n.val * 32 + m.ch) s)
    obtain ⟨_, hstack⟩ := stackOf_mapoutDone n (n.val * 32 + m.ch) s
    rw [hmod, ← stackOf_of_dieSide hdie] at hstack
    refine ⟨_, congrArg Host.Outcome.next hend, ?_, ?_, ?_, ?_, ?_, ?_⟩
    · rw [hstack]
    · rw [hstack]
    · rw [hstack]
    · rw [chanOf_of_dieSide hdie, windowOpen_mapoutDone]
    · rw [path_of_dieSide hdie]
      exact fun r => place_of_mem_release
    · have hfixed : fixed {} (mapoutReported m n 1 (n.val * 32 + m.ch) (mapoutDone n (n.val * 32 + m.ch) s)) =
          fixed {} (mapoutSwitch n (n.val * 32 + m.ch) s) := by
        rw [fixed_mapoutReported]
        simp [mapoutDone]
      rw [hbm_of_fixed hfixed rfl, mapoutSwitch_hbm, hmod]
  · intro s n m hm hr hh hf
    have hdie := dieSide_stackReported n m s
    have hstack := (stackOf_of_dieSide hdie n).trans (stackOf_retireStack n s)
    refine ⟨_, congrArg Host.Outcome.next (retireWindow_of_ready hm hr hh hf), ?_, ?_, ?_, ?_, fun k hk =>
      extentsOf_of_removed hk (stackReported_inForce n m s)⟩
    · rw [hstack]
    · rw [hstack]
    · rw [hstack]
    · rw [path_of_dieSide hdie, retireStack_path]
      exact fun r => kind_of_mem_endStackRequests
  · intro s n x ho hr hv hf hp hs hw hprep
    have hx := mem_prepareLeft ho hr hv hf hp hs
    refine ⟨_, congrArg Host.Outcome.next (foldPrepDone_of_written hx hprep hw), ?_, ?_⟩
    · rw [modStack_eq, stackOf_setStack_self]
      exact contains_insertNat _ x
    · rw [modStack_eq, setStack_hbm, countVolume_hbm]

end Sys2Proof.Machine
end

section
/-! The reports of calibration, of heat and of lateness (O13). -/

namespace Sys2Proof.Machine

open Sys2Proof

/-! ### Calibration (R331, Table 11.5) -/

theorem calStatusWork_eq {c : Cmd} (s : State) {k : Cal} (hv : par c 0 2 < 512) (ha : par c 8 8 % 64 = 0)
    (hk : k = (pcOf s (par c 0 2)).cal) : calStatusWork c s = .done
      (if par c 8 8 = 0 then s else emit (.hostWrite (cmdFn c) (par c 8 8) (calRecordBytes s (par c 0 2))) s) stOK
      (leBytes 8 (max k.lastImp k.lastTim) ++ leBytes 4 (k.appliedImp + k.appliedTim) ++
        leBytes 1 (calState s (par c 0 2)) ++ leBytes 1 (if par c 8 8 = 0 then 0 else 1)) := by
  subst hk
  exact if_neg (by simp [hv, ha])

theorem calStackSummaryWork_eq {c : Cmd} (s : State) (h : par c 0 1 < 8) :
    calStackSummaryWork c s = .done s stOK (calSummaryResult s (par c 0 1)) := if_neg (Nat.not_le.mpr h)

/-! ### Heat and lateness (R351, Table 12.5) -/

/-- THERMAL_STATUS reports the peak as it stood before it clears it. -/
theorem thermalStatusWork_eq {c : Cmd} (s : State) {k : Stack} (hn : par c 0 1 < 8) (hk : k = stackOf s (par c 0 1)) :
    thermalStatusWork c s = .done
      (if bitOf (par c 1 1) 0 = true then
        setStack (par c 0 1) { k with thermal := { k.thermal with peak := none } } s else s) stOK
      (thermalStatusResult s (par c 0 1)) := by
  subst hk
  exact if_neg (Nat.not_le.mpr hn)

theorem emit_late (o : Out) (s : State) : (emit o s).late = s.late := by rw [emit_frame]

theorem latenessStatusWork_eq {c : Cmd} (s : State) (hn : par c 0 1 < 8 ∨ par c 0 1 = 0xFF) (ha : par c 8 8 % 32 = 0) :
    latenessStatusWork c s = .done
      (if latenessRecords s c (par c 0 1) = [] then s else
        emit (.hostWrite (cmdFn c) (par c 8 8) (latenessRecords s c (par c 0 1)).flatten) s) stOK
      (leBytes 2 (latenessRecords s c (par c 0 1)).length ++ [0, 0] ++ leBytes 4 s.late.issued ++
        leBytes 4 s.late.received) := by
  have hf : ¬ ((decide (8 ≤ par c 0 1) && decide (par c 0 1 ≠ 0xFF)) || decide (par c 8 8 % 32 ≠ 0)) = true := by
    simp only [Bool.or_eq_true, Bool.and_eq_true, decide_eq_true_eq]; omega
  simp only [latenessStatusWork, if_neg hf, List.isEmpty_iff, List.flatMap_id]
  split
  · rfl
  · rw [emit_late]

/-- Settles O13: the fields of each command are in their ranges, so that its work ends with its report. -/
theorem calibrationAndThermalReports : Obligations.CalibrationAndThermalReports := by
  unfold Obligations.CalibrationAndThermalReports
  refine ⟨?_, ?_, ?_, ?_, ?_, ?_⟩
  · intro c s k h hv ha hk
    exact congrArg Host.Outcome.next (mailbox_done h (calStatusWork_eq s hv ha hk))
  · intro c s h
    exact congrArg Host.Outcome.next (mailbox_done h rfl)
  · intro c s h hn
    exact congrArg Host.Outcome.next (mailbox_done h (calStackSummaryWork_eq s hn))
  · intro c s k h hn hk
    exact congrArg Host.Outcome.next (mailbox_done h (thermalStatusWork_eq s hn hk))
  · intro c s h
    exact congrArg Host.Outcome.next (mailbox_done h rfl)
  · intro c s h hn ha
    exact congrArg Host.Outcome.next (mailbox_done h (latenessStatusWork_eq s hn ha))

end Sys2Proof.Machine
end

section
/-! The brew lists' commands and the reports of tiles and the pot (O14). -/

namespace Sys2Proof.Machine

open Sys2Proof

/-! ### BREW_START (R359, R365) -/

/-- The handle that BREW_START takes is the free value of those that no list has. -/
def takenHandle (s : State) : Nat := (freeHandles s).getD (freeNat s % (freeHandles s).length) 0

theorem takenHandle_mem {s : State} (h : freeHandles s ≠ []) : takenHandle s ∈ freeHandles s := by
  have hlt := Nat.mod_lt (freeNat s) (List.length_pos_of_ne_nil h)
  rw [takenHandle, List.getD_eq_getElem _ _ hlt]
  exact List.getElem_mem hlt

/-- The list that BREW_START adds. -/
def startedList (c : Cmd) (s : State) : BrewList :=
  { tenant := cmdTarget c, prio := par c 10 1, cmdMask := BitVec.ofNat 16 (par c 8 2), held := (jobArrive (freeStep s)).1,
    nextTa := par c 0 8 }

/-- The state once BREW_START has given a list its handle and counted it. -/
def brewStarted (c : Cmd) (s : State) : State :=
  countEvent (devCtr 19) 1 (setList (takenHandle s) (startedList c s) (jobArrive (freeStep s)).2)

theorem brewStarted_frame (c : Cmd) (s : State) : brewStarted c s = { s with
    kettle := (brewStarted c s).kettle, freeCount := s.freeCount + 1,
    compute := { s.compute with lists := tput s.compute.lists (takenHandle s) (startedList c s) },
    tele := { s.tele with events := tset 0 s.tele.events 659 ((cget s.tele.events 659 + 1) % 2 ^ 64) } } := by
  rw [brewStarted, jobArrive_frame]
  rfl

/-- The tiles that a list may use rest on the configuration in force alone. -/
theorem maskTiles_of_cfg {s t : State} (h : t.cfg = s.cfg) (l : BrewList) : maskTiles t l = maskTiles s l := by
  have hc (op f i : Nat) : cfgN t op f i = cfgN s op f i := by simp only [cfgN, cfgList, h]
  refine List.filter_congr fun i _ => ?_
  simp only [tileUsable, wantedMask, allowedTiles, gatedOff, hc]

theorem brewStartWork_done {c : Cmd} {s : State} (h : brewRefused c s = none) : brewStartWork c s =
    .done (brewStarted c s) stOK
      (leBytes 1 (takenHandle s) ++ [0] ++ leBytes 2 (maskOf (maskTiles s (startedList c s)))) := by
  rw [← maskTiles_of_cfg (t := brewStarted c s) (by rw [brewStarted_frame])]
  simp only [brewStartWork, h]
  rfl

/-! ### BREW_STOP and the reports (R359, R374, R375, R383) -/

theorem brewStopWork_over {c : Cmd} {s : State} {l : BrewList} (hl : listOf s (par c 0 1) = some l)
    (ht : l.tenant = cmdTarget c) : brewStopWork c s = .over (stopList (par c 0 1) 0 2 stListStopped l.lastTa
      (setList (par c 0 1) { l with stopCmds := l.stopCmds ++ [c] } (hold 0x0A02 c s))) := by
  simp only [brewStopWork, hl]
  exact if_neg (not_not_intro ht)

theorem brewStatusWork_of_free {c : Cmd} {s : State} (hh : par c 0 1 < 64) (hl : listOf s (par c 0 1) = none) :
    brewStatusWork c s = .done s stOK [0] := by
  simp only [brewStatusWork, hl, if_neg (Nat.not_le.mpr hh)]

theorem brewStatusWork_of_list {c : Cmd} {s : State} {l : BrewList} (hh : par c 0 1 < 64)
    (hl : listOf s (par c 0 1) = some l) (ht : l.tenant = cmdTarget c) : brewStatusWork c s = .done s stOK
      (leBytes 1 (brewState s (par c 0 1) l) ++ leBytes 1 (heldTiles s (par c 0 1)) ++ leBytes 2 l.fail ++
        leBytes 4 l.done ++ leBytes 8 (oldestTa l)) := by
  simp only [brewStatusWork, hl, if_neg (Nat.not_le.mpr hh)]
  exact if_neg (not_not_intro ht)

theorem tileStatusWork_eq {c : Cmd} (s : State) (h : par c 0 1 < 16) : tileStatusWork c s = .done s stOK
    (leBytes 1 (tileState s (par c 0 1)) ++ leBytes 1 ((tileOf s (par c 0 1)).holder.getD 0xFF) ++
      leBytes 2 (tileOf s (par c 0 1)).lastTenant ++ leBytes 4 0 ++ leBytes 8 (tileOf s (par c 0 1)).blocks) :=
  if_neg (Nat.not_le.mpr h)

theorem potStatusWork_eq {c : Cmd} (s : State) (h : par c 0 1 < 16) : potStatusWork c s = .done s stOK
    (leBytes 4 (cget s.pot.corrected (par c 0 1)) ++ leBytes 4 (cget s.pot.flagsSet (par c 0 1)) ++
      leBytes 4 (cget s.pot.atomics (par c 0 1))) := if_neg (Nat.not_le.mpr h)

/-- Settles O14: a start puts one entry into the table of lists and adds one to its counter; the other commands end with
what their work answers. -/
theorem brewCommands : Obligations.BrewCommands := by
  unfold Obligations.BrewCommands
  refine ⟨?_, ?_, ?_, ?_, ?_, ?_⟩
  · intro c s h hr hf
    have hlists (g : Nat) : listOf (brewStarted c s) g = if g = takenHandle s then some (startedList c s) else listOf s g := by
      rw [brewStarted_frame]; exact tfind_tput _ _ _ _
    refine ⟨takenHandle s, takenHandle_mem hf, brewStarted c s, startedList c s, (jobArrive (freeStep s)).1,
      congrArg Host.Outcome.next (mailbox_done h (brewStartWork_done hr)), rfl, ?_, fun g hg => ?_, ?_⟩
    · rw [hlists, if_pos rfl]
    · rw [hlists, if_neg hg]
    · rw [brewStarted_frame]; exact tget_tset_self _ _ _ _
  · intro c s l h hl ht
    refine congrArg Host.Outcome.next ?_
    rw [mailbox_taken _ _ _ _ h.1 h.2, brewStopWork_over hl ht]
  · intro c s h hh hl
    exact congrArg Host.Outcome.next (mailbox_done h (brewStatusWork_of_free hh hl))
  · intro c s l h hh hl ht
    exact congrArg Host.Outcome.next (mailbox_done h (brewStatusWork_of_list hh hl ht))
  · intro c s h hn
    exact congrArg Host.Outcome.next (mailbox_done h (tileStatusWork_eq s hn))
  · intro c s h hn
    exact congrArg Host.Outcome.next (mailbox_done h (potStatusWork_eq s hn))

end Sys2Proof.Machine
end

section
/-! What sending on the peer ports changes, and the commands of the peer ports and the twin pair (O16). -/

namespace Sys2Proof.Machine

open Sys2Proof

/-! ### Sending on the peer ports (R411 to R413, R417)

A frame that is sent, or that waits for its turn, reaches the governor, the counts, the output, the free values, what
waits at its port and what its connection keeps: no port's link, and neither the phase of a connection nor the sequence
it expects. -/

/-- The phase of a connection and the sequence that it expects, by the connection's key. -/
def connLine (s : State) (j : Nat) : Nat × BitVec 24 := ((tget {} s.peers.conns j).phase, (tget {} s.peers.conns j).rxExpect)

/-- t is s after frames were sent. -/
structure SendFrame (s t : State) : Prop where
  rest : ∃ kettle events volumes out freeCount ports conns, t = { s with
    kettle := kettle, tele := { s.tele with events := events, volumes := volumes }, out := out, freeCount := freeCount,
    peers := { s.peers with ports := ports, conns := conns } }
  link : ∀ k, (portOf t k).link = (portOf s k).link
  line : ∀ j, connLine t j = connLine s j

namespace SendFrame

variable {s t u : State}

theorem refl (s : State) : SendFrame s s := ⟨⟨_, _, _, _, _, _, _, rfl⟩, fun _ => rfl, fun _ => rfl⟩

theorem trans (h : SendFrame s t) (g : SendFrame t u) : SendFrame s u := by
  refine ⟨?_, fun k => (g.link k).trans (h.link k), fun j => (g.line j).trans (h.line j)⟩
  obtain ⟨_, _, _, _, _, _, _, rfl⟩ := h.rest
  obtain ⟨_, _, _, _, _, _, _, rfl⟩ := g.rest
  exact ⟨_, _, _, _, _, _, _, rfl⟩

theorem foldl {α : Type} {f : State → α → State} (h : ∀ s a, SendFrame s (f s a)) (l : List α) (s : State) :
    SendFrame s (l.foldl f s) := by
  induction l generalizing s with
  | nil => exact refl s
  | cons a l ih => exact (h s a).trans (ih _)

section
variable (h : SendFrame s t)
include h

theorem ops : t.peers.ops = s.peers.ops := by obtain ⟨_, _, _, _, _, _, _, rfl⟩ := h.rest; rfl
theorem held : t.peers.held = s.peers.held := by obtain ⟨_, _, _, _, _, _, _, rfl⟩ := h.rest; rfl
theorem nextTag : t.peers.nextTag = s.peers.nextTag := by obtain ⟨_, _, _, _, _, _, _, rfl⟩ := h.rest; rfl
theorem twin : t.twin = s.twin := by obtain ⟨_, _, _, _, _, _, _, rfl⟩ := h.rest; rfl
theorem cfg : t.cfg = s.cfg := by obtain ⟨_, _, _, _, _, _, _, rfl⟩ := h.rest; rfl
theorem clock : t.clock = s.clock := by obtain ⟨_, _, _, _, _, _, _, rfl⟩ := h.rest; rfl

theorem phase (k c : Nat) : (connOf t k c).phase = (connOf s k c).phase := congrArg Prod.fst (h.line (connKey k c))

theorem rxExpect (k c : Nat) : (connOf t k c).rxExpect = (connOf s k c).rxExpect :=
  congrArg Prod.snd (h.line (connKey k c))

end

end SendFrame

section
variable (s : State)

theorem emit_sendFrame (o : Out) : SendFrame s (emit o s) := by
  rw [emit, hostPayload]
  split
  · exact ⟨⟨_, _, _, _, _, _, _, rfl⟩, fun _ => rfl, fun _ => rfl⟩
  · exact ⟨⟨_, _, _, _, _, _, _, rfl⟩, fun _ => rfl, fun _ => rfl⟩

theorem countEvent_sendFrame (i n : Nat) : SendFrame s (countEvent i n s) :=
  ⟨⟨_, _, _, _, _, _, _, rfl⟩, fun _ => rfl, fun _ => rfl⟩

theorem countEv_sendFrame (e : Ev) (o : Origin) (unit n : Nat) : SendFrame s (countEv e o unit n s) :=
  ⟨⟨_, _, _, _, _, _, _, rfl⟩, fun _ => rfl, fun _ => rfl⟩

theorem countVolume_sendFrame (i n : Nat) : SendFrame s (countVolume i n s) :=
  ⟨⟨_, _, _, _, _, _, _, rfl⟩, fun _ => rfl, fun _ => rfl⟩

theorem freeStep_sendFrame : SendFrame s (freeStep s) := ⟨⟨_, _, _, _, _, _, _, rfl⟩, fun _ => rfl, fun _ => rfl⟩

theorem kettle_sendFrame (k : Kettle) : SendFrame s { s with kettle := k } :=
  ⟨⟨_, _, _, _, _, _, _, rfl⟩, fun _ => rfl, fun _ => rfl⟩

theorem allowanceWait_sendFrame : SendFrame s (allowanceWait s) := by
  rw [allowanceWait]
  split
  · exact .refl s
  · exact kettle_sendFrame s _

theorem linkAllow_sendFrame {f : Frame} {t : State} (h : linkAllow f s = some t) : SendFrame s t := by
  unfold linkAllow at h
  split at h
  · cases h; exact .refl s
  · rw [(allow_some h).2]; exact kettle_sendFrame s _

theorem connLine_setConn (k c j : Nat) (v : Conn) : connLine (setConn k c v s) j =
    if j = connKey k c then (v.phase, v.rxExpect) else connLine s j := by
  simp only [connLine, setConn_peers, tget_tset]
  split <;> rfl

theorem setConn_sendFrame {k c : Nat} {v : Conn} (hp : v.phase = (connOf s k c).phase)
    (hr : v.rxExpect = (connOf s k c).rxExpect) : SendFrame s (setConn k c v s) := by
  refine ⟨⟨_, _, _, _, _, _, _, rfl⟩, fun _ => rfl, fun j => ?_⟩
  rw [connLine_setConn]
  split
  · next h => rw [hp, hr, h]; rfl
  · rfl

theorem setPort_sendFrame {k : Nat} {v : Port} (h : v.link = (portOf s k).link) : SendFrame s (setPort k v s) := by
  refine ⟨⟨_, _, _, _, _, _, _, rfl⟩, fun j => ?_, fun _ => rfl⟩
  rw [portOf_setPort]
  split
  · next hj => rw [h, hj]
  · rfl

theorem sendNow_sendFrame (k type : Nat) (f : Frame) : SendFrame s (sendNow k type f s) := by
  have h := (emit_sendFrame s (.peer k type f (frameWire s k type f))).trans ((countEvent_sendFrame _ (portCtr k 2) 1).trans
    ((countEv_sendFrame _ .peer .user 8 (units64 f.payload.length)).trans
      (countVolume_sendFrame _ (portCtr k 0) f.payload.length)))
  rw [sendNow]
  split
  · exact h.trans (countVolume_sendFrame ..)
  · exact h

theorem emitFrame_sendFrame (k type : Nat) (f : Frame) : SendFrame s (emitFrame k type f s) := by
  rw [emitFrame]
  split
  · exact setPort_sendFrame s rfl
  · exact sendNow_sendFrame s k type f

theorem ackSent_sendFrame (k c : Nat) : SendFrame s (ackSent k c s) := setConn_sendFrame s rfl rfl

theorem sendPlain_sendFrame (k c type : Nat) (f : Frame) : SendFrame s (sendPlain k c type f s) :=
  (emitFrame_sendFrame s ..).trans ((freeStep_sendFrame _).trans (ackSent_sendFrame _ k c))

theorem pump_sendFrame (n k c : Nat) : SendFrame s (pump n k c s) := by
  fun_induction pump n k c s with
  | case5 => exact allowanceWait_sendFrame _
  | case6 n s x hx e he hm s' hl fresh f s₁ s₂ ih =>
    have hc : SendFrame s₁ s₂ := setConn_sendFrame s₁ rfl rfl
    exact (linkAllow_sendFrame _ hl).trans ((emitFrame_sendFrame s' ..).trans ((freeStep_sendFrame _).trans
      (hc.trans ((ackSent_sendFrame s₂ k c).trans ih))))
  | _ => exact .refl _

theorem connSend_sendFrame (k c type : Nat) (f : Frame) : SendFrame s (connSend k c type f s) := by
  unfold connSend
  extract_lets x s'
  have hc : SendFrame s s' := setConn_sendFrame s rfl rfl
  exact hc.trans (pump_sendFrame ..)

theorem sendFrames_sendFrame (k c type : Nat) (fs : List Frame) : SendFrame s (sendFrames k c type fs s) :=
  .foldl (fun s f => connSend_sendFrame s k c type f) fs s

end

/-! ### The reports (R443) -/

theorem peerStatusWork_eq {c : Cmd} (s : State) (h : par c 0 1 < 4) : peerStatusWork c s = .done s stOK
    (leBytes 1 (if gatedOff s (40 + par c 0 1) = true then 3 else (portOf s (par c 0 1)).link) ++
      leBytes 1 (if twinPort s = par c 0 1 then 1 else 0) ++ [0, 0] ++
      leBytes 4 (cget s.tele.events (portCtr (par c 0 1) 6)) ++ leBytes 4 (cget s.tele.events (portCtr (par c 0 1) 7)) ++
      leBytes 4 (cget s.tele.events (portCtr (par c 0 1) 8))) := by
  have hf : flag (twinPort s == par c 0 1) 0 = if twinPort s = par c 0 1 then 1 else 0 := by simp [flag]
  rw [← hf]
  exact if_neg (Nat.not_le.mpr h)

theorem peerConnStatusWork_eq {c : Cmd} (s : State) {x : Conn} (hk : par c 0 1 < 4) (hn : par c 1 1 < 64)
    (hx : x = connOf s (par c 0 1) (par c 1 1)) : peerConnStatusWork c s = .done s stOK
      (leBytes 1 (if connOn s (par c 0 1) (par c 1 1) = true then (if x.phase = 0 then 1 else x.phase) else 0) ++ [0] ++
        leBytes 3 x.txNext.toNat ++ leBytes 3 x.rxExpect.toNat ++ leBytes 2 (x.kept.filter (fun k => k.sent)).length ++
        leBytes 2 x.resent ++ leBytes 4 x.unreachable) := by
  subst hx
  exact if_neg (by simp [hk, hn])

theorem twinStatusWork_of_partition {c : Cmd} (s : State) {p : TwinPart} (h : par c 0 1 = 1)
    (hp : p = twinPartOf s (cmdTarget c)) : twinStatusWork c s = .done s stOK
      (leBytes 1 p.state ++ leBytes 1 (flag p.differs 0) ++ [0, 0] ++ leBytes 4 p.epoch ++
        leBytes 4 (oldestAge s p) ++ leBytes 4 (resyncLeft s (cmdTarget c))) := by
  subst hp
  simp [twinStatusWork, h]

/-- The mirrored partitions here whose copies are in sync. -/
def inSyncHere (s : State) : Nat :=
  ((mirroredTenants s).filter (fun t => (twinPartOf s t).state == 3 || (twinPartOf s t).state == 6)).length

theorem inSyncHere_le (s : State) : inSyncHere s ≤ (mirroredTenants s).length := List.length_filter_le _ _

theorem twinStatusWork_of_pair {c : Cmd} (s : State) (h : par c 0 1 = 0) (hp : cmdPf c = true) :
    twinStatusWork c s = .done s stOK
      (leBytes 1 (pairState s) ++ leBytes 1 (twinRole s) ++ leBytes 2 (satTo 16 s.twin.misses) ++
        leBytes 4 s.twin.partnerE ++ leBytes 2 s.twin.partnerStacks ++ leBytes 2 (inSyncHere s) ++
        leBytes 2 ((mirroredTenants s).length - inSyncHere s) ++ leBytes 2 s.twin.failovers) := by
  simp [twinStatusWork, h, hp, inSyncHere]

/-! ### PEER_OP (R421, R422, R425) -/

/-- The frames of an operation q are sent on connection c of port k. -/
def sendOp (q : OpReq) (bytes : List Byte) (poison : List Bool) (k c : Nat) (base : Frame) (s : State) : State :=
  if q.kind = 1 then connSend k c 2 base s
  else if q.kind = 3 then connSend k c 5 { base with payload := bytes } s
  else sendFrames k c (opType q.kind) (dataFrames s k base bytes poison) s

theorem sendOp_sendFrame (q : OpReq) (bytes : List Byte) (poison : List Bool) (k c : Nat) (base : Frame) (s : State) :
    SendFrame s (sendOp q bytes poison k c base s) := by
  rw [sendOp]
  split
  · exact connSend_sendFrame ..
  · split
    · exact connSend_sendFrame ..
    · exact sendFrames_sendFrame ..

/-- The outstanding operation that q becomes. -/
def issuedOp (q : OpReq) (poison : List Bool) (s : State) : PeerOpState :=
  { tag := s.peers.nextTag, conn := connKey (handlePort s q.handle) (handleConn s q.handle), issuer := q.issuer,
    kind := q.kind, tenant := q.tenant, localTa := q.localTa, length := q.len, poisoned := poison.any id }

theorem issueOp_eq_sendOp (q : OpReq) (bytes : List Byte) (poison : List Bool) (s : State) :
    ∃ k c base, issueOp q bytes poison s = sendOp q bytes poison k c base { s with peers := { s.peers with
      ops := s.peers.ops ++ [issuedOp q poison s], nextTag := s.peers.nextTag + 1 } } := ⟨_, _, _, rfl⟩

/-- An issued operation is outstanding under the next tag, and the operation after it has the tag after it. -/
theorem issueOp_peers (q : OpReq) (bytes : List Byte) (poison : List Bool) (s : State) :
    ∃ o, (issueOp q bytes poison s).peers.ops = s.peers.ops ++ [o] ∧ o.tag = s.peers.nextTag ∧ o.issuer = q.issuer ∧
      o.tenant = q.tenant ∧ o.length = q.len ∧ (issueOp q bytes poison s).peers.nextTag = s.peers.nextTag + 1 := by
  obtain ⟨k, c, base, h⟩ := issueOp_eq_sendOp q bytes poison s
  have hs := sendOp_sendFrame q bytes poison k c base { s with peers := { s.peers with
    ops := s.peers.ops ++ [issuedOp q poison s], nextTag := s.peers.nextTag + 1 } }
  rw [h]
  exact ⟨issuedOp q poison s, hs.ops, rfl, rfl, rfl, rfl, hs.nextTag⟩

section
variable {c : Cmd} {s : State} {q : OpReq} (hq : q = peerOpReq c) (hf : peerOpFields c = true)
  (hr : rinseIncomplete s q.tenant = false) (hc : (partOf s q.tenant).closed = false)
  (hi : issueStatus s q.tenant q.handle q.off q.len = none) (hz : quiesced s = false)
include hq hf hr hc hi hz

theorem peerOpWork_of_signal (hk : q.kind = 3) :
    peerOpWork c s = .wait (issueOp q (leBytes 8 (par c 32 8)) [] s) := by
  subst hq
  simp [peerOpWork, hf, hr, hc, hi, hz, hk]

variable (hl : rangeStatus s q.tenant q.localTa q.len = none)
include hl

theorem peerOpWork_of_get (hk : q.kind = 1) : peerOpWork c s = .wait (issueOp q [] [] s) := by
  subst hq
  simp [peerOpWork, hf, hr, hc, hi, hz, hk, hl]

/-- What a PUT or a REDUCE_PUT sends is read here first. -/
theorem peerOpWork_of_local (hk : q.kind = 0 ∨ q.kind = 2) : peerOpWork c s = .wait (ask
    { owner := .command 0x0C08 c, tenant := q.tenant, port := 1 + handlePort s q.handle, ta := q.localTa, len := q.len,
      write := false, coll := q.coll } s) := by
  subst hq
  obtain hk | hk := hk <;> simp [peerOpWork, hf, hr, hc, hi, hz, hk, hl]

end

/-! ### TWIN_TAKEOVER (R439, R442) -/

/-- A TWIN_TAKEOVER waits on tenant t for ms milliseconds at the most. -/
def takeoverWaits (c : Cmd) (t ms : Nat) (s : State) : State :=
  modTwinPart t (fun p => { p with takeover := some (c, s.clock.timebase + msTicks ms) }) s

theorem twinTakeoverWork_of_manual {c : Cmd} {s : State} (h : par c 0 1 = 0) (hm : par c 2 2 ≠ 0)
    (ho : takeoverOk s (cmdTarget c) = true) : twinTakeoverWork c s =
      .wait (askEpoch (cmdTarget c) (takeoverWaits c (cmdTarget c) (par c 2 2) s)) := by
  simp [twinTakeoverWork, h, hm, ho, takeoverWaits, now]

theorem twinTakeoverWork_of_planned {c : Cmd} {s : State} (h : par c 0 1 = 1) (hm : par c 2 2 ≠ 0)
    (ho : switchoverOk s (cmdTarget c) = true) : twinTakeoverWork c s =
      .wait (takeoverWaits c (cmdTarget c) (par c 2 2) (closePart (cmdTarget c) s)) := by
  simp [twinTakeoverWork, h, hm, ho, takeoverWaits, now]

theorem askEpoch_of_no_jobs (t : Nat) {s : State} (h : s.flash.jobs = []) : askEpoch t s = pushJob (.epoch t) s := by
  simp [askEpoch, epochPending, h]

theorem closed_closePart (t : Nat) (s : State) : (partOf (closePart t s) t).closed = true := by
  simp only [closePart, modPart_eq, partOf_setPart_self]
  generalize partOf _ t = p
  split
  · assumption
  · rfl

theorem endQueued_clock (t st : Nat) (s : State) : (endQueued t st s).clock = s.clock := by
  refine foldl_keeps State.clock (fun s n => ?_) _ s
  refine (foldl_keeps State.clock (fun s o => ?_) _ _).trans ?_
  · rw [finish_frame]
  · exact (apply_ite State.clock ..).trans (ite_self _)

theorem closePart_clock (t : Nat) (s : State) : (closePart t s).clock = s.clock := by
  rw [closePart, modPart_eq, setPart_clock, apply_ite State.clock, endQueued_clock, ite_self]

/-- Settles O16: the fields and checks of each command pass, so that its work ends with its report or waits; sending
keeps the list of outstanding operations. -/
theorem peerAndTwinCommands : Obligations.PeerAndTwinCommands := by
  unfold Obligations.PeerAndTwinCommands
  refine ⟨?_, ?_, ?_, ?_, ?_, issueOp_peers, ?_, ?_, ?_, ?_⟩
  · intro c s h hk
    exact congrArg Host.Outcome.next (mailbox_done h (peerStatusWork_eq s hk))
  · intro c s x h hk hn hx
    exact congrArg Host.Outcome.next (mailbox_done h (peerConnStatusWork_eq s hk hn hx))
  · intro c s q h hq hf hr hc hi hk hz
    exact congrArg Host.Outcome.next (mailbox_wait h (peerOpWork_of_signal hq hf hr hc hi hz hk))
  · intro c s q h hq hf hr hc hi hk hl hz
    exact congrArg Host.Outcome.next (mailbox_wait h (peerOpWork_of_get hq hf hr hc hi hz hl hk))
  · intro c s q h hq hf hr hc hi hk hl hz
    exact congrArg Host.Outcome.next (mailbox_wait h (peerOpWork_of_local hq hf hr hc hi hz hl hk))
  · intro c s p h h1 hp
    exact congrArg Host.Outcome.next (mailbox_done h (twinStatusWork_of_partition s h1 hp))
  · intro c s h h0 hp
    exact ⟨inSyncHere s, (mirroredTenants s).length - inSyncHere s,
      congrArg Host.Outcome.next (mailbox_done h (twinStatusWork_of_pair s h0 hp)),
      Nat.add_sub_cancel' (inSyncHere_le s)⟩
  · intro c s h h0 hm ho hj
    refine ⟨_, congrArg Host.Outcome.next (mailbox_wait h (twinTakeoverWork_of_manual h0 hm ho)), ?_⟩
    have ha : askEpoch (cmdTarget c) (takeoverWaits c (cmdTarget c) (par c 2 2) s) = _ := askEpoch_of_no_jobs _ hj
    rw [ha]
    refine ⟨?_, ?_⟩
    · rw [pushJob_flash, takeoverWaits, modTwinPart_eq, setTwinPart_flash, hj]
      rfl
    · exact congrArg TwinPart.takeover (twinPartOf_setTwinPart_self ..)
  · intro c s h h1 hm ho
    refine ⟨_, congrArg Host.Outcome.next (mailbox_wait h (twinTakeoverWork_of_planned h1 hm ho)),
      closed_closePart _ s, ?_⟩
    rw [takeoverWaits, closePart_clock]
    exact congrArg TwinPart.takeover (twinPartOf_setTwinPart_self ..)

end Sys2Proof.Machine
end

section
/-! The telemetry commands and the spout's events (O17). -/

namespace Sys2Proof.Machine

open Sys2Proof

/-! ### The commands of the spout and of the log (R447, R450, R453, R454, R456, R458) -/

theorem spoutStatusWork_eq {c : Cmd} (s : State) (h : par c 0 1 = 1 ∨ (par c 0 1 = 0 ∧ cmdPf c = true)) :
    spoutStatusWork c s = .done s stOK
      (spoutResult s (if par c 0 1 = 0 then s.tele.ring else tget {} s.tele.tenantRings (cmdTarget c))) := by
  obtain h | ⟨h, hp⟩ := h <;> simp [spoutStatusWork, *]

theorem telemetrySnapshotWork_wait {c : Cmd} (s : State) (ha : par c 0 8 % 64 = 0)
    (h : par c 8 1 = 0 ∨ (par c 8 1 = 1 ∧ cmdPf c = true)) : telemetrySnapshotWork c s =
      .wait { s with tele := { s.tele with snapshots := s.tele.snapshots ++ [c] } } := by
  obtain h | ⟨h, hp⟩ := h <;> simp [telemetrySnapshotWork, *]

/-- A tenant's ring record is r from now on. -/
def setTenantRing (t : Nat) (r : DumpRing) (s : State) : State :=
  { s with tele := { s.tele with tenantRings := tset {} s.tele.tenantRings t r } }

theorem tget_setTenantRing (t : Nat) (r : DumpRing) (s : State) : tget {} (setTenantRing t r s).tele.tenantRings t = r :=
  tget_tset_self _ _ _ _

theorem tenantDumpAttachWork_of_attach {c : Cmd} (s : State) (ha : par c 0 8 % 4096 = 0) (h0 : par c 0 8 ≠ 0)
    (h2 : 2 ≤ par c 8 2) (hm : par c 8 2 ≤ 4096) : tenantDumpAttachWork c s = .done
      (setTenantRing (cmdTarget c) { tget {} s.tele.tenantRings (cmdTarget c) with
        nextAttach := some (par c 0 8, par c 8 2), detachNext := true } s) stOK [] := by
  simp [tenantDumpAttachWork, ha, h0, Nat.not_lt.mpr h2, Nat.not_lt.mpr hm, setTenantRing]

theorem tenantDumpAttachWork_of_detach {c : Cmd} (s : State) (h0 : par c 0 8 = 0) : tenantDumpAttachWork c s = .done
    (setTenantRing (cmdTarget c) { tget {} s.tele.tenantRings (cmdTarget c) with
      nextAttach := none, detachNext := true } s) stOK [] := by
  simp [tenantDumpAttachWork, h0, setTenantRing]

theorem eventLogReadWork_eq {c : Cmd} (s : State) {es : List LogEntry} (h1 : 1 ≤ par c 4 2) (hm : par c 4 2 ≤ 4096)
    (ha : par c 8 8 % 16 = 0) (hes : es = logSelect s (BitVec.ofNat 32 (par c 0 4)) (par c 4 2) (bitOf (par c 6 1) 0)) :
    eventLogReadWork c s = .done
      (alertRead es (if es = [] then s else emit (.hostWrite (cmdFn c) (par c 8 8) (es.flatMap logEntryBytes)) s)) stOK
      (leBytes 2 es.length ++ [0, 0] ++ leBytes 4 s.tele.logSeq.toNat ++ leBytes 4 s.tele.overwritten) := by
  subst hes
  have hf : ¬ (par c 4 2 = 0 || 4096 < par c 4 2 || par c 8 8 % 16 ≠ 0 : Bool) = true := by
    simp only [Bool.or_eq_true, decide_eq_true_eq]; omega
  have hs (es : List LogEntry) (o : Out) : (if es = [] then s else emit o s).tele.logSeq = s.tele.logSeq ∧
      (if es = [] then s else emit o s).tele.overwritten = s.tele.overwritten := by
    split
    · exact ⟨rfl, rfl⟩
    · rw [emit_frame]; exact ⟨rfl, rfl⟩
  simp only [eventLogReadWork, if_neg hf, List.isEmpty_iff, hs]

/-! ### What logging an event leaves of the spout (R456) -/

/-- The rings of the spout: the device's and the tenants'. -/
def spoutRings (s : State) : DumpRing × Table DumpRing := (s.tele.ring, s.tele.tenantRings)

section
variable (s : State)

@[simp] theorem spoutRings_emit (o : Out) : spoutRings (emit o s) = spoutRings s := by rw [emit_frame]; rfl

@[simp] theorem spoutRings_countEvent (i n : Nat) : spoutRings (countEvent i n s) = spoutRings s := rfl

@[simp] theorem spoutRings_setFn (k : Nat) (f : Fn) : spoutRings (setFn k f s) = spoutRings s := rfl

@[simp] theorem spoutRings_setInt (k bit : Nat) : spoutRings (setInt k bit s) = spoutRings s := by
  simp [setInt, raiseVector, apply_ite spoutRings]

@[simp] theorem spoutRings_loseEvent (k : Nat) (full : Bool) : spoutRings (loseEvent k full s) = spoutRings s := by
  simp [loseEvent, apply_ite spoutRings]

@[simp] theorem spoutRings_ringEvent (k : Nat) (bytes : List Byte) : spoutRings (ringEvent k bytes s) = spoutRings s := by
  simp [ringEvent, apply_ite spoutRings]

theorem rings_logAdd (e : LogEntry) (t : Tele) : (logAdd e t).ring = t.ring ∧ (logAdd e t).tenantRings = t.tenantRings := by
  rw [logAdd]
  dsimp only
  split <;> exact ⟨rfl, rfl⟩

theorem spoutRings_logRecord (code tenant sev stack : Nat) (payload : List Byte) (rings : List Nat) :
    spoutRings (logRecord code tenant sev stack payload rings s) = spoutRings s := by
  have hrings := foldl_keeps spoutRings
    (fun s k => spoutRings_ringEvent s k (eventBytes code tenant sev stack payload)) rings s
  obtain ⟨hr, ht⟩ := rings_logAdd _ _
  exact (Prod.ext hr ht).trans hrings

end

/-! ### A ring fault (R452) -/

theorem spoutRingFault_of_device {s : State} {f : Nat} (hf : f ≠ 0) (h : s.tele.ring.state = 1) :
    spoutRingFault none f s = devEvent 0x0D00 2 (leBytes 1 0xFF ++ leBytes 1 f)
      { s with tele := { s.tele with ring := { s.tele.ring with state := 2, fault := f } } } := by
  simp [spoutRingFault, hf, h]

theorem spoutRingFault_of_tenant {s : State} {t f : Nat} (hf : f ≠ 0) (h : (tget {} s.tele.tenantRings t).state = 1) :
    spoutRingFault (some t) f s = logEvent 0x0D00 t 2 noStack (leBytes 1 t ++ leBytes 1 f) ([0, t].eraseDups)
      (setTenantRing t { tget {} s.tele.tenantRings t with state := 2, fault := f } s) := by
  simp [spoutRingFault, hf, h, setTenantRing]

/-! ### A dump mark (R449 to R451) -/

/-- A running ring whose unread records leave a slot free is not full. -/
theorem dumpFull_of_free {r : DumpRing} {n : Nat} (hc : n ≤ r.producer) (hs : r.producer - n < r.slots)
    (hp : r.producer < 2 ^ 64) : dumpFull r n = false := by
  simp only [dumpFull, decide_eq_false_iff_not]
  omega

theorem writeRecord_frame (l : Latch) (tenant : Option Nat) (r : DumpRing) (s : State) : ∃ kettle volumes out,
    writeRecord l tenant r s = { s with kettle := kettle, tele := { s.tele with volumes := volumes }, out := out } ∧
      out = .hostWrite (tenant.getD 0) r.base (leBytes 8 (r.producer + 1)) ::
        .hostWrite (tenant.getD 0) (r.base + 4096 + r.producer % r.slots * ringStride tenant)
          (spoutRecord s l tenant l.seq) :: s.out := by
  rw [writeRecord, emit_frame, emit_frame]
  exact ⟨_, _, _, rfl, rfl⟩

theorem dumpDevice_of_free {l : Latch} {n : Nat} {s : State} (h1 : s.tele.ring.state = 1)
    (hf : dumpFull s.tele.ring n = false) : dumpDevice l n s = countEvent (devCtr 25) 1
      { writeRecord l none s.tele.ring s with tele := { (writeRecord l none s.tele.ring s).tele with
        ring := ringNext s.tele.ring } } := by
  simp [dumpDevice, h1, hf]

theorem dumpMark_of_device {s : State} {l : Latch} (hd : s.tele.dump = some l) (ht : s.tele.tenantRings = [])
    (consumers : List (Nat × Nat)) {u : State} (hu : dumpDevice l (cget consumers 128) s = u)
    (hut : u.tele.tenantRings = s.tele.tenantRings) : dumpMark consumers s = { u with tele := { u.tele with dump := none } } := by
  simp [dumpMark, hd, hu, hut, ht]

/-- Settles O17: each command's work ends or waits as its fields say; a dump mark's record and count go out, and what an
event logs leaves the rings alone. -/
theorem telemetryCommandsAndSpout : Obligations.TelemetryCommandsAndSpout := by
  unfold Obligations.TelemetryCommandsAndSpout
  refine ⟨?_, ?_, ?_, ?_, ?_, ?_, ?_, ?_, ?_⟩
  · intro c s h hs
    exact congrArg Host.Outcome.next (mailbox_done h (spoutStatusWork_eq s hs))
  · intro c s h ha hs
    exact congrArg Host.Outcome.next (mailbox_wait h (telemetrySnapshotWork_wait s ha hs))
  · intro c s h ha h0 h2 hm
    exact ⟨_, _, congrArg Host.Outcome.next (mailbox_done h (tenantDumpAttachWork_of_attach s ha h0 h2 hm)), rfl,
      congrArg DumpRing.nextAttach (tget_setTenantRing ..), rfl⟩
  · intro c s h h0
    exact ⟨_, congrArg Host.Outcome.next (mailbox_done h (tenantDumpAttachWork_of_detach s h0)),
      congrArg DumpRing.nextAttach (tget_setTenantRing ..), congrArg DumpRing.detachNext (tget_setTenantRing ..), rfl⟩
  · intro c s es h h1 hm ha hes
    exact congrArg Host.Outcome.next (mailbox_done h (eventLogReadWork_eq s h1 hm ha hes))
  · intro c s h
    exact congrArg Host.Outcome.next (mailbox_done h rfl)
  · intro s l base slots producer consumers hd ht _ hr hc hs hp
    have hf : dumpFull s.tele.ring (cget consumers 128) = false := by
      rw [hr]; exact dumpFull_of_free hc hs (by simp only; omega)
    have h1 : s.tele.ring.state = 1 := by rw [hr]
    obtain ⟨kettle, volumes, out, hw, ho⟩ := writeRecord_frame l none s.tele.ring s
    have hu := dumpDevice_of_free h1 hf (l := l)
    rw [hw] at hu
    have hm := dumpMark_of_device hd ht consumers hu rfl
    refine ⟨_, s.out, congrArg Host.Outcome.next hm, rfl, ?_, rfl, ?_⟩
    · rw [hr] at ho
      exact ho
    · rw [hr]
      simp only [countEvent_tele, ringNext]
      rw [Nat.mod_eq_of_lt (by omega)]
  · intro s f hf h1
    have hq := spoutRings_logRecord
      { s with tele := { s.tele with ring := { s.tele.ring with state := 2, fault := f.val } } }
    refine ⟨_, congrArg Host.Outcome.next (spoutRingFault_of_device hf h1), ?_, devEvent_logSeq _ _ _ _⟩
    exact congrArg Prod.fst (hq _ _ _ _ _ _)
  · intro s f k hf h1
    have hq := spoutRings_logRecord (setTenantRing k.val
      { tget {} s.tele.tenantRings k.val with state := 2, fault := f.val } s)
    have ht (r : List Nat) (a : List Byte) : tget {} (logEvent 0x0D00 k.val 2 noStack a r (setTenantRing k.val
        { tget {} s.tele.tenantRings k.val with state := 2, fault := f.val } s)).tele.tenantRings k.val = _ :=
      (congrArg (fun p => tget {} p.2 k.val) (hq _ _ _ _ _ _)).trans (tget_setTenantRing ..)
    exact ⟨_, congrArg Host.Outcome.next (spoutRingFault_of_tenant hf h1), congrArg DumpRing.state (ht _ _),
      congrArg DumpRing.fault (ht _ _), logRecord_logSeq _ _ _ _ _ _ _⟩

end Sys2Proof.Machine
end

section
/-! The commands and events of test access: exercisers, bench mode, unlocking and the stack port (O19). -/

namespace Sys2Proof.Machine

open Sys2Proof

/-! ### Exercisers (R475 to R479) -/

/-- EXER_START may begin a run: in service on pseudo-channels that serve, or on a channel that is benched, and with the
repair patterns only where no partition owns the stack. -/
def MayExercise (c : Cmd) (s : State) : Prop :=
  (par c 1 1 = 0 ∧ par c 2 1 ≤ 5 ∧ 1 ≤ par c 3 1 ∧ par c 3 1 ≤ peakTenths s / 80 ∧ par c 8 8 ≠ 0 ∧
      (∀ v < 64, (par c 8 8).testBit v = true → inService s (par c 0 1 * 64 + v) = true)) ∨
    (par c 1 1 = 1 ∧ par c 2 1 ≤ 5 ∧ par c 4 2 / 32 = par c 0 1 ∧ (chanOf s (par c 4 2)).bench ≠ .none) ∨
    (par c 1 1 = 2 ∧ par c 2 1 ≤ 6 ∧ par c 4 2 / 32 = par c 0 1 ∧ (chanOf s (par c 4 2)).bench ≠ .none ∧
      stackOwned s (par c 0 1) = false)

/-- The run that EXER_START asks for. -/
def askedRun (c : Cmd) : Exer :=
  { running := true, mode := par c 1 1, pattern := par c 2 1, capPerPeriod := par c 3 1, channel := par c 4 2,
    passes := par c 6 2, mask := par c 8 8, seed := BitVec.ofNat 32 (par c 16 4), outcome := 0 }

theorem exerStartWork_done {c : Cmd} {s : State} (hn : par c 0 1 < 8) (hr : (exerOf s (par c 0 1)).running = false)
    (h : MayExercise c s) : exerStartWork c s = .done (setExer (par c 0 1) (askedRun c) s) stOK [] := by
  obtain ⟨hm, hp, h1, hcap, h0, hv⟩ | ⟨hm, hp, hch, hb⟩ | ⟨hm, hp, hch, hb, ho⟩ := h
  · have hall : (List.range 64).all
        (fun v => !(par c 8 8).testBit v || inService s (par c 0 1 * 64 + v)) = true := by
      simp only [List.all_eq_true, List.mem_range, Bool.or_eq_true, Bool.not_eq_true']
      intro v hlt
      cases ht : (par c 8 8).testBit v
      · exact .inl rfl
      · exact .inr (hv v hlt ht)
    have h6 : ¬ 6 < par c 2 1 ∧ par c 2 1 ≠ 6 := by omega
    have h3 : par c 3 1 ≠ 0 := by omega
    simp only [exerStartWork, hm, hr, hall, h6, h3, h0, Nat.not_le.mpr hn, Nat.not_lt.mpr hcap]
    simp [askedRun, hm]
  · have h6 : ¬ 6 < par c 2 1 ∧ par c 2 1 ≠ 6 := by omega
    simp [exerStartWork, hm, hr, h6, Nat.not_le.mpr hn, hch, hb, askedRun]
  · simp [exerStartWork, hm, hr, Nat.not_lt.mpr hp, Nat.not_le.mpr hn, hch, hb, ho, askedRun]

theorem exerStopWork_eq {c : Cmd} (s : State) (h : par c 0 1 < 8) :
    exerStopWork c s = .done (exerEnd (par c 0 1) 2 s) stOK [] := if_neg (Nat.not_le.mpr h)

theorem exerStatusWork_eq {c : Cmd} (s : State) (h : par c 0 1 < 8) :
    exerStatusWork c s = .done s stOK (exerStatusResult s (par c 0 1)) := if_neg (Nat.not_le.mpr h)

theorem exerCaptureReadWork_eq {c : Cmd} (s : State) (hn : par c 0 1 < 8) (ha : par c 8 8 % 64 = 0) :
    exerCaptureReadWork c s = .done
      (emit (.hostWrite (cmdFn c) (par c 8 8) (captureBytes (exerOf s (par c 0 1)))) s) stOK [] :=
  if_neg (by simp [hn, ha])

theorem exec_exerRunDone_of_over {s : State} {n : Fin 8} (hr : (exerOf s n.val).running = true)
    (h0 : (exerOf s n.val).passes ≠ 0) (hp : (exerOf s n.val).passes ≤ passesDone s (exerOf s n.val)) :
    exec (.exerRunDone n) s = .next (exerEnd n.val 1 s) :=
  congrArg Host.Outcome.next (if_pos (by simp [hr, h0, hp]))

theorem exec_exerRestoreDone_of_due {s : State} {n : Fin 8} (hr : (stackOf s n.val).restore = true)
    (ho : (stackOf s n.val).online = true) (hw : rinseWaits s n.val = false) : exec (.exerRestoreDone n) s =
      .next (modStack n.val (fun k => { k with restore := false }) (writeReserved n.val s)) :=
  congrArg Host.Outcome.next (if_pos (by simp [hr, ho, hw]))

/-! ### Bench mode (R473, R474) -/

/-- The checks of BENCH_ENTER are passed, and the channel is not benched yet. -/
structure MayBench (c : Cmd) (s : State) : Prop where
  inRange : par c 0 2 < 256
  present : chanAbsent s (par c 0 2) = false
  notScald : (stackOf s (par c 0 2 / 32)).thermal.heat ≠ .scald
  awake : asleep s (par c 0 2 / 32) = false
  noDoze : s.doze = .none
  noWindow : (chanOf s (par c 0 2)).windowOpen = false
  notBenched : (chanOf s (par c 0 2)).bench = .none

theorem benchEnterWork_eq {c : Cmd} {s : State} (h : MayBench c s) : benchEnterWork c s =
    if fetchUnderWay s (par c 0 2) = true then .wait s else .done (benchChan (par c 0 2) s) stOK [] := by
  simp [benchEnterWork, Nat.not_le.mpr h.inRange, h.present, h.notScald, h.awake, h.noDoze, h.noWindow, h.notBenched]

theorem abandonCal_chans (fp t : Nat) (s : State) : (abandonCal fp t s).chans = s.chans := by
  obtain ⟨_, _, _, _, h⟩ := abandonCal_replayFrame fp t s
  rw [h]

theorem benchChan_chans (ch : Nat) (s : State) :
    (benchChan ch s).chans = (modChan ch (fun x => { x with bench := .command }) s).chans := by
  unfold benchChan
  exact foldl_keeps State.chans (fun t fp => abandonCal_chans fp (now t + 1) t) (chanPcs ch) _

theorem bench_benchChan (ch : Nat) (s : State) : (chanOf (benchChan ch s) ch).bench = .command := by
  rw [chanOf_of_chans (benchChan_chans ch s), modChan_eq, chanOf_setChan_self]

theorem testAccess_endTestAccess (ch : Nat) (s : State) : (chanOf (endTestAccess ch s) ch).testAccess = false := by
  rw [endTestAccess]
  split
  · exact congrArg Chan.testAccess (chanOf_setChan_self ch _ s)
  · next h => exact Bool.eq_false_iff.mpr h

/-- What BENCH_EXIT does to the channel before its retraining: the exercise and the test access on it end. -/
def benchExits (c : Cmd) (s : State) : State :=
  modChan (par c 0 2) (fun x => { x with exitCmd := some c, retrainDue := true })
    (endTestAccess (par c 0 2) (endBenchRun (par c 0 2) s))

theorem benchExitWork_wait {c : Cmd} {s : State} (hr : par c 0 2 < 256) (hp : chanAbsent s (par c 0 2) = false)
    (hb : (chanOf s (par c 0 2)).bench = .command) (he : (chanOf s (par c 0 2)).exitCmd = none) :
    benchExitWork c s = .wait (benchExits c s) := by
  simp [benchExitWork, Nat.not_le.mpr hr, hp, hb, he, benchExits]

theorem chanOf_benchExits (c : Cmd) (s : State) : (chanOf (benchExits c s) (par c 0 2)).exitCmd = some c ∧
    (chanOf (benchExits c s) (par c 0 2)).retrainDue = true ∧
    (chanOf (benchExits c s) (par c 0 2)).testAccess = false := by
  rw [benchExits, modChan_eq, chanOf_setChan_self]
  exact ⟨rfl, rfl, testAccess_endTestAccess _ _⟩

/-! ### Unlocking (R483, R484) -/

/-- The state once TEST_NONCE has given its nonce. -/
def nonceGiven (s : State) : State :=
  { s with freeCount := s.freeCount + 32, dbg := { s.dbg with nonce := some (freshBytes 32 s) } }

theorem testNonceWork_eq (c : Cmd) (s : State) : testNonceWork c s = .done
    (emit (.hostWrite (cmdFn c) (par c 8 8) (freshBytes 32 s)) (nonceGiven s)) stOK (leBytes 1 s.dbg.level) := rfl

section
variable {c : Cmd} {s : State} (h : ∀ t < 128, partState s t = 0)
include h

theorem no_partition_of_partState : (List.range 128).any (fun t => partState s t != 0) = false := by
  simp only [List.any_eq_false, List.mem_range, bne_iff_ne, ne_eq, not_not]
  exact h

theorem testUnlockWork_of_relock (h0 : leAt c.hostIn 0 1 = 0) : testUnlockWork c s =
    .done { s with dbg := { s.dbg with nonce := none, level := 0 } } stOK [0] := by
  simp [testUnlockWork, no_partition_of_partState h, h0]

theorem testUnlockWork_of_token (h0 : leAt c.hostIn 0 1 ≠ 0) : testUnlockWork c s =
    if tokenOk s c.hostIn = true then .done { s with dbg := { s.dbg with nonce := none, level := 1 } } stOK [1]
    else .done { s with dbg := { s.dbg with nonce := none } } stUnlockRejected (leBytes 1 s.dbg.level) := by
  simp [testUnlockWork, no_partition_of_partState h, h0]

end

theorem tokenOk_iff (s : State) (b : List Byte) : tokenOk s b = true ↔ leAt b 0 1 = 1 ∧
    leAt b 8 8 = s.ident.serial.toNat ∧ s.dbg.nonce = some (bytesAt b 16 32) ∧
    Config.unlockSignatureOk (padTo 144 b) = true := by
  simp only [tokenOk, Bool.and_eq_true, beq_iff_eq, and_assoc]

/-! ### The stack port (R482) -/

/-- Channel ch after an access to its stack's port. -/
def portAccessed (ch : Nat) (s : State) : State :=
  (chanPcs ch).foldl (fun s fp => readResources fp s) (modChan ch (fun x => { x with testAccess := true }) s)

theorem foldl_readResources_frame (l : List Nat) (s : State) :
    ∃ pcs n, l.foldl (fun s fp => readResources fp s) s = { s with pcs := pcs, freeCount := n } := by
  induction l generalizing s with
  | nil => exact ⟨_, _, rfl⟩
  | cons fp l ih =>
    obtain ⟨pcs, n, h⟩ := ih (readResources fp s)
    exact ⟨pcs, n, h⟩

theorem portAccessed_eq (ch : Nat) (s : State) : ∃ pcs n, portAccessed ch s =
    { modChan ch (fun x => { x with testAccess := true }) s with pcs := pcs, freeCount := n } :=
  foldl_readResources_frame (chanPcs ch) _

theorem portAccessed_frame (ch : Nat) (s : State) : portAccessed ch s = { s with
    chans := (portAccessed ch s).chans, pcs := (portAccessed ch s).pcs, freeCount := (portAccessed ch s).freeCount } := by
  obtain ⟨pcs, n, h⟩ := portAccessed_eq ch s
  rw [h]
  rfl

theorem testAccess_portAccessed (ch : Nat) (s : State) : (chanOf (portAccessed ch s) ch).testAccess = true := by
  obtain ⟨pcs, n, h⟩ := portAccessed_eq ch s
  rw [h]
  exact congrArg Chan.testAccess (chanOf_setChan_self ch _ s)

theorem testStackAccessWork_done {c : Cmd} {s : State} (d : List Byte) (hr : par c 0 2 < 256) (h1 : 1 ≤ par c 4 4)
    (hm : par c 4 4 ≤ 65536) (hp : chanAbsent s (par c 0 2) = false) (hb : (chanOf s (par c 0 2)).bench ≠ .none)
    (ho : stackOwned s (par c 0 2 / 32) = false) (hh : (stackOf s (par c 0 2 / 32)).thermal.heat ≠ .scald) :
    testStackAccessWork c d s = .done (emit (.hostWrite (cmdFn c) (par c 8 8) (padTo (ceilDiv (par c 4 4) 8) d))
      (portAccessed (par c 0 2) s)) stOK [] := by
  have h0 : par c 4 4 ≠ 0 := by omega
  simp [testStackAccessWork, Nat.not_le.mpr hr, h0, Nat.not_lt.mpr hm, hp, hb, ho, hh, portAccessed]

/-- Settles O19: the checks of each command pass, so that its work ends or waits with the state that it names. -/
theorem testAccessCommands : Obligations.TestAccessCommands := by
  unfold Obligations.TestAccessCommands
  refine ⟨?_, ?_, ?_, ?_, ?_, ?_, ?_, ?_, ?_, ?_, ?_, ?_, ?_⟩
  · intro c s h hn hr hm
    exact congrArg Host.Outcome.next (mailbox_done h (exerStartWork_done hn hr hm))
  · intro c s h hn
    exact congrArg Host.Outcome.next (mailbox_done h (exerStopWork_eq s hn))
  · intro c s h hn
    exact congrArg Host.Outcome.next (mailbox_done h (exerStatusWork_eq s hn))
  · intro c s h hn ha
    exact congrArg Host.Outcome.next (mailbox_done h (exerCaptureReadWork_eq s hn ha))
  · intro s n hr h0 hp
    exact exec_exerRunDone_of_over hr h0 hp
  · intro s n hr ho hw
    exact ⟨_, exec_exerRestoreDone_of_due hr ho hw, congrArg Stack.restore (stackOf_setStack_self ..), rfl⟩
  · intro c s h hr hp hh ha hd hw hb hf
    have hwork := benchEnterWork_eq (s := s) ⟨hr, hp, hh, ha, hd, hw, hb⟩
    rw [if_neg (by simp [hf])] at hwork
    exact ⟨congrArg Host.Outcome.next (mailbox_done h hwork), bench_benchChan _ s⟩
  · intro c s h hr hp hh ha hd hw hb hf
    have hwork := benchEnterWork_eq (s := s) ⟨hr, hp, hh, ha, hd, hw, hb⟩
    rw [if_pos hf] at hwork
    exact congrArg Host.Outcome.next (mailbox_wait h hwork)
  · intro c s h hr hp hb he
    exact ⟨_, congrArg Host.Outcome.next (mailbox_wait h (benchExitWork_wait hr hp hb he)), chanOf_benchExits c s⟩
  · intro c s h
    exact ⟨freshBytes 32 s, nonceGiven s, by simp [freshBytes], rfl, rfl,
      congrArg Host.Outcome.next (mailbox_done h (testNonceWork_eq c s))⟩
  · intro c s h hp h0
    exact congrArg Host.Outcome.next (mailbox_done h (testUnlockWork_of_relock hp h0))
  · intro c s h hp h0
    have hwork := testUnlockWork_of_token hp h0
    rw [← if_congr (tokenOk_iff s c.hostIn) rfl rfl]
    split at hwork
    · next ht => rw [if_pos ht]; exact congrArg Host.Outcome.next (mailbox_done h hwork)
    · next ht => rw [if_neg ht]; exact congrArg Host.Outcome.next (mailbox_done h hwork)
  · intro c d s h hr h1 hm hp hb ho hh
    exact ⟨_, congrArg Host.Outcome.next (mailbox_done h (testStackAccessWork_done d hr h1 hm hp hb ho hh)),
      testAccess_portAccessed _ s, portAccessed_frame _ s⟩

end Sys2Proof.Machine
end

section
/-! Calibrations and retraining (R310 to R329). The channel of a window is given once as a record; the codes of a
pseudo-channel are kept by every count and by every forced instant that moves. -/

namespace Sys2Proof.Machine

open Sys2Proof

/-! ### Due and forced (R317, R319) -/

/-- A due instant is the last one that came, and it is a slot boundary. -/
theorem lastDue_of_isDueInstant {fp t : Nat} (h : isDueInstant fp t = true) : lastDue fp t = some t ∧ t % calSlot = 0 := by
  simp only [isDueInstant, calCycle, Bool.and_eq_true, decide_eq_true_eq, beq_iff_eq] at h
  obtain ⟨hle, hmod⟩ := h
  have hlast : calOffset fp + (t - calOffset fp) / 16777216 * 16777216 = t := by omega
  refine ⟨by simp [lastDue, calCycle, hlast, Nat.not_lt.mpr hle], ?_⟩
  unfold calOffset at hle hmod
  simp only [calSlot]
  omega

theorem calibrationDue_of_last {fp d : Nat} {s : State} (h : lastDue fp (now s) = some d) :
    calibrationDue fp s = if (pcOf s fp).cal.seen == some d || now s % calSlot ≠ 0 then s
      else if noneDue s fp then setPc fp { pcOf s fp with cal := { (pcOf s fp).cal with seen := some d } } s
      else if (chanOf s (fp / 2)).sr != .awake && (stackOf s (fp / 64)).thermal.heat != .scald then s
      else if now s ≠ d && forcedTaken s fp (now s) then s
      else fallDue fp d s := by
  unfold calibrationDue
  split
  · next hn => exact absurd (hn.symm.trans h) nofun
  · next hd =>
    cases hd.symm.trans h
    rfl

theorem calibrationDue_of_instant {fp : Nat} {s : State} (hi : isDueInstant fp (now s) = true)
    (hs : (pcOf s fp).cal.seen ≠ some (now s)) (hn : noneDue s fp = false)
    (hr : (chanOf s (fp / 2)).sr = .awake) : calibrationDue fp s = fallDue fp (now s) s := by
  obtain ⟨hlast, hslot⟩ := lastDue_of_isDueInstant hi
  have hcame : ¬ ((pcOf s fp).cal.seen == some (now s) || decide (now s % calSlot ≠ 0)) = true := by
    simp only [Bool.or_eq_true, beq_iff_eq, decide_eq_true_eq, not_or, not_not]
    exact ⟨hs, hslot⟩
  have hawake : ¬ ((chanOf s (fp / 2)).sr != .awake && (stackOf s (fp / 64)).thermal.heat != .scald) = true := by
    simp [hr]
  have hfree : ¬ (decide (now s ≠ now s) && forcedTaken s fp (now s)) = true := by simp
  rw [calibrationDue_of_last hlast, if_neg hcame, hn, if_neg Bool.false_ne_true, if_neg hawake, if_neg hfree]

theorem pcOf_modStack (n : Nat) (f : Stack → Stack) (s : State) (fp : Nat) :
    pcOf (modStack n f s) fp = pcOf s fp := rfl

/-- What a pseudo-channel's calibration becomes as it falls due for the first time. -/
theorem pcOf_fallDue_none {fp : Nat} {s : State} (hd : (pcOf s fp).cal.due = none) (d : Nat) :
    pcOf (fallDue fp d s) fp = { pcOf s fp with cal := { (pcOf s fp).cal with
      seen := some d, due := some (s.clock.timebase, (dueKind s fp d).1),
      forcedAt := freeSlot s fp (s.clock.timebase + 15990784), owedTiming := (dueKind s fp d).2 } } := by
  simp [fallDue, hd, now, calSlack]

theorem calibrationForced_of_due {fp : Nat} {s : State} (hf : forcedDue s fp = true) (hc : slotClosed s fp = false) :
    calibrationForced fp s = startCal fp true s := by
  simp [calibrationForced, hf, hc]

theorem countCal_frame (n : Nat) (timing : Bool) (s : State) : ∃ kettle, countCal n timing s = { s with kettle := kettle } := by
  cases timing
  · exact ⟨_, rfl⟩
  · exact ⟨_, rfl⟩

theorem pcOf_countCal (n : Nat) (timing : Bool) (s : State) (q : Nat) : pcOf (countCal n timing s) q = pcOf s q := by
  obtain ⟨_, h⟩ := countCal_frame n timing s
  rw [h]
  rfl

theorem stackOf_countCal (n : Nat) (timing : Bool) (s : State) (k : Nat) :
    stackOf (countCal n timing s) k = stackOf s k := by
  obtain ⟨_, h⟩ := countCal_frame n timing s
  rw [h]
  rfl

theorem chanOf_countCal (n : Nat) (timing : Bool) (s : State) (k : Nat) :
    chanOf (countCal n timing s) k = chanOf s k := by
  obtain ⟨_, h⟩ := countCal_frame n timing s
  rw [h]
  rfl

theorem pcOf_startCal {fp d : Nat} {timing forced : Bool} {s : State}
    (hd : (pcOf s fp).cal.due = some (d, timing)) : ∃ defer columns, pcOf (startCal fp forced s) fp =
      { pcOf s fp with rows := [], columnsNow := columns, cal := { (pcOf s fp).cal with
        running := some timing, startedForced := forced, maxDefer := defer,
        forced := (pcOf s fp).cal.forced + (if forced then 1 else 0) } } := by
  simp only [startCal, hd, pcOf_countCal, pcOf_modStack, pcOf_prechargeAll, if_true, pcOf_setPc_self]
  exact ⟨_, _, rfl⟩

theorem calRunning_startCal {fp d : Nat} {timing forced : Bool} {s : State}
    (hd : (pcOf s fp).cal.due = some (d, timing)) :
    (stackOf (startCal fp forced s) (fp / 64)).calRunning = some (fp % 64) := by
  simp only [startCal, hd, stackOf_countCal, modStack_eq, stackOf_setStack_self]

/-! ### The end of a calibration (R323 to R325) -/

section
variable (s : State) (fp : Nat) (timing ok : Bool) (r : CalResult) (c : Cal)

theorem calRecord_running : (calRecord s fp timing ok r c).running = none := by
  cases ok <;> cases timing <;> rfl

theorem calRecord_due : (calRecord s fp timing ok r c).due = none := by
  cases ok <;> cases timing <;> rfl

/-- A passed calibration applies the codes of its kind. -/
theorem calRecord_codes_of_ok : (calRecord s fp timing true r c).codes = c.codes.map (applyCodes timing r) := by
  cases timing <;> rfl

theorem calRecord_codes_of_failed : (calRecord s fp timing false r c).codes = c.codes := by
  cases timing <;> rfl

/-- A failed calibration counts as one failure of its kind. -/
theorem calRecord_fails_of_failed : (calRecord s fp timing false r c).failImp +
    (calRecord s fp timing false r c).failTim = c.failImp + c.failTim + 1 := by
  cases timing
  · exact Nat.add_right_comm _ _ _
  · rfl

end

theorem askRetrain_windowFrame (ch : Nat) (s : State) : WindowFrame s (askRetrain ch s) := by
  unfold askRetrain
  split
  · exact .refl s
  · exact modChan_windowFrame ch _ s

theorem pcOf_askRetrain (ch : Nat) (s : State) (q : Nat) : pcOf (askRetrain ch s) q = pcOf s q := by
  unfold askRetrain
  split
  · rfl
  · rfl

theorem stackOf_countEvent (i n : Nat) (s : State) (k : Nat) : stackOf (countEvent i n s) k = stackOf s k := rfl

/-- A calibration of one kind has ended: its record is kept, and its stack calibrates no more. -/
def calEnded (fp : Nat) (timing : Bool) (r : CalResult) (s : State) : State :=
  let ok := plausible (pcOf s fp).cal timing r
  countEvent (stackCtr (fp / 64) (if ok then 10 else 11)) 1 (modStack (fp / 64) (fun k => { k with calRunning := none })
    (setPc fp { pcOf s fp with cal := calRecord s fp timing ok r (pcOf s fp).cal } s))

theorem pcOf_calEnded (fp : Nat) (timing : Bool) (r : CalResult) (s : State) : pcOf (calEnded fp timing r s) fp =
    { pcOf s fp with cal := calRecord s fp timing (plausible (pcOf s fp).cal timing r) r (pcOf s fp).cal } := by
  rw [calEnded, pcOf_countEvent, pcOf_modStack, pcOf_setPc_self]

theorem calRunning_calEnded (fp : Nat) (timing : Bool) (r : CalResult) (s : State) :
    (stackOf (calEnded fp timing r s) (fp / 64)).calRunning = none := by
  rw [calEnded, stackOf_countEvent, modStack_eq, stackOf_setStack_self]

/-- The third failure in a row also asks for a retraining (R325). -/
theorem calibrationEnd_eq {fp : Nat} {r : CalResult} {timing : Bool} {s : State}
    (h : (pcOf s fp).cal.running = some timing) : calibrationEnd fp r s = calEnded fp timing r s ∨
      calibrationEnd fp r s = askRetrain (fp / 2) (calEnded fp timing r s) := by
  rw [calibrationEnd, h]
  exact (ite_eq_or_eq _ _ _).symm

section
variable {fp : Nat} {r : CalResult} {timing : Bool} {s : State} (h : (pcOf s fp).cal.running = some timing)
include h

theorem pcOf_calibrationEnd : pcOf (calibrationEnd fp r s) fp =
    { pcOf s fp with cal := calRecord s fp timing (plausible (pcOf s fp).cal timing r) r (pcOf s fp).cal } := by
  rcases calibrationEnd_eq (r := r) h with he | he
  · rw [he, pcOf_calEnded]
  · rw [he, pcOf_askRetrain, pcOf_calEnded]

theorem calRunning_calibrationEnd : (stackOf (calibrationEnd fp r s) (fp / 64)).calRunning = none := by
  rcases calibrationEnd_eq (r := r) h with he | he
  · rw [he, calRunning_calEnded]
  · rw [he, (askRetrain_windowFrame _ _).stackOf_eq, calRunning_calEnded]

end

/-! ### The reference (R310, R311) -/

/-- The bounds within which a measurement of the reference is accepted. -/
def rrefAccepted (code : Nat) (s : State) : Bool :=
  15840 ≤ code && code ≤ 16160 && code ≤ s.refcode.inForce + 16 && s.refcode.inForce ≤ code + 16

theorem rrefPeriodic_of_due {code : Nat} {s : State} (hb : s.boot.halt = .none) (hf : s.refcode.inForce ≠ 0)
    (ha : s.refcode.at_ + 2 ^ 30 ≤ s.clock.timebase) : rrefPeriodic code s = rrefMeasured code s := by
  have hl : ¬ now s < s.refcode.at_ + 2 ^ 30 := Nat.not_lt.mpr ha
  refine if_neg ?_
  rw [decide_eq_false hl, hb]
  simp [hf]

theorem rrefMeasured_of_accepted {code : Nat} {s : State} (h : rrefAccepted code s = true) :
    rrefMeasured code s = { s with refcode := { s.refcode with
      last := code, at_ := s.clock.timebase, inForce := code, rowRejected := 0 } } := if_pos h

theorem alertEvent_refcode (code sev : Nat) (args : List Byte) (rings : List Nat) (s : State) :
    (alertEvent code sev args rings s).refcode = s.refcode := by
  obtain ⟨_, _, _, _, h⟩ := logEvent_frame code noTenant sev noStack args rings s
  rw [alertEvent, h]
  rfl

/-- A rejected measurement is kept as the last one and counted, and the reference in force stands. -/
theorem refcode_rrefMeasured_of_rejected {code : Nat} {s : State} (h : rrefAccepted code s = false) :
    ∃ three, (rrefMeasured code s).refcode = { s.refcode with
      last := code, at_ := s.clock.timebase, rejected := s.refcode.rejected + 1,
      rowRejected := s.refcode.rowRejected + 1, threeRejects := three } := by
  have hr : rrefMeasured code s = if s.refcode.rowRejected + 1 = 3 then _ else _ := if_neg (Bool.eq_false_iff.mp h)
  rw [hr]
  split
  · exact ⟨true, alertEvent_refcode _ _ _ _ _⟩
  · exact ⟨_, rfl⟩

/-! ### Offline retraining (R329) -/

theorem chanOf_retryPush (fp : Nat) (c : RetryCmd) (s : State) (ch : Nat) : ∃ retry retryRows,
    chanOf (retryPush fp c s) ch = { chanOf s ch with retry := retry, retryRows := retryRows } := by
  rw [retryPush, modChan_eq, chanOf_setChan]
  split
  · next h => exact ⟨_, _, by rw [h]⟩
  · exact ⟨_, _, rfl⟩

theorem chanOf_prechargeAll (fp : Nat) (s : State) (ch : Nat) : ∃ retry retryRows,
    chanOf (prechargeAll fp s) ch = { chanOf s ch with retry := retry, retryRows := retryRows } :=
  chanOf_retryPush fp _ s ch

/-- What a window that opens changes of its channel. -/
theorem chanOf_openWindow {ch : Nat} {s : State} (h : (chanOf s ch).windowOpen = false) :
    ∃ away retry retryRows, chanOf (openWindow ch s) ch = { chanOf s ch with
      awayFrom := away, retry := retry, retryRows := retryRows, windowOpen := true, windows := (chanOf s ch).windows + 1 } := by
  obtain ⟨_, _, h0⟩ := chanOf_prechargeAll (2 * ch) (chanAway ch s) ch
  obtain ⟨_, _, h1⟩ := chanOf_prechargeAll (2 * ch + 1) (prechargeAll (2 * ch) (chanAway ch s)) ch
  have ha : chanOf (chanAway ch s) ch =
      { chanOf s ch with awayFrom := some ((chanOf s ch).awayFrom.getD (now s)) } := chanOf_setChan_self _ _ _
  rw [openWindow, if_neg (by simp [h]), chanOf_countEvent, modChan_eq, chanOf_setChan_self]
  simp only [chanPcs, List.foldl_cons, List.foldl_nil, h1, h0, ha]
  exact ⟨_, _, _, rfl⟩

theorem countWindowCal_chans (ch : Nat) (s : State) : (countWindowCal ch s).chans = s.chans := by
  refine foldl_keeps State.chans (fun s fp => ?_) (chanPcs ch) s
  obtain ⟨_, h0⟩ := countCal_frame (fp / 64) false s
  obtain ⟨_, h1⟩ := countCal_frame (fp / 64) true (countCal (fp / 64) false s)
  rw [h1, h0]
  rfl

/-- A retraining window that is due is taken and counted before it opens. -/
def retrainTaken (ch : Nat) (s : State) : State :=
  countWindowCal ch (modChan ch (fun c => { c with
    window := .retrain, retrainDue := false, retrainings := c.retrainings + 1 }) s)

theorem chanOf_retrainTaken (ch : Nat) (s : State) : chanOf (retrainTaken ch s) ch = { chanOf s ch with
    window := .retrain, retrainDue := false, retrainings := (chanOf s ch).retrainings + 1 } := by
  rw [retrainTaken, chanOf_of_chans (countWindowCal_chans _ _), modChan_eq, chanOf_setChan_self]

theorem retrainWindow_of_due {ch : Nat} {s : State} (hd : (chanOf s ch).retrainDue = true)
    (hw : (chanOf s ch).window = .none) (ho : (chanOf s ch).windowOpen = false) (hm : mayOpen s ch = true)
    (hb : (chanOf s ch).bench ≠ .device) : retrainWindow ch s = openWindow ch (retrainTaken ch s) :=
  if_pos (by simp [hd, hw, ho, hm, hb])

/-- The codes of a pseudo-channel. -/
def codesOf (q : Nat) (s : State) : Option CalResult := (pcOf s q).cal.codes

theorem codesOf_setPc {q n : Nat} {v : Pc} {s : State} (h : v.cal.codes = (pcOf s n).cal.codes) :
    codesOf q (setPc n v s) = codesOf q s := by
  rw [codesOf, pcOf_setPc]
  split
  · next e => rw [h, e]; rfl
  · rfl

theorem codesOf_moveForced (q fp ticks : Nat) (s : State) : codesOf q (moveForced fp ticks s) = codesOf q s := by
  unfold moveForced
  dsimp only
  split
  · rfl
  · exact codesOf_setPc rfl

theorem codesOf_chanBack (q ch : Nat) (s : State) : codesOf q (chanBack ch s) = codesOf q s := by
  unfold chanBack
  dsimp only
  split
  · rfl
  · split
    · rfl
    · rw [codesOf_moveForced, codesOf_moveForced]
      rfl

theorem codesOf_closeWindow (q ch : Nat) (s : State) : codesOf q (closeWindow ch s) = codesOf q s :=
  codesOf_chanBack q ch _

theorem codesOf_windowCounts (q fp : Nat) (s : State) : codesOf q (windowCounts fp s) = codesOf q s :=
  codesOf_setPc (s := s) rfl

theorem codesOf_windowRetrained (q ch : Nat) (s : State) : codesOf q (windowRetrained ch s) = codesOf q s :=
  foldl_keeps (codesOf q) (fun s fp => codesOf_windowCounts q fp s) (chanPcs ch) s

/-- The codes of a retraining apply to both pseudo-channels. -/
def codesApplied (ch : Nat) (r0 r1 : CalResult) (s : State) : State :=
  modPc (2 * ch + 1) (fun p => { p with cal := { p.cal with codes := some r1 } })
    (modPc (2 * ch) (fun p => { p with cal := { p.cal with codes := some r0 } }) s)

theorem codesOf_codesApplied (ch : Nat) (r0 r1 : CalResult) (s : State) :
    codesOf (2 * ch) (codesApplied ch r0 r1 s) = some r0 ∧ codesOf (2 * ch + 1) (codesApplied ch r0 r1 s) = some r1 := by
  constructor
  · simp [codesOf, codesApplied, pcOf_setPc]
  · simp [codesOf, codesApplied]

/-- The window of a successful retraining closes. -/
def retrainClosed (ch : Nat) (r0 r1 : CalResult) (s : State) : State :=
  closeWindow ch (windowRetrained ch (codesApplied ch r0 r1 s))

theorem codesOf_retrainClosed (q ch : Nat) (r0 r1 : CalResult) (s : State) :
    codesOf q (retrainClosed ch r0 r1 s) = codesOf q (codesApplied ch r0 r1 s) := by
  rw [retrainClosed, codesOf_closeWindow, codesOf_windowRetrained]

/-- A BENCH_EXIT that waits on the retraining ends with it; nothing else of the window or the codes changes. -/
theorem retrained_eq (ch : Nat) (r0 r1 : CalResult) (s : State) :
    (∀ q, codesOf q (retrained ch r0 r1 s) = codesOf q (retrainClosed ch r0 r1 s)) ∧
    (chanOf (retrained ch r0 r1 s) ch).windowOpen = (chanOf (retrainClosed ch r0 r1 s) ch).windowOpen ∧
    (chanOf (retrained ch r0 r1 s) ch).window = (chanOf (retrainClosed ch r0 r1 s) ch).window := by
  have he : retrained ch r0 r1 s = match (chanOf (retrainClosed ch r0 r1 s) ch).exitCmd with
      | none => retrainClosed ch r0 r1 s
      | some c => finish 0x0E02 c stOK [] (modChan ch (fun x => { x with exitCmd := none, bench := .none })
          (retrainClosed ch r0 r1 s)) := rfl
  rw [he]
  split
  · exact ⟨fun _ => rfl, rfl, rfl⟩
  · refine ⟨fun q => ?_, ?_, ?_⟩
    · rw [codesOf, pcOf_finish, pcOf_modChan, ← codesOf]
    · rw [chanOf_finish, modChan_eq, chanOf_setChan_self]
    · rw [chanOf_finish, modChan_eq, chanOf_setChan_self]

theorem retrainEnd_of_passed {ch : Nat} {r0 r1 : CalResult} {s : State} (ho : (chanOf s ch).windowOpen = true)
    (hw : (chanOf s ch).window = .retrain) (hh : (stackOf s (ch / 32)).thermal.heat ≠ .scald)
    (h0 : windowOk s (2 * ch) r0 = true) (h1 : windowOk s (2 * ch + 1) r1 = true) :
    retrainEnd ch [] r0 r1 s = retrained ch r0 r1 s := by
  simp [retrainEnd, ho, hw, hh, h0, h1]

/-- Settles O40: a due instant is a slot boundary, so the calibration falls due in its own step; a retraining's codes
stand through the counts and the forced instants that its close moves. -/
theorem calibrationEvents : Obligations.CalibrationEvents := by
  unfold Obligations.CalibrationEvents
  refine ⟨?due, ?forced, ?ended, ?accepted, ?rejected, ?window, ?windowEnd⟩
  case due =>
    intro s fp hi hs hn hr hd
    refine ⟨_, congrArg Host.Outcome.next (calibrationDue_of_instant hi hs hn hr), ?_⟩
    rw [pcOf_fallDue_none hd]
    exact ⟨rfl, rfl, rfl⟩
  case forced =>
    intro s fp d timing hf hc hd
    obtain ⟨_, _, hp⟩ := pcOf_startCal (forced := true) hd
    refine ⟨_, congrArg Host.Outcome.next (calibrationForced_of_due hf hc), ?_, ?_, ?_, calRunning_startCal hd⟩ <;>
      rw [hp]
    exact if_pos rfl ▸ rfl
  case ended =>
    intro s fp r timing h
    refine ⟨_, rfl, ?_, ?_, calRunning_calibrationEnd h, fun hok => ?_, fun hok => ?_⟩
    · rw [pcOf_calibrationEnd h]
      exact calRecord_running _ _ _ _ _ _
    · rw [pcOf_calibrationEnd h]
      exact calRecord_due _ _ _ _ _ _
    · rw [pcOf_calibrationEnd h, hok]
      exact calRecord_codes_of_ok _ _ _ _ _
    · rw [pcOf_calibrationEnd h, hok]
      exact ⟨calRecord_codes_of_failed _ _ _ r _, calRecord_fails_of_failed _ _ _ r _⟩
  case accepted =>
    intro s code hb hf ha h1 h2 h3 h4
    exact congrArg Host.Outcome.next ((rrefPeriodic_of_due hb hf ha).trans
      (rrefMeasured_of_accepted (by simp [rrefAccepted, h1, h2, h3, h4])))
  case rejected =>
    intro s code hb hf ha hout
    obtain ⟨_, hr⟩ := refcode_rrefMeasured_of_rejected (code := code) (s := s) (by simp [rrefAccepted]; omega)
    refine ⟨_, congrArg Host.Outcome.next (rrefPeriodic_of_due hb hf ha), ?_, ?_, ?_, ?_⟩ <;> rw [hr]
  case window =>
    intro s ch hd hw ho hm hb
    have ht := chanOf_retrainTaken ch.val s
    have hshut : (chanOf (retrainTaken ch.val s) ch.val).windowOpen = false := by rw [ht]; exact ho
    obtain ⟨_, _, _, hc⟩ := chanOf_openWindow hshut
    rw [ht] at hc
    refine ⟨_, congrArg Host.Outcome.next (retrainWindow_of_due hd hw ho hm hb), ?_, ?_, ?_,
      fun fp hfp => rows_openWindow hfp hshut⟩ <;> rw [hc]
  case windowEnd =>
    intro s ch r0 r1 ho hw hh h0 h1
    obtain ⟨hcodes, hopen, hwin⟩ := retrained_eq ch.val r0 r1 s
    obtain ⟨hc0, hc1⟩ := codesOf_codesApplied ch.val r0 r1 s
    obtain ⟨_, hclosed⟩ := chanOf_closeWindow ch.val (windowRetrained ch.val (codesApplied ch.val r0 r1 s))
    refine ⟨_, congrArg Host.Outcome.next (retrainEnd_of_passed ho hw hh h0 h1), ?_, ?_, ?_, ?_⟩
    · rw [hopen, retrainClosed, hclosed]
    · rw [hwin, retrainClosed, hclosed]
    · exact ((hcodes _).trans (codesOf_retrainClosed _ _ _ _ _)).trans hc0
    · exact ((hcodes _).trans (codesOf_retrainClosed _ _ _ _ _)).trans hc1

end Sys2Proof.Machine
end

section
/-! Heat (R332 to R349): what a stack's sample and a scald change of the stack's thermal state, the accesses that an
abort ends, and the steps of the hub's throttle. -/

namespace Sys2Proof.Machine

open Sys2Proof

/-! ### States of a stack (Table 12.1) -/

/-- The thermal state of a stack. -/
def heatOf (n : Nat) (s : State) : Thermal := (stackOf s n).thermal

theorem thermal_eq_heatOf (n : Nat) (s : State) : (stackOf s n).thermal = heatOf n s := rfl

theorem heatOf_of_dieSide {s t : State} (h : dieSide t = dieSide s) (n : Nat) : heatOf n t = heatOf n s :=
  congrArg Stack.thermal (stackOf_of_dieSide h n)

theorem heatOf_noteLateness (n k : Nat) (changed : Bool) (s : State) : heatOf n (noteLateness k changed s) = heatOf n s :=
  rfl

theorem heatOf_modStack (n : Nat) (f : Stack → Stack) (s : State) : heatOf n (modStack n f s) = (f (stackOf s n)).thermal :=
  congrArg Stack.thermal (stackOf_setStack_self _ _ _)

theorem heatOf_heatChanged (n k : Nat) (s : State) : heatOf n (heatChanged k s) = heatOf n s := by
  unfold heatChanged
  rw [heatOf_noteLateness, heatOf_of_dieSide (dieSide_logEvent _ _ _ _ _ _ _)]
  rfl

/-- A stack that is put into a state keeps the rest of its thermal state but for its age and its count of entries. -/
theorem heatOf_setHeat (n : Nat) (heat : Heat) (step : Nat) (s : State) : ∃ entries, heatOf n (setHeat n heat step s) =
    { heatOf n s with heat := heat, step := step, age := 0, simmerEntries := entries } :=
  ⟨_, (heatOf_heatChanged n n _).trans (heatOf_modStack n _ s)⟩

theorem heatChanged_governor (n : Nat) (s : State) : governor (heatChanged n s) = governor s :=
  governor_logRecord _ _ _ _ _ _ _

theorem governor_modStack (n : Nat) (f : Stack → Stack) (s : State) : governor (modStack n f s) = governor s := rfl

theorem governor_setHeat (n : Nat) (heat : Heat) (step : Nat) (s : State) :
    governor (setHeat n heat step s) = governor s := by
  rw [setHeat, heatChanged_governor, governor_modStack]

theorem scaldDrop_setHeat (n : Nat) (heat : Heat) (step : Nat) (s : State) :
    (setHeat n heat step s).kettle.scaldDrop = s.kettle.scaldDrop :=
  (congrArg Kettle.scaldDrop (governor_setHeat n heat step s) :)

theorem heatOf_abandonCal (n fp t : Nat) (s : State) : heatOf n (abandonCal fp t s) = heatOf n s := by
  unfold abandonCal
  dsimp only
  split
  · rfl
  · rw [heatOf, modStack_eq, stackOf_setStack]
    split
    · next h => rw [h]; rfl
    · rfl

theorem srEnter_stk (ch : Nat) (keepAll : Bool) (s : State) : (srEnter ch keepAll s).stk = s.stk := by
  simp only [srEnter, countEvent_stk, modChan_eq, setChan_stk]
  exact foldl_keeps State.stk (fun _ _ => rfl) (chanPcs ch) (chanAway ch s)

theorem heatOf_srEnter (n ch : Nat) (keepAll : Bool) (s : State) : heatOf n (srEnter ch keepAll s) = heatOf n s := by
  rw [heatOf, stackOf, srEnter_stk, ← stackOf, heatOf]

theorem heatOf_stackToSelfRefresh (n k : Nat) (s : State) : heatOf n (stackToSelfRefresh k s) = heatOf n s := by
  unfold stackToSelfRefresh
  rw [foldl_keeps (heatOf n) (fun s ch => heatOf_srEnter n ch true s),
    foldl_keeps (heatOf n) (fun s fp => heatOf_abandonCal n fp _ s)]

/-- A cut is noted on its stack, and asks for the drop of E at the next mark (R55). -/
def cutNoted (n : Nat) (cut : List Nat) (s : State) : State :=
  let s := modStack n (fun k => { k with thermal := { k.thermal with
    cutAt := now s, cutChannels := cut, exitWait := false } }) s
  { s with kettle := { s.kettle with scaldDrop := insertNat s.kettle.scaldDrop n } }

theorem heatOf_cutNoted (n : Nat) (cut : List Nat) (s : State) : heatOf n (cutNoted n cut s) =
    { heatOf n s with cutAt := now s, cutChannels := cut, exitWait := false } :=
  (congrArg Stack.thermal (stackOf_setStack_self _ _ _) :)

theorem mem_scaldDrop_cutNoted (n : Nat) (cut : List Nat) (s : State) : n ∈ (cutNoted n cut s).kettle.scaldDrop :=
  mem_insertNat _ _

theorem scaldCut_eq (n : Nat) (s : State) :
    scaldCut n s = setHeat n .scald 0 (cutNoted n
      ((stackChans n).filter (fun ch => chanServes s ch && (chanOf s ch).sr != .asleep)) (stackToSelfRefresh n s)) := by
  rw [scaldCut, cutNoted]

/-- A cut puts the stack into scald; it awaits no exit yet (R340). -/
theorem heatOf_scaldCut (n : Nat) (s : State) : ∃ cutAt cutChannels age entries, heatOf n (scaldCut n s) =
    { heatOf n s with
      heat := .scald, step := 0, exitWait := false, cutAt := cutAt, cutChannels := cutChannels, age := age,
      simmerEntries := entries } := by
  obtain ⟨_, h⟩ := heatOf_setHeat n .scald 0 (cutNoted n
    ((stackChans n).filter (fun ch => chanServes s ch && (chanOf s ch).sr != .asleep)) (stackToSelfRefresh n s))
  rw [heatOf_cutNoted, heatOf_stackToSelfRefresh, ← scaldCut_eq] at h
  exact ⟨_, _, _, _, h⟩

theorem mem_scaldDrop_scaldCut (n : Nat) (s : State) : n ∈ (scaldCut n s).kettle.scaldDrop := by
  rw [scaldCut_eq, scaldDrop_setHeat]
  exact mem_scaldDrop_cutNoted _ _ _

/-! ### A stack's sample (R332, R335) -/

section
variable {n : Nat} {v : Int} {s : State}

theorem heatSample_of_hot (h : (heatOf n s).heat ≠ .scald) (hv : 400 ≤ v) : heatSample n v s = scaldCut n s := by
  unfold heatSample
  dsimp only
  split
  · next hs => exact absurd hs h
  all_goals exact if_pos hv

theorem heatSample_of_simmering (h : (heatOf n s).heat = .cool ∨ (heatOf n s).heat = .warm) (hl : 368 ≤ v) (hv : v < 400) :
    heatSample n v s = setHeat n .simmer 7 s := by
  unfold heatOf at h
  have hn : ¬ 400 ≤ v := by omega
  rcases h with h | h <;> rw [heatSample, h] <;> exact (if_neg hn).trans (if_pos hl)

theorem heatSample_of_warming (h : (heatOf n s).heat = .cool) (hl : 340 ≤ v) (hv : v < 368) :
    heatSample n v s = setHeat n .warm 0 s := by
  unfold heatOf at h
  rw [heatSample, h]
  exact (if_neg (by omega)).trans ((if_neg (by omega)).trans (if_pos hl))

theorem heatSample_of_cool (h : (heatOf n s).heat = .cool) (hv : v < 340) : heatSample n v s = s := by
  unfold heatOf at h
  rw [heatSample, h]
  exact (if_neg (by omega)).trans ((if_neg (by omega)).trans (if_neg (by omega)))

theorem heatSample_of_cooling (h : (heatOf n s).heat = .warm) (hv : v < 328) : heatSample n v s = setHeat n .cool 0 s := by
  unfold heatOf at h
  rw [heatSample, h]
  exact (if_neg (by omega)).trans ((if_neg (by omega)).trans (if_pos hv))

/-- A scalded stack only notes whether it may leave (R342). -/
theorem heatOf_heatSample_of_scald (h : (heatOf n s).heat = .scald) :
    heatOf n (heatSample n v s) = { heatOf n s with exitWait := decide (v < 380) } := by
  unfold heatOf at h
  rw [heatSample, h]
  dsimp only
  split
  · next hv => rw [heatOf_modStack, decide_eq_true hv]; rfl
  · next hv => rw [heatOf_modStack, decide_eq_false hv]; rfl

end

/-- t's stack has the measured temperature of s's. -/
def SameReading (n : Nat) (s t : State) : Prop :=
  (heatOf n t).temp = (heatOf n s).temp ∧ (heatOf n t).failing = (heatOf n s).failing

theorem SameReading.refl (n : Nat) (s : State) : SameReading n s s := ⟨rfl, rfl⟩

theorem SameReading.ite {n : Nat} {s a b : State} {c : Prop} [Decidable c] (ha : SameReading n s a)
    (hb : SameReading n s b) : SameReading n s (if c then a else b) := by
  split
  · exact ha
  · exact hb

theorem setHeat_sameReading (n : Nat) (heat : Heat) (step : Nat) (s : State) :
    SameReading n s (setHeat n heat step s) := by
  obtain ⟨_, h⟩ := heatOf_setHeat n heat step s
  rw [SameReading, h]
  exact ⟨rfl, rfl⟩

theorem scaldCut_sameReading (n : Nat) (s : State) : SameReading n s (scaldCut n s) := by
  obtain ⟨_, _, _, _, h⟩ := heatOf_scaldCut n s
  rw [SameReading, h]
  exact ⟨rfl, rfl⟩

/-- Table 12.1 moves the state and leaves the measured temperature. -/
theorem heatSample_sameReading (n : Nat) (v : Int) (s : State) : SameReading n s (heatSample n v s) := by
  have set := fun heat step => setHeat_sameReading n heat step s
  cases hh : (heatOf n s).heat with
  | scald =>
    rw [SameReading, heatOf_heatSample_of_scald hh]
    exact ⟨rfl, rfl⟩
  | cool =>
    unfold heatOf at hh
    rw [heatSample, hh]
    exact .ite (scaldCut_sameReading n s) (.ite (set _ _) (.ite (set _ _) (.refl n s)))
  | warm =>
    unfold heatOf at hh
    rw [heatSample, hh]
    exact .ite (scaldCut_sameReading n s) (.ite (set _ _) (.ite (set _ _) (.refl n s)))
  | simmer =>
    unfold heatOf at hh
    rw [heatSample, hh]
    exact .ite (scaldCut_sameReading n s) (.ite (.ite (.refl n s) (set _ _))
      (.ite (set _ _) (.ite (set _ _) (.refl n s))))

/-- A stack's sample is taken, once for its mark. -/
def sampleTaken (n : Nat) (s : State) : State :=
  let s := modStack n (fun k => { k with thermal := { k.thermal with sampled := some s.clock.mark } }) s
  { s with late := { s.late with
    colls := s.late.colls.map (fun c => if c.stack = n then { c with sampleSent := false } else c) } }

theorem heatOf_sampleTaken (n : Nat) (s : State) :
    heatOf n (sampleTaken n s) = { heatOf n s with sampled := some s.clock.mark } :=
  (congrArg Stack.thermal (stackOf_setStack_self _ _ _) :)

/-- A valid sample before Table 12.1 is applied: its temperature is noted. -/
def readingNoted (n : Nat) (v : Int) (s : State) : State :=
  modStack n (fun k => { k with thermal := { k.thermal with
    temp := some v, peak := some (match k.thermal.peak with
      | none => v
      | some p => max p v),
    failing := false, fails := 0, held4 := false,
    age := if k.thermal.heat == .simmer then k.thermal.age + 1 else k.thermal.age } }) (sampleTaken n s)

theorem reading_readingNoted (n : Nat) (v : Int) (s : State) : (heatOf n (readingNoted n v s)).temp = some v ∧
    (heatOf n (readingNoted n v s)).failing = false := by
  rw [readingNoted, heatOf_modStack]
  exact ⟨rfl, rfl⟩

theorem heat_readingNoted (n : Nat) (v : Int) (s : State) :
    (heatOf n (readingNoted n v s)).heat = (heatOf n s).heat := by
  rw [readingNoted, heatOf_modStack]
  exact (congrArg Thermal.heat (heatOf_sampleTaken n s) :)

theorem thermalSample_of_valid {n : Nat} {readings : List Int} {v : Int} {s : State} (hm : s.clock.mark % 16 = 0)
    (hs : (stackOf s n).thermal.sampled ≠ some s.clock.mark) (hp : s.pins.vaux = true)
    (hv : highest (validReadings readings) = some v) :
    thermalSample n readings s = setWarmNext n (noteLateness n false (heatSample n v (readingNoted n v s))) := by
  rw [thermalSample, if_neg (by simp [hm, hs, hp]), hv]
  rfl

theorem heatOf_setWarmNext (n : Nat) (s : State) : heatOf n (setWarmNext n s) = heatOf n s :=
  heatOf_modStack n _ s

/-- A sampled stack is what Table 12.1 makes of it. -/
theorem heatOf_sampled (n : Nat) (s : State) : heatOf n (setWarmNext n (noteLateness n false s)) = heatOf n s := by
  rw [heatOf_setWarmNext, heatOf_noteLateness]

theorem warmNext_setWarmNext (n : Nat) (s : State) :
    (stackOf (setWarmNext n s) n).warmNext = ((heatOf n s).failing || (heatOf n s).heat != .cool) :=
  congrArg Stack.warmNext (stackOf_setStack_self _ _ _)

/-! ### Aborted accesses (R341) -/

@[simp] theorem dieSide_mirrorFrame (type t ta : Nat) (sectors : List (List Byte × Bool)) (s : State) :
    dieSide (mirrorFrame type t ta sectors s) = dieSide s := by simp [mirrorFrame, modTwinPart, setTwinPart]

@[simp] theorem dieSide_sendOut (t : Nat) (o : MirrorOut) (s : State) : dieSide (sendOut t o s) = dieSide s := by
  fun_cases sendOut t o s <;> simp [copyFrame, mirrorSend, modTwinPart, setTwinPart]

@[simp] theorem dieSide_flushOut (n t : Nat) (s : State) : dieSide (flushOut n t s) = dieSide s := by
  fun_induction flushOut n t s with
  | case3 n s p o r hp ho s₁ ih => rw [ih, dieSide_sendOut]; rfl
  | _ => rfl

@[simp] theorem dieSide_mirrorDrop (t req : Nat) (s : State) : dieSide (mirrorDrop t req s) = dieSide s := by
  fun_cases mirrorDrop t req s <;> simp [flushMirror, settleReplies, setTwinPart]

/-- An access has ended without effect: none of its requests is left but write-backs, and what is left of it awaits its
owner with a status. -/
structure Aborted (x : Nat) (s : State) : Prop where
  reqs : ∀ r ∈ s.path.reqs, r.access = x → r.kind = .writeBack
  access : ∀ a, accessOfId s x = some a → a.owner ≠ .host ∧ a.left = 0 ∧ a.status ≠ 0

theorem Aborted.of_path {x : Nat} {s t : State} (h : Aborted x s) (hp : t.path = s.path) : Aborted x t :=
  ⟨by rw [hp]; exact h.reqs, by rw [accessOfId_of_accesses (congrArg Path.accesses hp)]; exact h.access⟩

theorem accessOfId_modAccess_eq {f : Access → Access} (hf : ∀ a, (f a).id = a.id) (id x : Nat) (s : State) :
    accessOfId (modAccess id f s) x = if x = id then (accessOfId s x).map f else accessOfId s x := by
  show (modFirst s.path.accesses (fun a => a.id == id) f).find? (fun a => a.id == x) =
    if x = id then (s.path.accesses.find? (fun a => a.id == x)).map f else s.path.accesses.find? (fun a => a.id == x)
  induction s.path.accesses with
  | nil => simp [modFirst]
  | cons a l ih =>
    by_cases ha : a.id = id
    · by_cases hx : x = id
      · simp [modFirst, ha, hf, hx]
      · have hne : ¬ id = x := fun h => hx h.symm
        simp [modFirst, ha, hf, hx, hne]
    · by_cases hx : a.id = x
      · have hne : ¬ x = id := fun h => ha (hx.trans h)
        simp [modFirst, hx, hne]
      · simpa [modFirst, ha, hx] using ih

theorem accessOfId_dropAccess (id x : Nat) (s : State) :
    accessOfId (dropAccess id s) x = if x = id then none else accessOfId s x := by
  show (s.path.accesses.filter (fun a => a.id != id)).find? (fun a => a.id == x) =
    if x = id then none else s.path.accesses.find? (fun a => a.id == x)
  rw [List.find?_filter]
  split
  · next h =>
    subst h
    simp
  · next h =>
    congr 1
    funext a
    by_cases ha : a.id = x
    · simp [ha, h]
    · simp [ha]

theorem failTlp_path (k tag : Nat) (write : Bool) (st : TlpStatus) (s : State) : (failTlp k tag write st s).path = s.path := by
  unfold failTlp
  split
  · exact (emit_eventFrame _ s).path
  · exact (emit_eventFrame _ s).path

theorem failTlp_stk (k tag : Nat) (write : Bool) (st : TlpStatus) (s : State) : (failTlp k tag write st s).stk = s.stk := by
  unfold failTlp
  split
  · exact congrArg Prod.fst (dieSide_emit (.aer k st) s)
  · exact congrArg Prod.fst (dieSide_emit (.tlp k tag st false []) s)

/-- The requests of an access that are not on their way any more are withdrawn. -/
def requestsGone (id : Nat) (s : State) : State :=
  { s with path := { s.path with reqs := s.path.reqs.filter (fun r =>
    r.access != id || r.kind == .readHalf || r.kind == .writeBack || r.place == .queued) } }

/-- An access that ends with a fault. -/
def faulted (st : Nat) (a : Access) : Access := { a with left := 0, status := if a.status = 0 then st else a.status }

theorem endAccess_of_none {id : Nat} {s : State} (h : accessOfId s id = none) (st : Nat) :
    endAccess id st s = requestsGone id s := by
  have hg : accessOfId (requestsGone id s) id = none := h
  change (match accessOfId (requestsGone id s) id with | none => requestsGone id s | some a => _) = _
  rw [hg]

theorem endAccess_of_host {id : Nat} {s : State} {a : Access} (h : accessOfId s id = some a) (ho : a.owner = .host)
    (st : Nat) : endAccess id st s = failTlp a.fn a.tag a.write (tlpStatusOf st) (dropAccess id (requestsGone id s)) := by
  have hg : accessOfId (requestsGone id s) id = some a := h
  change (match accessOfId (requestsGone id s) id with | none => requestsGone id s | some a => _) = _
  rw [hg]
  exact if_pos (beq_iff_eq.mpr ho)

theorem endAccess_of_engine {id : Nat} {s : State} {a : Access} (h : accessOfId s id = some a) (ho : a.owner ≠ .host)
    (st : Nat) : endAccess id st s = modAccess id (faulted st) (requestsGone id s) := by
  have hg : accessOfId (requestsGone id s) id = some a := h
  change (match accessOfId (requestsGone id s) id with | none => requestsGone id s | some a => _) = _
  rw [hg]
  exact if_neg (fun h => ho (beq_iff_eq.mp h))

/-- What an access that ends leaves: of its requests a part, of the stacks everything, and itself for its owner alone. -/
theorem endAccess_leaves {st : Nat} (hst : st ≠ 0) (id : Nat) (s : State) :
    (∀ r ∈ (endAccess id st s).path.reqs, r ∈ s.path.reqs) ∧ (endAccess id st s).stk = s.stk ∧
      (∀ x, x ≠ id → accessOfId (endAccess id st s) x = accessOfId s x) ∧
      ∀ a, accessOfId (endAccess id st s) id = some a → a.owner ≠ .host ∧ a.left = 0 ∧ a.status ≠ 0 := by
  have hgone : ∀ r ∈ (requestsGone id s).path.reqs, r ∈ s.path.reqs := fun r hr => List.mem_of_mem_filter hr
  cases ha : accessOfId s id with
  | none =>
    rw [endAccess_of_none ha]
    exact ⟨hgone, rfl, fun _ _ => rfl, fun a h => absurd (ha.symm.trans h) nofun⟩
  | some a =>
    by_cases ho : a.owner = .host
    · rw [endAccess_of_host ha ho]
      have hp := failTlp_path a.fn a.tag a.write (tlpStatusOf st) (dropAccess id (requestsGone id s))
      have hx := accessOfId_of_accesses (congrArg Path.accesses hp)
      refine ⟨?_, failTlp_stk _ _ _ _ _, fun x hne => ?_, fun b hb => ?_⟩
      · rw [hp]
        exact hgone
      · rw [hx, accessOfId_dropAccess, if_neg hne]
        rfl
      · rw [hx, accessOfId_dropAccess, if_pos rfl] at hb
        cases hb
    · rw [endAccess_of_engine ha ho]
      have hx := accessOfId_modAccess_eq (f := faulted st) (fun _ => rfl) id (s := requestsGone id s)
      refine ⟨hgone, rfl, fun x hne => ?_, fun b hb => ?_⟩
      · rw [hx, if_neg hne]
        rfl
      · rw [hx, if_pos rfl] at hb
        obtain rfl : faulted st a = b := Option.some.inj ((congrArg (Option.map (faulted st)) ha).symm.trans hb)
        refine ⟨ho, rfl, ?_⟩
        unfold faulted
        dsimp only
        split
        · exact hst
        · assumption

/-- An abort counts on its stack. -/
def abortCounted (n : Nat) (s : State) : State :=
  countEvent (stackCtr n 13) 1
    (modStack n (fun k => { k with thermal := { k.thermal with aborts := k.thermal.aborts + 1 } }) s)

theorem countAborted_eq (n : Nat) (coll : Option (BitVec 32)) (s : State) :
    ∃ late, countAborted n coll s = { abortCounted n s with late := late } := by
  cases coll with
  | none => exact ⟨_, rfl⟩
  | some id => exact ⟨_, rfl⟩

theorem abortCounted_path (n : Nat) (s : State) : (abortCounted n s).path = s.path := rfl

theorem aborts_abortCounted (n : Nat) (s : State) : (heatOf n (abortCounted n s)).aborts = (heatOf n s).aborts + 1 :=
  (congrArg (fun k => k.thermal.aborts) (stackOf_setStack_self _ _ _) :)

theorem countAborted_leaves (n : Nat) (coll : Option (BitVec 32)) (s : State) : (countAborted n coll s).path = s.path ∧
    (heatOf n (countAborted n coll s)).aborts = (heatOf n s).aborts + 1 := by
  obtain ⟨_, h⟩ := countAborted_eq n coll s
  rw [h, ← aborts_abortCounted, ← abortCounted_path n s]
  exact ⟨rfl, rfl⟩

/-- The requests of an access have been dropped, those that the mirror still waited for too. -/
def requestsDropped (id : Nat) (s : State) : State :=
  let s := (s.path.reqs.filter (fun r => r.access == id && r.kind != .writeBack)).foldl
    (fun s r => if r.write then mirrorDrop r.tenant r.id s else s) s
  { s with path := { s.path with reqs := s.path.reqs.filter (fun r => !(r.access == id && r.kind != .writeBack)) } }

theorem requestsDropped_leaves (id : Nat) (s : State) : (requestsDropped id s).stk = s.stk ∧
    (requestsDropped id s).path = { s.path with
      reqs := s.path.reqs.filter (fun r => !(r.access == id && r.kind != .writeBack)) } := by
  have hd := foldl_keeps (f := fun s r => if r.write then mirrorDrop r.tenant r.id s else s) dieSide
    (fun s (r : Req) => by split <;> simp) (s.path.reqs.filter (fun r => r.access == id && r.kind != .writeBack)) s
  refine ⟨(congrArg Prod.fst hd :), ?_⟩
  rw [requestsDropped, path_of_dieSide hd]

theorem abortAccess_eq (n id : Nat) (s : State) : ∃ coll,
    abortAccess n id s = countAborted n coll (endAccess id stThermalAbort (requestsDropped id s)) := ⟨_, rfl⟩

theorem heatOf_of_stk {s t : State} (h : t.stk = s.stk) (n : Nat) : heatOf n t = heatOf n s := by
  rw [heatOf, stackOf, h, ← stackOf, heatOf]

section
variable (n id : Nat) (s : State)

theorem aborts_abortAccess : (heatOf n (abortAccess n id s)).aborts = (heatOf n s).aborts + 1 := by
  obtain ⟨coll, he⟩ := abortAccess_eq n id s
  obtain ⟨_, hstk, _⟩ := endAccess_leaves (st := stThermalAbort) (by decide) id (requestsDropped id s)
  rw [he, (countAborted_leaves _ _ _).2, heatOf_of_stk hstk, heatOf_of_stk (requestsDropped_leaves id s).1]

theorem aborted_abortAccess : Aborted id (abortAccess n id s) := by
  obtain ⟨coll, he⟩ := abortAccess_eq n id s
  obtain ⟨hreqs, _, _, hend⟩ := endAccess_leaves (st := stThermalAbort) (by decide) id (requestsDropped id s)
  have hended : Aborted id (endAccess id stThermalAbort (requestsDropped id s)) := by
    refine ⟨fun r hr hid => ?_, hend⟩
    have hmem := hreqs r hr
    rw [(requestsDropped_leaves id s).2] at hmem
    simpa [hid] using (List.mem_filter.mp hmem).2
  rw [he]
  exact hended.of_path (countAborted_leaves _ _ _).1

/-- An access that is aborted stays so while others are. -/
theorem Aborted.abortAccess {x : Nat} {s : State} (h : Aborted x s) : Aborted x (abortAccess n id s) := by
  by_cases hx : x = id
  · exact hx ▸ aborted_abortAccess n id s
  obtain ⟨coll, he⟩ := abortAccess_eq n id s
  obtain ⟨hreqs, _, hother, _⟩ := endAccess_leaves (st := stThermalAbort) (by decide) id (requestsDropped id s)
  have hpath := (requestsDropped_leaves id s).2
  have hended : Aborted x (endAccess id stThermalAbort (requestsDropped id s)) := by
    refine ⟨fun r hr => h.reqs r ?_, fun a ha => h.access a ?_⟩
    · have hmem := hreqs r hr
      rw [hpath] at hmem
      exact List.mem_of_mem_filter hmem
    · have hkept : (requestsDropped id s).path.accesses = s.path.accesses := by rw [hpath]
      rwa [hother x hx, accessOfId_of_accesses hkept] at ha
  rw [he]
  exact hended.of_path (countAborted_leaves _ _ _).1

end

theorem aborts_foldl_abortAccess (n : Nat) (l : List Nat) (s : State) :
    (heatOf n (l.foldl (fun s a => abortAccess n a s) s)).aborts = (heatOf n s).aborts + l.length := by
  induction l generalizing s with
  | nil => rfl
  | cons a l ih => rw [List.foldl_cons, ih, aborts_abortAccess, List.length_cons, Nat.add_assoc, Nat.add_comm 1]

theorem aborted_foldl_abortAccess {n x : Nat} {l : List Nat} {s : State} (h : x ∈ l ∨ Aborted x s) :
    Aborted x (l.foldl (fun s a => abortAccess n a s) s) := by
  induction l generalizing s with
  | nil => exact h.resolve_left List.not_mem_nil
  | cons a l ih =>
    refine ih ?_
    rcases h with h | h
    · rcases List.mem_cons.mp h with rfl | hl
      · exact .inr (aborted_abortAccess _ _ _)
      · exact .inl hl
    · exact .inr (h.abortAccess _ _)

/-- The accesses that an aborted request takes with it, its own among them. -/
theorem abortRequest_of_waited {id : Nat} {r : Req} {s : State} (hr : reqOf s id = some r) (hp : r.kind ≠ .pot)
    (hw : r.kind ≠ .writeBack) (ho : waitedOut s r.stack r.arrived = true) : ∃ l : List Nat, r.access ∈ l ∧
      abortRequest id s = l.foldl (fun s a => abortAccess r.stack a s) s := by
  refine ⟨_, ?_, by rw [abortRequest, hr]; exact if_neg (by simp [hp, hw, ho])⟩
  rw [List.mem_eraseDups, List.mem_map]
  exact ⟨r, List.mem_filter.mpr ⟨List.mem_of_find?_eq_some hr, by simp [hp, hw]⟩, rfl⟩

/-! ### The end of a scald (R342) -/

/-- The stacks and the peers. -/
def stacksAndPeers (s : State) : Table Stack × Peers := (s.stk, s.peers)

theorem stacksAndPeers_pcAwake (fp : Nat) (s : State) : stacksAndPeers (pcAwake fp s) = stacksAndPeers s := by
  simp [stacksAndPeers, pcAwake, refreshPc, retryPush, countEv]

theorem stacksAndPeers_of_windowFrame {s t : State} (h : WindowFrame s t) : stacksAndPeers t = stacksAndPeers s := by
  obtain ⟨_, _, _, rfl⟩ := h
  rfl

theorem stacksAndPeers_chanAwake (ch : Nat) (s : State) : stacksAndPeers (chanAwake ch s) = stacksAndPeers s := by
  rw [chanAwake_eq, stacksAndPeers_of_windowFrame (chanBack_windowFrame _ _), chanRises,
    stacksAndPeers_of_windowFrame (modChan_windowFrame _ _ _),
    foldl_keeps stacksAndPeers (fun s fp => stacksAndPeers_pcAwake fp s)]

theorem stacksAndPeers_finish (op : Nat) (c : Cmd) (st : Nat) (r : List Byte) (s : State) :
    stacksAndPeers (finish op c st r s) = stacksAndPeers s := by
  rw [finish_frame]
  rfl

theorem heatOf_of_stacksAndPeers {s t : State} (h : stacksAndPeers t = stacksAndPeers s) (n : Nat) :
    heatOf n t = heatOf n s := heatOf_of_stk (congrArg Prod.fst h) n

theorem heatOf_wakeDone (n : Nat) (s : State) : heatOf n (wakeDone n s) = heatOf n s := by
  have hjoin (mask : Nat) : heatOf n (joinLost n mask s) = heatOf n s := by
    unfold joinLost
    refine foldl_keeps (heatOf n) (fun s e => ?_) _ s
    rfl
  unfold wakeDone
  dsimp only
  rw [foldl_keeps (heatOf n) (fun s c => heatOf_of_stacksAndPeers (stacksAndPeers_finish _ c _ _ s) n), heatOf_modStack]
  change heatOf n (if _ then _ else s) = _
  split
  · exact hjoin _
  · rfl

theorem heatOf_wakeReached (n : Nat) (s : State) : heatOf n (wakeReached n s) = heatOf n s := by
  unfold wakeReached
  dsimp only
  split
  · exact heatOf_wakeDone n s
  · rfl

theorem makeRoom_peers (s : State) : (makeRoom s).peers = s.peers := rfl

theorem heatOf_makeRoom (n : Nat) (s : State) : heatOf n (makeRoom s) = heatOf n s := rfl

theorem retryHeld_of_nil {s : State} (h : s.peers.held = []) : retryHeld s = s := by
  rw [retryHeld, h]
  rfl

theorem EventFrame.peers {s t : State} (h : EventFrame s t) : t.peers = s.peers := by
  obtain ⟨_, _, _, _, rfl⟩ := h
  rfl

theorem noteLateness_peers (n : Nat) (changed : Bool) (s : State) : (noteLateness n changed s).peers = s.peers := rfl

theorem heatChanged_peers (n : Nat) (s : State) : (heatChanged n s).peers = s.peers := by
  rw [heatChanged, noteLateness_peers, (logEvent_frame _ _ _ _ _ _ _).peers, countEvent_peers]

theorem setHeat_peers (n : Nat) (heat : Heat) (step : Nat) (s : State) : (setHeat n heat step s).peers = s.peers :=
  heatChanged_peers n _

theorem peers_of_stacksAndPeers {s t : State} (h : stacksAndPeers t = stacksAndPeers s) : t.peers = s.peers :=
  congrArg Prod.snd h

/-- A scalded stack is put into simmer at step 1. -/
def cutLifted (n : Nat) (s : State) : State :=
  setHeat n .simmer 1 (modStack n (fun k => { k with thermal := { k.thermal with exitWait := false, cutChannels := [] } }) s)

theorem cutLifted_peers (n : Nat) (s : State) : (cutLifted n s).peers = s.peers := by
  rw [cutLifted, setHeat_peers]
  rfl

theorem heatOf_cutLifted (n : Nat) (s : State) : (heatOf n (cutLifted n s)).heat = .simmer ∧
    (heatOf n (cutLifted n s)).step = 1 ∧ (heatOf n (cutLifted n s)).exitWait = false := by
  obtain ⟨_, h⟩ := heatOf_setHeat n .simmer 1
    (modStack n (fun k => { k with thermal := { k.thermal with exitWait := false, cutChannels := [] } }) s)
  rw [cutLifted, h, heatOf_modStack]
  exact ⟨rfl, rfl, rfl⟩

/-- The channels that the cut put to sleep leave self-refresh. -/
def cutWakes (n : Nat) (s : State) : State :=
  ((stackOf s n).thermal.cutChannels.filter (fun ch => (chanOf (cutLifted n s) ch).sr == .asleep)).foldl
    (fun s ch => chanAwake ch s) (cutLifted n s)

theorem stacksAndPeers_cutWakes (n : Nat) (s : State) : stacksAndPeers (cutWakes n s) = stacksAndPeers (cutLifted n s) :=
  foldl_keeps stacksAndPeers (fun s ch => stacksAndPeers_chanAwake ch s) _ _

/-- A stack that leaves scald serves at step 1, with what its cut put to sleep awake. -/
def scaldLeft (n : Nat) (s : State) : State := makeRoom (wakeReached n (setWarmNext n (cutWakes n s)))

theorem scaldExit_of_room {n : Nat} {s : State} (hh : (stackOf s n).thermal.heat = .scald)
    (hw : (stackOf s n).thermal.exitWait = true) (hr : hasRoom s (exitShare s n) = true) :
    scaldExit n s = retryHeld (scaldLeft n s) := by
  rw [scaldExit, if_neg (by simp [hh, hw, hr]), scaldLeft, cutWakes, cutLifted]

theorem wakeReached_peers (n : Nat) (s : State) : (wakeReached n s).peers = s.peers := by
  obtain ⟨_, _, _, _, _, h⟩ := wakeReached_sleepFrame n s
  rw [h]

theorem setWarmNext_peers (n : Nat) (s : State) : (setWarmNext n s).peers = s.peers := rfl

theorem scaldLeft_peers (n : Nat) (s : State) : (scaldLeft n s).peers = s.peers := by
  rw [scaldLeft, makeRoom_peers, wakeReached_peers, setWarmNext_peers,
    peers_of_stacksAndPeers (stacksAndPeers_cutWakes n s), cutLifted_peers]

theorem heatOf_scaldLeft (n : Nat) (s : State) : heatOf n (scaldLeft n s) = heatOf n (cutLifted n s) := by
  rw [scaldLeft, heatOf_makeRoom, heatOf_wakeReached, heatOf_setWarmNext,
    heatOf_of_stacksAndPeers (stacksAndPeers_cutWakes n s)]

/-! ### The hub's throttle (R343, R344) -/

section
variable {s : State} (hm : s.hub.stepMark ≠ s.clock.mark) (hb : s.boot.halt = .none)
include hm hb

theorem hubThrottleStep_of_supply (hj : 420 ≤ s.hub.tj) (hv : vcoreHStuck s = false) (hk : s.clock.mark % 16 = 0) :
    hubThrottleStep s = emit (.avsWrite 0 0 (railMv s 0 - 5)) { s with
      hub := { s.hub with ceiling := some (railMv s 0 - 5), stepMark := s.clock.mark },
      power := { s.power with rails := s.power.rails.set 0 (railMv s 0 - 5) } } := by
  have hj' : ¬ s.hub.tj < 420 := Int.not_lt.mpr hj
  simp [hubThrottleStep, hm, hb, hj', hv, hk, avsWrite, avsBus, avsSel]

theorem hubThrottleStep_of_share (hj : 420 ≤ s.hub.tj) (hv : vcoreHStuck s = true) (hk : s.clock.mark % 1024 = 0) :
    hubThrottleStep s = { s with
      hub := { s.hub with share := max 1 (s.hub.share - 1), stepMark := s.clock.mark } } := by
  have hj' : ¬ s.hub.tj < 420 := Int.not_lt.mpr hj
  simp [hubThrottleStep, hm, hb, hj', hv, hk]

theorem hubRecoveryStep_of_share (ht : s.hub.state = 2) (hj : s.hub.tj < 400) (hs : s.hub.share < 7)
    (hk : s.clock.mark % 1024 = 0) : hubRecoveryStep s = { s with
      hub := { s.hub with share := s.hub.share + 1, stepMark := s.clock.mark, state := 2 } } := by
  have hj' : ¬ 400 ≤ s.hub.tj := Int.not_le.mpr hj
  have h8 : s.hub.share < 8 := by omega
  have h7 : s.hub.share ≠ 7 := by omega
  simp [hubRecoveryStep, hm, hb, hj', ht, hk, h8, h7]

end

/-! ### Advisories (R348, R349) -/

theorem SendFrame.late {s t : State} (h : SendFrame s t) : t.late = s.late := by
  obtain ⟨_, _, _, _, _, _, _, rfl⟩ := h.rest
  rfl

theorem adviceFrames_sendFrame (rcd : List Byte) (s : State) : SendFrame s (adviceFrames rcd s) :=
  .foldl (fun s k => by
    split
    · exact (emitFrame_sendFrame s _ _ _).trans (countEvent_sendFrame _ _ _)
    · exact .refl s) _ s

theorem EventFrame.late {s t : State} (h : EventFrame s t) : t.late = s.late := by
  obtain ⟨_, _, _, _, rfl⟩ := h
  rfl

theorem issued_latenessAdvisory {n : Nat} {id : Word32} {c : Coll} {s : State}
    (hc : s.late.colls.find? (fun x => x.stack == n && x.id == id) = some c) (hd : c.dueBy.isSome = true)
    (hs : c.sampleSent = false) : (latenessAdvisory n id s).late.issued = s.late.issued + 1 := by
  obtain ⟨d, hd⟩ := Option.isSome_iff_exists.mp hd
  simp only [latenessAdvisory, hc, hd, hs, Option.isNone_some, Bool.false_and, Bool.or_self, Bool.false_eq_true, if_false,
    modColl, (adviceFrames_sendFrame _ _).late, (logRecord_frame _ _ _ _ _ _ s).late]

/-- Settles O43: a sample, a cut and an exit are followed through the stack's thermal state alone, which counts, logs and
advisories leave; the accesses that an abort ends stay ended while it ends the rest of the stream. -/
theorem heatEvents : Obligations.HeatEvents := by
  unfold Obligations.HeatEvents
  refine ⟨?sample, ?abort, ?exit, ?supply, ?share, ?recovery, ?advisory⟩
  case sample =>
    intro s n readings v hm hs hp hv
    obtain ⟨u, hu⟩ : ∃ u, u = readingNoted n.val v s := ⟨_, rfl⟩
    have heq := thermalSample_of_valid hm hs hp hv
    have hheat := heat_readingNoted n.val v s
    have hread := reading_readingNoted n.val v s
    rw [← hu] at heq hheat hread
    obtain ⟨htemp, hfail⟩ := heatSample_sameReading n.val v u
    rw [hread.1] at htemp
    rw [hread.2] at hfail
    have hend := heatOf_sampled n.val (heatSample n.val v u)
    have hwarm := warmNext_setWarmNext n.val (noteLateness n.val false (heatSample n.val v u))
    rw [heatOf_noteLateness, hfail, Bool.false_or, ← hend] at hwarm
    refine ⟨_, congrArg Host.Outcome.next heq, (congrArg Thermal.temp hend).trans htemp,
      (congrArg Thermal.failing hend).trans hfail, hwarm, ?_⟩
    simp only [thermal_eq_heatOf, hend, ← hheat]
    refine ⟨fun h hl => ?_, fun h hl hl' => ?_, fun h hl => ?_, fun h hl hl' => ?_, fun h hl => ?_, fun h => ?_⟩
    · rw [heatSample_of_cool h hl, h]
    · obtain ⟨_, hset⟩ := heatOf_setHeat n.val .warm 0 u
      rw [heatSample_of_warming h hl hl', hset]
    · obtain ⟨_, hset⟩ := heatOf_setHeat n.val .cool 0 u
      rw [heatSample_of_cooling h hl, hset]
    · obtain ⟨_, hset⟩ := heatOf_setHeat n.val .simmer 7 u
      rw [heatSample_of_simmering h hl hl', hset]
      exact ⟨rfl, rfl⟩
    · obtain ⟨_, _, _, _, hcut⟩ := heatOf_scaldCut n.val u
      rw [heatSample_of_hot h hl, hcut]
      exact ⟨rfl, mem_scaldDrop_scaldCut n.val u⟩
    · rw [heatOf_heatSample_of_scald h]
      exact ⟨h, decide_eq_true_iff⟩
  case abort =>
    intro s id r hr hp hw ho
    obtain ⟨l, hmem, heq⟩ := abortRequest_of_waited hr hp hw ho
    have hdone := aborted_foldl_abortAccess (n := r.stack) (s := s) (.inl hmem)
    refine ⟨_, congrArg (fun u => Host.Outcome.next (engineTurn u)) heq, hdone.reqs, hdone.access, ?_⟩
    have hcount := aborts_foldl_abortAccess r.stack l s
    have hpos := List.length_pos_of_mem hmem
    unfold heatOf at hcount
    omega
  case exit =>
    intro s n hh hw hr hn
    have hheld : (scaldLeft n.val s).peers.held = [] := by rw [scaldLeft_peers, hn]
    have hleft := heatOf_cutLifted n.val s
    rw [← heatOf_scaldLeft, ← thermal_eq_heatOf] at hleft
    exact ⟨_, congrArg Host.Outcome.next ((scaldExit_of_room hh hw hr).trans (retryHeld_of_nil hheld)), hleft⟩
  case supply =>
    intro s hj hm hb hv hk
    exact congrArg Host.Outcome.next (hubThrottleStep_of_supply hm hb hj hv hk)
  case share =>
    intro s hj hm hb hv hk
    exact congrArg Host.Outcome.next (hubThrottleStep_of_share hm hb hj hv hk)
  case recovery =>
    intro s ht hj hm hb hs hk
    exact congrArg Host.Outcome.next (hubRecoveryStep_of_share hm hb ht hj hs hk)
  case advisory =>
    intro s n id c hc hd hs
    exact ⟨_, rfl, issued_latenessAdvisory hc hd hs⟩

end Sys2Proof.Machine
end

section
/-! Sequenced frames (R415 to R418): the next one is taken and has its effect, an older one is acknowledged again, a newer
one answered with a NAK. -/

namespace Sys2Proof.Machine

open Sys2Proof

/-! ### Reception of a sequenced frame -/

section
variable {s s1 : State} {k : Fin 4} {type c : Nat} {f : Frame}

/-- The frame that its connection expects has its effect. -/
theorem rxSequenced_of_next (h : RxNext k type f c s s1) (body : Nat → State → State) :
    rxSequenced k.val type f body s = body c (acceptSeq k.val c s1) := by
  obtain ⟨⟨hl, hd, hc⟩, rfl, hp, hq⟩ := h
  simp [rxSequenced, hl, hd, hc, hp, hq]

/-- A frame that its connection does not expect has no effect but an answer. -/
theorem rxSequenced_of_other (h : RxFor k f c s) (hs : s1 = takeHeader k.val c f.ack f.window (countRx k.val type f s))
    (hp : (connOf s1 k.val c).phase = 2) (hq : f.seq ≠ (connOf s1 k.val c).rxExpect) (body : Nat → State → State) :
    rxSequenced k.val type f body s = if seqLe f.seq (connOf s1 k.val c).rxExpect then sendPlain k.val c 0x07 blankFrame s1
      else sendNak k.val c s1 := by
  obtain ⟨hl, hd, hc⟩ := h
  subst hs
  simp [rxSequenced, hl, hd, hc, hp, hq]

/-- A frame of the pair has its effect on the twin connection. -/
theorem twinSequenced_of_next (h : RxNext k type f c s s1) (hc : c = twinConn) (body : State → State) :
    twinSequenced k.val type f body s = body (acceptSeq k.val c s1) := by
  rw [twinSequenced, rxSequenced_of_next h, if_pos hc]

theorem mirrorReceived_of_next (h : RxNext k type f c s s1) (hc : c = twinConn) (hw : mirrorWaits s f = false) :
    mirrorReceived k.val type f s = mirrorApply k.val type f (acceptSeq k.val c s1) := by
  rw [mirrorReceived, hw, Bool.and_false, if_neg Bool.false_ne_true, twinSequenced_of_next h hc]

end

/-- A frame that is taken moves its connection to the next sequence. -/
theorem rxExpect_acceptSeq (k c : Nat) (s : State) :
    (connOf (acceptSeq k c s) k c).rxExpect = (connOf s k c).rxExpect + 1 := by
  unfold acceptSeq
  dsimp only
  split
  · rw [(sendPlain_sendFrame _ k c 0x07 blankFrame).rxExpect, connOf_setConn_self]
  · rw [connOf_setConn_self]

theorem endOpMirrored_of_settled {o : PeerOpState} {s : State} (h : mirrorPending s o.tenant = false) (st : Nat) :
    endOpMirrored o st s = endOp o st s := by
  unfold endOpMirrored
  split
  · rw [h, if_neg Bool.false_ne_true]
  · rfl

theorem state_handoverReceived {f : Frame} {s : State} (h : (twinPartOf s f.dstTenant.toNat).state = 6) :
    (twinPartOf (handoverReceived f s) f.dstTenant.toNat).state = 3 := by
  simp [handoverReceived, h]

/-- A frame of an operation is received as a sequenced frame of its type. -/
theorem exec_operationFrame {type : Nat} {i : Fin 4 → Frame → Instr}
    (h : (type, i) ∈ [(0x01, Instr.putFrame), (0x02, .getRequestFrame), (0x04, .reducePutFrame), (0x05, .signalFrame)])
    (k : Fin 4) (f : Frame) (s : State) :
    exec (i k f) s = .next (rxSequenced k.val type f (opReceived k.val type f) s) := by
  simp only [List.mem_cons, Prod.mk.injEq, List.not_mem_nil, or_false] at h
  obtain ⟨rfl, rfl⟩ | ⟨rfl, rfl⟩ | ⟨rfl, rfl⟩ | ⟨rfl, rfl⟩ := h <;> rfl

/-- A frame of the standby copy is received as such. -/
theorem exec_copyFrame {type : Nat} {i : Fin 4 → Frame → Instr}
    (h : (type, i) ∈ [(0x0D, Instr.mirrorFrame), (0x0E, .copyFrame)]) (k : Fin 4) (f : Frame) (s : State) :
    exec (i k f) s = .next (mirrorReceived k.val type f s) := by
  simp only [List.mem_cons, Prod.mk.injEq, List.not_mem_nil, or_false] at h
  obtain ⟨rfl, rfl⟩ | ⟨rfl, rfl⟩ := h <;> rfl

/-- Settles O45: every sequenced frame goes through one reception, which takes the expected frame and answers another. -/
theorem sequencedFrames : Obligations.SequencedFrames := by
  unfold Obligations.SequencedFrames
  refine ⟨?operation, ?getData, ?response, ?state, ?handover, ?copy, fun s k c => rxExpect_acceptSeq k c s, ?other⟩
  case operation =>
    intro type i hi s s1 k f c h
    rw [exec_operationFrame hi, rxSequenced_of_next h]
  case getData =>
    intro s s1 k f c h
    exact congrArg Host.Outcome.next (rxSequenced_of_next h _)
  case response =>
    intro s s1 k f c o h ho
    have hend : exec (.responseFrame k f) s = .next (endOpMirrored o f.status.toNat (acceptSeq k.val c s1)) := by
      refine congrArg Host.Outcome.next ((rxSequenced_of_next h _).trans ?_)
      rw [ho]
    exact ⟨hend, fun hm => by rw [hend, endOpMirrored_of_settled hm]⟩
  case state =>
    intro s s1 k f c h hc
    exact congrArg Host.Outcome.next (twinSequenced_of_next h hc _)
  case handover =>
    intro s s1 k f c h hc hs
    exact ⟨_, congrArg Host.Outcome.next (twinSequenced_of_next h hc _), state_handoverReceived hs⟩
  case copy =>
    intro type i hi s s1 k f c h hc hw
    rw [exec_copyFrame hi, mirrorReceived_of_next h hc hw]
  case other =>
    intro type i hi s s1 k f c h hs hp hq
    rw [exec_operationFrame hi, rxSequenced_of_other h hs hp hq]

end Sys2Proof.Machine
end

section
/-! What received peer operations do to memory (R423 to R426): a frame that passes its checks issues its accesses on its
port, one that fails them leaves HBM and the pot, and the last frame of an operation answers. -/

namespace Sys2Proof.Machine

open Sys2Proof

/-! ### An operation starts or fails (R423) -/

section
variable {s : State} {k c type : Nat} {f : Frame} {fresh : Bool} (hf : f.first = true)
  (hc : (receives s k c f.dstTenant.toNat && holds s f.dstTenant.toNat) = false)
include hf hc

/-! The first frame of an operation on an open partition meets its checks alone. -/

theorem meets_of_passed (ho : opStatus s k c type f = none) (hj : jobType type = true → s.kettle.jobRelease = none) :
    meets k c type f fresh s = .go (newRxOp type f none) := by
  simp only [meets, hf, hc, ho, if_true, Bool.not_true, Bool.false_eq_true, if_false]
  refine if_neg fun h => ?_
  obtain ⟨hsome, htype⟩ := Bool.and_eq_true_iff.mp h
  rw [hj htype] at hsome
  cases hsome

theorem meets_of_failed {st : Nat} (ho : opStatus s k c type f = some st) : meets k c type f fresh s = .fail st := by
  simp only [meets, hf, hc, ho, if_true, Bool.not_true, Bool.false_eq_true, if_false]

end

/-- The record of an operation's first frame, and its collective's sectors. -/
def rxStarted (k c : Nat) (h : HeldFrame) (o : RxOp) (s : State) : State :=
  setRxOp k c h.frame (some o) (match o.coll with
    | none => s
    | some id => collRange id o.tenant o.base (if h.type = 0x05 then 8 else o.length) s)

theorem fixed_rxStarted (τ : Touch) (k c : Nat) (h : HeldFrame) (o : RxOp) (s : State) :
    fixed τ (rxStarted k c h o s) = fixed τ s := by
  unfold rxStarted
  split <;> simp

/-- An operation that no job start holds starts, and leaves HBM and the pot. -/
theorem startRx_of_free {k c : Nat} {h : HeldFrame} {o : RxOp} {s : State} (hf : h.frame.first = true)
    (hj : jobType h.type = true → (jobArrive s).1 = false) :
    ∃ t, startRx k c h o s = some t ∧ t.hbm = s.hbm ∧ t.pot = s.pot := by
  have hkeeps (u : State) (hu : fixed {} u = fixed {} s) :
      (rxStarted k c h o u).hbm = s.hbm ∧ (rxStarted k c h o u).pot = s.pot := by
    have hfixed := (fixed_rxStarted {} k c h o u).trans hu
    exact ⟨hbm_of_fixed hfixed rfl, pot_of_fixed hfixed rfl⟩
  cases htype : jobType h.type with
  | false =>
    refine ⟨rxStarted k c h o s, ?_, hkeeps s rfl⟩
    simp only [startRx, hf, htype, Bool.not_true, Bool.false_eq_true, if_false, Bool.not_false, if_true]
    rfl
  | true =>
    refine ⟨rxStarted k c h o (jobArrive s).2, ?_, hkeeps _ (fixed_jobArrive s)⟩
    simp only [startRx, hf, htype, hj htype, Bool.not_true, Bool.false_eq_true, if_false]
    rfl

theorem tryOp_of_passed {c : Nat} {fresh : Bool} {h : HeldFrame} {s : State} (hf : h.frame.first = true)
    (hc : (receives s h.port c h.frame.dstTenant.toNat && holds s h.frame.dstTenant.toNat) = false)
    (ho : opStatus s h.port c h.type h.frame = none)
    (hj : jobType h.type = true → s.kettle.jobRelease = none ∧ (jobArrive s).1 = false) :
    ∃ t, tryOp c fresh h s = issueFrame h (newRxOp h.type h.frame none) (setApplying h.id t) ∧
      t.hbm = s.hbm ∧ t.pot = s.pot := by
  obtain ⟨t, ht, hmem⟩ := startRx_of_free (k := h.port) (c := c) (o := newRxOp h.type h.frame none) hf fun hjob =>
    (hj hjob).2
  refine ⟨t, ?_, hmem⟩
  simp only [tryOp, meets_of_passed hf hc ho fun hjob => (hj hjob).1, ht]

/-- A failed operation is counted or logged before it answers. -/
def opRefused (c st : Nat) (h : HeldFrame) (s : State) : State :=
  failRx h.port c h.type st h.frame (if st = stPartitionClosed then countHeldEnd h.frame.dstTenant.toNat s
    else accessEvent h.frame.dstTenant.toNat h.frame.addr.toNat st s)

theorem tryOp_of_failed {c st : Nat} {fresh : Bool} {h : HeldFrame} {s : State} (hf : h.frame.first = true)
    (hc : (receives s h.port c h.frame.dstTenant.toNat && holds s h.frame.dstTenant.toNat) = false)
    (ho : opStatus s h.port c h.type h.frame = some st) : tryOp c fresh h s = dropHeld h.id (opRefused c st h s) := by
  simp only [tryOp, meets_of_failed hf hc ho, opRefused]

theorem fixed_opRefused (τ : Touch) (c st : Nat) (h : HeldFrame) (s : State) :
    fixed τ (opRefused c st h s) = fixed τ s := by
  unfold opRefused
  split <;> simp

theorem not_held_dropHeld (id : Nat) (s : State) : ∀ x ∈ (dropHeld id s).peers.held, x.id ≠ id :=
  fun _ hx => bne_iff_ne.mp (List.mem_filter.mp hx).2

/-! ### The pot's atomics (R378) -/

/-- A request of the pot with an atomic: the atomic is done, and the access is told. -/
theorem potServe_of_atomic {r : Req} {op : AtomicOp} {n p : Nat} {s : State}
    (ht : translate s r.tenant r.ta = .inl (.pot p)) (hf : potFlagged s p = false) (ha : r.atomic = some (op, n)) :
    ∃ u, u.pot = s.pot ∧ u.hbm = s.hbm ∧ (potServe r s).pot = (atomicDone p n op u).pot ∧
      (potServe r s).hbm = s.hbm := by
  have hu : fixed {} (countPot (2 ^ 39) (potLen r) s) = fixed {} s := fixed_countPot _ _ s
  refine ⟨countPot (2 ^ 39) (potLen r) s, pot_of_fixed hu rfl, hbm_of_fixed hu rfl, ?_⟩
  have hf' : potFlagged (countPot (2 ^ 39) (potLen r) s) p = false :=
    (potFlagged_of_pot (pot_of_fixed hu rfl) p).trans hf
  have hserve : potServe r s = sectorOutcome r.access none 0 (atomicDone p n op (countPot (2 ^ 39) (potLen r) s)) := by
    simp only [potServe, ht, ha, potAtomic_of_unflagged hf', Option.isSome_some, if_true]
  have hout : fixed {} (potServe r s) = fixed {} (atomicDone p n op (countPot (2 ^ 39) (potLen r) s)) := by
    rw [hserve, fixed_sectorOutcome]
  exact ⟨pot_of_fixed hout rfl, (hbm_of_fixed hout rfl).trans ((atomicDone_hbm _ _ _ _).trans (hbm_of_fixed hu rfl))⟩

/-- An atomic of eight bytes stores its value and no other byte. -/
theorem potServe_stores {r : Req} {op : AtomicOp} {p : Nat} {s : State}
    (ht : translate s r.tenant r.ta = .inl (.pot p)) (hf : potFlagged s p = false) (ha : r.atomic = some (op, 8)) :
    potBytes (potServe r s) p 8 = leBytes 8 (atomicValue 8 (ofLe (potBytes s p 8)) op) ∧ (potServe r s).hbm = s.hbm ∧
      ∀ a, a < p ∨ p + 8 ≤ a → potByte (potServe r s) a = potByte s a := by
  obtain ⟨u, hpot, _, hdone, hhbm⟩ := potServe_of_atomic ht hf ha
  have hbyte (a : Nat) : potByte (potServe r s) a = if p ≤ a ∧ a < p + 8 then
      (leBytes 8 (atomicValue 8 (ofLe (potBytes s p 8)) op)).getD (a - p) 0 else potByte s a := by
    rw [potByte_of_pot hdone, potByte_atomicDone, potBytes_of_pot hpot, potByte_of_pot hpot]
  have hlen : (leBytes 8 (atomicValue 8 (ofLe (potBytes s p 8)) op)).length = 8 := Laws.leBytes_length _ _
  refine ⟨?_, hhbm, fun a h => ?_⟩
  · have heq := potBytes_eq_of_getD (s := potServe r s) (o := p)
      (bs := leBytes 8 (atomicValue 8 (ofLe (potBytes s p 8)) op)) fun i hi => by
        rw [hbyte, if_pos (by omega), Nat.add_sub_cancel_left]
    rwa [hlen] at heq
  · rw [hbyte, if_neg (by omega)]

/-! ### The end of an operation (R424 to R426) -/

section
variable {s : State} {c : Nat} {h : HeldFrame} {o : RxOp} (hb : before s h = [])
  (ho : rxOpOf s h.port c h.frame = some o) (hf : o.failed = none) (hs : ownerStatus s (.frame h.id) = none)
include hb ho hf hs

theorem opDone_of_put (ht : h.type = 0x01) (hl : h.frame.last = true) (ha : accessesOf s (.frame h.id) ≠ []) :
    opDone c h s = respond h.port c h.frame (writeStatus (max o.worst (ownerWorst s (.frame h.id))))
      (setRxOp h.port c h.frame none (dropHeld h.id (dropOwner (.frame h.id) s))) := by
  have ho' : rxOpOf (dropHeld h.id (dropOwner (.frame h.id) s)) h.port c h.frame = some o := ho
  obtain ⟨a, rest, ha⟩ := List.exists_cons_of_ne_nil ha
  simp [opDone, hb, ho', hf, hs, ha, ht, hl]

theorem opDone_of_get {a : Access} {rest : List Access} (ht : h.type = 0x02)
    (ha : accessesOf s (.frame h.id) = a :: rest) : opDone c h s =
      answerGet h.port c h.frame a (setRxOp h.port c h.frame none (dropHeld h.id (dropOwner (.frame h.id) s))) := by
  have ho' : rxOpOf (dropHeld h.id (dropOwner (.frame h.id) s)) h.port c h.frame = some o := ho
  simp [opDone, hb, ho', hf, hs, ha, ht]

end

/-- Settles O46: the checks of an operation's first frame decide what it meets; an atomic of the pot stores its eight
bytes and no other. -/
theorem peerOperationEffects : Obligations.PeerOperationEffects := by
  unfold Obligations.PeerOperationEffects
  refine ⟨fun s c fresh h hf hc ho hj => tryOp_of_passed hf hc ho hj, ?put, ?get, ?signal, ?atomic, ?putDone, ?getDone,
    ?getData, ?failed⟩
  case put =>
    intro s h o ht
    simp only [issueFrame, ht]
  case get =>
    intro s h o ht
    simp only [issueFrame, ht]
  case signal =>
    intro s h o ht
    have hswap : h.frame.operation.toNat = 0 ↔ h.frame.operation = 0 := BitVec.toNat_inj (y := 0)
    simp only [issueFrame, ht, hswap]
  case atomic =>
    intro s r p v ht _ hf
    refine ⟨fun ha => ?_, fun ha => ?_, fun ha => ?_⟩
    · obtain ⟨hbytes, _⟩ := potServe_stores ht hf ha
      rw [hbytes, atomicValue, Nat.mod_eq_of_lt v.isLt]
    · exact (potServe_stores ht hf ha).1
    · rcases ha with ha | ha
      · exact (potServe_stores ht hf ha).2
      · exact (potServe_stores ht hf ha).2
  case putDone =>
    rintro s c h o as ht hl hb ho hf rfl ha hs
    exact opDone_of_put hb ho hf hs ht hl ha
  case getDone =>
    intro s c h o a rest ht hb ho hf ha hs
    exact opDone_of_get hb ho hf hs ht ha
  case getData =>
    intro s c h o ho hr
    simp only [tryGetData, ho, hr]
  case failed =>
    intro s c fresh h st ho hf hc
    have hfixed : fixed {} (dropHeld h.id (opRefused c st h s)) = fixed {} s := by
      rw [fixed_dropHeld, fixed_opRefused]
    rw [tryOp_of_failed hf hc ho]
    exact ⟨hbm_of_fixed hfixed rfl, pot_of_fixed hfixed rfl, not_held_dropHeld _ _⟩

end Sys2Proof.Machine
end

section
/-! Links and connections (R411 to R420): the links, the phases of the connections and the pair apart from its partitions
are one projection, which whatever ends, waits or is sent keeps. -/

namespace Sys2Proof.Machine

open Sys2Proof

/-! ### Links, phases and the pair -/

/-- The ports' links, the connections' phases and expected sequences, and the pair apart from its partitions. -/
def peerSide (s : State) : (Nat → Nat) × (Nat → Nat × BitVec 24) × Twin :=
  (fun k => (portOf s k).link, connLine s, { s.twin with parts := [] })

section
variable {s t : State}

theorem SendFrame.peerSide_eq (h : SendFrame s t) : peerSide t = peerSide s :=
  Prod.ext (funext h.link) (Prod.ext (funext h.line) (by rw [peerSide, peerSide, h.twin]))

theorem EventFrame.peerSide_eq (h : EventFrame s t) : peerSide t = peerSide s := by
  obtain ⟨_, _, _, _, rfl⟩ := h
  rfl

theorem link_of_peerSide (h : peerSide t = peerSide s) (k : Nat) : (portOf t k).link = (portOf s k).link :=
  congrFun (congrArg Prod.fst h) k

theorem connLine_of_peerSide (h : peerSide t = peerSide s) (j : Nat) : connLine t j = connLine s j :=
  congrFun (congrArg (fun p => p.2.1) h) j

theorem pair_of_peerSide (h : peerSide t = peerSide s) : { t.twin with parts := [] } = { s.twin with parts := [] } :=
  congrArg (fun p => p.2.2) h

end

section
variable (s : State)

@[simp] theorem peerSide_ite (c : Prop) [Decidable c] (a b : State) :
    peerSide (if c then a else b) = if c then peerSide a else peerSide b := apply_ite _ _ _ _

@[simp] theorem peerSide_foldl {α : Type} (f : State → α → State) (l : List α) (h : ∀ s a, peerSide (f s a) = peerSide s) :
    peerSide (l.foldl f s) = peerSide s := foldl_keeps peerSide h l s

@[simp] theorem peerSide_finish (op : Nat) (c : Cmd) (st : Nat) (r : List Byte) :
    peerSide (finish op c st r s) = peerSide s := by
  rw [finish_frame]
  rfl

@[simp] theorem peerSide_countEvent (i n : Nat) : peerSide (countEvent i n s) = peerSide s := rfl

@[simp] theorem peerSide_setTwinPart (t : Nat) (p : TwinPart) : peerSide (setTwinPart t p s) = peerSide s := rfl

@[simp] theorem peerSide_modTwinPart (t : Nat) (f : TwinPart → TwinPart) : peerSide (modTwinPart t f s) = peerSide s := rfl

@[simp] theorem peerSide_setPart (t : Nat) (p : Part) : peerSide (setPart t p s) = peerSide s := rfl

@[simp] theorem peerSide_setInfuser (n : Nat) (i : Infuser) : peerSide (setInfuser n i s) = peerSide s := rfl

@[simp] theorem peerSide_pushJob (j : FlashJob) : peerSide (pushJob j s) = peerSide s := rfl

@[simp] theorem peerSide_connSend (k c type : Nat) (f : Frame) : peerSide (connSend k c type f s) = peerSide s :=
  (connSend_sendFrame s k c type f).peerSide_eq

@[simp] theorem peerSide_doHeld (a : HeldAct) : peerSide (doHeld a s) = peerSide s := by
  fun_cases doHeld a s <;> simp

@[simp] theorem peerSide_releaseHeld (t : Nat) (upTo : Option (BitVec 24)) :
    peerSide (releaseHeld t upTo s) = peerSide s := by simp [releaseHeld]

@[simp] theorem peerSide_staleCopy (t : Nat) : peerSide (staleCopy t s) = peerSide s := by simp [staleCopy]

@[simp] theorem peerSide_descResult (h id st : Nat) : peerSide (descResult h id st s) = peerSide s := by
  unfold descResult
  dsimp only
  split <;> rfl

@[simp] theorem peerSide_endOp (o : PeerOpState) (st : Nat) : peerSide (endOp o st s) = peerSide s := by
  unfold endOp
  dsimp only
  split
  · rw [peerSide_finish]
    rfl
  · rw [peerSide_descResult]
    rfl

theorem peerSide_unreachable (k c : Nat) : peerSide (unreachable k c s) = peerSide s := by
  unfold unreachable
  rw [peerSide_foldl _ _ _ fun s o => peerSide_endOp s o _]
  refine (setConn_sendFrame s ?_ ?_).peerSide_eq
  · rfl
  · rfl

/-- A connection that is set counts by its phase and its expected sequence. -/
theorem peerSide_setConn_congr {s t : State} (h : peerSide t = peerSide s) {k c : Nat} {v w : Conn}
    (hp : v.phase = w.phase) (hr : v.rxExpect = w.rxExpect) : peerSide (setConn k c v t) = peerSide (setConn k c w s) := by
  refine Prod.ext (funext fun j => (link_of_peerSide h j :)) (Prod.ext (funext fun j => ?_) (pair_of_peerSide h :))
  simp only [peerSide, connLine_setConn, hp, hr, connLine_of_peerSide h j]

end

/-! ### A connection that fails or opens -/

section
variable (k c : Nat) (s : State)

theorem failConn_of_shut {s : State} (h : (connOf s k c).phase = 0) : failConn k c s = s := if_pos h

/-- A connection fails: for the links and the phases it is only set to phase 3 (R420). -/
theorem peerSide_failConn {s : State} (h : (connOf s k c).phase ≠ 0) :
    peerSide (failConn k c s) = peerSide (setConn k c { connOf s k c with phase := 3 } s) := by
  have hrx : (connOf (unreachable k c s) k c).rxExpect = (connOf s k c).rxExpect :=
    congrArg Prod.snd (connLine_of_peerSide (peerSide_unreachable s k c) (connKey k c))
  have hset : peerSide (modConn k c (fun x => { x with
        phase := 3, kept := [], rxOps := [], timeouts := 0, ackDue := none, nakAt := none, unackedRx := 0 })
      (countEvent (portCtr k 9) 1 (unreachable k c s))) =
      peerSide (setConn k c { connOf s k c with phase := 3 } s) :=
    peerSide_setConn_congr (peerSide_unreachable s k c) rfl hrx
  rw [failConn, if_neg h]
  dsimp only
  split
  · rw [peerSide_foldl _ _ _ fun s t => peerSide_staleCopy s t, hset]
  · exact hset

theorem phase_of_peerSide {s t : State} (h : peerSide t = peerSide s) : (connOf t k c).phase = (connOf s k c).phase :=
  congrArg Prod.fst (connLine_of_peerSide h (connKey k c))

theorem rxExpect_of_peerSide {s t : State} (h : peerSide t = peerSide s) :
    (connOf t k c).rxExpect = (connOf s k c).rxExpect :=
  congrArg Prod.snd (connLine_of_peerSide h (connKey k c))

/-- Connections of one port are told apart by their number. -/
theorem connOf_setConn_port (k a c : Nat) (v : Conn) (s : State) :
    connOf (setConn k a v s) k c = if c = a then v else connOf s k c := by
  rw [connOf_setConn]
  exact if_congr (by simp [connKey]) rfl rfl

/-- The phase of a connection after it failed. -/
def failedPhase (p : Nat) : Nat := if p = 0 then 0 else 3

theorem phase_failConn (a : Nat) : (connOf (failConn k a s) k c).phase =
    if c = a then failedPhase (connOf s k c).phase else (connOf s k c).phase := by
  by_cases h : (connOf s k a).phase = 0
  · rw [failConn_of_shut k a h]
    split
    · next hc => rw [hc, h]; rfl
    · rfl
  · rw [phase_of_peerSide k c (peerSide_failConn k a h), connOf_setConn_port]
    split
    · next hc =>
      subst hc
      exact (if_neg h).symm
    · rfl

theorem link_failConn (a j : Nat) : (portOf (failConn k a s) j).link = (portOf s j).link := by
  by_cases h : (connOf s k a).phase = 0
  · rw [failConn_of_shut k a h]
  · exact link_of_peerSide (peerSide_failConn k a h) j

/-- OPEN is sent on a connection that waits for its answer. -/
theorem peerSide_sendOpen :
    peerSide (sendOpen k c s) = peerSide (setConn k c { connOf s k c with phase := 1 } s) := by
  unfold sendOpen
  dsimp only
  rw [(sendPlain_sendFrame _ k c 0x09 _).peerSide_eq]
  exact peerSide_setConn_congr rfl rfl rfl

theorem phase_sendOpen (a : Nat) : (connOf (sendOpen k a s) k c).phase = if c = a then 1 else (connOf s k c).phase := by
  rw [phase_of_peerSide k c (peerSide_sendOpen k a s), connOf_setConn_port]
  exact apply_ite Conn.phase _ _ _

theorem link_sendOpen (a j : Nat) : (portOf (sendOpen k a s) j).link = (portOf s j).link :=
  link_of_peerSide (peerSide_sendOpen k a s) j

end

/-- Phases under a step that is taken for each of a list of connections. -/
theorem phase_foldl {f : State → Nat → State} {g : Nat → Nat} {k : Nat} (hf : ∀ s a c, (connOf (f s a) k c).phase =
    if c = a then g (connOf s k c).phase else (connOf s k c).phase) (hg : ∀ p, g (g p) = g p) (l : List Nat) (s : State)
    (c : Nat) : (connOf (l.foldl f s) k c).phase = if c ∈ l then g (connOf s k c).phase else (connOf s k c).phase := by
  induction l generalizing s with
  | nil => rfl
  | cons a l ih =>
    rw [List.foldl_cons, ih, hf]
    by_cases hc : c = a <;> by_cases hl : c ∈ l <;> simp [hc, hl, hg]

theorem failedPhase_idem (p : Nat) : failedPhase (failedPhase p) = failedPhase p := by
  unfold failedPhase
  split <;> rfl

/-! ### Links (R408, R415, R420) -/

theorem linkCameUp_of_down {k : Nat} {s : State} (ho : portOn s k = true) (hl : linkUp s k = false)
    (hp : s.power.on.getLsbD (40 + k) = true) : linkCameUp k s =
      ((List.range 65).filter (connOn s k)).foldl (fun s c => sendOpen k c s) (modPort k (fun p => { p with link := 2 }) s) := by
  rw [linkCameUp, ho, hl, hp]
  rfl

theorem linkUp_linkCameUp {k : Nat} {s : State} (ho : portOn s k = true) (hl : linkUp s k = false)
    (hp : s.power.on.getLsbD (40 + k) = true) : linkUp (linkCameUp k s) k = true ∧
      ∀ c < 65, connOn s k c = true → (connOf (linkCameUp k s) k c).phase = 1 := by
  rw [linkCameUp_of_down ho hl hp]
  refine ⟨?_, fun c hc hon => ?_⟩
  · rw [linkUp, foldl_keeps (fun s => (portOf s k).link) (fun s c => link_sendOpen k s c k), modPort_eq,
      portOf_setPort_self]
    rfl
  · rw [phase_foldl (g := fun _ => 1) (fun s a c => phase_sendOpen k c s a) (fun _ => rfl), if_pos]
    exact List.mem_filter.mpr ⟨List.mem_range.mpr hc, hon⟩

theorem linkWentDown_of_up {k : Nat} {s : State} (hl : linkUp s k = true) : linkWentDown k s = failPort k
    (countEvent (portCtr k 15) 1 (modPort k (fun p => { p with link := 1, paused := false, waiting := [] }) s)) := by
  rw [linkWentDown, hl]
  rfl

theorem linkUp_linkWentDown {k : Nat} {s : State} (hl : linkUp s k = true) : linkUp (linkWentDown k s) k = false ∧
    ∀ c < 65, (connOf s k c).phase ≠ 0 → (connOf (linkWentDown k s) k c).phase = 3 := by
  rw [linkWentDown_of_up hl, failPort]
  refine ⟨?_, fun c hc hp => ?_⟩
  · rw [linkUp, foldl_keeps (fun s => (portOf s k).link) (fun s c => link_failConn k s c k)]
    exact congrArg (fun p => p.link == 2) (portOf_setPort_self k _ s)
  · rw [phase_foldl (fun s a c => phase_failConn k c s a) failedPhase_idem, if_pos (List.mem_range.mpr hc)]
    exact if_neg hp

/-! ### Timeouts and acknowledgements (R415, R417, R418) -/

theorem rtoExpired_of_due {k c : Nat} {e : Kept} {s : State} (hp : (connOf s k c).phase = 2)
    (hd : (connOf s k c).lastProgress + rto s k c ≤ s.clock.timebase)
    (he : (connOf s k c).kept.find? (fun y => y.sent) = some e) (ht : (connOf s k c).timeouts < 15) :
    rtoExpired k c s = resendFrom k c e.seq (setConn k c { connOf s k c with
      timeouts := (connOf s k c).timeouts + 1, lastProgress := s.clock.timebase } s) := by
  have hdue : due s ((connOf s k c).lastProgress + rto s k c) = true := decide_eq_true hd
  have h15 : ¬ 15 ≤ (connOf s k c).timeouts := by omega
  simp [rtoExpired, hp, hdue, he, h15, now]

theorem openRepeat_of_due {k c : Nat} {s : State} (hp : (connOf s k c).phase = 1) (ho : connOn s k c = true)
    (hl : linkUp s k = true) (hd : (connOf s k c).openAt ≤ s.clock.timebase) : openRepeat k c s = sendOpen k c s := by
  simp [openRepeat, hp, ho, hl, due, now, hd]

/-! ### Frames that carry no sequence (R411, R415, R417, R350) -/

theorem rxPlain_of_for {k : Fin 4} {f : Frame} {c : Nat} {s : State} (h : RxFor k f c s) (type : Nat)
    (body : Nat → State → State) : rxPlain k.val type f body s = body c (countRx k.val type f s) := by
  obtain ⟨hl, hd, hc⟩ := h
  simp [rxPlain, hl, hd, hc]

/-- An opened connection expects the sequence after the other side's first. -/
theorem opened_nowOpen (k c : Nat) (f : Frame) (s : State) :
    (connOf (nowOpen k c f s) k c).phase = 2 ∧ (connOf (nowOpen k c f s) k c).rxExpect = f.seq + 1 := by
  have hsent := pump_sendFrame (modConn k c (fun x => { x with
    phase := 2, rxExpect := f.seq + 1, window := f.window, lastProgress := now s }) s)
  rw [nowOpen, pumpAll, (hsent _ k c).phase, (hsent _ k c).rxExpect, modConn_eq, connOf_setConn_self]
  exact ⟨rfl, rfl⟩

theorem opened_openReceived (k c : Nat) (f : Frame) (s : State) :
    (connOf (openReceived k c f s) k c).phase = 2 ∧ (connOf (openReceived k c f s) k c).rxExpect = f.seq + 1 := by
  unfold openReceived
  exact opened_nowOpen _ _ _ _

theorem countRx_sendFrame (k type : Nat) (f : Frame) (s : State) : SendFrame s (countRx k type f s) := by
  have h := (countEvent_sendFrame s (portCtr k 3) 1).trans ((countVolume_sendFrame _ (portCtr k 1) f.payload.length).trans
    (countEv_sendFrame _ .peer .user 8 (units64 f.payload.length)))
  rw [countRx]
  split
  · exact h.trans (countVolume_sendFrame ..)
  · exact h

theorem SendFrame.logSeq {s t : State} (h : SendFrame s t) : t.tele.logSeq = s.tele.logSeq := by
  obtain ⟨_, _, _, _, _, _, _, rfl⟩ := h.rest
  rfl

/-- An advisory frame is counted and logged. -/
theorem advisoryReceived_of_here {k : Nat} {f : Frame} {s : State} (hl : linkUp s k = true)
    (hd : f.dst = portMac s k ∨ f.dst = broadcast) : (advisoryReceived k f s).late.received = s.late.received + 1 ∧
      (advisoryReceived k f s).tele.logSeq = s.tele.logSeq + 1 := by
  have hdst : (f.dst == portMac s k || f.dst == broadcast) = true := by simpa using hd
  have hcount := (countRx_sendFrame k 0x0B f s).trans (countEvent_sendFrame _ (portCtr k 11) 1)
  rw [advisoryReceived, hl, hdst]
  generalize countEvent (portCtr k 11) 1 (countRx k 0x0B f s) = u at hcount
  refine ⟨?_, ?_⟩
  · refine (congrArg Late.received (logRecord_frame _ _ _ _ _ _ _).late).trans ?_
    exact congrArg (fun l => l.received + 1) hcount.late
  · exact (logRecord_logSeq _ _ _ _ _ _ _).trans (congrArg (· + 1) hcount.logSeq)

/-! ### Pauses (R411) -/

theorem countEv_peers (e : Ev) (o : Origin) (unit n : Nat) (s : State) : (countEv e o unit n s).peers = s.peers := rfl

theorem sendNow_peers (k type : Nat) (f : Frame) (s : State) : (sendNow k type f s).peers = s.peers := by
  rw [sendNow]
  split <;> simp only [countVolume_peers, countEv_peers, countEvent_peers, (emit_eventFrame _ s).peers]

/-- A pause that ends leaves nothing waiting. -/
theorem portOf_endPause (k : Nat) (s : State) :
    (portOf (endPause k s) k).paused = false ∧ (portOf (endPause k s) k).waiting = [] := by
  have hp : (endPause k s).peers = (modPort k (fun p => { p with paused := false, waiting := [] }) s).peers :=
    foldl_keeps State.peers (fun s e => sendNow_peers k _ _ s) _ _
  rw [portOf, hp, ← portOf, modPort_eq, portOf_setPort_self]
  exact ⟨rfl, rfl⟩

theorem pauseReceived_of_pause {k q : Nat} {s : State} (hl : linkUp s k = true) (hq : 0 < q) :
    pauseReceived k q none s = setPort k { portOf s k with
      paused := true, pausedUntil := s.clock.timebase + ceilDiv (q * 64) 100 } s := by
  simp [pauseReceived, hl, Nat.pos_iff_ne_zero.mp hq, now]

/-- Settles O47: whatever a failed connection ends or makes stale keeps the links and the other connections, so that a
port's connections fail and open one by one. -/
theorem portEvents : Obligations.PortEvents := by
  unfold Obligations.PortEvents
  refine ⟨?up, ?down, ?openRepeat, ?rto, ?ack, ?ackFrame, ?nakFrame, ?openFrame, ?openAck, ?advisory, ?bad, ?pause, ?pauseEnd⟩
  case up =>
    intro s k ho hl hp
    exact ⟨_, rfl, linkUp_linkCameUp ho hl hp⟩
  case down =>
    intro s k hl
    exact ⟨_, rfl, linkUp_linkWentDown hl⟩
  case openRepeat =>
    intro s k c hp ho hl hd
    exact congrArg Host.Outcome.next (openRepeat_of_due hp ho hl hd)
  case rto =>
    rintro s k c x e rfl hp hd he ht
    exact congrArg Host.Outcome.next (rtoExpired_of_due hp hd he ht)
  case ack =>
    intro s k c h
    exact congrArg Host.Outcome.next (if_pos h)
  case ackFrame =>
    intro s k f c h
    exact congrArg Host.Outcome.next (rxPlain_of_for h 0x07 _)
  case nakFrame =>
    rintro s s1 k f c h rfl hp
    exact congrArg Host.Outcome.next ((rxPlain_of_for h 0x08 _).trans (if_pos hp))
  case openFrame =>
    intro s k f c h
    exact ⟨_, congrArg Host.Outcome.next (rxPlain_of_for h 0x09 _), opened_openReceived k.val c f _⟩
  case openAck =>
    intro s k f c h hp
    have hp' : (connOf (countRx k.val 0x0A f s) k.val c).phase = 1 :=
      ((countRx_sendFrame k.val 0x0A f s).phase k.val c).trans hp
    exact ⟨_, congrArg Host.Outcome.next ((rxPlain_of_for h 0x0A _).trans (if_pos hp')), opened_nowOpen k.val c f _⟩
  case advisory =>
    intro s k f hl hd
    exact ⟨_, rfl, advisoryReceived_of_here hl hd⟩
  case bad =>
    intro s k why hl
    exact congrArg Host.Outcome.next (if_pos hl)
  case pause =>
    intro s k q hl hq
    exact congrArg Host.Outcome.next (pauseReceived_of_pause hl hq)
  case pauseEnd =>
    intro s k hp hd
    have hover : ((portOf s k.val).paused && due s (portOf s k.val).pausedUntil) = true := by
      rw [hp, Bool.true_and]
      exact decide_eq_true hd
    exact ⟨_, congrArg Host.Outcome.next (if_pos hover), portOf_endPause k.val s⟩

end Sys2Proof.Machine
end

section
/-! The twin pair's events (R429 to R442): the pair apart from its partitions is followed through what a lost partner and a
role conflict do to every partition. -/

namespace Sys2Proof.Machine

open Sys2Proof

/-! ### The pair apart from its partitions -/

/-- The pair apart from its partitions. -/
def pairSide (s : State) : Twin := { s.twin with parts := [] }

theorem pairSide_of_peerSide {s t : State} (h : peerSide t = peerSide s) : pairSide t = pairSide s := pair_of_peerSide h

section
variable (s : State)

@[simp] theorem peerSide_twinEvent (kind t : Nat) : peerSide (twinEvent kind t s) = peerSide s :=
  (logEvent_frame _ _ _ _ _ _ s).peerSide_eq

@[simp] theorem peerSide_stopMirror (t st : Nat) : peerSide (stopMirror t st s) = peerSide s := by simp [stopMirror]

@[simp] theorem peerSide_endQueued (t st : Nat) : peerSide (endQueued t st s) = peerSide s := by simp [endQueued]

@[simp] theorem peerSide_closePart (t : Nat) : peerSide (closePart t s) = peerSide s := by simp [closePart]

@[simp] theorem peerSide_rinseStandby (t : Nat) : peerSide (rinseStandby t s) = peerSide s := by
  simp [rinseStandby, startRinse]

@[simp] theorem peerSide_askEpoch (t : Nat) : peerSide (askEpoch t s) = peerSide s := by simp [askEpoch]

/-- What the loss of the partner does to each partition is not the pair's (Table 15.9). -/
theorem pairSide_partnerLost : pairSide (partnerLost s) = { pairSide s with lost := true } := by
  unfold partnerLost
  dsimp only
  exact pairSide_of_peerSide (foldl_keeps peerSide (fun s t => by simp) _ _)

/-- A miss counts, and the eighth makes the partner lost (R431). -/
theorem pairSide_heartbeatMiss : pairSide (heartbeatMiss s) = { pairSide s with
    misses := s.twin.misses + 1, lost := s.twin.lost || s.twin.misses + 1 == 8 } := by
  unfold heartbeatMiss
  dsimp only
  split
  · next h =>
    have h8 : (s.twin.misses + 1 == 8) = true := beq_iff_eq.mpr (of_decide_eq_true (Bool.and_eq_true_iff.mp h).1)
    rw [pairSide_partnerLost, h8, Bool.or_true]
    rfl
  · next h =>
    have hlost : (s.twin.lost || s.twin.misses + 1 == 8) = s.twin.lost := by
      cases hl : s.twin.lost with
      | true => rfl
      | false => simpa [hl] using h
    rw [hlost]
    rfl

/-- What a role conflict does to the connection and to each partition is not the pair's (R430). -/
theorem pairSide_roleConflict : pairSide (roleConflict s) = { pairSide s with conflict := true } := by
  unfold roleConflict
  split
  · next h => rw [pairSide, h]
  · dsimp only
    refine (pairSide_of_peerSide (foldl_keeps peerSide (fun s t => by simp) _ _)).trans ?_
    have hshut : pairSide (shutConn (twinPort s) twinConn (twinEvent 0 0 s)) = pairSide s := by
      rw [← pairSide_of_peerSide (peerSide_twinEvent s 0 0)]
      generalize twinEvent 0 0 s = u
      by_cases hp : (connOf u (twinPort s) twinConn).phase = 0
      · rw [shutConn, failConn_of_shut _ _ hp]
        rfl
      · have hfail := pairSide_of_peerSide (peerSide_failConn (twinPort s) twinConn hp)
        exact hfail
    exact congrArg (fun p : Twin => { p with conflict := true }) hshut

end

/-! ### Heartbeats (R430, R431) -/

theorem sendHeartbeat_twin (s : State) : (sendHeartbeat s).twin = s.twin := by
  unfold sendHeartbeat
  dsimp only
  split
  · exact (emitFrame_sendFrame s _ _ _).twin
  · rfl

theorem sendState_twin (s : State) : (sendState s).twin = s.twin := by
  unfold sendState
  split
  · rfl
  · exact (SendFrame.foldl (fun s g => connSend_sendFrame s _ _ _ _) _ s).twin

/-- A heartbeat mark before its frames go out: what was heard since the last one is told apart from a miss. -/
def markCounted (s : State) : State :=
  let u := { s with twin := { s.twin with beatMark := s.clock.mark + 1, heard := false } }
  if s.twin.heard then u else heartbeatMiss u

theorem heartbeatMark_of_mark {s : State} (ho : twinOn s = true) (hm : s.clock.mark % 64 = 0)
    (hb : s.twin.beatMark ≤ s.clock.mark) (hh : s.boot.halt = .none) :
    heartbeatMark s = sendState (sendHeartbeat (markCounted s)) := by
  have hlate : ¬ s.clock.mark < s.twin.beatMark := Nat.not_lt.mpr hb
  rw [heartbeatMark, if_neg (by simp [ho, hm, hlate, hh])]
  rfl

theorem pairSide_markCounted (s : State) : pairSide (markCounted s) = { pairSide s with
    beatMark := s.clock.mark + 1, heard := false,
    misses := if s.twin.heard then s.twin.misses else s.twin.misses + 1,
    lost := if s.twin.heard then s.twin.lost else s.twin.lost || s.twin.misses + 1 == 8 } := by
  unfold markCounted
  dsimp only
  split
  · rfl
  · rw [pairSide_heartbeatMiss]
    rfl

theorem pairSide_startResync (t : Nat) (s : State) : pairSide (startResync t s) = pairSide s := by
  unfold startResync
  dsimp only
  split <;> rfl

/-- A heartbeat is heard: the misses are over, and the partner is there. -/
def beatHeard (k : Nat) (f : Frame) (s : State) : State :=
  let b := f.payload
  let s := noteBeat (fun p => { p with beatHeard := true }) (countRx k 0x0C f s)
  { s with twin := { s.twin with
    heard := true, misses := 0, lost := false, partner := some (s.twin.partner.getD f.src),
    partnerReady := bitOf (leAt b 1 1) 1, partnerE := leAt b 12 4, partnerStacks := leAt b 16 2 } }

theorem pairSide_beatHeard (k : Nat) (f : Frame) (s : State) : (pairSide (beatHeard k f s)).heard = true ∧
    (pairSide (beatHeard k f s)).misses = 0 ∧ (pairSide (beatHeard k f s)).lost = false := ⟨rfl, rfl, rfl⟩

theorem heartbeatReceived_of_here {k : Nat} {f : Frame} {s : State} (hl : linkUp s k = true) (hk : twinPort s = k)
    (hd : f.dst = portMac s k ∨ f.dst = broadcast) (hf : 32 ≤ f.payload.length) :
    heartbeatReceived k f s = heartbeat k f s := by
  have hdst : (f.dst == portMac s k || f.dst == broadcast) = true := by simpa using hd
  have hlen : ¬ f.payload.length < 32 := Nat.not_lt.mpr hf
  simp [heartbeatReceived, hl, hk, hdst, hlen]

theorem twinRole_beatHeard (k : Nat) (f : Frame) (s : State) : twinRole (beatHeard k f s) = twinRole s := by
  obtain ⟨_, _, _, _, _, _, _, h⟩ := (countRx_sendFrame k 0x0C f s).rest
  rw [beatHeard, h]
  rfl

theorem pairSide_heartbeat (k : Nat) (f : Frame) (s : State) : pairSide (heartbeat k f s) =
    { pairSide (beatHeard k f s) with conflict := decide (leAt f.payload 0 1 = twinRole s) } := by
  have he : heartbeat k f s = if leAt f.payload 0 1 = twinRole (beatHeard k f s) then roleConflict (beatHeard k f s)
      else _ := rfl
  rw [he, twinRole_beatHeard]
  split
  · next h => rw [pairSide_roleConflict, decide_eq_true h]
  · next h =>
    rw [decide_eq_false h, foldl_keeps pairSide (fun s t => pairSide_startResync t s)]
    dsimp only
    split
    · exact pairSide_of_peerSide (peerSide_sendOpen _ _ _)
    · rfl

/-! ### Waits and resync (R436 to R442) -/

theorem askEpoch_twin (t : Nat) (s : State) : (askEpoch t s).twin = s.twin := by
  unfold askEpoch
  split <;> rfl

/-- The wait of boot is over. -/
def bootWaitOver (s : State) : State := { s with twin := { s.twin with bootWaitFrom := none } }

theorem bootWaitExpired_of_due {m : Nat} {s : State} (hm : s.twin.bootWaitFrom = some m)
    (hd : m + msTicks (cfgN s 0x0C05 2 0) ≤ s.clock.timebase) : bootWaitExpired s =
      if autoTakeover s then ((twinTenants s).filter (fun t => (twinPartOf s t).bootHold)).foldl (fun s t => askEpoch t s)
        (bootWaitOver s) else bootWaitOver s := by
  have hdue : due s (m + msTicks (cfgN s 0x0C05 2 0)) = true := decide_eq_true hd
  rw [bootWaitExpired, hm]
  exact if_pos hdue

theorem bootWaitFrom_bootWaitExpired {m : Nat} {s : State} (hm : s.twin.bootWaitFrom = some m)
    (hd : m + msTicks (cfgN s 0x0C05 2 0) ≤ s.clock.timebase) : (bootWaitExpired s).twin.bootWaitFrom = none := by
  rw [bootWaitExpired_of_due hm hd]
  split
  · rw [foldl_keeps State.twin (fun s t => askEpoch_twin t s)]
    rfl
  · rfl

theorem takeoverTimeout_of_due {t d : Nat} {c : Cmd} {s : State} (ht : (twinPartOf s t).takeover = some (c, d))
    (hp : planned s t = true) (hd : d ≤ s.clock.timebase) : takeoverTimeout t s =
      openPart t (finish 0x0C09 c stDeferred [] (modTwinPart t (fun p => { p with takeover := none }) s)) := by
  have hdue : (planned s t && due s d) = true := by rw [hp, Bool.true_and]; exact decide_eq_true hd
  rw [takeoverTimeout, ht]
  refine (if_pos hdue).trans ?_
  rw [endTakeover, ht]

theorem twinPartOf_finish (op : Nat) (c : Cmd) (st : Nat) (r : List Byte) (s : State) (t : Nat) :
    twinPartOf (finish op c st r s) t = twinPartOf s t := by
  rw [finish_frame]
  rfl

theorem twinPartOf_openPart (t : Nat) (s : State) (u : Nat) : twinPartOf (openPart t s) u = twinPartOf s u := rfl

/-- A partition that is in sync and has no switchover to make is not handed over. -/
theorem tryHandover_of_unplanned {t : Nat} {s : State} (h : planned s t = false) : tryHandover t s = s := by
  rw [tryHandover, h]
  rfl

theorem resyncComplete_of_acked {t : Nat} {q : BitVec 24} {s : State} (hs : (twinPartOf s t).state = 2)
    (hq : (twinPartOf s t).resyncLast = some q) (hp : planned s t = false)
    (hk : ((connOf s (twinPort s) twinConn).kept.any (fun e => seqLe e.seq q)) = false) : resyncComplete t s =
      setTwinPart t { twinPartOf s t with state := 3, resyncLast := none } s := by
  have hplan : planned (setTwinPart t { twinPartOf s t with state := 3, resyncLast := none } s) t = false := by
    rwa [planned, twinPartOf_setTwinPart_self]
  simp only [resyncComplete, hq, hs, hk]
  exact tryHandover_of_unplanned hplan

/-- Settles O48: the pair's own fields do not depend on what a lost partner, a conflict or a resync does to the
partitions. -/
theorem twinEvents : Obligations.TwinEvents := by
  unfold Obligations.TwinEvents
  refine ⟨?mark, ?beat, ?lag, ?bootWait, ?takeover, ?resync⟩
  case mark =>
    intro s ho hm hb hh
    have hpair : pairSide (sendState (sendHeartbeat (markCounted s))) = pairSide (markCounted s) := by
      rw [pairSide, sendState_twin, sendHeartbeat_twin, pairSide]
    rw [pairSide_markCounted] at hpair
    obtain ⟨_, hheard, hmark, hmiss, hlost, _⟩ := Twin.mk.inj hpair
    refine ⟨_, congrArg Host.Outcome.next (heartbeatMark_of_mark ho hm hb hh), hheard, hmark, fun h => ?_, fun h => ?_⟩
    · exact ⟨hmiss.trans (if_pos h), hlost.trans (if_pos h)⟩
    · rw [h] at hmiss hlost
      exact ⟨hmiss, fun h7 => hlost.trans (by rw [h7]; exact Bool.or_true _)⟩
  case beat =>
    intro s k f hl hk hd hf
    obtain ⟨hheard, hmiss, hlost⟩ := pairSide_beatHeard k.val f s
    have hpair := pairSide_heartbeat k.val f s
    refine ⟨_, congrArg Host.Outcome.next (heartbeatReceived_of_here hl hk hd hf), ?_, ?_, ?_, ?_⟩
    · exact (congrArg Twin.heard hpair).trans hheard
    · exact (congrArg Twin.misses hpair).trans hmiss
    · exact (congrArg Twin.lost hpair).trans hlost
    · have hconf : (heartbeat k.val f s).twin.conflict = decide (leAt f.payload 0 1 = twinRole s) :=
        (congrArg Twin.conflict hpair :)
      rw [hconf]
      exact decide_eq_true_iff
  case lag =>
    intro s k hm hk
    refine congrArg Host.Outcome.next (if_pos ?_)
    rw [hm, hk]
    rfl
  case bootWait =>
    intro s m hm hd
    refine ⟨_, rfl, bootWaitFrom_bootWaitExpired hm hd, fun ha => ?_⟩
    rw [bootWaitExpired_of_due hm hd, ha]
    rfl
  case takeover =>
    intro s k c d ht hp hd
    refine ⟨_, congrArg Host.Outcome.next (takeoverTimeout_of_due ht hp hd), ?_, ?_, ?_⟩
    · rw [twinPartOf_openPart, twinPartOf_finish, modTwinPart, twinPartOf_setTwinPart_self]
    · rw [partOf_openPart, if_pos rfl]
    · exact finish_cmds_congr _ _ _ _ rfl
  case resync =>
    intro s k q hs hq hp hk
    exact congrArg Host.Outcome.next (resyncComplete_of_acked hs hq hp hk)

end Sys2Proof.Machine
end

section
/-! Brew lists, their tiles and the infusers: what each of their events does (O44). -/

namespace Sys2Proof.Machine

open Sys2Proof

/-! ### What leaves the brew lists, the tiles and the infusers alone -/

/-- The brew lists, the tiles and the infusers. -/
def engines (s : State) : Compute × Table Infuser := (s.compute, s.infusers)

section
variable {s t : State}

theorem listOf_of_engines (h : engines t = engines s) (j : Nat) : listOf t j = listOf s j :=
  congrArg (fun p : Compute × Table Infuser => tfind p.1.lists j) h

theorem tileOf_of_engines (h : engines t = engines s) (j : Nat) : tileOf t j = tileOf s j :=
  congrArg (fun p : Compute × Table Infuser => tget ({} : Tile) p.1.tiles j) h

theorem infuserOf_of_engines (h : engines t = engines s) (j : Nat) : infuserOf t j = infuserOf s j :=
  congrArg (fun p : Compute × Table Infuser => tget ({} : Infuser) p.2 j) h

theorem EventFrame.engines_eq (h : EventFrame s t) : engines t = engines s := by
  obtain ⟨_, _, _, _, rfl⟩ := h
  rfl

theorem SendFrame.engines_eq (h : SendFrame s t) : engines t = engines s := by
  obtain ⟨_, _, _, _, _, _, _, rfl⟩ := h.rest
  rfl

end

@[simp] theorem engines_ite (c : Prop) [Decidable c] (a b : State) :
    engines (if c then a else b) = if c then engines a else engines b := apply_ite _ _ _ _

@[simp] theorem engines_foldl {α : Type} (f : State → α → State) (l : List α) (s : State)
    (h : ∀ s a, engines (f s a) = engines s) : engines (l.foldl f s) = engines s := foldl_keeps engines h l s

@[simp] theorem engines_freeStep (s : State) : engines (freeStep s) = engines s := rfl

@[simp] theorem engines_setPart (t : Nat) (v : Part) (s : State) : engines (setPart t v s) = engines s := rfl

@[simp] theorem engines_setStack (n : Nat) (v : Stack) (s : State) : engines (setStack n v s) = engines s := rfl

@[simp] theorem engines_setTwinPart (t : Nat) (v : TwinPart) (s : State) : engines (setTwinPart t v s) = engines s := rfl

@[simp] theorem engines_countEvent (i n : Nat) (s : State) : engines (countEvent i n s) = engines s := rfl

@[simp] theorem engines_logEvent (code tenant sev stack : Nat) (args : List Byte) (rings : List Nat) (s : State) :
    engines (logEvent code tenant sev stack args rings s) = engines s :=
  (logEvent_frame code tenant sev stack args rings s).engines_eq

@[simp] theorem engines_brewEvent (h reason status ta : Nat) (l : BrewList) (s : State) :
    engines (brewEvent h reason status ta l s) = engines s := engines_logEvent ..

@[simp] theorem engines_finish (op : Nat) (c : Cmd) (st : Nat) (r : List Byte) (s : State) :
    engines (finish op c st r s) = engines s := by
  rw [finish_frame]
  rfl

@[simp] theorem engines_doHeld (a : HeldAct) (s : State) : engines (doHeld a s) = engines s := by
  cases a with
  | cmd op c st r => exact engines_finish op c st r s
  | frame k c type f => exact (connSend_sendFrame s k c type f).engines_eq

@[simp] theorem engines_doneAfterMirror (t op : Nat) (c : Cmd) (st : Nat) (r : List Byte) (s : State) :
    engines (doneAfterMirror t op c st r s) = engines s := by
  simp [doneAfterMirror, afterMirror]

@[simp] theorem engines_accessEvent (t ta st : Nat) (s : State) : engines (accessEvent t ta st s) = engines s := by
  simp [accessEvent, firstOfKind]

/-! The requests of a descriptor or an infuser, and the sectors a collective waits for. -/

@[simp] theorem engines_pushAccess (o : Owner) (t ta len n : Nat) (write : Bool) (s : State) :
    engines (pushAccess o t ta len n write s) = engines s := rfl

@[simp] theorem engines_pushReq (r : Req) (s : State) : engines (pushReq r s) = engines s := rfl

@[simp] theorem engines_dropOwner (o : Owner) (s : State) : engines (dropOwner o s) = engines s := rfl

@[simp] theorem engines_countAbort (ch : Nat) (s : State) : engines (countAbort ch s) = engines s := by simp [countAbort]

@[simp] theorem engines_ask (a : Ask) (s : State) : engines (ask a s) = engines s := by simp [ask]

@[simp] theorem engines_askAtomic (o : Owner) (t port ta n : Nat) (op : AtomicOp) (s : State) :
    engines (askAtomic o t port ta n op s) = engines s := rfl

@[simp] theorem engines_askReduce (o : Owner) (t port ta op srcFmt potFmt : Nat) (src : List Byte)
    (coll : Option (BitVec 32)) (s : State) :
    engines (askReduce o t port ta op srcFmt potFmt src coll s) = engines s := engines_foldl _ _ _ fun _ _ => rfl

@[simp] theorem engines_collStart (n : Nat) (id : BitVec 32) (t k : Nat) (s : State) :
    engines (collStart n id t k s) = engines s := by
  unfold collStart
  dsimp only
  split <;> rfl

@[simp] theorem engines_descCollective (t : Nat) (d : List Byte) (s : State) :
    engines (descCollective t d s) = engines s := by
  unfold descCollective
  split
  · rfl
  · exact engines_foldl _ _ _ fun s g => by simp [collRange]

/-! What a descriptor reads and writes. -/

@[simp] theorem engines_descRead (h t : Nat) (d : InDesc) (g : Nat × Nat) (s : State) :
    engines (descRead h t d g s) = engines s := by simp [descRead]

@[simp] theorem engines_descWrite (h t : Nat) (d : InDesc) (ta : Nat) (data : List Byte) (poison : List Bool)
    (s : State) : engines (descWrite h t d ta data poison s) = engines s := by simp [descWrite]

@[simp] theorem engines_poisonRanges (h t : Nat) (d : InDesc) (l : List (Nat × Nat)) (s : State) :
    engines (poisonRanges h t d l s) = engines s := by simp [poisonRanges]

@[simp] theorem engines_writeCompute (h t : Nat) (d : InDesc) (as : List Access) (s : State) :
    engines (writeCompute h t d as s).2 = engines s := by
  unfold writeCompute
  split
  · simp
  · exact foldl_keeps (fun x : Nat × State => engines x.2) (fun x r => by simp [writeRows]) _ (0, s)

@[simp] theorem engines_writeMoved (h t : Nat) (d : InDesc) (da : Nat) (a : Access) (s : State) :
    engines (writeMoved h t d da a s) = engines s := engines_descWrite ..

@[simp] theorem engines_writeCopy (h t : Nat) (d : InDesc) (as : List Access) (s : State) :
    engines (writeCopy h t d as s).2 = engines s :=
  engines_foldl _ _ _ fun s i => by split <;> simp

@[simp] theorem engines_gatherFeed (n h t : Nat) (d : InDesc) (rows : List Nat) (s : State) :
    engines (gatherFeed n h t d rows s).2 = engines s := by
  fun_induction gatherFeed n h t d rows s with
  | case4 s n d ta hr hb ih => rw [ih]; simp
  | _ => rfl

@[simp] theorem engines_writeGather (h t : Nat) (d : InDesc) (as : List Access) (s : State) :
    engines (writeGather h t d as s).2 = engines s := by
  fun_cases writeGather h t d as s with
  | case1 => exact engines_foldl _ _ _ fun s i => by split <;> simp
  | _ => simp

@[simp] theorem engines_writeReduce (h t : Nat) (d : InDesc) (as : List Access) (s : State) :
    engines (writeReduce h t d as s).2 = engines s := by fun_cases writeReduce h t d as s <;> simp

@[simp] theorem engines_writeScatter (h t : Nat) (d : InDesc) (as : List Access) (s : State) :
    engines (writeScatter h t d as s).2 = engines s := by fun_cases writeScatter h t d as s <;> simp

@[simp] theorem engines_descWrites (h t : Nat) (d : InDesc) (as : List Access) (s : State) :
    engines (descWrites h t d as s).2 = engines s := by fun_cases descWrites h t d as s <;> simp

@[simp] theorem engines_gatherStart (h t : Nat) (d : InDesc) (as : List Access) (s : State) :
    engines (gatherStart h t d as s).2 = engines s := by fun_cases gatherStart h t d as s <;> simp

@[simp] theorem engines_descNext (h t : Nat) (d : InDesc) (s : State) :
    engines (descNext h t d s).2 = engines s := by fun_cases descNext h t d s <;> simp +zetaDelta

@[simp] theorem engines_sendSignal (h t : Nat) (d : InDesc) (s : State) :
    engines (sendSignal h t d s) = engines s := rfl

end Sys2Proof.Machine
end

section
/-! Tiles between lists, the ends of descriptors and lists, and the infusers' queues (O44). -/

namespace Sys2Proof.Machine

open Sys2Proof

/-! ### What moving tiles between lists leaves alone (R365, R366) -/

section
variable (s : State) {j : Nat}

@[simp] theorem listOf_setTile (t : Nat) (v : Tile) : listOf (setTile t v s) j = listOf s j := rfl

@[simp] theorem tileOf_setList (h : Nat) (v : BrewList) : tileOf (setList h v s) j = tileOf s j := rfl

@[simp] theorem listOf_assignTiles : listOf (assignTiles s) j = listOf s j :=
  foldl_keeps (fun s => listOf s j) (fun s t => by
    dsimp only
    split
    · rfl
    · split
      · rfl
      · split <;> rfl) _ s

@[simp] theorem listOf_trimTiles : listOf (trimTiles s) j = listOf s j :=
  foldl_keeps (fun s => listOf s j) (fun s _ => by
    dsimp only
    refine foldl_keeps (fun s => listOf s j) (fun s t => ?_) _ s
    rfl) _ s

@[simp] theorem listOf_settleTiles : listOf (settleTiles s) j = listOf s j :=
  (listOf_assignTiles _).trans (listOf_trimTiles s)

@[simp] theorem listOf_freeTiles (h : Nat) (l : BrewList) (ts : List Nat) :
    listOf (freeTiles h l ts s) j = listOf s j :=
  foldl_keeps (fun s => listOf s j) (fun s t => by dsimp only; split <;> rfl) _ s

/-- What a tile runs: whether it runs, and the tenant it ran for last. -/
def tileRuns (s : State) (i : Nat) : Bool × Nat := ((tileOf s i).running, (tileOf s i).lastTenant)

/-- A new holder is no new work. -/
theorem tileRuns_modTile {t : Nat} {f : Tile → Tile}
    (h : ∀ x, ((f x).running, (f x).lastTenant) = (x.running, x.lastTenant)) (i : Nat) :
    tileRuns (modTile t f s) i = tileRuns s i := by
  rw [tileRuns, modTile_eq, tileOf_setTile]
  split
  · rw [h, ‹i = t›, tileRuns]
  · rfl

theorem tileRuns_assignTiles (i : Nat) : tileRuns (assignTiles s) i = tileRuns s i :=
  foldl_keeps (fun s => tileRuns s i) (fun s t => by
    dsimp only
    split
    · rfl
    · split
      · rfl
      · split
        · rfl
        · exact tileRuns_modTile s (by intro x; rfl) i) _ s

theorem tileRuns_trimTiles (i : Nat) : tileRuns (trimTiles s) i = tileRuns s i :=
  foldl_keeps (fun s => tileRuns s i) (fun s _ => by
    dsimp only
    refine foldl_keeps (fun s => tileRuns s i) (fun s t => ?_) _ s
    exact tileRuns_modTile s (by intro x; rfl) i) _ s

theorem tileRuns_settleTiles (i : Nat) : tileRuns (settleTiles s) i = tileRuns s i :=
  (tileRuns_assignTiles _ i).trans (tileRuns_trimTiles s i)

end

/-! ### A list that has ended holds no tile (R364) -/

/-- What a step of a fold sets for its index, and every step keeps, holds after the fold. -/
theorem foldl_establishes {f : State → Nat → State} {P : State → Prop} {i : Nat} (hset : ∀ s, P (f s i))
    (hkeep : ∀ s a, P s → P (f s a)) {l : List Nat} {s : State} (h : i ∈ l ∨ P s) : P (l.foldl f s) := by
  induction l generalizing s with
  | nil => simpa using h
  | cons a l ih =>
    refine ih ?_
    rcases h with h | h
    · rcases List.mem_cons.mp h with rfl | h
      · exact .inr (hset s)
      · exact .inl h
    · exact .inr (hkeep s a h)

/-- No list has handle h, and no tile is held for it. -/
def Ended (h : Nat) (s : State) : Prop := listOf s h = none ∧ ∀ i < 16, (tileOf s i).holder ≠ some h

section
variable {h : Nat} {s : State}

theorem Ended.of_engines {t : State} (hs : Ended h s) (he : engines t = engines s) : Ended h t := by
  obtain ⟨hl, ht⟩ := hs
  exact ⟨(listOf_of_engines he h).trans hl, fun i hi => by rw [tileOf_of_engines he]; exact ht i hi⟩

theorem Ended.setTile {t : Nat} {v : Tile} (hs : Ended h s) (hv : v.holder ≠ some h) : Ended h (setTile t v s) := by
  obtain ⟨hl, ht⟩ := hs
  refine ⟨hl, fun i hi => ?_⟩
  rw [tileOf_setTile]
  split
  · exact hv
  · exact ht i hi

/-- The best of some lists is one of them. -/
theorem bestList_mem {ls : List (Nat × BrewList)} {e : Nat × BrewList} (hb : bestList s ls = some e) : e ∈ ls := by
  have hmem : ∀ x ∈ bestList s ls, x ∈ ls := by
    refine List.foldlRecOn (motive := fun b => ∀ x ∈ b, x ∈ ls) ls _ (by simp) fun b hb a ha x hx => ?_
    split at hx
    · cases hx
      exact ha
    · split at hx
      · cases hx
        exact ha
      · exact hb x hx
  exact hmem e hb

theorem waitingHolder_listed {t : Nat} {e : Nat × BrewList} (hw : waitingHolder s t = some e) :
    (listOf s e.1).isSome := by
  fun_cases waitingHolder s t <;> grind [waitingHolder]

/-- A tile goes to a list that has not ended. -/
theorem Ended.assignTiles (hs : Ended h s) : Ended h (assignTiles s) := by
  refine List.foldlRecOn _ _ hs fun s hs t _ => ?_
  dsimp only
  split
  · exact hs
  · split
    · exact hs
    · rename_i e he
      split
      · exact hs
      · refine hs.setTile fun hh => ?_
        have hne : (listOf s e.1).isSome := by
          rcases List.mem_append.mp (bestList_mem he) with hw | hm
          · exact waitingHolder_listed (Option.mem_toList.mp hw)
          · exact (exists_mem_iff_tfind _ _).mp ⟨e, (List.mem_filter.mp hm).1, rfl⟩
        rw [Option.some.inj hh, hs.1] at hne
        cases hne

theorem Ended.trimTiles (hs : Ended h s) : Ended h (trimTiles s) :=
  List.foldlRecOn _ _ hs fun _ hs _ _ =>
    List.foldlRecOn _ _ hs fun _ hs _ _ => hs.setTile (Option.some_ne_none h).symm

theorem Ended.settleTiles (hs : Ended h s) : Ended h (settleTiles s) := hs.trimTiles.assignTiles

/-- Closing a list takes its handle and every tile it holds from it. -/
theorem ended_closeList (reason status ta : Nat) (l : BrewList) : Ended h (closeList h reason status ta l s) := by
  refine Ended.settleTiles (.of_engines (s := (List.range 16).foldl (fun s t =>
    if (tileOf s t).holder == some h then modTile t (fun x => { x with holder := none }) s else s)
      (dropList h (dropOwner (.fetch h) s))) ⟨?_, fun i hi => ?_⟩ ?_)
  · rw [foldl_keeps (fun s => listOf s h) fun s t => by split <;> rfl, listOf_dropList, if_pos rfl]
  · refine foldl_establishes (P := fun s => (tileOf s i).holder ≠ some h) (fun s => ?_) (fun s a hs => ?_)
      (.inl (List.mem_range.mpr hi))
    · split
      · simp
      · exact fun hh => ‹¬_› (beq_iff_eq.mpr hh)
    · split
      · rw [modTile_eq, tileOf_setTile]
        split
        · simp
        · exact hs
      · exact hs
  · rw [engines_foldl _ _ _ fun s c => engines_finish _ c _ _ s, engines_brewEvent]

end

end Sys2Proof.Machine
end

section
/-! Descriptors start and complete, and the infusers' operations with them (O44). -/

namespace Sys2Proof.Machine

open Sys2Proof

/-! ### Fetching and starting a descriptor (R360, R361) -/

section
variable {s : State} {h : Nat} {l : BrewList}

theorem descriptorFetch_ask (hl : listOf s h = some l) (hs : l.stopping = false) (hh : l.held = false)
    (hf : l.fetching = false) (hp : paused s l = false) (hb : fetchBlocked l = false) (hn : l.fetched.length < 9)
    (hr : rangeStatus s l.tenant l.nextTa 128 = none) : descriptorFetch h s = ask
      { owner := .fetch h, tenant := l.tenant, port := fetchPort s l, ta := l.nextTa, len := 128, write := false }
      (setList h { l with fetching := true } (freeStep s)) := by
  simp [descriptorFetch, hl, hs, hh, hf, hp, hb, hn, hr]

/-- A fetch that no check ended and that read no poison gives the list its next descriptor. -/
theorem listOf_fetchDone {a : Access} {rest : List Access} (hl : listOf s h = some l) (hf : l.fetching = true)
    (ha : accessesOf s (.fetch h) = a :: rest) (hst : a.status = 0) (hfail : (gathered a).anyFailed = false) :
    listOf (fetchDone h s) h = some { l with
      fetched := l.fetched ++ [{ ta := l.nextTa, bytes := (gathered a).bytes, failed := 0 }], fetching := false,
      nextTa := dNext l.nextTa (gathered a).bytes, endSeen := dEnd (gathered a).bytes, endTa := l.nextTa } := by
  simp [fetchDone, hl, ha, hst, hfail, hf, addFetched]

/-- The descriptor that starts next, with the tiles its list holds for it. -/
def startedDesc (s : State) (h : Nat) (l : BrewList) (f : Fetched) : InDesc :=
  { id := l.started, ta := f.ta, bytes := f.bytes, tiles := (idleTiles s h).take (tilesAsked s l),
    since := s.clock.timebase, matrix := matrixBlocks f.bytes, vector := vectorBlocks f.bytes }

/-- The state as descriptor d starts: its tiles run, its collective's sectors are outstanding, its reads are asked
for. -/
def startedState (s : State) (h : Nat) (l : BrewList) (f : Fetched) (rest : List Fetched) (d : InDesc) : State :=
  (readSegs f.bytes).foldl (fun s g => descRead h l.tenant d g s) (descCollective l.tenant f.bytes
    (runTiles l.tenant d.tiles
      (setList h { l with fetched := rest, inflight := l.inflight ++ [d], started := l.started + 1 } s)))

theorem descriptorStart_runs {f : Fetched} {rest : List Fetched} (hl : listOf s h = some l) (hf : l.fetched = f :: rest)
    (hm : mayStart s l = true) (hst : startStatus s l f = none)
    (ht : needsTile (dOp f.bytes) = true → 0 < tilesAsked s l ∧ tilesAsked s l ≤ (idleTiles s h).length) :
    descriptorStart h s =
      settleTiles (descProgress h l.inflight.length (startedState s h l f rest (startedDesc s h l f))) := by
  have hneeds : ((f.failed = 0 && needsTile (dOp f.bytes) && !allGated s l) && (decide (tilesAsked s l = 0) ||
      decide ((idleTiles s h).length < tilesAsked s l))) = false := by
    cases hn : needsTile (dOp f.bytes) with
    | false => simp
    | true =>
      obtain ⟨h0, hle⟩ := ht hn
      simp [Nat.pos_iff_ne_zero.mp h0, hle]
  unfold descriptorStart
  simp only [hl, hf, hst, hm, Bool.not_true, Bool.false_or]
  rw [if_neg (by simpa using hneeds)]
  rfl

/-- The tiles of a descriptor that starts run, for its tenant. -/
theorem tileRuns_runTiles {t i : Nat} {ts : List Nat} (hi : i ∈ ts) : tileRuns (runTiles t ts s) i = (true, t) := by
  refine foldl_establishes (P := fun s => tileRuns s i = (true, t)) (fun s => ?_) (fun s a hs => ?_) (.inl hi)
  · simp [tileRuns]
  · rw [tileRuns, modTile_eq, tileOf_setTile]
    split
    · rfl
    · exact hs

/-- A local descriptor that goes on changes no tile. -/
theorem tileOf_descProgress {n i : Nat} {d : InDesc} (hl : listOf s h = some l) (hd : l.inflight[n]? = some d)
    (hr : dRemote d.bytes = false) : tileOf (descProgress h n s) i = tileOf s i := by
  unfold descProgress
  simp only [hl, hd, hr, Bool.false_eq_true, if_false]
  split
  · rfl
  · split
    · split
      · exact (tileOf_of_engines (engines_sendSignal ..) i).trans (tileOf_setList ..)
      · rfl
    · have hnext := tileOf_of_engines (engines_descNext h l.tenant d s) i
      split
      · exact hnext
      · exact (tileOf_setList ..).trans hnext

theorem engines_startedState (f : Fetched) (rest : List Fetched) (d : InDesc) : engines (startedState s h l f rest d) =
    engines (runTiles l.tenant d.tiles
      (setList h { l with fetched := rest, inflight := l.inflight ++ [d], started := l.started + 1 } s)) := by
  simp [startedState]

theorem listOf_runTiles (t : Nat) (ts : List Nat) : listOf (runTiles t ts s) h = listOf s h := by
  unfold runTiles
  refine (foldl_keeps (fun s => listOf s h) (fun s i => ?_) ts _).trans ?_
  · rfl
  · split <;> rfl

/-- Once a local descriptor has started, its tiles run for its tenant. -/
theorem tileRuns_started {f : Fetched} {rest : List Fetched} {d : InDesc} {i : Nat} (hr : dRemote d.bytes = false)
    (hi : i ∈ d.tiles) :
    tileRuns (settleTiles (descProgress h l.inflight.length (startedState s h l f rest d))) i = (true, l.tenant) := by
  have he := engines_startedState (s := s) (h := h) (l := l) f rest d
  have hl := (listOf_of_engines he h).trans ((listOf_runTiles ..).trans (listOf_setList_self ..))
  rw [tileRuns_settleTiles, tileRuns, tileOf_descProgress hl (d := d) (by simp) hr, tileOf_of_engines he, ← tileRuns]
  exact tileRuns_runTiles hi

/-! ### Completing a descriptor (R362, R373, R374) -/

/-- The list once descriptor d, at place i, has completed. -/
def descCounted (l : BrewList) (i : Nat) (d : InDesc) : BrewList :=
  { l with inflight := l.inflight.eraseIdx i, done := (l.done + 1) % 2 ^ 32, lastTa := d.ta }

/-- A completed descriptor is counted and reported, and gives back its tiles, before its list ends, stops or goes on. -/
def descLeft (h st : Nat) (l : BrewList) (d : InDesc) (s : State) : State :=
  let s := countEvent (devCtr 20) 1 (setList h l (dropOwner (.desc h d.id) s))
  let s := d.tiles.foldl (fun s t => countEvent (704 + 4 * t + 2) 1 s) s
  freeTiles h l d.tiles (if dFlag d.bytes 3 then brewEvent h 4 st d.ta l s else s)

theorem completeDesc_eq {i : Nat} {d : InDesc} (st : Nat) (hl : listOf s h = some l) (hd : l.inflight[i]? = some d) :
    completeDesc h i st s = settleTiles (if stopsList d st
      then stopList h i 1 st d.ta (descLeft h st (descCounted l i d) d s)
      else endIfDone h (descLeft h st (descCounted l i d) d s)) := by
  simp only [completeDesc, hl, hd]
  rfl

theorem listOf_descLeft (st : Nat) (d : InDesc) : listOf (descLeft h st l d s) h = some l := by
  refine (listOf_freeTiles ..).trans ((listOf_of_engines (s := setList h l s) ?_ h).trans (listOf_setList_self ..))
  have hcount : engines (d.tiles.foldl (fun s t => countEvent (704 + 4 * t + 2) 1 s)
      (countEvent (devCtr 20) 1 (setList h l (dropOwner (.desc h d.id) s)))) = engines (setList h l s) :=
    engines_foldl _ _ _ fun _ _ => rfl
  simp only [engines_ite, engines_brewEvent, hcount, ite_self]

/-- A list goes on while it neither stops nor has fetched its end. -/
theorem endIfDone_of_goesOn (hl : listOf s h = some l) (hs : l.stopping = false) (he : l.endSeen = false) :
    endIfDone h s = s := by
  simp [endIfDone, hl, hs, he]

/-- A descriptor that does not stop its list leaves it, and the list goes on. -/
theorem listOf_completeDesc {i st : Nat} {d : InDesc} (hl : listOf s h = some l) (hd : l.inflight[i]? = some d)
    (hst : stopsList d st = false) (hs : l.stopping = false) (he : l.endSeen = false) :
    listOf (completeDesc h i st s) h = some (descCounted l i d) := by
  have hleft := listOf_descLeft (s := s) (h := h) (l := descCounted l i d) st d
  rw [completeDesc_eq st hl hd, hst, if_neg Bool.false_ne_true, endIfDone_of_goesOn hleft hs he, listOf_settleTiles,
    hleft]

/-- A WAIT that fails as the last in flight stops its list, which ends with it. -/
theorem ended_of_waitTimeout {d : InDesc} (hl : listOf s h = some l) (hd : l.inflight = [d]) (hs : l.stopping = false) :
    Ended h (completeDesc h 0 stWaitTimeout s) := by
  have hstop : stopsList d stWaitTimeout = true := by simp [stopsList, stWaitTimeout, stOK, stPoison]
  rw [completeDesc_eq stWaitTimeout hl (d := d) (by simp [hd]), if_pos hstop]
  refine Ended.settleTiles ?_
  have hleft := listOf_descLeft (s := s) (h := h) (l := descCounted l 0 d) stWaitTimeout d
  simp only [stopList, hleft, endIfDone, listOf_setList_self]
  simp [descCounted, hd, hs, ended_closeList]

theorem waitIndex_of_wait {d : InDesc} (hd : l.inflight = [d]) (hop : dOp d.bytes = opWait) : waitIndex l = some 0 := by
  simp [waitIndex, hd, findIdx?, hop]

theorem waitSatisfied_completes {i : Nat} {d : InDesc} (hl : listOf s h = some l) (hi : waitIndex l = some i)
    (hd : l.inflight[i]? = some d) (hw : waitStatus s l.tenant d.bytes = some stOK) :
    waitSatisfied h s = completeDesc h i stOK s := by
  simp only [waitSatisfied, hl, hi, hd, hw]

theorem waitTimeout_completes {d : InDesc} (hl : listOf s h = some l) (hd : l.inflight = [d])
    (hop : dOp d.bytes = opWait) (h0 : u32 d.bytes 36 ≠ 0)
    (hdue : d.since + usTicks (u32 d.bytes 36) ≤ s.clock.timebase) :
    waitTimeout h s = completeDesc h 0 stWaitTimeout s := by
  have hd0 : l.inflight[0]? = some d := by simp [hd]
  simp only [waitTimeout, hl, waitIndex_of_wait hd hop, hd0]
  rw [if_pos (by simp [h0, due, now, hdue])]

end

/-! ### The infusers (R386, R402, R403) -/

section
variable {s : State} {n : Nat} {o : InfOp} {rest : List InfOp}

theorem running_newHead : (infuserOf (newHead n s) n).running = (infuserOf s n).running := by simp [newHead]

theorem completed_newHead : (infuserOf (newHead n s) n).completed = (infuserOf s n).completed := by simp [newHead]

theorem queue_newHead_length : (infuserOf (newHead n s) n).queue.length = (infuserOf s n).queue.length := by
  simp only [newHead, modInfuser_eq, infuserOf_setInfuser_self]
  split <;> simp [*]

/-- The infuser as its head ends with a status before it started. -/
def headFailed (st : Nat) (i : Infuser) : Infuser :=
  { i with completed := i.completed + 1, keyMismatches := i.keyMismatches + (if st = stKeyMismatch then 1 else 0) }

/-- Failing the head counts it, then renews the queue's head, among what else reaches no engine. -/
theorem engines_failHead (st reason : Nat) : ∃ t, infuserOf t n = headFailed st (infuserOf s n) ∧
    engines (failHead n o st reason s) = engines (newHead n t) := by
  refine ⟨_, ?_, engines_finish ..⟩
  rw [infuserOf_of_engines (s := setInfuser n (headFailed st (infuserOf s n)) s), infuserOf_setInfuser_self]
  rw [engines_freeStep, engines_ite, engines_logEvent, ite_self]
  rfl

/-- The head that ends without starting leaves the queue's length and the running operation, and is counted. -/
theorem infuserOf_failHead (st reason : Nat) :
    (infuserOf (failHead n o st reason s) n).running = (infuserOf s n).running ∧
      (infuserOf (failHead n o st reason s) n).queue.length = (infuserOf s n).queue.length ∧
      (infuserOf (failHead n o st reason s) n).completed = (infuserOf s n).completed + 1 := by
  obtain ⟨t, ht, he⟩ := engines_failHead (s := s) (n := n) (o := o) st reason
  rw [infuserOf_of_engines he, running_newHead, queue_newHead_length, completed_newHead, ht]
  exact ⟨rfl, rfl, rfl⟩

theorem infuserOf_endInfuser (st reason phase limb : Nat) :
    (infuserOf (endInfuser n o st reason phase limb s) n).running = none ∧
      (infuserOf (endInfuser n o st reason phase limb s) n).completed = (infuserOf s n).completed + 1 := by
  unfold endInfuser
  dsimp only
  rw [infuserOf_of_engines (engines_doneAfterMirror ..), running_newHead, completed_newHead,
    infuserOf_of_engines (engines_countEvent ..), modInfuser_eq, infuserOf_setInfuser_self]
  exact ⟨rfl, rfl⟩

theorem infuserStart_asks (hrun : (infuserOf s n).running = none) (hq : (infuserOf s n).queue = o :: rest)
    (hh : o.held = false) (hc : (infuserOf s n).checking = false) (hp : infPrecheck o.op.toNat o.cmd n s = none)
    {u : State} (hu : u = ask (infAsk n o (opCtx o.cmd) ctxBytes false)
      (modInfuser n (fun i => { i with checking := true }) (dropOwner (.infuser n) s))) :
    infuserStart n s = if o.op.toNat = 0x0B08 then ask (infAsk n o (pageTa o.cmd 24) 64 false) u else u := by
  simp only [infuserStart, hrun, hq, hh, hc, hp, hu, Bool.or_self, Bool.false_eq_true, if_false]

theorem infuserStart_fails (hrun : (infuserOf s n).running = none) (hq : (infuserOf s n).queue = o :: rest)
    (hh : o.held = false) (hc : (infuserOf s n).checking = false) {e : Nat × Nat}
    (hp : infPrecheck o.op.toNat o.cmd n s = some e) : infuserStart n s =
      failHead n o e.1 e.2 (modInfuser n (fun i => { i with queue := rest }) (infRefused o e s)) := by
  simp only [infuserStart, hrun, hq, hh, hc, hp, Bool.or_self, Bool.false_eq_true, if_false]

/-- The head that is turned away has left the queue. -/
theorem infuserOf_refusedHead (e : Nat × Nat) :
    infuserOf (modInfuser n (fun i => { i with queue := rest }) (infRefused o e s)) n =
      { infuserOf s n with queue := rest } := by
  have he : engines (infRefused o e s) = engines s := by simp [infRefused]
  rw [modInfuser_eq, infuserOf_setInfuser_self, infuserOf_of_engines he]

/-- Reading the next operand asks for it and notes which one it is. -/
theorem infuserOf_readOperand (x : Ctx) (i : Nat) :
    ∃ k, infuserOf (readOperand n o x i s) n = { infuserOf s n with operand := k } := by
  unfold readOperand
  split
  · exact ⟨(infuserOf s n).operand, rfl⟩
  · exact ⟨i, by rw [infuserOf_of_engines (engines_ask ..), modInfuser_eq, infuserOf_setInfuser_self]⟩

/-- The infuser as operation o starts, its context read and checked. -/
def opStarted (o : InfOp) (ctx : List Byte) (t : Nat) (i : Infuser) : Infuser :=
  { i with
    queue := i.queue.tail, checking := false, running := some o, startedAt := t, context := ctx,
    lastTenant := o.tenant, phase := 1, stage := 0, ends := none,
    steps := opSteps o.op.toNat o.cmd ((ctxOf ctx).t != 0) }

/-- The checked head starts, and reads its first operand. -/
theorem infuserOf_infuserTurn_starts {as : List RangeRead} (hrun : (infuserOf s n).running = none)
    (hq : (infuserOf s n).queue = o :: rest) (hc : (infuserOf s n).checking = true)
    (hdone : ownerDone s (.infuser n) = true) (hst : ownerStatus s (.infuser n) = none)
    (has : as = (accessesOf s (.infuser n)).map gathered)
    (hcheck : infCheckRead o.op.toNat o.cmd (as.getD 0 { bytes := [], failed := [] })
      (as.getD 1 { bytes := [], failed := [] }) = none) :
    ∃ k, infuserOf (infuserTurn n s) n = { opStarted o (as.getD 0 { bytes := [], failed := [] }).bytes
      s.clock.timebase (infuserOf s n) with operand := k } := by
  subst has
  simp only [infuserTurn, hrun, hc, if_true, infuserChecked, hq, hdone, Bool.not_true, Bool.false_eq_true, if_false, hst,
    hcheck]
  refine (infuserOf_readOperand _ 0).imp fun k hk => hk.trans ?_
  simp only [modInfuser_eq, infuserOf_setInfuser_self, popHead]
  rfl

theorem infuserTurn_writes (hrun : (infuserOf s n).running = some o) (hstage : (infuserOf s n).stage = 2)
    (hsteps : (infuserOf s n).steps = []) (hdone : ownerDone s (.infuser n) = true)
    (hst : ownerStatus s (.infuser n) = none)
    (hgood : ∀ a ∈ accessesOf s (.infuser n), a.write = false → (gathered a).anyFailed = false) :
    infuserTurn n s = writeOutput n o (ctxOf (infuserOf s n).context) s := by
  have hany (k : Nat) : ((accessesOf s (.infuser n)).drop k).any (fun a => !a.write && (gathered a).anyFailed) = false :=
    List.any_eq_false.mpr fun a ha => by
      cases hw : a.write with
      | true => simp
      | false => simp [hgood a (List.mem_of_mem_drop ha) hw]
  simp [infuserTurn, hrun, infuserRuns, hst, hstage, hdone, hsteps, hany]

theorem infuserComplete_ends {e : Nat × Nat × Nat × Nat} (hrun : (infuserOf s n).running = some o)
    (hstage : (infuserOf s n).stage = 3) (hends : (infuserOf s n).ends = some e)
    (hdone : ownerDone s (.infuser n) = true) (hst : ownerStatus s (.infuser n) = none) :
    infuserComplete n .ran s = endInfuser n o e.1 e.2.1 e.2.2.1 e.2.2.2 s := by
  have hruns : infuserRuns n o s = s := by simp [infuserRuns, hst, hstage]
  simp only [infuserComplete, hrun, hruns, hends, hdone, if_true]

end

/-- Settles O44: each event by the equation of its step; a list that goes on is followed through the tiles' moves, and one
that ends loses its handle and its tiles. -/
theorem engineEvents : Obligations.EngineEvents := by
  unfold Obligations.EngineEvents
  refine ⟨?_, ?_, ?_, ?_, ?_, ?_, ?_, ?_, ?_, ?_, ?_⟩
  · intro s h l hl hs hh hf hp hb hn hr
    exact congrArg Host.Outcome.next (descriptorFetch_ask hl hs hh hf hp hb hn hr)
  · intro s h l a rest hl hf ha hst hfail
    exact listOf_fetchDone hl hf ha hst hfail
  · rintro s h l f rest d hl hf - hm hst hr ht rfl
    refine ⟨_, congrArg Host.Outcome.next (descriptorStart_runs hl hf hm hst ht), rfl, fun i hi => ?_⟩
    exact Prod.mk.inj (tileRuns_started hr hi)
  · rintro s u h i l d rfl hl hd
    refine ⟨fun st hres hmir => ?_, fun hres hop hi => ?_, fun hres hw hf hover => ?_⟩
    · exact congrArg Host.Outcome.next (by simp [descriptorComplete, hl, hd, hres, hmir])
    · subst hi
      exact congrArg Host.Outcome.next (by simp [descriptorComplete, hl, hd, hres, hop, opFence, opWait])
    · exact congrArg Host.Outcome.next (by simp [descriptorComplete, hl, hd, hres, hw, hf, hover])
  · intro s h i st l d hl hd hst hs he
    have hfix := fixed_completeDesc (τ := {}) h i st s
    exact ⟨listOf_completeDesc hl hd hst hs he, hbm_of_fixed hfix rfl, pot_of_fixed hfix rfl⟩
  · intro s h i l d hl hi hd hw hs he
    have hfix := fixed_completeDesc (τ := {}) h.val i stOK s
    exact ⟨_, congrArg Host.Outcome.next (waitSatisfied_completes hl hi hd hw),
      listOf_completeDesc hl hd (by simp [stopsList]) hs he, hbm_of_fixed hfix rfl, pot_of_fixed hfix rfl⟩
  · intro s h l d hl hd hop hs h0 hdue
    have hfix := fixed_completeDesc (τ := {}) h.val 0 stWaitTimeout s
    obtain ⟨hgone, hfree⟩ := ended_of_waitTimeout hl hd hs
    exact ⟨_, congrArg Host.Outcome.next (waitTimeout_completes hl hd hop h0 hdue), hgone, hfree, hbm_of_fixed hfix rfl,
      pot_of_fixed hfix rfl⟩
  · intro s n o rest hrun hq hh hc
    refine ⟨fun hp u hu => congrArg Host.Outcome.next (infuserStart_asks hrun hq hh hc hp hu), fun e hp => ?_⟩
    have hstart := infuserStart_fails hrun hq hh hc hp
    have hfix := fixed_infuserStart (τ := {}) n.val s
    obtain ⟨hr, hlen, hcount⟩ := infuserOf_failHead (n := n.val) (o := o)
      (s := modInfuser n.val (fun i => { i with queue := rest }) (infRefused o e s)) e.1 e.2
    rw [← hstart, infuserOf_refusedHead] at hr hlen hcount
    exact ⟨_, rfl, hr.trans hrun, hlen, hcount, hbm_of_fixed hfix rfl, pot_of_fixed hfix rfl⟩
  · rintro s n o rest as hrun hq hc hdone hst has hcheck i rfl
    obtain ⟨k, hk⟩ := infuserOf_infuserTurn_starts hrun hq hc hdone hst has hcheck
    rw [hk]
    simp [opStarted, hq]
  · intro s n o hrun hstage hsteps hdone hst hgood
    exact infuserTurn_writes hrun hstage hsteps hdone hst hgood
  · intro s n o e hrun hstage hends hdone hst
    obtain ⟨hr, hcount⟩ := infuserOf_endInfuser (n := n.val) (o := o) (s := s) e.1 e.2.1 e.2.2.1 e.2.2.2
    have hfix := fixed_endInfuser (τ := {}) n.val o e.1 e.2.1 e.2.2.1 e.2.2.2 s
    exact ⟨_, congrArg Host.Outcome.next (infuserComplete_ends hrun hstage hends hdone hst), rfl, hr, hcount,
      hbm_of_fixed hfix rfl, pot_of_fixed hfix rfl⟩

end Sys2Proof.Machine
end
